-- ==== Sys2Proof/Word.lean ====
section
/-! DEFINITION. The word types of the VX-7200's host side and the plain quantities of its power side.
Bits are bit vectors (registers, bytes on a wire, checksums); volts, amperes, watts and degrees are exact
rationals, because the manual computes with them and never names a number format for them. -/

namespace Sys2Proof

abbrev Byte := BitVec 8
abbrev Half := BitVec 16
abbrev Word := BitVec 32
abbrev Dword := BitVec 64

/-- Electrical and thermal quantities, in V, A, W, degrees Celsius and ohms. -/
abbrev Volt := Rat
abbrev Amp := Rat
abbrev Watt := Rat
abbrev DegC := Rat
abbrev Ohm := Rat

/-- A lane L0-L3, a phase position inside a lane, a phase PH0-PH15 (R29, 00_scope Names). -/
abbrev Lane := Fin 4
abbrev Pos := Fin 4
abbrev PhaseNo := Fin 16

/-- A Type-C port C0-C3, a source index 0-6 (C0 C1 C2 C3 ACIN TA TB, 00_scope Names), a trunk port
(0 TA, 1 TB), a port die, a host channel MBX0-MBX2. -/
abbrev Port := Fin 4
abbrev Src := Fin 7
abbrev TrunkPort := Fin 2
abbrev PortDie := Fin 2
abbrev HostChan := Fin 3

end Sys2Proof
end

