-- ==== Sys2Proof/Syntax.lean ====
section
/-! DEFINITION. The commands of the block: one constructor of `Instr` per row of spec/opcode_table.json.
The table gives its rows no bits and no operands; the operands here are what the rule of each row reads from
outside the state (a measured value, a received message, the bytes of a frame). -/

namespace Sys2Proof

/-- A strap band (R45). -/
inductive Band where
  | a | b | c | d
  deriving DecidableEq, Repr

/-- The pins that a start from the unpowered state or a cold boot samples: the voltages of the strap pins while the reader
sources its current, TESTEN, and whether an FT ball reads high (R44, R49, R50). -/
structure BootPins where
  i2cAddr : Volt
  stackId0 : Volt
  stackId1 : Volt
  testen : Bool
  ftHigh : Bool
  deriving DecidableEq, Repr

/-- A die other than the hub and flash dies: the receivers of hub frames (R6). -/
inductive Die where
  | lane (n : Lane)
  | port (m : PortDie)
  deriving DecidableEq, Repr

/-- The two rails whose overload resets the lane and port dies (R38). -/
inductive Rail where
  | vdd33 | vdrv
  deriving DecidableEq, Repr

/-- What sets the SAFE latch; the numbers are those of record 0x0003 (R21, R390). -/
inductive SafeTrigger where
  | sysOvershoot | batteryOv | batfetCurrent | safeEnter | hubOther
  deriving DecidableEq, Repr

/-- What is told about a wake: the interval the always-on domain measured, in microseconds (R225, R373). -/
structure WakeInfo where
  intervalUs : Nat
  pins : BootPins
  deriving DecidableEq, Repr

/-- The exits from DORMANT that are not a connector's (R71). -/
inductive DormantExit where
  | wakeN
  | discharge (shuntA : Amp)
  deriving DecidableEq, Repr

/-- One phase as its front end saw the period that ended (R78, R124, R126). -/
structure PhaseSample where
  /-- period-average current, positive from far node toward SYS -/
  iAvg : Amp
  /-- length of the energy-storing interval, ns -/
  tEs : Rat
  /-- measured current rise over that interval -/
  rise : Amp
  /-- the interval was ended by IPK_LIM (R93) -/
  byIpk : Bool
  /-- the converter stood at code 0 or 1,023 for 4 consecutive samples (R124 SENSE_SAT) -/
  sat4 : Bool
  /-- highest common-mode voltage of CSP/CSN over the period (R124 SENSE_DEAD, RESISTOR mode) -/
  cmMax : Volt
  deriving DecidableEq, Repr

/-- What one lane measured over the period that ended (R78, R79). -/
structure PeriodSample where
  sysAvg : Volt
  vinlAvg : Volt
  phases : Vector PhaseSample 4
  /-- the freewheeling interval of a skip pulse has not ended at the boundary (R98) -/
  pulseOpen : Bool
  /-- a truncation fell in the period (R96, R124) -/
  truncated : Bool
  deriving DecidableEq, Repr

/-- The fault kinds of R124. -/
inductive PhaseKind where
  | openCircuit | senseRange | senseSat | senseOffset | senseDead | retired
  deriving DecidableEq, Repr

/-- The protections of R153. -/
inductive Protection where
  | overVoltage | reverse | overCurrent | short
  deriving DecidableEq, Repr

/-- Rp advertisement (R168). -/
inductive Rp where
  | default | a1p5 | a3p0
  deriving DecidableEq, Repr

/-- What a port sees on CC for tCCDebounce (R162, R165, R189). -/
inductive CcSeen where
  /-- the partner shows Rp on one pin -/
  | rp (level : Rp) (cc2 : Bool)
  /-- the partner shows Rd on one pin -/
  | rd (cc2 : Bool)
  /-- Ra on both pins: an audio adapter accessory -/
  | raBoth
  /-- Rd on both (as source) or Rp on both (as sink): unsupported (R162) -/
  | both
  deriving DecidableEq, Repr

inductive Bc12 where
  | none | sdp | cdp | dcp
  deriving DecidableEq, Repr

/-- One power data object as R171 reads it; volts and amperes as the object states them. -/
inductive Pdo where
  | fixed (v : Volt) (i : Amp)
  | pps (vMin vMax : Volt) (i : Amp)
  | avs (vMin vMax : Volt) (pdp : Watt)
  deriving DecidableEq, Repr

/-- A partner's (EPR_)Source_Capabilities message (R171). -/
structure SourceCaps where
  pdos : List Pdo
  /-- the message is EPR_Source_Capabilities -/
  epr : Bool
  eprCapable : Bool
  dualRolePower : Bool
  deriving DecidableEq, Repr

/-- Whom a PD message is for: the partner, the near cable plug, the far one (R161). -/
inductive Sop where
  | sop | sop1 | sop2
  deriving DecidableEq, Repr

/-- Received PD messages, as the policy of R161-R193 reads them. -/
inductive PdMsg where
  | accept | reject | wait | notSupported | psRdy | goodCrc
  | softReset
  | getSourceCap | getSinkCap
  | sourceCaps (c : SourceCaps)
  | sinkCaps (dualRolePower unconstrained : Bool) (frsAmp : Amp)
  | request (pos : Nat) (v : Volt) (i : Amp)
  | prSwap | drSwap | vconnSwap | frSwap
  | eprModeEnter | eprModeAck | eprKeepAlive | eprKeepAliveAck | eprExit
  | getBatteryCap (ref : Byte) | getBatteryStatus (ref : Byte)
  | discoverIdentity (x : Sop) | discoverSvids | svids (list : List Half)
  | discoverModes (svid : Half) | modes (svid : Half) (vdos : List Word)
  | enterMode (svid : Half) (pos : Nat) | enterModeAck (svid : Half) | enterModeNak (svid : Half)
  | exitMode (svid : Half) | exitModeAck (svid : Half)
  | identity (vid pid : Half)
  | batteryCap (vid pid design full : Half) (invalidRef : Bool)
  | batteryStatus (capacity : Half) (invalidRef present : Bool) (charging : Fin 3)
  | hardReset
  | cableIdentity (amp5 : Bool) (epr : Bool) (active : Bool)
  /-- any message outside the supported set (R162) -/
  | other
  deriving DecidableEq, Repr

/-- A received PD message, with its revision and its frame check (R161). -/
structure PdRx where
  msg : PdMsg
  rev2 : Bool
  crcOk : Bool
  deriving DecidableEq, Repr

/-- Which connection timer or counter ended without an answer (R179, R180). -/
inductive PsTimer where
  | psTransition | psSourceOn | psSourceOff
  deriving DecidableEq, Repr

/-- A sensor of the housekeeping round, in slot order (R292). -/
inductive Sensor where
  | hub
  | laneDie (n : Lane)
  | portDie (m : PortDie)
  | flash
  | tsl (n : Lane)
  | tb (k : Fin 2)
  deriving DecidableEq, Repr

/-- What a slot converts: a diode temperature, or an NTC ratio V_pin / VDD33 (R292, R293). -/
inductive SlotValue where
  | diode (t : DegC)
  | ratio (x : Rat)
  deriving DecidableEq, Repr

/-- What the round hands to the hub beside its slots' readings (R292, R307 round channels). -/
structure RoundInfo where
  batid : Fin 64
  vdd33 : Volt
  vpwr : Volt
  vio : Volt
  vdrv : Volt
  vsys : Volt
  /-- input current and connector voltage of the seven connectors -/
  connI : Vector Amp 7
  connV : Vector Volt 7
  /-- pass-pair currents of TA and TB, positive toward the trunk bus -/
  passI : Vector Amp 2
  /-- power the BATFET pair brings into SYS, averaged over the round -/
  pairW : Watt
  /-- share of the round with HDRM_N asserted, 0 to 1 -/
  hdrmShare : Rat
  deriving DecidableEq, Repr

/-- The phase-advance conditions of R199. -/
inductive ChargeAdvance where
  | toPrecharge | toCc | toCv | terminate | recharge
  deriving DecidableEq, Repr

/-- The removal detectors of R211. -/
inductive RemovalDetector where
  | ntc | voltageStep | currentCollapse
  deriving DecidableEq, Repr

/-- One gauge sample pair: the signed 18-bit current code and the 16-bit voltage code (R217). -/
structure GaugePair where
  iCode : BitVec 18
  vCode : BitVec 16
  deriving DecidableEq, Repr

/-- A forecast frame as the receiver shifted it in: its 16-bit units in order and how it ended (R238, R241). -/
structure FdiFrame where
  words : List Half
  /-- every bit of the announced length arrived and FSYNC stood only at the first -/
  complete : Bool
  /-- time from the previous frame start, ns -/
  intervalNs : Nat
  /-- the frame ended more than 100 us after its start -/
  late : Bool
  deriving DecidableEq, Repr

/-- A pre-positioning action of R246. -/
inductive PrepAction where
  | allocationRaise | warm | floorStep | bias
  deriving DecidableEq, Repr

/-- A trunk frame's header and payload (R260). -/
structure TrunkFrame where
  type : Byte
  dst : BitVec 12
  src : BitVec 12
  hops : Half
  seq : Half
  payload : List Byte
  deriving DecidableEq, Repr

/-- How a consumed frame arrived: the port, and the local time of its start delimiter (R265, R269). -/
structure TrunkArrival where
  port : TrunkPort
  /-- start delimiter on the local clock, in ns since tick 0 -/
  sfdNs : Nat
  deriving DecidableEq, Repr

/-- A frame that port die 1 consumes for the hub, with its arrival. -/
structure TrunkRx where
  arrival : TrunkArrival
  frame : TrunkFrame
  deriving DecidableEq, Repr

/-- What a receiver has seen of a frame's start (R259, R263): the time of the start delimiter in ns since tick 0, and how many
preamble bits came before it. -/
structure FrameStart where
  sfdNs : Nat
  preamble : Nat
  deriving DecidableEq, Repr

/-- What a trunk port measures from (R262): the end delimiter of the last frame on its segment, received or sent, and the time
since then. -/
structure SegmentGap where
  received : Bool
  ns : Nat
  deriving DecidableEq, Repr

/-- The moment at which a port may start a frame (R262, R265, R269): how long the frame has been resident, and where the line
stands. -/
structure SendMoment where
  residenceNs : Nat
  gap : SegmentGap
  deriving DecidableEq, Repr

/-- Where a phase's storing interval has ended, after `tNs` at `top`, and the freewheeling current since (R85, R94). -/
structure NegSample where
  tNs : Rat
  top : Amp
  i : Amp
  deriving DecidableEq, Repr

/-- The currents a connector protection judges (R153, R154): the comparator's, and the mean of a neutral pass pair. -/
structure TripCurrent where
  i : Amp
  mean : Amp
  deriving DecidableEq, Repr

/-- What an attached sink sees for tPDDebounce (R165). -/
structure SinkSense where
  rpAbsent : Bool
  v : Volt
  deriving DecidableEq, Repr

/-- Source_Capabilities as received, with the revision of the message header (R161, R171). -/
structure CapsMsg where
  rev2 : Bool
  caps : SourceCaps
  deriving DecidableEq, Repr

/-- Revision of the message header and object position of a Request (R161, R174). -/
structure RequestHead where
  rev2 : Bool
  pos : Nat
  deriving DecidableEq, Repr

/-- The port whose wait has run out, and whether it is a GoodCRC that is missing (R179, R180). -/
structure PdSilence where
  port : Port
  noCrc : Bool
  deriving DecidableEq, Repr

/-- A pulse on RESET_N (R409, R415): its low samples, and the level in which the sampling leaves the ball. -/
structure ResetPulse where
  lowEdges : Nat
  stillLow : Bool
  deriving DecidableEq, Repr

/-- The slots of a host channel (R328, R332). -/
inductive Slot where
  | normal | urgent
  deriving DecidableEq, Repr

/-- The descriptor the decision took: sequence, parameter bytes, and whether a reserved byte was non-zero
(R328, R331). -/
structure Desc where
  seq : Half
  params : List Byte
  reservedBad : Bool
  deriving DecidableEq, Repr

/-- The host interfaces (R319). -/
inductive Iface where
  | spi | i2c | uart
  deriving DecidableEq, Repr

/-- One I2C transfer after START (R323): a write of address and data bytes, or a read of n bytes. -/
structure I2cTransfer where
  target : BitVec 7
  addr : List Byte
  data : List Byte
  readBytes : Nat
  deriving DecidableEq, Repr

/-- Registers that firmware or the host may write and that have no row of their own (R3, R374, R377). -/
inductive RegWrite where
  | host (i : Iface) (addr : Word) (value : Word)
  | timerCtl (c : Fin 16) (value : Word)
  | timerCmp (c : Fin 16) (k : Fin 4) (value : Word)
  | timerCnt (c : Fin 16) (value : Word)
  | timerStat (c : Fin 16) (value : Word)
  | wdgWindow (ms : BitVec 12)
  | wdgLineup (mask : Half)
  deriving DecidableEq, Repr

/-- Lane directions (R16, R353). -/
inductive Dir where
  | draw | feed | charge | supplement
  deriving DecidableEq, Repr

/-- Lane roles (R80, R353). -/
inductive Role where
  | drawHold | drawAlloc | feed | batSupplement | batDiode
  deriving DecidableEq, Repr

/-- What a master's control frame carries for one lane of a member (R424). -/
structure StackLane where
  run : Bool
  dir : Dir
  role : Role
  targetV : Volt
  allocA : Amp
  floor : Nat
  deriving DecidableEq, Repr

/-- A master control frame (R423, R424). -/
structure StackControl where
  seq : Nat
  position : Nat
  size : Nat
  fsw0 : Nat
  mode : Fin 6
  lanes : Vector StackLane 4
  pairs : Vector Bool 7
  iSet : Amp
  masterUnit : Dword
  deriving DecidableEq, Repr

/-- One event a member's state frame carries (R425): its class number in R461's order and its item index. -/
structure StackEvent where
  cls : Fin 7
  item : Nat
  deriving DecidableEq, Repr

/-- A member's state frame (R424). -/
structure StackStateFrame where
  position : Nat
  laneA : Vector Amp 4
  candidates : Vector Bool 7
  kL : Vector Rat 4
  events : List StackEvent
  deriving DecidableEq, Repr

/-- The commands of the block, in the order of spec/opcode_table.json but for the last rows without operands, which
stand at the end (compiled code numbers the constructors that carry operands only so far). Each constructor's
comment gives the table's mnemonic and the rule its row cites. -/
inductive Instr where
  /-- POWER_ON (R412). -/
  | powerOn (pins : BootPins) (fromPack : Bool)
  /-- PACK_CONNECT (R50, R413); an FT ball is tied to GND unless the operand says otherwise. -/
  | packConnect (ftHigh : Bool := false)
  /-- VPWR_LOSS (R442). -/
  | vpwrLoss (vaonLost : Bool)
  /-- RAIL_OVERLOAD (R38). -/
  | railOverload (r : Rail)
  /-- VIO_LOST (R43). -/
  | vioLost
  /-- VIO_RETURN (R43). -/
  | vioReturn (intervalUs : Nat)
  /-- XTAL_LOST (R456). -/
  | xtalLost
  /-- XTAL_RESTORED (R456). -/
  | xtalRestored
  /-- DECISION_TICK (R13). -/
  | decisionTick (vsel : Fin 8) (late : List Die)
  /-- SWAP_HOLD_EXPIRY (R140). -/
  | swapHoldExpiry (node : Lane) (challenger : Src)
  /-- DIE_FRAME_APPLY (R6). -/
  | dieFrameApply (d : Die)
  /-- DIE_UNRESPONSIVE (R14). -/
  | dieUnresponsive (d : Die)
  /-- SAFE_LATCH_SET (R21). -/
  | safeLatchSet (t : SafeTrigger)
  /-- SYS_OVERSHOOT_SAFE (R21). -/
  | sysOvershootSafe (n : Lane) (sys : Volt)
  /-- BATTERY_OV_SAFE (R21). -/
  | batteryOvSafe (n : Lane) (vbat : Volt)
  /-- BATFET_CURRENT_SAFE (R21). -/
  | batfetCurrentSafe (i : Amp)
  /-- WAKE_N_SHIP_WAKE (R75). -/
  | wakeNShipWake (w : WakeInfo)
  /-- CONNECTOR_WAKE (R75). -/
  | connectorWake (c : Src) (v : Volt) (w : WakeInfo)
  /-- DORMANT_EXIT (R71). -/
  | dormantExit (why : DormantExit) (w : WakeInfo)
  /-- SPURIOUS_WAKE (R75). -/
  | spuriousWake
  /-- DORMANT_AUTO_ENTRY (R70). -/
  | dormantAutoEntry (vbat : Volt)
  /-- DORMANT_SEQUENCE_CONTINUE (R70). -/
  | dormantSequenceContinue (sys : Volt)
  /-- DORMANT_POWER_DOWN (R70). -/
  | dormantPowerDown
  /-- SHIP_DELAY_EXPIRY (R72). -/
  | shipDelayExpiry
  /-- SHIP_BATFET_OPEN (R72). -/
  | shipBatfetOpen
  /-- SHIP_FET_OPEN (R72). -/
  | shipFetOpen
  /-- IDEAL_DIODE_CLOSE (R58). -/
  | idealDiodeClose (sys vbat : Volt)
  /-- IDEAL_DIODE_OPEN (R58). -/
  | idealDiodeOpen (sys vbat : Volt) (shuntA : Amp)
  /-- SOFT_CONNECT_TIMEOUT (R59). -/
  | softConnectTimeout (sys vbat : Volt)
  /-- SOFT_CONNECT_COMPLETE (R59). -/
  | softConnectComplete (sys vbat : Volt)
  /-- LIMP_BACKSTOP_CLOSE (R60). -/
  | limpBackstopClose (sys vbat : Volt)
  /-- DIODE_CONTROL_ENABLE (R61). -/
  | diodeControlEnable (sys vbat : Volt)
  /-- LANE_PERIOD_BOUNDARY (R82). -/
  | lanePeriodBoundary (n : Lane) (m : PeriodSample)
  /-- BALANCE_TRIM_UPDATE (R86). -/
  | balanceTrimUpdate (n : Lane)
  /-- PEAK_LIMIT_TRIP (R93). -/
  | peakLimitTrip (k : PhaseNo) (i : Amp)
  /-- CURRENT_LIMIT_EVENT (R93). -/
  | currentLimitEvent (k : PhaseNo)
  /-- NEG_CURRENT_LIMIT (R94). -/
  | negCurrentLimit (k : PhaseNo) (x : NegSample)
  /-- STAGE_FAULT (R95). -/
  | stageFault (n : Lane)
  /-- TRUNCATION (R96). -/
  | truncation (n : Lane) (v : Volt)
  /-- TRUNCATION_RELEASE (R96). -/
  | truncationRelease (n : Lane) (v : Volt)
  /-- SKIP_ENTRY (R97). -/
  | skipEntry (n : Lane)
  /-- SKIP_EXIT_COMPARATOR (R99). -/
  | skipExitComparator (n : Lane) (v : Volt)
  /-- SKIP_EXIT (R99). -/
  | skipExit (n : Lane)
  /-- LANE_FIRST_PULSES (R100). -/
  | laneFirstPulses (n : Lane) (node : Volt) (offsets : Vector Amp 4) (refs : Vector Volt 4)
  /-- IN_REGULATION (R101). -/
  | inRegulation (n : Lane)
  /-- LANE_STOP_COMPLETE (R103). -/
  | laneStopComplete (n : Lane)
  /-- WARM_REFRESH (R112). -/
  | warmRefresh (k : PhaseNo) (offset : Amp) (ref : Volt)
  /-- COLD_ADMISSION_COMPLETE (R112). -/
  | coldAdmissionComplete (k : PhaseNo) (offset : Amp)
  /-- SHED_BEGIN (R116). -/
  | shedBegin (n : Lane)
  /-- SHED_END (R119). -/
  | shedEnd (n : Lane)
  /-- SHED_INHIBIT_EXPIRY (R116). -/
  | shedInhibitExpiry (n : Lane)
  /-- BENCH_GO_COLD (R117). -/
  | benchGoCold (n : Lane)
  /-- FILL_PERIOD_END (R122). -/
  | fillPeriodEnd (n : Lane)
  /-- TRIM_SAVE (R123). -/
  | trimSave (n : Lane)
  /-- PHASE_OUT (R127). -/
  | phaseOut (k : PhaseNo) (kind : PhaseKind)
  /-- HEADROOM_HOLD_RELEASE (R127). -/
  | headroomHoldRelease (n : Lane)
  /-- STACK_SYNC_EDGE (R135). -/
  | stackSyncEdge (errPs : Int)
  /-- STACK_SYNC_LOCKED (R135). -/
  | stackSyncLocked (n : Lane)
  /-- SYNC_LOSS (R135). -/
  | syncLoss
  /-- ACIN_QUALIFIED (R136). -/
  | acinQualified (v : Volt)
  /-- PAIR_CLOSED (R142). -/
  | pairClosed (c : Src) (conn vinl : Volt)
  /-- FAR_NODE_DRAIN_DONE (R142). -/
  | farNodeDrainDone (n : Lane) (vinl : Volt)
  /-- DRAIN_TIMEOUT (R142). -/
  | drainTimeout (n : Lane)
  /-- SAG_LIMIT_LEARNED (R146). -/
  | sagLimitLearned (c : Src) (iMean : Amp)
  /-- SAG_PROBE (R146). -/
  | sagProbe (c : Src)
  /-- PANEL_TRACK (R151). -/
  | panelTrack (activeHalf : Bool) (p : Watt)
  /-- PANEL_SCAN (R152). -/
  | panelScan (powers : Vector Watt 9)
  /-- PROTECTION_TRIP (R153). -/
  | protectionTrip (c : Src) (p : Protection) (v : Volt) (x : TripCurrent)
  /-- REQUALIFY_AFTER_TRIP (R155). -/
  | requalifyAfterTrip (c : Src)
  /-- LOCKOUT_END_LOW_VOLTAGE (R155). -/
  | lockoutEndLowVoltage (c : Src) (v : Volt)
  /-- SOURCE_LOST (R156). -/
  | sourceLost (c : Src) (v : Volt)
  /-- FAR_NODE_LOST (R156). -/
  | farNodeLost (n : Lane) (v : Volt)
  /-- CC_ATTACH (R165). -/
  | ccAttach (p : Port) (seen : CcSeen)
  /-- SINK_DETACH (R165): Rp absent on both pins, or VBUS as given, for tPDDebounce. -/
  | sinkDetach (p : Port) (x : SinkSense)
  /-- SOURCE_DETACH (R165). -/
  | sourceDetach (p : Port)
  /-- DRP_TOGGLE (R165). -/
  | drpToggle (p : Port)
  /-- TRY_SNK_TIMEOUT (R165). -/
  | trySnkTimeout (p : Port)
  /-- ERROR_RECOVERY_END (R180). -/
  | errorRecoveryEnd (p : Port)
  /-- BC12_DETECTION_DONE (R169). -/
  | bc12DetectionDone (p : Port) (r : Bc12)
  /-- PD_MESSAGE_RECEIVED (R161). -/
  | pdMessageReceived (p : Port) (m : PdRx)
  /-- SOURCE_CAPABILITIES_RECEIVED (R171). -/
  | sourceCapabilitiesReceived (p : Port) (m : CapsMsg)
  /-- REQUEST_RECEIVED (R174). -/
  | requestReceived (p : Port) (h : RequestHead) (v : Volt) (i : Amp)
  /-- VOLTAGE_TRANSITION_ACCEPT (R172). -/
  | voltageTransitionAccept (p : Port)
  /-- VENDOR_MODE_ENTRY (R190). -/
  | vendorModeEntry (p : Port)
  /-- PD_RESPONSE_TIMEOUT (R180): SenderResponseTimer, or no GoodCRC to the last message sent. -/
  | pdResponseTimeout (x : PdSilence)
  /-- SINK_WAIT_CAP_TIMEOUT (R180). -/
  | sinkWaitCapTimeout (p : Port)
  /-- NO_RESPONSE_TIMEOUT (R180). -/
  | noResponseTimeout (p : Port)
  /-- SOURCE_CAP_RESEND (R179). -/
  | sourceCapResend (p : Port)
  /-- PPS_REQUEST_REPEAT (R173). -/
  | ppsRequestRepeat (p : Port)
  /-- EPR_KEEPALIVE (R173). -/
  | eprKeepalive (p : Port)
  /-- EPR_ENTRY_TIMEOUT (R171). -/
  | eprEntryTimeout (p : Port)
  /-- CABLE_DISCOVER_RETRY (R178). -/
  | cableDiscoverRetry (p : Port)
  /-- VCONN_LIMIT (R178). -/
  | vconnLimit (p : Port) (i : Amp)
  /-- SOURCE_TRANSITION_START (R175). -/
  | sourceTransitionStart (p : Port)
  /-- FEED_TARGET_REACHED (R175). -/
  | feedTargetReached (p : Port) (v : Volt)
  /-- VBUS_DISCHARGE_DONE (R177). -/
  | vbusDischargeDone (p : Port) (v : Volt)
  /-- HARD_RESET_RECEIVED (R184). -/
  | hardResetReceived (p : Port)
  /-- SOURCE_RECOVER (R184). -/
  | sourceRecover (p : Port)
  /-- FRS_SIGNAL_DETECTED (R186). -/
  | frsSignalDetected (p : Port)
  /-- FRS_VBUS_FALL (R186). -/
  | frsVbusFall (p : Port) (v : Volt)
  /-- FRS_SIGNAL_END (R187). -/
  | frsSignalEnd (p : Port)
  /-- HOUSEKEEPING_SLOT (R292). -/
  | housekeepingSlot (x : Sensor) (v : SlotValue)
  /-- HOUSEKEEPING_ROUND (R292). -/
  | housekeepingRound (r : RoundInfo)
  /-- SHUTDOWN_RELEASE (R298). -/
  | shutdownRelease (d : Fin 8)
  /-- SHUTDOWN_SLOT_WRITE (R302). -/
  | shutdownSlotWrite
  /-- CHARGE_PHASE_ADVANCE (R199). -/
  | chargePhaseAdvance (a : ChargeAdvance) (vbat : Volt) (iMeas : Amp)
  /-- PRE_TIMER_EXPIRY (R206). -/
  | preTimerExpiry
  /-- FAST_TIMER_EXPIRY (R207). -/
  | fastTimerExpiry
  /-- THERMAL_RESTART (R207). -/
  | thermalRestart
  /-- BACKSTOP_INTERVAL (R207). -/
  | backstopInterval (n : Lane) (meanCharge : Amp)
  /-- BACKSTOP_TRIP (R207). -/
  | backstopTrip (n : Lane)
  /-- BACKSTOP_RESET (R207). -/
  | backstopReset (n : Lane)
  /-- BAT_OV_SUSPEND (R203). -/
  | batOvSuspend (vbat : Volt)
  /-- PRESENCE_QUALIFIED (R206). -/
  | presenceQualified (vbat : Volt)
  /-- REMOVAL_INDICATION (R212). -/
  | removalIndication (d : RemovalDetector) (vbat : Volt) (iMeas : Amp)
  /-- STAT_PATTERN_TIMER (R214). -/
  | statPatternTimer
  /-- GAUGE_SAMPLE (R217). -/
  | gaugeSample (g : GaugePair)
  /-- REST_ANCHOR (R224). -/
  | restAnchor (vbat : Volt)
  /-- GAUGE_RECORD_PERIODIC (R234). -/
  | gaugeRecordPeriodic
  /-- LEARNED_STATE_COMPACTION (R232). -/
  | learnedStateCompaction
  /-- FORECAST_FRAME_START (R239). -/
  | forecastFrameStart (n : Fin 16)
  /-- FORECAST_FRAME_HANDOVER (R241). -/
  | forecastFrameHandover (f : FdiFrame)
  /-- BLOCK_START (R249). -/
  | blockStart
  /-- FORECAST_UNLOCK (R250). -/
  | forecastUnlock
  /-- PREPOSITION_ACTION (R246). -/
  | prepositionAction (n : Lane) (a : PrepAction)
  /-- BIAS_HOLD_EXPIRY (R246). -/
  | biasHoldExpiry
  /-- SYS_DROOP_TRIP (R249). -/
  | sysDroopTrip (n : Lane) (v : Volt)
  /-- HDRM_DROOP_RELEASE (R249). -/
  | hdrmDroopRelease (n : Lane) (v : Volt)
  /-- PASS_PAIR_JOIN (R256). -/
  | passPairJoin (t : TrunkPort) (conn bus : Volt)
  /-- ENERGISE_TIMEOUT (R256). -/
  | energiseTimeout (t : TrunkPort)
  /-- JOIN_RETRY (R256). -/
  | joinRetry (t : TrunkPort)
  /-- TRUNK_FRAME_RECEIVED (R263). -/
  | trunkFrameReceived (t : TrunkPort) (x : FrameStart) (bytes : List Byte)
  /-- HELLO_RECEIVED (R265). -/
  | helloReceived (a : TrunkArrival) (f : TrunkFrame)
  /-- BEACON_RECEIVED (R269). -/
  | beaconReceived (a : TrunkArrival) (f : TrunkFrame)
  /-- BULLETIN_RECEIVED (R284). -/
  | bulletinReceived (x : TrunkRx)
  /-- REPORT_RECEIVED (R280). -/
  | reportReceived (x : TrunkRx)
  /-- GRANT_RECEIVED (R282). -/
  | grantReceived (x : TrunkRx)
  /-- CLAIM_RECEIVED (R272). -/
  | claimReceived (x : TrunkRx)
  /-- UPDATE_FRAME_RECEIVED (R404). -/
  | updateFrameReceived (x : TrunkRx)
  /-- UPDATE_ACK_RECEIVED (R287). -/
  | updateAckReceived (x : TrunkRx)
  /-- KICKOFF_RECEIVED (R404). -/
  | kickoffReceived (x : TrunkRx)
  /-- MESSAGE_RECEIVED (R329). -/
  | messageReceived (x : TrunkRx)
  /-- HELLO_SEND (R265). -/
  | helloSend (t : TrunkPort)
  /-- BEACON_SEND (R269). -/
  | beaconSend
  /-- BULLETIN_SEND (R281). -/
  | bulletinSend
  /-- REPORT_SEND (R278). -/
  | reportSend
  /-- UNROSTERED_GRANT_SEND (R280). -/
  | unrosteredGrantSend
  /-- CLAIM_SEND (R272). -/
  | claimSend
  /-- CAPTAIN_ELECTED (R272). -/
  | captainElected
  /-- CAPTAIN_LOST (R273). -/
  | captainLost
  /-- CAPTAIN_STEP_DOWN (R274). -/
  | captainStepDown
  /-- LINK_DOWN (R265). -/
  | linkDown (t : TrunkPort)
  /-- GRANT_EFFECTIVE (R282). -/
  | grantEffective
  /-- LEASE_END (R282). -/
  | leaseEnd
  /-- ROSTER_ENTRY_STALE (R280). -/
  | rosterEntryStale (slot : Fin 512)
  /-- TRUNK_FEED_START (R276). -/
  | trunkFeedStart
  /-- TRUNK_FEED_STOP (R276). -/
  | trunkFeedStop
  /-- TRUNK_BUS_QUALIFIED (R277). -/
  | trunkBusQualified (v : Volt)
  /-- DROOP_ONSET (R277). -/
  | droopOnset (v : Volt)
  /-- DROOP_CLEAR (R277). -/
  | droopClear (v : Volt)
  /-- UPDATE_FRAGMENT_SEND (R286). -/
  | updateFragmentSend
  /-- UPDATE_ACK_SEND (R287). -/
  | updateAckSend
  /-- KICKOFF_SEND (R287). -/
  | kickoffSend
  /-- TELEMETRY_PUBLISH (R311). -/
  | telemetryPublish
  /-- TEL_BLOCK_READ (R312). -/
  | telBlockRead (i : Iface) (c : Fin 96)
  /-- SPI_FRAME (R320). -/
  | spiFrame (bytes : List Byte)
  /-- I2C_TRANSFER (R323). -/
  | i2cTransfer (x : I2cTransfer)
  /-- UART_FRAME (R324). -/
  | uartFrame (bytes : List Byte)
  /-- POST (R330). -/
  | post (c : HostChan)
  /-- URGENT (R332). -/
  | urgent (c : HostChan)
  /-- CANCEL (R335). -/
  | cancel (c : HostChan)
  /-- RESYNC (R336). -/
  | resync (c : HostChan)
  /-- DB_MASK_WRITE (R333). -/
  | dbMaskWrite (i : Iface) (v : Word)
  /-- HDB_OUT_CLEAR (R326). -/
  | hdbOutClear (i : Iface) (v : Word)
  /-- HDB_MASK_WRITE (R326). -/
  | hdbMaskWrite (i : Iface) (v : Word)
  /-- OVERRUN_READ (R327). -/
  | overrunRead (i : Iface) (c : Fin 8)
  /-- REGISTER_WRITE (R3). -/
  | registerWrite (w : RegWrite)
  /-- SYS_NOP (R344). -/
  | sysNop (c : HostChan) (slot : Slot) (d : Desc)
  /-- SYS_RESET (R344). -/
  | sysReset (c : HostChan) (slot : Slot) (d : Desc)
  /-- SAFE_ENTER (R344). -/
  | safeEnter (c : HostChan) (slot : Slot) (d : Desc)
  /-- SAFE_CLEAR (R24). -/
  | safeClear (c : HostChan) (slot : Slot) (d : Desc)
  /-- SHIP_ENTER (R72). -/
  | shipEnter (c : HostChan) (slot : Slot) (d : Desc)
  /-- DORMANT_ENTER (R70). -/
  | dormantEnter (c : HostChan) (slot : Slot) (d : Desc)
  /-- FUNC_STOP (R345). -/
  | funcStop (c : HostChan) (slot : Slot) (d : Desc)
  /-- CFG_WRITE (R349). -/
  | cfgWrite (c : HostChan) (slot : Slot) (d : Desc)
  /-- CFG_READ (R350). -/
  | cfgRead (c : HostChan) (slot : Slot) (d : Desc)
  /-- FUNC_START (R351). -/
  | funcStart (c : HostChan) (slot : Slot) (d : Desc)
  /-- FUNC_ABORT (R346). -/
  | funcAbort (c : HostChan) (slot : Slot) (d : Desc)
  /-- LANE_STOP (R353). -/
  | laneStop (c : HostChan) (slot : Slot) (d : Desc)
  /-- LANE_START (R353). -/
  | laneStart (c : HostChan) (slot : Slot) (d : Desc)
  /-- PHASE_RETURN (R129). -/
  | phaseReturn (c : HostChan) (slot : Slot) (d : Desc)
  /-- PHASE_RETIRE (R129). -/
  | phaseRetire (c : HostChan) (slot : Slot) (d : Desc)
  /-- LANE_STATUS (R353). -/
  | laneStatus (c : HostChan) (slot : Slot) (d : Desc)
  /-- CHG_SET_CURRENT (R355). -/
  | chgSetCurrent (c : HostChan) (slot : Slot) (d : Desc)
  /-- CHG_HOLD (R210). -/
  | chgHold (c : HostChan) (slot : Slot) (d : Desc)
  /-- CHG_RESTART (R210). -/
  | chgRestart (c : HostChan) (slot : Slot) (d : Desc)
  /-- CHG_STATUS (R355). -/
  | chgStatus (c : HostChan) (slot : Slot) (d : Desc)
  /-- SRC_UNLOCK (R356). -/
  | srcUnlock (c : HostChan) (slot : Slot) (d : Desc)
  /-- PORT_STATUS (R356). -/
  | portStatus (c : HostChan) (slot : Slot) (d : Desc)
  /-- PORT_ACTION (R357). -/
  | portAction (c : HostChan) (slot : Slot) (d : Desc)
  /-- TRK_SEND (R358). -/
  | trkSend (c : HostChan) (slot : Slot) (d : Desc)
  /-- TRK_STATUS (R359). -/
  | trkStatus (c : HostChan) (slot : Slot) (d : Desc)
  /-- FCST_STATUS (R359). -/
  | fcstStatus (c : HostChan) (slot : Slot) (d : Desc)
  /-- TEL_SUBSCRIBE (R360). -/
  | telSubscribe (c : HostChan) (slot : Slot) (d : Desc)
  /-- TEL_UNSUBSCRIBE (R360). -/
  | telUnsubscribe (c : HostChan) (slot : Slot) (d : Desc)
  /-- LEDGER_INFO (R361). -/
  | ledgerInfo (c : HostChan) (slot : Slot) (d : Desc)
  /-- LEDGER_READ (R361). -/
  | ledgerRead (c : HostChan) (slot : Slot) (d : Desc)
  /-- UPD_OPEN (R401). -/
  | updOpen (c : HostChan) (slot : Slot) (d : Desc)
  /-- UPD_BLOCK (R402). -/
  | updBlock (c : HostChan) (slot : Slot) (d : Desc)
  /-- UPD_SEAL (R402). -/
  | updSeal (c : HostChan) (slot : Slot) (d : Desc)
  /-- UPD_KICKOFF (R362). -/
  | updKickoff (c : HostChan) (slot : Slot) (d : Desc)
  /-- UPD_RELAY (R362). -/
  | updRelay (c : HostChan) (slot : Slot) (d : Desc)
  /-- UPD_CONFIRM (R407). -/
  | updConfirm (c : HostChan) (slot : Slot) (d : Desc)
  /-- UPD_ABORT (R362). -/
  | updAbort (c : HostChan) (slot : Slot) (d : Desc)
  /-- UPD_STATUS (R362). -/
  | updStatus (c : HostChan) (slot : Slot) (d : Desc)
  /-- THERM_RELEASE (R300). -/
  | thermRelease (c : HostChan) (slot : Slot) (d : Desc)
  /-- HND_UNLOCK (R363). -/
  | hndUnlock (c : HostChan) (slot : Slot) (d : Desc)
  /-- HND_LOCK (R363). -/
  | hndLock (c : HostChan) (slot : Slot) (d : Desc)
  /-- DIAG_READ (R364). -/
  | diagRead (c : HostChan) (slot : Slot) (d : Desc)
  /-- HND_REGISTER_WRITE (R437). -/
  | hndRegisterWrite (i : Iface) (r : Fin 7) (v : Word)
  /-- TMR_CAPTURE (R369). -/
  | tmrCapture (v : Word)
  /-- TIMER_COMPARE_MATCH (R368). -/
  | timerCompareMatch (c : Fin 16) (k : Fin 4)
  /-- TIMER_OVERFLOW (R368). -/
  | timerOverflow (c : Fin 16)
  /-- WDG_CHECKIN (R378). -/
  | wdgCheckin (t : Fin 16)
  /-- WDG_KEY (R378). -/
  | wdgKey (v : Half)
  /-- WDG_LOCK (R377). -/
  | wdgLock (v : Word)
  /-- RESET_N_ASSERT (R409, R415). -/
  | resetNAssert (x : ResetPulse)
  /-- HUB_HALT_DETECTED (R416). -/
  | hubHaltDetected (d : Die)
  /-- COLD_BOOT (R414). -/
  | coldBoot (pins : BootPins)
  /-- WARM_BOOT (R414). -/
  | warmBoot (crcOk : Bool)
  /-- FIRST_DECISION (R421). -/
  | firstDecision (vsel : Fin 8) (vbat sys : Volt)
  /-- KEEPER_HOLD_EXPIRY (R418). -/
  | keeperHoldExpiry (d : Die)
  /-- STACK_CONTROL_FRAME (R424). -/
  | stackControlFrame (f : StackControl)
  /-- STACK_STATE_FRAME (R424). -/
  | stackStateFrame (f : StackStateFrame)
  /-- STACK_MEMBER_LOST (R426). -/
  | stackMemberLost (p : Fin 4)
  /-- SHELF_SECTOR_BUILD (R402). -/
  | shelfSectorBuild (sector : Fin 512)
  /-- SINK_VBUS_QUALIFIED (R170). -/
  | sinkVbusQualified (p : Port) (v : Volt)
  /-- RAIL_RECOVERED (R38). -/
  | railRecovered (r : Rail)
  /-- TRUNK_QUEUE_SEND (R262). -/
  | trunkQueueSend (t : TrunkPort) (x : SendMoment)
  /-- PS_TRANSITION_TIMEOUT (R179). -/
  | psTransitionTimeout (p : Port) (x : PsTimer)
  /-- EPR_KEEPALIVE_WATCH_EXPIRY (R179). -/
  | eprKeepaliveWatchExpiry (p : Port)
  /-- TEL_FREEZE_TIMEOUT (R313). -/
  | telFreezeTimeout
  /-- CAPTURE (R313). -/
  | capture
  /-- RELEASE (R313). -/
  | release
  /-- VIOL_CLEAR (R337). -/
  | violClear
  /-- HANDICAP_DIV_CYCLE (R434). -/
  | handicapDivCycle
  /-- WATCHDOG_EXPIRY (R378). -/
  | watchdogExpiry
  /-- HUB_LOCKUP (R408). -/
  | hubLockup
  /-- FLASH_HOLD_RELEASE (R385). -/
  | flashHoldRelease
  /-- MASTER_LOST (R427). -/
  | masterLost
  /-- MASTERLESS_TIMEOUT (R422). -/
  | masterlessTimeout
  /-- FLASH_OPERATION_COMPLETE (R382). -/
  | flashOperationComplete
  /-- LEDGER_WRITE (R389). -/
  | ledgerWrite
  /-- LEDGER_SECTOR_ERASE (R388). -/
  | ledgerSectorErase
  /-- STAGING_ERASE (R403). -/
  | stagingErase
  /-- KICKOFF_TIME_REACHED (R406). -/
  | kickoffTimeReached
  /-- HEALTH_WINDOW_END (R407). -/
  | healthWindowEnd
  /-- WAKE_N_LOW (R70). -/
  | wakeNLow
  /-- UART_FRAME_GAP (R324). -/
  | uartFrameGap
  deriving DecidableEq, Repr

end Sys2Proof
end

