-- ==== Sys2Proof/Decode.lean ====
section
/-! DEFINITION. The commands as table words. spec/opcode_table.json gives none of its rows bits or fields, so no
word spells a command (log entry 1). -/

namespace Sys2Proof

/-- The rows of the table that give bits: none. -/
def tableRowsWithBits : List (Nat × Nat × Instr) := []

/-- The command a word of `nbits` bits spells by the table's bits. -/
def decodeTableWord (nbits w : Nat) : Option Instr :=
  (tableRowsWithBits.find? (fun r => r.1 == nbits && r.2.1 == w)).map (fun r => r.2.2)

end Sys2Proof
end

