-- ==== Sys2Proof/Config.lean ====
section
/-! DEFINITION. What an implementation or a unit fixes and the manual does not give, and the values it leaves
open. Each is an opaque constant without a body: no proof can see what it is. -/

namespace Sys2Proof.Config

/-- Result of a division whose divisor is 0 V, 0 A, 0 W or 0 ohm, where a rule divides by a measured value and
states no result there (R84, R144, R147, R148, R226, R229, R244, R246, R275): log entry 5. Argument: the dividend. -/
opaque divByZero : Rat → Rat

/-- Direction in which a reading that falls between two steps of 0.1 degree is taken (R293, log entry 6):
true takes the step above. Argument: the exact reading in steps. -/
opaque roundUp : Rat → Bool

/-- Delays the handicap generator adds (R434, log entry 7): how many transfers, and how many policy messages,
the n-th tick delays. -/
opaque handicapDelays : Nat → Nat
opaque handicapPdDelays : Nat → Nat

/-- Whether a RESET_N pulse of 23 sampled edges is taken (R409, log entry 8). Argument: a counter of the state. -/
opaque resetPulseTaken : Nat → Bool

/-- The rate correction a BEACON brings (R270 says that the rate is corrected, not by what law: log entry 9).
Argument: the present rate and the error in microseconds. -/
opaque fleetRateCorrection : Rat → Rat → Rat

/-- The step of a share trim before R84's bounds (R84 gives the aim and the bounds, no law: log entry 13). Arguments: the
lane's allocated power, the power it delivers, its node voltage. -/
opaque trimStep : Rat → Rat → Rat → Rat

/-- Way round of a phase whose new angle is exactly half a period away (R89 names the shorter way: log entry 10). -/
opaque halfTurnUp : Rat → Bool

end Sys2Proof.Config
end

