-- ==== Sys2Proof/Machine/State.lean ====
section
/-! DEFINITION. The state of the block: plain data, every piece of state the manual names, grouped by the
chapter that decides it. `State.reset` is the machine while unpowered, with every register at its reset value. -/

namespace Sys2Proof.Machine

/-! ### Time (16_timers_and_watchdog) -/

/-- Tick index, position inside the tick, and fleet time (R12, R13, R269, R270, R365, R372). -/
structure Time where
  /-- ticks counted since a start from the unpowered state; the 32-bit index is this modulo 2^32 (R12) -/
  tick : Nat
  /-- hub-peripheral clock edges of the present tick already run, 0 to 1,000 (R365) -/
  edges : Nat
  /-- fleet time in nanoseconds (R372 counts its whole microseconds) -/
  fleetNs : Rat
  /-- nanoseconds of fleet time per local nanosecond (R270) -/
  fleetRate : Rat
  fleetSet : Bool
  fleetLocked : Bool
  fleetSteps : Nat
  /-- consecutive BEACONs within the bound of R270 -/
  fleetRun : Nat
  deriving DecidableEq, Repr

/-! ### Events and frames between the dies (01_architecture) -/

/-- The classes of R461 in the order of R13. -/
inductive EvClass where
  | protection | presence | pd | thermal | charge | trunk | host
  deriving DecidableEq, Repr

/-- The sources of R432 in their order. -/
inductive EvSource where
  | aon | hubPeripheral | lane (n : Lane) | port (m : PortDie) | housekeeping | forecast | trunk
  | stack (position : Nat)
  deriving DecidableEq, Repr

/-- The PD timers whose expiry the hub answers (R175, R178-R180). -/
inductive PdTimer where
  | response | unacked | waitCap | noResponse | capResend | eprEntry | cableRetry | srcTransition
  | transition (x : PsTimer) | eprWatch | srcRecover
  deriving DecidableEq, Repr

/-- What happened, with the values a record or a later rule needs. -/
inductive EvKind where
  | stageFault (third : Bool)
  | phaseOut (k : PhaseNo) (kind : PhaseKind) (mean iPh : Amp) (ratio16 : Nat) (nIn : Nat) (headroom : Bool)
  | currentLimit (k : PhaseNo)
  | truncation | step | skipEntry | skipExit | shedStart | shedEnd | shedAbort | inRegulation | droopTrip | syncLoss
  | stackUnlocked
  | trip (c : Src) (p : Protection) (v : Volt) (i : Amp) (first lockout : Bool)
  | vconnLimit (p : Port)
  | dieShutdown | brokenSensor
  | safeSet (t : SafeTrigger) (value : Int) (tick : Nat)
  | xtalLost
  | attach (p : Port) | detach (p : Port) | qualified (c : Src) (locked : Bool) | unqualified (c : Src) | pairClosed (c : Src)
  | sag (c : Src)
  | sourceLost (c : Src) (interrupted : Bool) | farNodeLost | laneStopped
  | removal (d : RemovalDetector) (vbat : Volt) (iMeas : Amp)
  | wakeN
  | pdMessage (p : Port) (m : PdMsg)
  | pdTimer (p : Port) (t : PdTimer)
  | modeEntry (p : Port) | feedReached (p : Port) | discharged (p : Port) | bcDone (p : Port) (r : Bc12)
  | frsSignal (p : Port) | frsVbus (p : Port)
  | gaugeSample (i : Amp) (v : Volt)
  | thermalRound
  | backstop
  | trunkFrame (a : TrunkArrival) (f : TrunkFrame)
  | linkUp (t : TrunkPort) | linkDown (t : TrunkPort) | droopOnset | droopClear
  | stackEvent (e : StackEvent)
  deriving DecidableEq, Repr

/-- A stamped event (R13): class, tick with the sub-tick position in steps of 10 us / 256, source, item, and what it is.
The sub-tick is a time field and takes no part in the order (R432). -/
structure Event where
  cls : EvClass
  tick : Nat
  sub : BitVec 8
  src : EvSource
  item : Nat
  kind : EvKind
  deriving DecidableEq, Repr

/-- What a start, stop or standby frame asks of a lane (R100, R103, R113). -/
inductive LaneGo where
  | keep | start | standby | join | stopRamp (aPerMs : Rat) | stopNow
  deriving DecidableEq, Repr

/-- The values the hub commands for a lane (R6, R80, R102, R118, R127, R145, R275). -/
structure LaneOrder where
  dir : Dir
  role : Role
  /-- final target of the regulated node, and the slew toward it, V per ms -/
  target : Volt
  slew : Rat
  /-- slew of raised ceilings, allocation and charge setpoint, A per ms (R102) -/
  iSlew : Rat
  /-- SYS target in force, for the droop threshold (R79), and the threshold itself -/
  sysTarget : Volt
  droop : Volt
  /-- allocation as an input current, source limit I_SRC, V_SAG_EFF and V_LOST (R144, R145, R156) -/
  alloc : Amp
  iSrc : Amp
  vSagEff : Volt
  vLost : Volt
  /-- charge setpoint and CV target (R200, R201), battery discharge ceiling (R244) -/
  iSet : Amp
  cvTarget : Volt
  iDis : Amp
  /-- lane factor k_L times the lane ceiling is the hub's ceiling (R295) -/
  kL : Rat
  feedCeil : Amp
  /-- field floor, warm requirement, step-pending notice (R118), bias and its slew (R82, R102) -/
  floor : Nat
  warm : Bool
  stepPending : Bool
  iBias : Amp
  biasSlew : Rat
  trim : Volt
  /-- trunk: P_base, V_KNEE, V_FLOOR (R275); and the target law of a feeding trunk lane (R276) -/
  pBase : Watt
  vKnee : Volt
  vFloor : Volt
  vFnl : Volt
  vFfl : Volt
  cFeed : Watt
  /-- several lanes hold the node: load line and share trim apply (R84) -/
  shared : Bool
  deriving DecidableEq, Repr

/-- One configuration entry: function, index, element, encoded value (R347-R349). -/
structure CfgEntry where
  fn : Nat
  idx : Nat
  elem : Nat
  val : Int
  deriving DecidableEq, Repr

/-- A hub frame to a lane die: what to do, the values in force from its effective tick, and changed limits and coefficients
(R6, R7, R110). -/
structure LaneFrame where
  eff : Nat
  go : LaneGo
  order : LaneOrder
  set : List CfgEntry
  deriving DecidableEq, Repr

/-- A hub command to a port die (R6): pairs, mux, terminations, PD messages, discharge. -/
inductive PortCmd where
  | openPair (c : Src)
  | closePair (c : Src)
  | mux (p : Port) (code : BitVec 2)
  | send (p : Port) (m : PdMsg)
  | nothing
  deriving DecidableEq, Repr

/-- A hub frame to a port die, with its effective tick (R6). -/
structure PortFrame where
  eff : Nat
  cmd : PortCmd
  deriving DecidableEq, Repr

/-! ### Lane dies (04_lane_regulation, 05_phase_management) -/

/-- Run state of a lane: stopped, bias wait after PSEN_n rises, standby, running, ramping to a stop (R100, R103, R113). -/
inductive LaneRun where
  | stopped | bias | standby | running | ramping
  deriving DecidableEq, Repr

/-- Conversion regions of R91. -/
inductive Region where
  | buck | bbLow | bbHigh | boost
  deriving DecidableEq, Repr

/-- Phase states of R111, in code order. -/
inductive PhState where
  | field | warm | cold | out
  deriving DecidableEq, Repr

/-- What the legs of a phase do (R90, R93, R94, R112): both mid, energy-storing interval, freewheeling interval,
both low for a refresh. -/
inductive Drive where
  | mid | storing | freewheel | refresh
  deriving DecidableEq, Repr

/-- One phase of a lane (R85, R86, R88, R93, R111, R119, R124). -/
structure Phase where
  st : PhState
  drive : Drive
  /-- the peak limit has ended an interval of this period (R93) -/
  ipkEnded : Bool
  kind : Option PhaseKind
  /-- a cold admission is under way (R112); it ends on the field, or on warm bench (R117) -/
  admitting : Bool
  /-- the cold admission ends on warm bench (R117) -/
  toWarm : Bool
  /-- a warm-bench phase that joins the field at the next boundary (R112, R116) -/
  admitNext : Bool
  /-- a test of R124 has failed for its full persistence; PHASE_OUT acts on it -/
  faultDue : Option PhaseKind
  /-- shares of eight in a shed (R119): 8 is full -/
  share : Nat
  /-- peak command of the present period, its slope compensation in A per ns, and whether the interval drives current toward
  SYS (R85, R90, R98) -/
  iPk : Amp
  slope : Rat
  fwd : Bool
  trim : Amp
  /-- start angle, in fractions of the period (R88, R89) -/
  angle : Rat
  sinceAdmit : Nat
  ipkRun : Nat
  openRun : Nat
  rangeRun : Nat
  deadRun : Nat
  /-- last period average and energy-storing interval, ns -/
  iAvg : Amp
  tEs : Rat
  /-- shortest and longest energy-storing interval of this period, ns (R90, R126) -/
  tEsMin : Rat
  tEsMax : Rat
  deriving DecidableEq, Repr

/-- The loops of a lane (R80-R83, R144, R145). -/
structure Loop where
  integ : Amp
  dfilt : Rat
  ePrev : Volt
  iv : Amp
  /-- the command in force, and the one the last boundary computed, in force from the next (R82) -/
  iCmd : Amp
  iNext : Amp
  /-- changed gains reload the integrators at the next boundary (R110) -/
  reload : Bool
  /-- battery-voltage loop of the SUPPLEMENT battery lane: its own integrator, filter and last error -/
  integB : Amp
  dfiltB : Rat
  ePrevB : Volt
  iBat : Amp
  /-- the battery-voltage loop is the active charge ceiling (R199) -/
  cvActive : Bool
  /-- the sag ceiling is the active ceiling (R146, R151) -/
  sagActive : Bool
  cSrc : Amp
  cSag : Amp
  /-- the tick since which c_sag has stayed below C_SRC without a break (R146) -/
  sagSince : Option Nat
  cFloor : Amp
  /-- slewed values: target, allocation, charge setpoint, source limit, discharge and feed ceilings, bias, kL ceiling (R102) -/
  target : Volt
  alloc : Amp
  iSet : Amp
  iSrc : Amp
  iDis : Amp
  feedCeil : Amp
  iBias : Amp
  laneCeil : Amp
  /-- present stop ramp limit (R103), none while not ramping -/
  rampA : Option Amp
  rampRate : Rat
  /-- last means of the nodes, lane current and the trunk taps of the droop filter (R275) -/
  sys : Volt
  vinl : Volt
  iLane : Amp
  taps : List Volt
  /-- power fed into the trunk over the same window (R276) -/
  feeds : List Watt
  deriving DecidableEq, Repr

/-- Field management of a lane (R113-R122). -/
structure Field where
  rot : Fin 4
  /-- lane-current magnitudes, newest first: at most 8,192 (R115) -/
  hist : List Amp
  /-- position leaving in a shed, its boundary count, and whether it is a retirement (R119, R129) -/
  shed : Option (Pos × Nat × Bool)
  /-- the shed in progress is aborted at the next boundary (R121) -/
  shedAbort : Bool
  /-- a hub command ends skip at the next boundary (R99) -/
  skipExitDue : Bool
  /-- end of the shed inhibit (R116) -/
  shedInhibit : Option Nat
  shedHold : Nat
  sinceAdd : Nat
  sinceShed : Nat
  coldHold : Nat
  /-- fill period: the tick at which it began (R122) -/
  fillFrom : Option Nat
  /-- retirements that wait for the shed in progress, in their order (R129) -/
  retireNext : List Pos
  /-- |e| stands above STEP_V (R108) -/
  stepArmed : Bool
  regRun : Nat
  inReg : Bool
  skipping : Bool
  skipRun : Nat
  pulses : List Bool
  ceilOkRun : Nat
  headroomHold : Bool
  periods : Nat
  /-- periods since the last trim update (R86) -/
  sinceTrim : Nat
  benchCold : Bool
  deriving DecidableEq, Repr

/-- Diagnostic counters of a lane die, in the order of R364. -/
structure LaneDiag where
  late : Nat
  shedAborts : Nat
  currentLimits : Nat
  truncations : Nat
  skipEntries : Nat
  stageFaults : Nat
  syncLosses : Nat
  deriving DecidableEq, Repr

/-- The charge backstop of a lane die (R207). -/
structure Backstop where
  counted : Nat
  idle : Nat
  tripped : Bool
  deriving DecidableEq, Repr

/-- LIMP of a die (R416-R419): its entry tick and whether the keeper hold has ended. -/
structure Keeper where
  entry : Nat
  expired : Bool
  deriving DecidableEq, Repr

/-- One lane die with the far node it senses. -/
structure LaneDie where
  /-- the die's copy of the tick index, corrected at every strobe (R12) -/
  tick : Word
  /-- a setpoint has been received since the die's power-on (R416), and the keeper hold it was told, in 0.1 s (R417) -/
  got : Bool
  holdTenths : Nat
  /-- the die is out of its own reset (R38, R412) -/
  up : Bool
  run : LaneRun
  psen : Bool
  /-- the lane has been started since the last cold boot: its droop comparator is on the line (R249) -/
  onLine : Bool
  order : LaneOrder
  region : Region
  /-- consecutive periods of M beyond each edge, widened (R91) -/
  regionRun : Vector Nat 3
  loop : Loop
  field : Field
  phases : Vector Phase 4
  truncating : Bool
  /-- SYS stands below the droop threshold (R249) -/
  drooping : Bool
  /-- stage-fault events of the last second, newest first (R95) -/
  faults : List Nat
  outOfService : Bool
  /-- over-temperature shutdowns of the last hour (R300), shutdown in force, latch -/
  otTimes : List Nat
  shut : Bool
  /-- what caused it: the diode, TSL_n (R298) -/
  shutDie : Bool
  shutTsl : Bool
  latched : Bool
  tempDie : DegC
  tempTsl : DegC
  dieOk : Bool
  tslOk : Bool
  okRounds : Nat
  /-- removal detector's memory: the last period ran in charge direction (R211) -/
  chargePrev : Bool
  removalSeen : Bool
  backstop : Backstop
  keeper : Option Keeper
  /-- droop law f(V) stood below 1 (R277) -/
  droopLaw : Bool
  /-- stack alignment (R135): locked, and periods in bound -/
  stackLocked : Bool
  syncRun : Nat
  /-- change of the period length in delay steps (R135) -/
  periodAdj : Int
  /-- the period in delay steps of 39.0625 ps (R87, R135) -/
  periodSteps : Nat
  frames : List LaneFrame
  /-- limits and coefficients of a frame that has taken effect; they apply at the next period boundary (R110) -/
  newSet : List CfgEntry
  lag : Nat
  unresponsive : Bool
  diag : LaneDiag
  deriving DecidableEq, Repr

/-! ### Port dies and connectors (06_sources, 07_type_c_ports, 11_dvor_trunk) -/

/-- A back-to-back pair between a connector and its far node or the trunk bus (R142, R153, R256). -/
inductive Pair where
  | opened | closing | closed
  deriving DecidableEq, Repr

/-- What the device keeps for each of the seven connectors (R136, R143, R146, R153-R156). -/
structure Conn where
  pair : Pair
  /-- a pass pair that closes under the energise rule (R256) -/
  energising : Bool
  /-- bound on the rise of the far node while the pair closes, V per ms; 0 otherwise (R142) -/
  slew : Rat
  /-- present and qualified (R136): for a Type-C port R170, for ACIN its window, for the trunk R277 -/
  qualified : Bool
  /-- qualified and not locked out, as the events used so far have told the hub (R136, R137, R157) -/
  known : Bool
  /-- expected voltage V_EXP, and the old one during a transition (R145, R170) -/
  vExp : Volt
  vOld : Option Volt
  v : Volt
  i : Amp
  /-- mean input power of the last tracking interval (R147) -/
  lockedOut : Bool
  /-- ticks of the trips of the last 60 s, newest first; the last trip of any kind (R155) -/
  trips : List Nat
  lastTrip : Option Nat
  /-- a trip was already counted since the pair's closing (R154) -/
  tripOpen : Bool
  iLearn : Option Amp
  learnSince : Nat
  /-- trunk pass pair: failures in a row, retry tick, last flow (R256, R257) -/
  joinFails : Nat
  retryAt : Nat
  /-- a detach fell since the last candidacy (R155, R209) -/
  detached : Bool
  deriving DecidableEq, Repr

/-- Attach states of a port, in PORT_STATUS order (R356). -/
inductive Attach where
  | unattached | sink | source | audio | unsupported | recovery | frsWatch
  deriving DecidableEq, Repr

/-- CC terminations a port can present (R40, R165, R167). -/
inductive CcTerm where
  | rd | rp | openPin
  deriving DecidableEq, Repr

/-- Kinds of contract (R168, R171). -/
inductive ContractKind where
  | none | fixed | pps | avs
  deriving DecidableEq, Repr

/-- An explicit contract, or default power (R168, R171, R356). -/
structure Contract where
  kind : ContractKind
  pos : Nat
  v : Volt
  i : Amp
  deriving DecidableEq, Repr

/-- A swap under way, by its step code of R183. -/
structure Swap where
  fast : Bool
  toSource : Bool
  step : Byte
  deriving DecidableEq, Repr

/-- What a port waits for (R179, R180). -/
inductive PdWait where
  | idle
  | softReset
  | request (v : Volt) (i : Amp) (pos : Nat) (kind : ContractKind)
  | psRdy
  | swapReply | frsReply | drReply | vconnReply
  | caps | eprEntry | battery
  | modeReply | exitReply
  | sourceCaps
  deriving DecidableEq, Repr

/-- One Type-C port (R161-R193). -/
structure PortSt where
  cc : CcTerm
  /-- dead-battery Rd still holds (R166) -/
  deadRd : Bool
  attach : Attach
  /-- the decision that uses the attach event has been taken (R13) -/
  seen : Bool
  attachRole : Attach
  cc2 : Bool
  rpSeen : Rp
  bc12 : Bc12
  bcRunning : Bool
  /-- default power and V_EXP 5 V apply after a soft reset (R180) -/
  softened : Bool
  dfp : Bool
  vconn : Bool
  vconnTripped : Bool
  rev2 : Bool
  /-- a message of the partner has been received since the attach (R161) -/
  heard : Bool
  /-- the last message sent and not acknowledged, and the retries it has had (R179) -/
  lastTx : Option PdMsg
  retries : Nat
  /-- a source in a contract shows Rp at SinkTxNG (R167) -/
  txNg : Bool
  epr : Bool
  eprTried : Bool
  cable5 : Bool
  cableEpr : Bool
  cableTries : Nat
  contract : Contract
  /-- the partner's last source capabilities, its Sink_Capabilities flags (R171, R182, R185, R187) -/
  caps : Option SourceCaps
  sinkDual : Bool
  sinkUnc : Bool
  transition : Bool
  /-- end of the 5 ms after a transition's PS_RDY (R170) -/
  transEnd : Nat
  /-- a Hard Reset is in progress, and the tick of the last one (R165, R170) -/
  hrActive : Bool
  hrAt : Option Nat
  /-- Try.SNK is under way (R165) -/
  tryWait : Bool
  /-- the last Request sent (R173), the largest current of the object requested of this source (R174) -/
  lastReq : Option (Nat × Volt × Amp)
  objMax : Amp
  /-- the Fast Role Swap signal is being driven (R187) -/
  frsSignal : Bool
  /-- a new source contract waits for its transition; the feed has been reported at target (R175) -/
  feedReady : Bool
  /-- this attach has had its first contract -/
  hadContract : Bool
  /-- SOP' has answered (R178) -/
  cableKnown : Bool
  wait : PdWait
  hardResets : Nat
  hrSince : Nat
  srSince : Nat
  capsCount : Nat
  swap : Option Swap
  swapTried : Bool
  lastSwapStep : Byte
  feeding : Bool
  feedTarget : Volt
  disch : Bool
  mux : BitVec 2
  tmode : Bool
  frsAmp : Amp
  deriving DecidableEq, Repr

/-- What a port die keeps beside its ports (R297, R364, R416). -/
structure PortDieSt where
  /-- the die's copy of the tick index, corrected at every strobe (R12) -/
  tick : Word
  up : Bool
  got : Bool
  holdTenths : Nat
  shut : Bool
  temp : DegC
  tempOk : Bool
  okRounds : Nat
  keeper : Option Keeper
  frames : List PortFrame
  lag : Nat
  unresponsive : Bool
  vconnSupply : Bool
  late : Nat
  softResets : Nat
  pdCrc : Nat
  trips : Nat
  badTa : Nat
  badTb : Nat
  dropped : Nat
  deriving DecidableEq, Repr

/-- Messages the ports have sent, newest first (R161): the block's output on CC. -/
structure PdTx where
  port : Port
  msg : PdMsg
  deriving DecidableEq, Repr

/-! ### Hub policy (06_sources, 08_charging, 09_gauge, 10_forecast_port, 12_thermal) -/

/-- Steps of a change of selected source on a far node (R142). -/
inductive ChangeStep where
  | standby | draining | closing
  deriving DecidableEq, Repr

/-- Source selection of one far node (R140-R142). -/
structure Node where
  selected : Option Src
  change : Option (Src × ChangeStep)
  /-- challengers, each with the tick from which it has held its advantage without a break -/
  challengers : List (Src × Nat)
  /-- correction of the source limit sent to the lane (R144) -/
  srcTrim : Amp
  /-- a port feeds through this node (R175) -/
  feeding : Option Port
  /-- the far node is drained after a feed (R177) -/
  drain : Bool
  /-- tick of the pair's opening in a change of source: the new pair closes a tick later (R142) -/
  openedAt : Nat
  /-- the host holds the lane (R353) -/
  hold : Bool
  /-- allocation in force, W (R148) -/
  allocW : Watt
  /-- what was last sent to the lane die -/
  sent : Option LaneOrder
  deriving DecidableEq, Repr

/-- Charge states of R197, in code order. -/
inductive ChgPhase where
  | idle | trickle | precharge | cc | cv | terminated
  deriving DecidableEq, Repr

/-- Temperature windows of R205, in CHG_STATUS order (R355). -/
inductive Window where
  | cold | cool | normal | warm | hot
  deriving DecidableEq, Repr

/-- Charge state (R197-R213). Times in seconds of the timers. -/
structure Charge where
  phase : ChgPhase
  /-- suspension causes: bit (code - 1) (R203, R355) -/
  causes : BitVec 16
  window : Window
  trickleS : Rat
  preS : Rat
  fastS : Rat
  fastBudgetS : Rat
  restartUsed : Bool
  thermal : Bool
  /-- the limiting conditions of R207 have been absent since this tick -/
  clearSince : Option Nat
  iHost : Amp
  iSet : Amp
  iReq : Amp
  cvTarget : Volt
  vIrc : Volt
  /-- corrections of R81 and R202 -/
  iTrim : Amp
  vTrim : Volt
  present : Bool
  /-- removal indications of the last 10 min, newest first, and the requalification wait (R208) -/
  removals : List Nat
  requalAfter : Nat
  /-- a round has found the NTCs invalid and none has found them valid since: the second way out of cause 0x0B (R203) -/
  ntcGap : Bool
  /-- the round at a cycle start holds the current at zero (R198) -/
  startRound : Bool
  realS : Rat
  /-- R209 has cleared cause 0x0A, which stays set until the backstop counter has reset -/
  backAck : Bool
  /-- reduction term in force, by its code in record 0x0301 (R390) -/
  reduction : Nat
  deriving DecidableEq, Repr

/-- A gauge sample, and whether a soft-connect or a full-scale code bars it from an impedance event (R217, R227). -/
structure GaugeSample where
  i : Amp
  v : Volt
  spoiled : Bool
  deriving DecidableEq, Repr

/-- Gauge (R217-R230). Counts and charges: the 64-bit sum, and ampere-hours. -/
structure Gauge where
  sum : Dword
  capSum : Dword
  capTick : Word
  lastTick : Nat
  /-- the sum at the last round's capture (R222) -/
  roundSum : Dword
  qRem : Rat
  qFcc : Rat
  socQualified : Bool
  capLearned : Bool
  impLearned : Bool
  rPack : Ohm
  rRef : Ohm
  rRefTemp : DegC
  events : List Rat
  /-- qualifying events since the pack change (R233) -/
  evCount : Nat
  /-- samples since the last event test, newest first: current A, voltage V -/
  samples : List GaugeSample
  sinceEvent : Nat
  batid : Option (Fin 64)
  batidNow : Fin 64
  storedSoc : Option Rat
  throughputAh : Rat
  /-- anchor pair of R226: SoC and charge since a rest anchor or a termination -/
  anchorRest : Option Rat
  anchorTerm : Bool
  sinceAnchorAh : Rat
  restSince : Option Nat
  restDone : Bool
  /-- sums of the present round for the averages of R200 and R307 -/
  iSum : Amp
  vSum : Volt
  nRound : Nat
  iMeas : Amp
  vBat : Volt
  lastRecR : Ohm
  lastRecSoc : Rat
  lastRecTick : Nat
  /-- battery samples below 50 mA while the lane reports 1 A (R211) -/
  collapseRun : Nat
  deriving DecidableEq, Repr

/-- A demand the stream named for a block (R238, R242). -/
structure Demand where
  block : Nat
  watts : Nat
  onset : Bool
  deriving DecidableEq, Repr

/-- A scheduled pre-positioning action (R246): its tick, its lane, the step it belongs to, and its value: the field floor,
or the bias in amperes. -/
structure PrepEntry where
  at_ : Nat
  act : PrepAction
  lane : Lane
  step : Nat
  value : Rat
  deriving DecidableEq, Repr

/-- A prepared forecast step (R246, R247): its block, the level before it, its demand, the lanes that carry it, and
whether P_SYS has been raised. -/
structure FcstStep where
  block : Nat
  pre : Watt
  watts : Watt
  lanes : List Lane
  raised : Bool
  deriving DecidableEq, Repr

/-- Forecast port (R237-R254). Block numbers count frame starts of the present lock. -/
structure Forecast where
  locked : Bool
  /-- consecutive frames handed over (R250) -/
  run : Nat
  /-- no frame has been judged since reactive operation began, so none has a previous interval (R241) -/
  fresh : Bool
  block : Nat
  blockStart : Nat
  lastFrame : Option Nat
  demands : List Demand
  /-- frames handed over that no decision has used yet, with the tick of their stamp, oldest first (R10, R242) -/
  waiting : List (Nat × List Demand)
  allowances : List (Nat × Nat)
  sent : List (Nat × Nat)
  revoked : Bool
  pSus : Watt
  pBat : Watt
  hdrm : Bool
  lastSeq : Byte
  lastN : Nat
  fdo : List Half
  /-- tick of the frame start of the last frame handed over (R250) -/
  lastHanded : Nat
  /-- BLOCK_T in force when the present lock began, by its code (R253) -/
  blockCode : Int
  prepared : List FcstStep
  prep : List PrepEntry
  biasFrom : Option Nat
  /-- the present block has been counted in the HDRM count -/
  hdrmBlock : Option Nat
  /-- an event of R245 has fallen since the last decision's allowances, and the P_base they were computed with -/
  lowered : Bool
  pBaseSeen : Watt
  handed : Word
  discarded : Word
  steps : Word
  revokedSent : Word
  hdrmBlocks : Word
  crcErr : Nat
  verErr : Nat
  lenErr : Nat
  intErr : Nat
  lateFrames : Nat
  deriving DecidableEq, Repr

/-- Thermal policy of the hub (R292-R306). -/
structure Therm where
  kP : Vector Rat 2
  hubT : DegC
  hubOk : Bool
  hubShut : Bool
  hubOkRounds : Nat
  hubDiv : Nat
  flashT : DegC
  flashOk : Bool
  flashShut : Bool
  flashOkRounds : Nat
  flashHalf : Bool
  tb : Vector DegC 2
  tbOk : Vector Bool 2
  kL : Vector Rat 4
  /-- rounds ended, and the tick of the last end (R292, R308) -/
  round : Nat
  roundTick : Nat
  /-- what the last housekeeping round handed over, and whether a decision still has to use it (R292) -/
  info : Option RoundInfo
  deriving DecidableEq, Repr

/-! ### Trunk (11_dvor_trunk) -/

/-- One trunk port's link (R262, R265, R267, R268). -/
structure Link where
  up : Bool
  upAt : Nat
  lastRx : Nat
  neighbour : Option (BitVec 12 × Dword)
  /-- queue of frames to send, oldest first -/
  queue : List TrunkFrame
  /-- GRANTs of the session engine that wait for room in the queue -/
  backlog : List TrunkFrame
  /-- the last 8 link delays, ns, newest first -/
  delays : List Rat
  /-- sent REPLY_REQ HELLOs awaiting an answer: SEQ and local time of the start delimiter, ns -/
  asked : List (Half × Nat)
  reqNext : Bool
  helloDue : Nat
  /-- pass-pair current in force, positive toward the trunk bus (R257) -/
  flow : Amp
  /-- bytes of the last frame sent -/
  out : List Byte
  deriving DecidableEq, Repr

/-- A roster entry (R279), in slot order. -/
structure RosterEntry where
  slot : Nat
  nodeId : BitVec 12
  state : Nat
  flags : Byte
  unit : Dword
  hops : Half
  fw : Half
  feedCap : Half
  drawReq : Half
  feedNow : Half
  drawNow : Half
  vTap : Half
  grant : Half
  session : Byte
  prio : Byte
  mode : Byte
  soc : Byte
  seenUs : Nat
  upd : Word
  deriving DecidableEq, Repr

/-- A session entry (R283). -/
structure Session where
  index : Nat
  nodeId : BitVec 12
  state : Nat
  prio : Byte
  grant : Half
  request : Half
  openedLo : Word
  leaseLo : Word
  used : Half
  id : Half
  renewals : Word
  deriving DecidableEq, Repr

/-- A captain or claimant key (R271). -/
structure CapKey where
  always : Bool
  cf : Nat
  node : BitVec 12
  deriving DecidableEq, Repr

/-- What port die 1 keeps of a SRC: the last SEQ repeated, the port and tick it was last seen (R267). -/
structure SeenSrc where
  src : BitVec 12
  seq : Option Half
  port : TrunkPort
  tick : Nat
  deriving DecidableEq, Repr

/-- Ticks from which the periodic frames of the trunk are due (R261, R278, R280, R286, R287). -/
structure TrunkDue where
  beacon : Nat
  bulletin : Nat
  claim : Nat
  unrostered : Nat
  fragment : Nat
  ack : Nat
  kickoff : Nat
  report : Option Nat
  deriving DecidableEq, Repr

/-- The trunk unit: links, identity, captaincy, roster, leases, relay and inbox (R262-R287). -/
structure Trunk where
  links : Vector Link 2
  seen : List SeenSrc
  /-- node ID in use, and the one that a derived ID has moved to after a clash (R264, R266) -/
  nodeId : BitVec 12
  derivedId : Option (BitVec 12)
  seq : Half
  captain : Option CapKey
  captainUnit : Dword
  isCaptain : Bool
  claiming : Option Nat
  /-- tick of the last CLAIM with a better key -/
  betterClaim : Option Nat
  lastBeacon : Option Nat
  hopsBeacon : Half
  beaconNo : Word
  fleetEpoch : Word
  epoch : Word
  roster : List RosterEntry
  sessions : List Session
  sessionId : Half
  /-- unrostered IDs of the last 2 s: tick of the last REPORT and unit ID (R280) -/
  unrostered : List (BitVec 12 × Nat × Dword)
  constDiffer : Bool
  constRecorded : Bool
  dupId : Bool
  unrost : Bool
  pBase : Watt
  /-- fleet time of LEASE_END, 0 without a session -/
  leaseEnd : Nat
  session : Byte
  pendingGrant : Option (Watt × Nat)
  feedingTrunk : Bool
  busQualified : Bool
  /-- the trunk far node is qualified, as the events used so far have told the hub (R137) -/
  busKnown : Bool
  capZeroSince : Option Nat
  due : TrunkDue
  /-- origin of a relayed package: fragments left in this pass, passes begun, fragments named missing (R286, R287) -/
  relay : Bool
  relayLeft : List Nat
  relayPass : Nat
  resend : List Nat
  kickoffBroadcast : Bool
  ackStates : List (BitVec 12 × Nat)
  inboxSeq : Word
  inboxLost : Nat
  deriving DecidableEq, Repr

/-! ### Telemetry (13_telemetry) -/

/-- One channel's folding state and its published block (R308-R310). -/
structure Channel where
  k : Nat
  /-- sum and count of the round's samples, and the last one -/
  sum : Rat
  n : Nat
  last : Option Int
  /-- last round values, newest first -/
  rounds : List Int
  max : Option Int
  min : Option Int
  count : Nat
  seq : Word
  /-- extremes that a lane die holds while the hub is absent (R314) -/
  heldMax : Option Int
  heldMin : Option Int
  /-- published words +0x00 to +0x1C -/
  block : Vector Word 8
  deriving DecidableEq, Repr

/-- A telemetry stream (R315, R316). -/
structure Stream where
  mask : BitVec 96
  fields : BitVec 5
  period : Nat
  capture : Bool
  left : Nat
  seq : Word
  lost : Bool
  deriving DecidableEq, Repr

/-- Telemetry: blocks, capture and freeze, streams (R308-R316). -/
structure Tel where
  chans : Vector Channel 96
  frozen : Bool
  /-- a capture accepted and not yet in effect, and the tick of its acceptance (R313) -/
  pending : Bool
  pendingAt : Nat
  ignored : Bool
  capTick : Word
  capSeq : Word
  frozenAt : Nat
  streams : Vector (Option Stream) 3
  /-- block latched by a read burst of each interface (R312) -/
  latch : Vector (Option (Nat × List Word)) 3
  dropped : Nat
  deriving DecidableEq, Repr

/-! ### Host side (14_host_and_mailboxes, 15_command_reference) -/

/-- Slot states of a channel block, in code order (R327). -/
inductive SlotState where
  | idle | queued | running | cancelling | resyncing
  deriving DecidableEq, Repr

/-- A normal or urgent command that has been taken and not yet answered. -/
structure Running where
  op : Half
  desc : Desc
  bell : Nat
  pastNoReturn : Bool
  /-- accession number of the ledger record whose writing it awaits (R344) -/
  waits : Option Nat
  deriving DecidableEq, Repr

/-- One channel block (R327). -/
structure Mbx where
  ackCode : Half
  ackSeq : Half
  uackCode : Half
  uackSeq : Half
  st : SlotState
  ubusy : Bool
  overrun : Bool
  lastSeq : Half
  lastOp : Half
  lastCode : Half
  taken : Word
  completed : Half
  overruns : Byte
  duplicates : Byte
  running : Option Running
  deriving DecidableEq, Repr

/-- The bits of a channel's nibble of DB_IN, in the order of R333. -/
inductive RingBit where
  | resync | cancel | urgent | post
  deriving DecidableEq, Repr

/-- A latched ring: channel, bit, and the tick of its stamp (R330, R333). -/
structure Ring where
  chan : HostChan
  bit : RingBit
  tick : Nat
  held : Bool
  deriving DecidableEq, Repr

/-- Violation capture (R337). -/
structure Viol where
  addr : Word
  valid : Bool
  iface : BitVec 2
  kind : BitVec 2
  write : Bool
  tick : Word
  count : Word
  deriving DecidableEq, Repr

/-- The host interfaces with doorbells, mailboxes, private memory and violations (R319-R338). -/
structure HostIf where
  mbx : Vector Mbx 8
  rings : List Ring
  dbMask : Word
  hdbOut : Word
  hdbMask : Word
  mem : List Host.Cell
  viol : Viol
  out : Vector (List Byte) 3
  spiDiscards : Nat
  uartDiscards : Nat
  /-- status fields that alert, as last seen (R338) -/
  lastStatus : Word
  deriving DecidableEq, Repr

/-- Settings in force, staged and pending; the stops; the board entries in force (R345-R351, R392). -/
structure Cfg where
  inForce : List CfgEntry
  staged : List CfgEntry
  pending : List CfgEntry
  /-- values that apply from the next decision (R351) -/
  applying : List CfgEntry
  stoppedBy : Vector (Option HostChan) 15
  phaseFitted : BitVec 16
  connFitted : BitVec 7
  stackSize : Nat
  keeperHold : Nat
  deriving DecidableEq, Repr

/-! ### Flash, ledger, update (17_flash_and_update) -/

/-- A ledger record (R387). -/
structure LedgerRec where
  acc : Nat
  fleetUs : Nat
  type : Half
  mode : Byte
  flags : Byte
  payload : List Byte
  deriving DecidableEq, Repr

/-- A catalogue record (R392). -/
structure CatRec where
  format : Nat
  seq : Nat
  fw : Vector Byte 3
  entries : List CfgEntry
  deriving DecidableEq, Repr

/-- A learned-state record (R233): type, index and the 60 bytes before its CRC. -/
structure LearnedRec where
  type : Nat
  index : Nat
  seq : Nat
  bytes : List Byte
  deriving DecidableEq, Repr

/-- A firmware shelf (R395). -/
structure Shelf where
  hwType : Word
  version : Vector Byte 3
  sha : List Byte
  actSeq : Nat
  policy : Byte
  headerOk : Bool
  complete : Bool
  armed : Bool
  trial : Bool
  confirmed : Bool
  retired : Bool
  attempts : Nat
  length : Nat
  /-- built sectors: sector number and its bytes -/
  sectors : List (Nat × List Byte)
  deriving DecidableEq, Repr

/-- Which image runs (R396, R390 record 0x0001). -/
inductive ShelfId where
  | a | b | recovery
  deriving DecidableEq, Repr

/-- A flash job: foreground class and what follows its end (R383). -/
inductive FlashJob where
  | catalogue (c : HostChan) (r : CatRec)
  | migrate (r : CatRec)
  | ledger (r : LedgerRec)
  | learned (r : LearnedRec)
  /-- an out-mask record on which PHASE_RETURN or PHASE_RETIRE waits (R354) -/
  | outMask (c : HostChan) (r : LearnedRec)
  /-- programming of an update command (R401, R402, R362) -/
  | update (c : HostChan) (op : Half)
  /-- the shelf header after a seal that has passed, with the signature (R402) -/
  | header (c : HostChan) (sig : List Byte)
  deriving DecidableEq, Repr

/-- Background erases and builds (R383). -/
inductive BgJob where
  | ledgerErase | sector (s : Nat) | staging
  deriving DecidableEq, Repr

/-- A journal entry (R403). -/
structure Journal where
  kind : Nat
  seq : Nat
  a : Nat
  b : Nat
  deriving DecidableEq, Repr

/-! ### The always-on domain and retained SRAM (03_power_path, 17_flash_and_update, 18_reset_and_keeper) -/

/-- The major modes of R19, in code order. -/
inductive Mode where
  | ship | dormant | battery | supply | limp | safe
  deriving DecidableEq, Repr

/-- What the strap reader has decoded, with TESTEN (R44, R45, R49). -/
structure Straps where
  i2cAddr : Band
  stackId0 : Band
  stackId1 : Band
  testen : Bool
  deriving DecidableEq, Repr

/-- Gates of the BATFET pair (R58, R59). -/
inductive Batfet where
  | off | linear | on
  deriving DecidableEq, Repr

/-- A held SHIP or DORMANT request and how far its sequence has come (R70, R72, R73). -/
inductive ReqStage where
  | wait | moving | ramping | handed | pairOpen
  deriving DecidableEq, Repr

/-- A held request: DORMANT or SHIP, made by the device itself or by a command, its time and its stage (R70, R72, R73). -/
structure Request where
  dormant : Bool
  automatic : Bool
  deadline : Nat
  stage : ReqStage
  deriving DecidableEq, Repr

/-- A shutdown slot (R302). -/
structure ShutSlot where
  sensor : Nat
  cause : Nat
  reading : Int
  tick : Nat
  seq : Nat
  mode : Byte
  count : Nat
  copied : Bool
  deriving DecidableEq, Repr

/-- STAT patterns of R214. -/
inductive Pattern where
  | off | on | slow | fast | blip | double
  deriving DecidableEq, Repr

/-- The always-on domain: supplies, the BATFET pair and the ship FET, latch, mode, straps, wakes, shutdown slots, STAT (R5). -/
structure Aon where
  vpwr : Bool
  vaon : Bool
  vio : Bool
  xtalLost : Bool
  /-- RESET_N is low (R415) -/
  resetLow : Bool
  /-- VDD33 and VDRV held down by their current limits (R38) -/
  railDown : Vector Bool 2
  /-- retained SRAM holds what a boot since the last loss of VAON left there (R411) -/
  retained : Bool
  factoryTest : Bool
  shipFet : Bool
  batfet : Batfet
  diodeOn : Bool
  softFrom : Option Nat
  softAbandoned : Bool
  /-- rise of SYS in force while the pair is driven in linear mode, V per ms; 0 otherwise (R59) -/
  softRate : Rat
  safeLatch : Bool
  /-- triggers of R21 still present: overshoot, battery over-voltage, BATFET current -/
  present : Vector Bool 3
  request : Option Request
  mode : Option Mode
  pins : BootPins
  straps : Straps
  prevStraps : Option Straps
  strapFault : Bool
  wakeConn : Option Src
  wakeNSeen : Bool
  slots : List ShutSlot
  slotSeq : Nat
  slotPending : List ShutSlot
  /-- PGOOD is released: while VAON is absent, and where R67 releases it (R39) -/
  pgood : Bool
  stat0 : Pattern
  stat1 : Pattern
  statMs : Nat
  sysTarget : Volt
  warmBoots : List Nat
  intervalUs : Nat
  limpFrom : Option Nat
  vioUs : Option Nat
  chargeMirror : Option Charge
  deriving DecidableEq, Repr

/-- The record queue of retained SRAM (R388, R389). -/
structure Ledger where
  next : Nat
  /-- records refused after the last accession number was issued (R388) -/
  refused : Nat
  queue : List LedgerRec
  dropped : Nat
  firstLost : Nat
  /-- records waiting for the first decision after boot because the hub was off (R25) -/
  deferred : List (Half × List Byte)
  deriving DecidableEq, Repr

/-- What retained SRAM keeps for the lanes: rotation base (R114), out masks with their kinds (R127). -/
structure Keep where
  rot : Vector (Fin 4) 4
  out : Vector (Vector (Option PhaseKind) 4) 4
  /-- learned trim sets held valid (R123), as read from the learned-state region -/
  trims : Vector (Option (Vector Amp 4)) 4
  /-- tick since which the lane has been in regulation without a break and unsaved (R123) -/
  trimSince : Vector (Option Nat) 4
  /-- the learned set of the lane is invalid until its next save; a save waits for the hub (R123) -/
  trimBad : Vector Bool 4
  trimDue : Vector Bool 4
  deriving DecidableEq, Repr

/-- What retained SRAM holds and the always-on domain keeps beside it, as a snapshot copies it (R274, R391, R411). -/
structure Retained where
  aon : Aon
  ledger : Ledger
  keep : Keep
  isCaptain : Bool
  captain : Option CapKey
  fleetEpoch : Word
  beaconNo : Word
  deriving DecidableEq, Repr

/-- A black-box record (R391). -/
structure BlackBox where
  seq : Nat
  fleetUs : Nat
  tick : Nat
  cause : Nat
  /-- accession number of the record of the same event -/
  acc : Nat
  blocks : List (Vector Word 8)
  retained : Retained
  deriving DecidableEq, Repr

/-- The flash die: jobs, shelves, catalogue, learned state, ledger, staging and black box (R382-R404). -/
structure Flash where
  busy : Option FlashJob
  queue : List FlashJob
  background : Option BgJob
  suspended : Bool
  ledger : List LedgerRec
  /-- slots written since manufacture; the slot is this modulo 1,048,576 (R388) -/
  ledgerSlot : Nat
  /-- the sector after the writer's is erased (R388) -/
  ledgerErased : Bool
  cat : Vector (List CatRec) 2
  learned : Vector (List LearnedRec) 2
  learnedActive : Fin 2
  shelves : Vector Shelf 2
  blackBox : List BlackBox
  stagingErased : Bool
  journal : List Journal
  deriving DecidableEq, Repr

/-- Update session states, in UPD_STATUS order (R362). -/
inductive UpdState where
  | idle | receiving | sealedUp | armed | rejected | active
  deriving DecidableEq, Repr

/-- An update session (R399-R407). -/
structure Update where
  st : UpdState
  reason : Nat
  tag : Word
  manifest : List Byte
  /-- held block records: index, CRC as supplied, data -/
  blocks : List (Nat × Word × List Byte)
  built : List Nat
  /-- records programmed at their stream offset but not marked held (R402, R403) -/
  partials : List (Nat × List Byte)
  signature : List Byte
  kickoff : Option Nat
  /-- the kick-off time has been acted on (R406) -/
  kickDone : Bool
  relayed : Bool
  /-- fragments of a relayed package being stored: offset in units of 256, data -/
  fragments : List (Nat × List Byte)
  relayLength : Nat
  origin : BitVec 12
  /-- health window open since kick-off; a watchdog expiry or SAFE latch fell inside (R407) -/
  window : Bool
  spoiled : Bool
  wdgSpoiled : Bool
  target : Fin 2
  deriving DecidableEq, Repr

/-- One-time-programmable content (R264, R395, R400). -/
structure Otp where
  unit : Dword
  hwType : Word
  /-- public keys of slots 0-2 as affine points; revoked slots -/
  keys : Vector (Nat × Nat) 3
  revoked : BitVec 3
  floor : Vector Byte 3
  floorRaises : Nat
  deriving DecidableEq, Repr

/-! ### Timers and watchdog (16_timers_and_watchdog) -/

/-- A pending action on a counter, applied on the edge after the match (R368). -/
structure TmrAct where
  reset : Bool
  stop : Bool
  start : Bool
  deriving DecidableEq, Repr

/-- One counter (R366, R374). -/
structure Tmr where
  cnt : Word
  ctl : Word
  cmp : Vector Word 4
  cap : Word
  stat : BitVec 5
  presc : Nat
  act : TmrAct
  deriving DecidableEq, Repr

/-- The sixteen timers and their links (R366-R375). -/
structure TimerUnit where
  tmr : Vector Tmr 16
  capSeq : Word
  capTick : Word
  capSub : Byte
  fleetCap : Dword
  /-- timer events raised to firmware, newest first: counter and compare, 4 for overflow (R368) -/
  evts : List (Nat × Nat)
  deriving DecidableEq, Repr

/-- The watchdog (R376-R381). -/
structure Wdg where
  window : BitVec 12
  /-- a new window waits for the next window (R377) -/
  nextWindow : BitVec 12
  lineup : Half
  locked : Bool
  seen : Half
  double : Half
  armed : Bool
  /-- ticks of the present window that have passed; none while the hub is held in reset (R376) -/
  elapsed : Option Nat
  keyRefused : Half
  badKey : Half
  rstCount : Half
  doubleTally : Half
  lastMissing : Half
  lastDouble : Half
  lastTick : Word
  lastWindow : BitVec 12
  expired : Bool
  deriving DecidableEq, Repr

/-! ### Handicap (19_determinism_and_handicap) and stacks (18_reset_and_keeper) -/

/-- The handicap unit (R433-R437). -/
structure Handicap where
  unlocked : Bool
  ctrl : BitVec 5
  jitter : Word
  backpressure : BitVec 24
  pdPorts : BitVec 4
  pdMax : Byte
  seed : Word
  delayed : Word
  pdDelayed : Word
  changed : Bool
  cycle : Nat
  /-- register writes that take effect at the next tick boundary: register, value (R437) -/
  queue : List (Nat × Word)
  deriving DecidableEq, Repr

/-- What a master keeps of one member (R424, R426). -/
structure Member where
  present : Bool
  lastSeen : Nat
  lost : Bool
  frame : Option StackStateFrame
  deriving DecidableEq, Repr

/-- The stack link: position, members and master as this device sees them (R133, R422-R427). -/
structure Stack where
  position : BitVec 2
  size : Nat
  fsw0 : Nat
  masterless : Option Nat
  lastControl : Option Nat
  masterLost : Bool
  /-- a member's control frames that wait for their effective tick, each with the tick of its stamp (R423) -/
  control : List (Nat × StackControl)
  /-- a master's control frames of the last decision, a member's last state frame (R423, R424) -/
  out : List StackControl
  stateOut : Option StackStateFrame
  members : Vector Member 4
  sizeRecorded : Bool
  /-- pulses that the master has driven on STK_SYNC and lane die 0 has repeated on the internal line (R133) -/
  syncPulses : Word
  deriving DecidableEq, Repr

/-! ### The hub (18_reset_and_keeper, 03_power_path) -/

/-- The hub die: unpowered, held in reset, booted and waiting for its first decision, running, or halted (R416). -/
inductive Hub where
  | off
  | held (cause : Nat) (warm : Bool)
  | booted (cause : Nat) (warm : Bool)
  | running
  | halted
  deriving DecidableEq, Repr

/-- The hub's own running state (01_architecture, 03_power_path). -/
structure HubSt where
  hub : Hub
  shelf : ShelfId
  boots : Half
  cause : Nat
  warmBoot : Bool
  /-- samples of VSEL with their ticks, newest first (R63) -/
  vsel : List (Nat × Fin 8)
  vselCode : Option (Fin 8)
  /-- final and present value of the SYS target (R65) -/
  sysFinal : Volt
  sysTarget : Volt
  pgoodOnce : Bool
  pSys : Watt
  pCorr : Watt
  dormSince : Option Nat
  sysAvg : Volt
  /-- the tick whose decision is the next one (R13) -/
  nextDecision : Nat
  /-- tick and housekeeping round of the first decision -/
  firstTick : Nat
  firstRound : Nat
  /-- share trims of the lanes (R84) -/
  trims : Vector Volt 4
  resetAt : Option (Nat × Bool)
  /-- the mode of the last decision (R198, R209) -/
  lastMode : Option Mode
  panelVop : Volt
  panelVoc : Volt
  panelLast : Watt
  panelDir : Int
  /-- mean ACIN input power of the last tracking interval, none before the first has ended (R147) -/
  panelMean : Option Watt
  /-- the pair has closed in this mode; the tick of that closing while its scan is due; the tick of the last scan (R152) -/
  panelSeen : Bool
  panelOnce : Option Nat
  panelScanAt : Nat
  diodePending : Bool
  /-- the battery lane has been started with the ideal diode on, which goes off once the lane regulates (R20) -/
  batRestart : Bool
  deriving DecidableEq, Repr

/-- The whole block. `pending` is the queue of commands that wait, first in first out. -/
structure State where
  pending : List Instr
  time : Time
  events : List Event
  lanes : Vector LaneDie 4
  portDies : Vector PortDieSt 2
  ports : Vector PortSt 4
  conns : Vector Conn 7
  nodes : Vector Node 4
  pdOut : List PdTx
  aon : Aon
  hub : HubSt
  keep : Keep
  charge : Charge
  gauge : Gauge
  fcst : Forecast
  therm : Therm
  trunk : Trunk
  tel : Tel
  host : HostIf
  cfg : Cfg
  flash : Flash
  ledger : Ledger
  update : Update
  otp : Otp
  timers : TimerUnit
  wdg : Wdg
  hnd : Handicap
  stack : Stack
  freeCtr : Nat
  deriving DecidableEq, Repr

/-! ### Reasons a step can stop -/

/-- A fault stops the machine. No command of the table has one in this manual. -/
inductive Fault where
  /-- Raised by no meaning: the manual answers every access outside the map with a violation (R337) and every
  protective reaction with an effect on the state. Safe, since no run ends in it. -/
  | noSuchAddress
  deriving DecidableEq, Repr

/-- A refusal gives a command no meaning. -/
inductive Refusal where
  /-- Raised by an arm of `exec` whose command has no meaning yet, with the command's name in the table. Safe:
  nothing can be proved about a run through it. -/
  | notModelled (mnemonic : String)
  deriving DecidableEq, Repr

/-! ### Reset values -/

def LaneOrder.zero : LaneOrder :=
  { dir := .draw, role := .drawHold, target := 0, slew := 0, iSlew := 10, sysTarget := 0, droop := 0, alloc := 0, iSrc := 0
    vSagEff := 0, vLost := 0, iSet := 0, cvTarget := 0, iDis := 0, kL := 1, feedCeil := 0, floor := 0
    warm := false, stepPending := false, iBias := 0, biasSlew := 0, trim := 0, pBase := 0, vKnee := 0
    vFloor := 0, vFnl := 0, vFfl := 0, cFeed := 0, shared := false }

def Phase.zero : Phase :=
  { st := .cold, drive := .mid, ipkEnded := false, kind := none, admitting := false, toWarm := false, admitNext := false, faultDue := none, share := 8, iPk := 0, slope := 0, fwd := true, trim := 0, angle := 0
    sinceAdmit := 0, ipkRun := 0, openRun := 0, rangeRun := 0, deadRun := 0, iAvg := 0, tEs := 0, tEsMin := 0, tEsMax := 0 }

def Loop.zero : Loop :=
  { integ := 0, dfilt := 0, ePrev := 0, iv := 0, iCmd := 0, iNext := 0, reload := false, integB := 0, dfiltB := 0, ePrevB := 0, iBat := 0
    cvActive := false, sagActive := false, cSrc := 0, cSag := 0, sagSince := none, cFloor := 0, target := 0, alloc := 0
    iSet := 0, iSrc := 0, iDis := 0, feedCeil := 0, iBias := 0, laneCeil := 0, rampA := none, rampRate := 0, sys := 0, vinl := 0, iLane := 0, taps := [], feeds := [] }

def Field.zero : Field :=
  { rot := 0, hist := [], shed := none, shedAbort := false, skipExitDue := false, shedInhibit := none, shedHold := 0, sinceAdd := 0, sinceShed := 0
    coldHold := 0, fillFrom := none, retireNext := [], stepArmed := true, regRun := 0
    inReg := false, skipping := false, skipRun := 0, pulses := [], ceilOkRun := 0, headroomHold := false
    periods := 0, sinceTrim := 0, benchCold := false }

/-- A lane die in its own reset (R39, R412): stopped, every bench phase cold, no setpoint received. -/
def LaneDie.zero : LaneDie :=
  { tick := 0, got := false, holdTenths := 20, up := false, run := .stopped, psen := false, onLine := false
    order := .zero, region := .buck, regionRun := Vector.replicate 3 0, loop := .zero, field := .zero
    phases := Vector.replicate 4 .zero, truncating := false, drooping := false
    faults := [], outOfService := false, otTimes := [], shut := false, shutDie := false, shutTsl := false, latched := false
    tempDie := 25, tempTsl := 25, dieOk := true, tslOk := true, okRounds := 0, chargePrev := false, removalSeen := false
    backstop := { counted := 0, idle := 0, tripped := false }, keeper := none, droopLaw := false
    stackLocked := false, syncRun := 0, periodAdj := 0, periodSteps := 0, frames := [], newSet := [], lag := 0, unresponsive := false
    diag := { late := 0, shedAborts := 0, currentLimits := 0, truncations := 0, skipEntries := 0
              stageFaults := 0, syncLosses := 0 } }

def Conn.zero : Conn :=
  { pair := .opened, energising := false, slew := 0, qualified := false, known := false, vExp := 5, vOld := none, v := 0, i := 0, lockedOut := false
    trips := [], lastTrip := none, tripOpen := false, iLearn := none, learnSince := 0, joinFails := 0
    retryAt := 0, detached := false }

def Contract.zero : Contract := { kind := .none, pos := 0, v := 5, i := 0 }

/-- A Type-C port before its die runs: dead-battery Rd on CC (R40), unattached. -/
def PortSt.zero : PortSt :=
  { cc := .rd, deadRd := false, attach := .unattached, seen := false, attachRole := .unattached, cc2 := false
    rpSeen := .default, bc12 := .none, bcRunning := false, softened := false, dfp := false
    vconn := false, vconnTripped := false, rev2 := false, heard := false, lastTx := none, retries := 0, txNg := false, epr := false, eprTried := false, cable5 := false
    cableEpr := false, cableTries := 0, contract := .zero, caps := none, sinkDual := false, sinkUnc := false, transition := false, transEnd := 0, hrActive := false, hrAt := none, tryWait := false
    lastReq := none, objMax := 0, frsSignal := false, feedReady := false, hadContract := false
    cableKnown := false, wait := .idle
    hardResets := 0, hrSince := 0, srSince := 0, capsCount := 0, swap := none, swapTried := false
    lastSwapStep := 0, feeding := false, feedTarget := 0, disch := false, mux := 0, tmode := false, frsAmp := 0 }

def PortDieSt.zero : PortDieSt :=
  { tick := 0, up := false, got := false, holdTenths := 20, shut := false, temp := 25, tempOk := true, okRounds := 0
    keeper := none, frames := [], lag := 0, unresponsive := false, vconnSupply := true, late := 0
    softResets := 0, pdCrc := 0, trips := 0, badTa := 0, badTb := 0, dropped := 0 }

def Node.zero : Node :=
  { selected := none, change := none, challengers := [], srcTrim := 0, feeding := none, drain := false, openedAt := 0, hold := false, allocW := 0
    sent := none }

def Charge.zero : Charge :=
  { phase := .idle, causes := 0, window := .normal, trickleS := 0, preS := 0, fastS := 0, fastBudgetS := 0
    restartUsed := false, thermal := false, clearSince := none, iHost := 0, iSet := 0, iReq := 0
    cvTarget := 0, vIrc := 0, iTrim := 0, vTrim := 0, present := false, removals := [], requalAfter := 0, ntcGap := false
    startRound := false, realS := 0, backAck := false, reduction := 0 }

def Gauge.zero : Gauge :=
  { sum := 0, capSum := 0, capTick := 0, lastTick := 0, roundSum := 0, qRem := 0, qFcc := 0
    socQualified := false, capLearned := false, impLearned := false, rPack := 0, rRef := 0, rRefTemp := 25
    events := [], evCount := 0, samples := [], sinceEvent := 0, batid := none, batidNow := 0, storedSoc := none
    throughputAh := 0, anchorRest := none, anchorTerm := false, sinceAnchorAh := 0, restSince := none
    restDone := false, iSum := 0, vSum := 0, nRound := 0, iMeas := 0, vBat := 0, lastRecR := 0
    lastRecSoc := 0, lastRecTick := 0, collapseRun := 0 }

def Forecast.zero : Forecast :=
  { locked := false, run := 0, fresh := true, block := 0, blockStart := 0, lastFrame := none, demands := [], waiting := []
    allowances := [], sent := [], revoked := false, pSus := 0, pBat := 0, hdrm := false, lastSeq := 0
    lastN := 0, fdo := [], lastHanded := 0, blockCode := 1, prepared := [], prep := [], biasFrom := none, hdrmBlock := none, lowered := false, pBaseSeen := 5, handed := 0
    discarded := 0, steps := 0, revokedSent := 0, hdrmBlocks := 0, crcErr := 0, verErr := 0, lenErr := 0
    intErr := 0, lateFrames := 0 }

def Therm.zero : Therm :=
  { kP := Vector.replicate 2 1, hubT := 25, hubOk := true, hubShut := false
    hubOkRounds := 0, hubDiv := 1, flashT := 25, flashOk := true, flashShut := false, flashOkRounds := 0
    flashHalf := false, tb := Vector.replicate 2 25, tbOk := Vector.replicate 2 false
    kL := Vector.replicate 4 1, round := 0, roundTick := 0, info := none }

def Link.zero : Link :=
  { up := false, upAt := 0, lastRx := 0, neighbour := none, queue := [], backlog := [], delays := [], asked := []
    reqNext := false, helloDue := 0, flow := 0, out := [] }

def TrunkDue.zero : TrunkDue :=
  { beacon := 0, bulletin := 0, claim := 0, unrostered := 0, fragment := 0, ack := 0, kickoff := 0, report := none }

def Trunk.zero : Trunk :=
  { links := Vector.replicate 2 .zero, seen := [], nodeId := 1, derivedId := none, seq := 0, captain := none, captainUnit := 0
    isCaptain := false, claiming := none, betterClaim := none, lastBeacon := none, hopsBeacon := 0, beaconNo := 0
    fleetEpoch := 0, epoch := 0, roster := [], sessions := [], sessionId := 0, unrostered := [], constDiffer := false
    constRecorded := false, dupId := false, unrost := false, pBase := 5, leaseEnd := 0, session := 0xFF
    pendingGrant := none, feedingTrunk := false, busQualified := false, busKnown := false, capZeroSince := none, due := .zero
    relay := false, relayLeft := [], relayPass := 0, resend := [], kickoffBroadcast := false, ackStates := []
    inboxSeq := 0, inboxLost := 0 }

def Channel.zero : Channel :=
  { k := 4, sum := 0, n := 0, last := none, rounds := [], max := none, min := none, count := 0, seq := 0, heldMax := none, heldMin := none
    block := #v[0x80000000, 0x80000000, 0x80000000, 0x80000000, 0, 0, 4, 0] }

def Tel.zero : Tel :=
  { chans := Vector.replicate 96 .zero, frozen := false, pending := false, pendingAt := 0, ignored := false, capTick := 0
    capSeq := 0, frozenAt := 0, streams := Vector.replicate 3 none, latch := Vector.replicate 3 none
    dropped := 0 }

def Mbx.zero : Mbx :=
  { ackCode := 0, ackSeq := 0xFFFF, uackCode := 0, uackSeq := 0xFFFF, st := .idle, ubusy := false, overrun := false
    lastSeq := 0xFFFF, lastOp := 0, lastCode := 0, taken := 0, completed := 0, overruns := 0, duplicates := 0
    running := none }

def Viol.zero : Viol :=
  { addr := 0, valid := false, iface := 0, kind := 0, write := false, tick := 0, count := 0 }

def HostIf.zero : HostIf :=
  { mbx := Vector.replicate 8 .zero, rings := [], dbMask := 0, hdbOut := 0, hdbMask := 0xFFFFFFFF, mem := []
    viol := .zero, out := Vector.replicate 3 [], spiDiscards := 0, uartDiscards := 0, lastStatus := 0 }

def Cfg.zero : Cfg :=
  { inForce := [], staged := [], pending := [], applying := [], stoppedBy := Vector.replicate 15 none, phaseFitted := 0
    connFitted := 0, stackSize := 1, keeperHold := 20 }

def Shelf.blank : Shelf :=
  { hwType := 0xFFFFFFFF, version := Vector.replicate 3 0xFF, sha := List.replicate 32 0xFF, actSeq := 0, policy := 0xFF
    headerOk := false, complete := false, armed := false, trial := false, confirmed := false, retired := false
    attempts := 0, length := 0, sectors := [] }

/-- SHA-256 of an image of no bytes (log entry 20). -/
def shaEmpty : List Byte :=
  [0xe3, 0xb0, 0xc4, 0x42, 0x98, 0xfc, 0x1c, 0x14, 0x9a, 0xfb, 0xf4, 0xc8, 0x99, 0x6f, 0xb9, 0x24,
   0x27, 0xae, 0x41, 0xe4, 0x64, 0x9b, 0x93, 0x4c, 0xa4, 0x95, 0x99, 0x1b, 0x78, 0x52, 0xb8, 0x55]

/-- The shelf as it leaves the factory: 2.4.0, complete and confirmed (R1; log entry 20). -/
def Shelf.factory : Shelf :=
  { Shelf.blank with sha := shaEmpty, hwType := 0x00B07200, version := #v[2, 4, 0], actSeq := 1, policy := 0
                     headerOk := true, complete := true, confirmed := true }

def Flash.zero : Flash :=
  { busy := none, queue := [], background := none, suspended := false, ledger := [], ledgerSlot := 0, ledgerErased := true
    cat := Vector.replicate 2 [], learned := Vector.replicate 2 [], learnedActive := 0
    shelves := #v[Shelf.factory, Shelf.blank], blackBox := [], stagingErased := true, journal := [] }

def Ledger.zero : Ledger := { next := 65, refused := 0, queue := [], dropped := 0, firstLost := 0, deferred := [] }

def Update.zero : Update :=
  { st := .idle, reason := 0, tag := 0, manifest := [], blocks := [], built := [], partials := [], signature := []
    kickoff := none, kickDone := false, relayed := false, fragments := [], relayLength := 0, origin := 0, window := false
    spoiled := false, wdgSpoiled := false, target := 1 }

def Otp.factory : Otp :=
  { unit := 0, hwType := 0x00B07200, keys := Vector.replicate 3 (0, 0), revoked := 0
    floor := Vector.replicate 3 0, floorRaises := 0 }

def Tmr.zero : Tmr :=
  { cnt := 0, ctl := 0, cmp := Vector.replicate 4 0, cap := 0, stat := 0, presc := 0
    act := { reset := false, stop := false, start := false } }

def TimerUnit.zero : TimerUnit :=
  { tmr := Vector.replicate 16 .zero, capSeq := 0, capTick := 0, capSub := 0, fleetCap := 0, evts := [] }

def Wdg.zero : Wdg :=
  { window := 500, nextWindow := 500, lineup := 1, locked := false, seen := 0, double := 0, armed := false
    elapsed := none, keyRefused := 0, badKey := 0, rstCount := 0, doubleTally := 0, lastMissing := 0
    lastDouble := 0, lastTick := 0, lastWindow := 0, expired := false }

def Handicap.zero : Handicap :=
  { unlocked := false, ctrl := 0, jitter := 0, backpressure := 0, pdPorts := 0, pdMax := 0, seed := 1
    delayed := 0, pdDelayed := 0, changed := false, cycle := 0, queue := [] }

def Stack.zero : Stack :=
  { position := 0, size := 1, fsw0 := 0, masterless := none, lastControl := none, masterLost := false
    control := [], out := [], stateOut := none, members := Vector.replicate 4 { present := false, lastSeen := 0, lost := false, frame := none }
    sizeRecorded := false, syncPulses := 0 }

/-- Strap pins left open: the clamp voltage of log entry 116. -/
def BootPins.allOpen : Sys2Proof.BootPins := { i2cAddr := 3, stackId0 := 3, stackId1 := 3, testen := false, ftHigh := false }

def Straps.allOpen : Straps := { i2cAddr := .d, stackId0 := .d, stackId1 := .d, testen := false }

def Aon.zero : Aon :=
  { vpwr := false, vaon := false, vio := true, xtalLost := false, resetLow := false, railDown := Vector.replicate 2 false, retained := false, factoryTest := false
    shipFet := false, batfet := .off, diodeOn := false, softFrom := none
    softAbandoned := false, softRate := 0, safeLatch := false, present := Vector.replicate 3 false, request := none, mode := none
    pins := BootPins.allOpen, straps := Straps.allOpen, prevStraps := none, strapFault := false, wakeConn := none, wakeNSeen := false
    slots := [], slotSeq := 0, slotPending := [], pgood := true, stat0 := .off, stat1 := .off, statMs := 0
    sysTarget := 0, warmBoots := [], intervalUs := 0, limpFrom := none, vioUs := none, chargeMirror := none }

def HubSt.zero : HubSt :=
  { hub := .off, shelf := .a, boots := 0, cause := 0, warmBoot := false, vsel := [], vselCode := none
    sysFinal := 0, sysTarget := 0, pgoodOnce := false, pSys := 0, pCorr := 0, dormSince := none, sysAvg := 0
    nextDecision := 0, firstTick := 0, firstRound := 0, lastMode := none, trims := Vector.replicate 4 0, resetAt := none, panelVop := 0, panelVoc := 0, panelLast := 0, panelDir := 1
    panelMean := none, panelSeen := false, panelOnce := none, panelScanAt := 0, diodePending := false, batRestart := false }

def Keep.zero : Keep :=
  { rot := Vector.replicate 4 3, out := Vector.replicate 4 (Vector.replicate 4 none)
    trims := Vector.replicate 4 none, trimSince := Vector.replicate 4 none
    trimBad := Vector.replicate 4 false, trimDue := Vector.replicate 4 false }

/-- The machine unpowered: VPWR below its threshold, every register at its reset value (R39, R411, R442). -/
def State.reset : State :=
  { pending := []
    time := { tick := 0, edges := 0, fleetNs := 0, fleetRate := 1, fleetSet := false, fleetLocked := false
              fleetSteps := 0, fleetRun := 0 }
    events := [], lanes := Vector.replicate 4 .zero, portDies := Vector.replicate 2 .zero
    ports := Vector.replicate 4 .zero, conns := Vector.replicate 7 .zero, nodes := Vector.replicate 4 .zero
    pdOut := [], aon := .zero, hub := .zero, keep := .zero, charge := .zero, gauge := .zero, fcst := .zero, therm := .zero
    trunk := .zero, tel := .zero, host := .zero, cfg := .zero, flash := .zero, ledger := .zero
    update := .zero, otp := .factory, timers := .zero, wdg := .zero, hnd := .zero, stack := .zero, freeCtr := 0 }

end Sys2Proof.Machine
end

