-- ==== Sys2Proof/Machine/Operands.lean ====
section
/-! DEFINITION. Operand forms: little-endian fields of parameter blocks, frames and records (00_scope Conventions,
R339), and how a quantity is put into a field that counts steps. -/

namespace Sys2Proof.Machine

/-- Byte i of a list, 0 beyond its end. -/
def byteAt (b : List Byte) (i : Nat) : Nat := ((b[i]?).getD 0).toNat

def u8 (b : List Byte) (i : Nat) : Nat := byteAt b i

/-- Little-endian unsigned field of `n` bytes at offset i. -/
def leAt (b : List Byte) (i : Nat) : Nat → Nat
  | 0 => 0
  | n + 1 => byteAt b i + 256 * leAt b (i + 1) n

def u16 (b : List Byte) (i : Nat) : Nat := leAt b i 2
def u32 (b : List Byte) (i : Nat) : Nat := leAt b i 4
def u64 (b : List Byte) (i : Nat) : Nat := leAt b i 8

/-- Signed 32-bit field (R348). -/
def i32 (b : List Byte) (i : Nat) : Int := (BitVec.ofNat 32 (u32 b i)).toInt

/-- Signed 16-bit field. -/
def i16 (b : List Byte) (i : Nat) : Int := (BitVec.ofNat 16 (u16 b i)).toInt

/-- `n` bytes of a value, least significant first; bits above the field are dropped. -/
def leBytes : Nat → Nat → List Byte
  | 0, _ => []
  | n + 1, v => BitVec.ofNat 8 v :: leBytes n (v / 256)

def le16 (v : Nat) : List Byte := leBytes 2 v
def le32 (v : Nat) : List Byte := leBytes 4 v
def le64 (v : Nat) : List Byte := leBytes 8 v

/-- Two's complement fields. -/
def sle (n : Nat) (v : Int) : List Byte := leBytes n (v % (256 ^ n : Nat)).toNat

/-- Big-endian value of a byte string (R398: r and s, most significant byte first). -/
def beNat (b : List Byte) : Nat := b.foldl (fun a x => a * 256 + x.toNat) 0

/-- `b` cut or padded with zero bytes to exactly `n` bytes. -/
def padTo (n : Nat) (b : List Byte) : List Byte := (b ++ List.replicate (n - b.length) 0).take n

/-- The bytes [i, i + n) of a block, zero beyond its end. -/
def slice (b : List Byte) (i n : Nat) : List Byte := padTo n (b.drop i)

/-- A quantity counted in whole steps: exact where it is a whole number of steps, else one of its two neighbours
by the open direction `Config.roundUp` (log entry 6). -/
def quant (x : Rat) : Int := if (x.floor : Rat) = x then x.floor else if Config.roundUp x then x.floor + 1 else x.floor

/-- Division by a measured value; the quotient by zero is open (log entry 5). -/
def ratio (a b : Rat) : Rat := if b = 0 then Config.divByZero a else a / b

/-- `quant` of a quantity in steps of `step`. -/
def inSteps (x step : Rat) : Int := quant (x / step)

/-- Field of n bytes that counts steps, in two's complement. -/
def qle (n : Nat) (x step : Rat) : List Byte := sle n (inSteps x step)

def boolBit (b : Bool) (k : Nat) : Nat := if b then 2 ^ k else 0

def boolByte (b : Bool) : Byte := if b then 1 else 0

def clampR (lo hi x : Rat) : Rat := max lo (min hi x)

/-- Sum and mean of lists of rationals. -/
def sumR (l : List Rat) : Rat := l.foldl (· + ·) 0
def meanR (l : List Rat) : Rat := if l.isEmpty then 0 else sumR l / l.length
def maxR (d : Rat) (l : List Rat) : Rat := match l with | [] => d | x :: r => r.foldl max x
def minR (d : Rat) (l : List Rat) : Rat := match l with | [] => d | x :: r => r.foldl min x

/-- A slewed value one step nearer its final value. -/
def slewTo (cur fin step : Rat) : Rat :=
  if cur < fin then min fin (cur + step) else max fin (cur - step)

/-- Order of 12-bit, 16-bit and 32-bit serial numbers: a value less than half the range ahead is later (R12). -/
def ahead32 (a b : Nat) : Bool := (a + 2 ^ 32 - b % 2 ^ 32) % 2 ^ 32 < 2 ^ 31

/-- Saturating counter. -/
def satInc (bits : Nat) (n : Nat) : Nat := min (n + 1) (2 ^ bits - 1)
def bvSatInc {w : Nat} (b : BitVec w) : BitVec w := if b = BitVec.allOnes w then b else b + 1

end Sys2Proof.Machine
end

