-- ==== Sys2Proof/Machine/Checks.lean ====
section
/-! DEFINITION. The published checks the manual names (00_scope Standards): CRC-8, CRC-16/CCITT, CRC-32C, SHA-256
(FIPS 180-4) and ECDSA over P-256 (FIPS 186-5). -/

namespace Sys2Proof.Machine

/-! ### Cyclic redundancy checks -/

/-- One bit of an MSB-first CRC of width w. -/
def crcShift {w : Nat} (poly : BitVec w) (c : BitVec w) : BitVec w :=
  if c.msb then (c <<< 1) ^^^ poly else c <<< 1

def crcByte {w : Nat} (poly : BitVec w) (c : BitVec w) (b : Byte) : BitVec w :=
  (List.range 8).foldl (fun a _ => crcShift poly a) (c ^^^ (b.setWidth w <<< (w - 8)))

def crcMsb {w : Nat} (poly init : BitVec w) (d : List Byte) : BitVec w := d.foldl (crcByte poly) init

/-- CRC-8, polynomial 0x07, initial value 0 (R324). -/
def crc8 (d : List Byte) : Byte := crcMsb (0x07 : BitVec 8) 0 d

/-- CRC-16/CCITT, polynomial 0x1021, initial value 0xFFFF. -/
def crc16 (d : List Byte) : Half := crcMsb (0x1021 : BitVec 16) 0xFFFF d

def crc32cShift (c : Word) : Word := if c.getLsbD 0 then (c >>> 1) ^^^ 0x82F63B78 else c >>> 1

def crc32cByte (c : Word) (b : Byte) : Word :=
  (List.range 8).foldl (fun a _ => crc32cShift a) (c ^^^ b.setWidth 32)

/-- CRC-32C: reflected polynomial 0x82F63B78, initial value and final mask all ones. -/
def crc32c (d : List Byte) : Word := ~~~ (d.foldl crc32cByte 0xFFFFFFFF)

/-! ### SHA-256 -/

def shaK : List Word :=
  [0x428a2f98, 0x71374491, 0xb5c0fbcf, 0xe9b5dba5, 0x3956c25b, 0x59f111f1, 0x923f82a4, 0xab1c5ed5] ++
  [0xd807aa98, 0x12835b01, 0x243185be, 0x550c7dc3, 0x72be5d74, 0x80deb1fe, 0x9bdc06a7, 0xc19bf174] ++
  [0xe49b69c1, 0xefbe4786, 0x0fc19dc6, 0x240ca1cc, 0x2de92c6f, 0x4a7484aa, 0x5cb0a9dc, 0x76f988da] ++
  [0x983e5152, 0xa831c66d, 0xb00327c8, 0xbf597fc7, 0xc6e00bf3, 0xd5a79147, 0x06ca6351, 0x14292967] ++
  [0x27b70a85, 0x2e1b2138, 0x4d2c6dfc, 0x53380d13, 0x650a7354, 0x766a0abb, 0x81c2c92e, 0x92722c85] ++
  [0xa2bfe8a1, 0xa81a664b, 0xc24b8b70, 0xc76c51a3, 0xd192e819, 0xd6990624, 0xf40e3585, 0x106aa070] ++
  [0x19a4c116, 0x1e376c08, 0x2748774c, 0x34b0bcb5, 0x391c0cb3, 0x4ed8aa4a, 0x5b9cca4f, 0x682e6ff3] ++
  [0x748f82ee, 0x78a5636f, 0x84c87814, 0x8cc70208, 0x90befffa, 0xa4506ceb, 0xbef9a3f7, 0xc67178f2]

/-- The eight working words of FIPS 180-4. -/
structure ShaState where
  a : Word
  b : Word
  c : Word
  d : Word
  e : Word
  f : Word
  g : Word
  h : Word
  deriving DecidableEq, Repr

def shaInit : ShaState :=
  { a := 0x6a09e667, b := 0xbb67ae85, c := 0x3c6ef372, d := 0xa54ff53a
    e := 0x510e527f, f := 0x9b05688c, g := 0x1f83d9ab, h := 0x5be0cd19 }

def shaRound (s : ShaState) (kw : Word) : ShaState :=
  let s1 := s.e.rotateRight 6 ^^^ s.e.rotateRight 11 ^^^ s.e.rotateRight 25
  let ch := (s.e &&& s.f) ^^^ (~~~ s.e &&& s.g)
  let t1 := s.h + s1 + ch + kw
  let s0 := s.a.rotateRight 2 ^^^ s.a.rotateRight 13 ^^^ s.a.rotateRight 22
  let mj := (s.a &&& s.b) ^^^ (s.a &&& s.c) ^^^ (s.b &&& s.c)
  { a := t1 + s0 + mj, b := s.a, c := s.b, d := s.c, e := s.d + t1, f := s.e, g := s.f, h := s.g }

/-- Message schedule, newest word first, `n` words still to add. -/
def shaExtend : Nat → List Word → List Word
  | 0, w => w
  | n + 1, w =>
    let x : Nat → Word := fun i => (w[i]?).getD 0
    let s0 := (x 14).rotateRight 7 ^^^ (x 14).rotateRight 18 ^^^ ((x 14) >>> 3)
    let s1 := (x 1).rotateRight 17 ^^^ (x 1).rotateRight 19 ^^^ ((x 1) >>> 10)
    shaExtend n ((x 15 + s0 + x 6 + s1) :: w)

def beWord (b : List Byte) (i : Nat) : Word :=
  BitVec.ofNat 32 (byteAt b (4 * i) * 16777216 + byteAt b (4 * i + 1) * 65536 + byteAt b (4 * i + 2) * 256 +
    byteAt b (4 * i + 3))

def shaBlock (s : ShaState) (b : List Byte) : ShaState :=
  let w := (shaExtend 48 ((List.range 16).map (beWord b)).reverse).reverse
  let r := (List.zipWith (fun k x => k + x) shaK w).foldl shaRound s
  { a := s.a + r.a, b := s.b + r.b, c := s.c + r.c, d := s.d + r.d
    e := s.e + r.e, f := s.f + r.f, g := s.g + r.g, h := s.h + r.h }

def shaBlocks : Nat → ShaState → List Byte → ShaState
  | 0, s, _ => s
  | n + 1, s, b => shaBlocks n (shaBlock s (b.take 64)) (b.drop 64)

def beBytes (n : Nat) (v : Nat) : List Byte := (leBytes n v).reverse

/-- SHA-256 of a byte string, 32 bytes. -/
def sha256 (m : List Byte) : List Byte :=
  let z := (119 - m.length % 64) % 64
  let p := m ++ [0x80] ++ List.replicate z 0 ++ beBytes 8 (8 * m.length)
  let s := shaBlocks (p.length / 64) shaInit p
  [s.a, s.b, s.c, s.d, s.e, s.f, s.g, s.h].flatMap (fun w => beBytes 4 w.toNat)

/-! ### ECDSA over P-256 -/

def p256P : Nat := 0xffffffff00000001000000000000000000000000ffffffffffffffffffffffff
def p256N : Nat := 0xffffffff00000000ffffffffffffffffbce6faada7179e84f3b9cac2fc632551
def p256B : Nat := 0x5ac635d8aa3a93e7b3ebbd55769886bc651d06b0cc53b0f63bce3c3e27d2604b
def p256G : Nat × Nat :=
  (0x6b17d1f2e12c4247f8bce6e563a440f277037d812deb33a0f4a13945d898c296,
   0x4fe342e2fe1a7f9b8ee7eb4a7c0f9e162bce33576b315ececbb6406837bf51f5)

/-- x^e mod m over the 256 low bits of e, most significant first. -/
def powMod (m x e : Nat) : Nat :=
  (List.range 256).foldl (fun a i =>
    let q := a * a % m
    if e.testBit (255 - i) then q * x % m else q) (1 % m)

def invMod (m x : Nat) : Nat := powMod m (x % m) (m - 2)

/-- Addition of affine points of P-256; none is the point at infinity. -/
def ecAdd (a b : Option (Nat × Nat)) : Option (Nat × Nat) :=
  match a, b with
  | none, q => q
  | p, none => p
  | some (x1, y1), some (x2, y2) =>
    if x1 = x2 ∧ (y1 + y2) % p256P = 0 then none
    else
      let l := if x1 = x2 then (3 * x1 * x1 + (p256P - 3)) * invMod p256P (2 * y1) % p256P
               else (y2 + p256P - y1) * invMod p256P (x2 + p256P - x1) % p256P
      let x3 := (l * l + 2 * p256P - x1 - x2) % p256P
      some (x3, (l * (x1 + p256P - x3) + p256P - y1) % p256P)

def ecMul (k : Nat) (p : Option (Nat × Nat)) : Option (Nat × Nat) :=
  (List.range 256).foldl (fun a i =>
    let d := ecAdd a a
    if k.testBit (255 - i) then ecAdd d p else d) none

def onCurve (q : Nat × Nat) : Bool :=
  q.1 < p256P && q.2 < p256P && (q.2 * q.2 % p256P == (q.1 * q.1 % p256P * q.1 + (p256P - 3) * q.1 + p256B) % p256P)

/-- Signature (r, s) over a message with public key q (R400). -/
def ecdsaVerify (msg : List Byte) (r s : Nat) (q : Nat × Nat) : Bool :=
  if r = 0 ∨ s = 0 ∨ p256N ≤ r ∨ p256N ≤ s ∨ !onCurve q then false
  else
    let e := beNat (sha256 msg)
    let w := invMod p256N s
    match ecAdd (ecMul (e * w % p256N) (some p256G)) (ecMul (r * w % p256N) (some q)) with
    | none => false
    | some (x, _) => x % p256N == r

end Sys2Proof.Machine
end

