-- ==== Sys2Proof/Machine/Settings.lean ====
section
/-! DEFINITION. Configuration: every setting's index, encoded range, default and moment of effect (R55, R108, R130,
R138, R139, R163, R194, R218, R252, R288, R304, R317, R347, R348), reading them, and the checks of FUNC_START. -/

namespace Sys2Proof.Machine

/-- When a new value applies ("Takes effect" columns, R55, R108, R138, R163). -/
inductive TakesEffect where
  | funcStart | coldBoot | laneStart | pairClosing | nextAttach
  deriving DecidableEq, Repr

/-- One setting: encoded default, least and greatest code, moment of effect, number of elements. -/
structure SetInfo where
  dflt : Int
  lo : Int
  hi : Int
  takes : TakesEffect := .funcStart
  elems : Nat := 1
  deriving DecidableEq, Repr

/-- CHG (R194, R218), in the index order of R347. -/
def chgSettings : List SetInfo :=
  [⟨0, 0, 1, .funcStart, 1⟩, ⟨0, 0, 1, .coldBoot, 1⟩, ⟨3, 3, 16, .coldBoot, 1⟩, ⟨820, 700, 890, .funcStart, 1⟩,
   ⟨20, 2, 2000, .funcStart, 1⟩, ⟨5, 2, 20, .funcStart, 1⟩, ⟨1, 0, 5, .funcStart, 1⟩, ⟨4, 1, 8, .funcStart, 1⟩,
   ⟨12, 1, 19, .funcStart, 1⟩, ⟨0, -20, 20, .funcStart, 1⟩, ⟨10, -10, 30, .funcStart, 1⟩,
   ⟨45, 30, 60, .funcStart, 1⟩, ⟨55, 35, 65, .funcStart, 1⟩, ⟨0, 0, 1, .funcStart, 1⟩, ⟨4, 0, 10, .funcStart, 1⟩,
   ⟨1, 0, 1, .funcStart, 1⟩, ⟨100, 10, 500, .funcStart, 1⟩, ⟨20, 5, 5000, .funcStart, 1⟩,
   ⟨10, 1, 100, .funcStart, 1⟩, ⟨0, 0, 65535, .funcStart, 1⟩, ⟨0, 0, 65535, .funcStart, 1⟩]

/-- PATH (R55). FARNODE's codes are checked by `farNodeCode`. -/
def pathSettings : List SetInfo :=
  [⟨0, 0, 1, .coldBoot, 1⟩, ⟨0, 0, 0x1F0F, .coldBoot, 4⟩, ⟨0, 0, 4, .coldBoot, 1⟩, ⟨480, 100, 1200, .funcStart, 8⟩,
   ⟨10, 1, 100, .funcStart, 1⟩, ⟨5, 1, 20, .funcStart, 1⟩, ⟨2, 1, 20, .funcStart, 1⟩, ⟨200, 50, 600, .funcStart, 1⟩,
   ⟨5, 2, 15, .funcStart, 1⟩, ⟨0, 0, 300, .funcStart, 1⟩, ⟨6, 1, 100, .funcStart, 1⟩, ⟨10, 0, 240, .funcStart, 1⟩,
   ⟨4, 1, 20, .funcStart, 1⟩, ⟨2, 0, 60, .funcStart, 1⟩]

/-- LANE0-LANE3 (R108, R130). -/
def laneSettings : List SetInfo :=
  [⟨400, 150, 1200, .laneStart, 1⟩, ⟨0, 0, 1, .laneStart, 1⟩, ⟨100, 25, 200, .laneStart, 1⟩,
   ⟨50, 20, 100, .laneStart, 1⟩, ⟨220, 22, 2200, .laneStart, 1⟩, ⟨64, 0, 320, .laneStart, 1⟩,
   ⟨24, 8, 200, .laneStart, 1⟩, ⟨32, 8, 200, .laneStart, 1⟩, ⟨80, 8, 160, .funcStart, 1⟩,
   ⟨40, 4, 120, .funcStart, 1⟩, ⟨-20, -80, 0, .funcStart, 1⟩, ⟨64, 0, 1024, .funcStart, 1⟩,
   ⟨64, 0, 1024, .funcStart, 1⟩, ⟨256, 0, 16384, .funcStart, 1⟩, ⟨256, 0, 16384, .funcStart, 1⟩,
   ⟨64, 0, 1024, .funcStart, 1⟩, ⟨64, 0, 1024, .funcStart, 1⟩, ⟨192, 0, 255, .funcStart, 1⟩,
   ⟨192, 0, 255, .funcStart, 1⟩, ⟨5, 0, 20, .funcStart, 1⟩, ⟨4, 1, 20, .funcStart, 1⟩, ⟨15, 5, 50, .funcStart, 1⟩,
   ⟨5, 2, 20, .funcStart, 1⟩, ⟨1, 0, 1, .funcStart, 1⟩, ⟨4, 1, 20, .funcStart, 1⟩, ⟨4, 1, 12, .funcStart, 1⟩,
   ⟨17, 10, 20, .funcStart, 1⟩, ⟨12, 4, 18, .funcStart, 1⟩, ⟨4, 1, 64, .funcStart, 1⟩, ⟨5, 1, 100, .funcStart, 1⟩,
   ⟨5, 0, 25, .funcStart, 1⟩, ⟨5, 1, 100, .funcStart, 1⟩, ⟨1, 1, 4, .funcStart, 1⟩, ⟨20, 5, 40, .funcStart, 1⟩,
   ⟨0, -40, 40, .laneStart, 4⟩]

/-- PORTC0-PORTC3 (R138, R163). -/
def portSettings : List SetInfo :=
  [⟨2, 0, 3, .funcStart, 1⟩, ⟨100, 10, 100, .funcStart, 1⟩, ⟨10, 2, 40, .pairClosing, 1⟩,
   ⟨10, 3, 20, .funcStart, 1⟩, ⟨2, 0, 2, .nextAttach, 1⟩, ⟨1, 0, 1, .nextAttach, 1⟩, ⟨480, 50, 480, .funcStart, 1⟩,
   ⟨1, 0, 1, .funcStart, 1⟩, ⟨15, 0, 240, .funcStart, 1⟩, ⟨0, 0, 1, .funcStart, 1⟩, ⟨0, 0, 1, .funcStart, 1⟩,
   ⟨0, 0, 1, .funcStart, 1⟩, ⟨0, 0, 2, .funcStart, 1⟩, ⟨0, 0, 1, .funcStart, 1⟩, ⟨0, 0, 1, .funcStart, 1⟩,
   ⟨1, 0, 1, .nextAttach, 1⟩, ⟨0, 0, 1, .nextAttach, 1⟩, ⟨0, 0, 1, .funcStart, 1⟩, ⟨0, 0, 0xFEFF, .funcStart, 1⟩,
   ⟨0, 0, 1, .funcStart, 1⟩]

/-- ACIN (R138, R139). -/
def acinSettings : List SetInfo :=
  [⟨2, 0, 3, .funcStart, 1⟩, ⟨200, 10, 1000, .funcStart, 1⟩, ⟨10, 2, 40, .pairClosing, 1⟩,
   ⟨10, 3, 20, .funcStart, 1⟩, ⟨0, 0, 1, .pairClosing, 1⟩, ⟨20, 9, 116, .funcStart, 1⟩, ⟨120, 12, 120, .funcStart, 1⟩,
   ⟨10, 1, 200, .funcStart, 1⟩, ⟨24, 12, 116, .funcStart, 1⟩, ⟨5, 1, 100, .funcStart, 1⟩, ⟨5, 1, 20, .funcStart, 1⟩,
   ⟨10, 0, 60, .funcStart, 1⟩]

/-- TRUNK (R138, R288). -/
def trunkSettings : List SetInfo :=
  [⟨2, 0, 3, .funcStart, 1⟩, ⟨0, 0, 1, .funcStart, 1⟩, ⟨0, 0, 4094, .funcStart, 1⟩, ⟨0, 0, 2, .funcStart, 1⟩,
   ⟨2, 0, 3, .funcStart, 1⟩, ⟨500, 260, 580, .funcStart, 1⟩, ⟨440, 240, 560, .funcStart, 1⟩,
   ⟨570, 280, 600, .funcStart, 1⟩, ⟨520, 270, 590, .funcStart, 1⟩, ⟨0, 0, 2000, .funcStart, 1⟩,
   ⟨10, 2, 200, .funcStart, 1⟩, ⟨50, 0, 2000, .funcStart, 1⟩, ⟨300, 20, 600, .funcStart, 1⟩,
   ⟨4, 2, 20, .pairClosing, 1⟩, ⟨10, 0, 30, .funcStart, 1⟩]

/-- FCST (R252). -/
def fcstSettings : List SetInfo :=
  [⟨0, 0, 1, .funcStart, 1⟩, ⟨1, 0, 2, .funcStart, 1⟩, ⟨10, 1, 200, .funcStart, 1⟩, ⟨6, 2, 20, .funcStart, 1⟩,
   ⟨5, 0, 20, .funcStart, 1⟩, ⟨200, 1, 2000, .funcStart, 1⟩, ⟨30, 0, 500, .funcStart, 1⟩,
   ⟨100, 1, 400, .funcStart, 1⟩, ⟨5, 0, 10, .funcStart, 1⟩]

/-- THERM (R304). -/
def thermSettings : List SetInfo :=
  [⟨110, 90, 125, .funcStart, 1⟩, ⟨10, 5, 20, .funcStart, 1⟩, ⟨5, 2, 10, .funcStart, 1⟩,
   ⟨125, 100, 145, .funcStart, 1⟩, ⟨110, 90, 130, .funcStart, 1⟩, ⟨100, 10, 1000, .funcStart, 1⟩,
   ⟨100, 10, 1000, .funcStart, 1⟩, ⟨3435, 2500, 5000, .funcStart, 1⟩, ⟨3435, 2500, 5000, .funcStart, 1⟩,
   ⟨100, 10, 1000, .funcStart, 1⟩, ⟨100, 10, 1000, .funcStart, 1⟩]

/-- TEL (R317). -/
def telSettings : List SetInfo := [⟨4, 0, 10, .funcStart, 96⟩, ⟨50, 1, 1000, .funcStart, 1⟩]

/-- The settings of a function (R347); board entries (function 15) are not among them. -/
def settingsOf (fn : Nat) : List SetInfo :=
  if fn = 0 then chgSettings else if fn = 1 then pathSettings else if fn ≤ 5 then laneSettings
  else if fn ≤ 9 then portSettings else if fn = 10 then acinSettings else if fn = 11 then trunkSettings
  else if fn = 12 then fcstSettings else if fn = 13 then thermSettings else if fn = 14 then telSettings else []

def settingInfo (fn idx : Nat) : Option SetInfo := (settingsOf fn)[idx]?

/-- FARNODE: kind in [3:0], 0 to 3, connector mask in [12:8] for PORT only, other bits reserved (R348). -/
def farNodeCode (v : Int) : Bool :=
  let n := v.toNat
  0 ≤ v && n % 16 ≤ 3 && n / 16 % 16 == 0 && n < 0x2000 && (n % 16 == 1 || n / 256 == 0)

/-- Whether a code can be staged for a setting (R348). -/
def codeAllowed (fn idx : Nat) (v : Int) : Bool :=
  match settingInfo fn idx with
  | none => false
  | some i => i.lo ≤ v && v ≤ i.hi && (!(fn == 1 && idx == 1) || farNodeCode v)

def settingDefault (fn idx : Nat) : Int := ((settingInfo fn idx).map (·.dflt)).getD 0

/-! ### Lists of entries -/

def entryKey (e : CfgEntry) (fn idx el : Nat) : Bool := e.fn == fn && e.idx == idx && e.elem == el

def entryBefore (a b : CfgEntry) : Bool :=
  a.fn < b.fn || (a.fn == b.fn && (a.idx < b.idx || (a.idx == b.idx && a.elem < b.elem)))

def findEntry (l : List CfgEntry) (fn idx el : Nat) : Option Int :=
  (l.find? (fun e => entryKey e fn idx el)).map (·.val)

/-- Insert or replace, keeping the list sorted by key. -/
def putEntry (e : CfgEntry) : List CfgEntry → List CfgEntry
  | [] => [e]
  | x :: r =>
    if entryKey x e.fn e.idx e.elem then e :: r
    else if entryBefore e x then e :: x :: r
    else x :: putEntry e r

def dropEntries (p : CfgEntry → Bool) (l : List CfgEntry) : List CfgEntry := l.filter (fun e => !p e)

/-- Values put in force: an entry equal to its unprogrammed default is not listed (R392). -/
def inForceWith (l : List CfgEntry) (new : List CfgEntry) : List CfgEntry :=
  new.foldl (fun acc e =>
    if e.val = settingDefault e.fn e.idx then dropEntries (fun x => entryKey x e.fn e.idx e.elem) acc
    else putEntry e acc) l

/-- The value in force of a setting (R348 code). -/
def Cfg.get (c : Cfg) (fn idx : Nat) (el : Nat := 0) : Int :=
  (findEntry c.inForce fn idx el).getD (settingDefault fn idx)

/-- The value in force in its unit: the code times the step of its table. -/
def Cfg.q (c : Cfg) (fn idx : Nat) (step : Rat) (el : Nat := 0) : Rat := c.get fn idx el * step

def Cfg.on (c : Cfg) (fn idx : Nat) : Bool := c.get fn idx == 1

/-- The value pending, else the one in force (R350). -/
def Cfg.pend (c : Cfg) (fn idx : Nat) (el : Nat := 0) : Int :=
  (findEntry c.pending fn idx el).getD (c.get fn idx el)

/-- The staged value, else the one in force (R350). -/
def Cfg.stg (c : Cfg) (fn idx : Nat) (el : Nat := 0) : Int :=
  (findEntry c.staged fn idx el).getD (c.get fn idx el)

/-! ### Far nodes -/

/-- Kinds of far node (R53). -/
inductive FarKind where
  | unused | port | trunk | battery
  deriving DecidableEq, Repr

def farKindOf (v : Int) : FarKind :=
  let k := v.toNat % 16
  if k = 1 then .port else if k = 2 then .trunk else if k = 3 then .battery else .unused

def farMaskOf (v : Int) : Nat := if v.toNat % 16 = 1 then v.toNat / 256 % 32 else 0

def Cfg.farKind (c : Cfg) (n : Lane) : FarKind := farKindOf (c.get 1 1 n.val)

/-- The gang map's pairs that hold lane n (R104, R348). -/
def gangMembers (g : Int) (n : Lane) : List Lane :=
  if g = 4 then [0, 1, 2, 3]
  else if n.val < 2 then (if g = 1 ∨ g = 3 then [0, 1] else [n])
  else (if g = 2 ∨ g = 3 then [2, 3] else [n])

def Cfg.gang (c : Cfg) (n : Lane) : List Lane := gangMembers (c.get 1 2) n

/-- The gang leader: the lowest lane of the gang (R104). -/
def Cfg.leader (c : Cfg) (n : Lane) : Lane := ((c.gang n).head?).getD n

/-- The far node that a connector is wired to, named by its leading lane: for C0-C3 and ACIN the PORT node with the
connector in its mask, for TA and TB the TRUNK node (R53, R54). -/
def Cfg.nodeOf (c : Cfg) (x : Src) : Option Lane :=
  (List.finRange 4).find? (fun n =>
    c.leader n == n &&
    (if x.val < 5 then c.farKind n == .port && (farMaskOf (c.get 1 1 n.val)).testBit x.val
     else c.farKind n == .trunk))

def Cfg.battLane (c : Cfg) : Option Lane :=
  (List.finRange 4).find? (fun n => c.leader n == n && c.farKind n == .battery)

def Cfg.trunkLane (c : Cfg) : Option Lane :=
  (List.finRange 4).find? (fun n => c.leader n == n && c.farKind n == .trunk)

def Cfg.supplement (c : Cfg) : Bool := c.get 1 0 == 1

def Cfg.laneFitted (c : Cfg) (n : Lane) : Bool :=
  (List.range 4).any (fun i => c.phaseFitted.getLsbD (4 * n.val + i))

def Cfg.connFit (c : Cfg) (x : Src) : Bool := c.connFitted.getLsbD x.val

/-- Function number of a connector's source settings (R138). -/
def srcFn (x : Src) : Nat := if x.val < 4 then 6 + x.val else if x.val = 4 then 10 else 11

/-! ### Natural logarithm for the NTC formula (R293), as a rational series (log entry 11) -/

/-- atanh series of z, 24 terms. -/
def atanhSeries (z : Rat) : Nat → Nat → Rat → Rat
  | 0, _, _ => 0
  | k + 1, n, p => p / (2 * n + 1) + atanhSeries z k (n + 1) (p * z * z)

/-- Cut to steps of 10^-12. -/
def cut12 (x : Rat) : Rat := ((x * 1000000000000).floor : Rat) / 1000000000000

def halve (y : Rat) : Nat → Rat × Int
  | 0 => (y, 0)
  | k + 1 => if 2 ≤ y then (let r := halve (y / 2) k; (r.1, r.2 + 1))
             else if y < 1 then (let r := halve (y * 2) k; (r.1, r.2 - 1)) else (y, 0)

/-- Natural logarithm of a positive rational, to better than 10^-9 for 10^-6 ≤ y ≤ 10^6. -/
def lnR (y : Rat) : Rat :=
  let r := halve (cut12 y) 40
  let z := cut12 ((r.1 - 1) / (r.1 + 1))
  cut12 (2 * atanhSeries z 16 0 z) + r.2 * (693147180560 / 1000000000000)

/-- Temperature of an NTC from its ratio, in degrees Celsius (R293). RNOM, RPU in ohms, BETA in kelvin. -/
def ntcTemp (x rnom beta rpu : Rat) : DegC :=
  let r := rpu * ratio x (1 - x)
  ratio 1 (1 / (29815 / 100) + ratio (lnR (ratio r rnom)) beta) - 27315 / 100

/-! ### Checks of FUNC_START (R351) -/

/-- The values a check reads (R351 step 2): `v` for the set under test, `p` for the value pending at its end, `f`
the value in force, and the board entries. -/
structure CheckCtx where
  named : BitVec 15
  cfg : Cfg
  nIn : List Nat

def CheckCtx.isNamed (x : CheckCtx) (fn : Nat) : Bool := x.named.getLsbD fn

def CheckCtx.v (x : CheckCtx) (fn idx : Nat) (el : Nat := 0) : Int :=
  if x.isNamed fn then x.cfg.stg fn idx el else x.cfg.get fn idx el

def CheckCtx.p (x : CheckCtx) (fn idx : Nat) (el : Nat := 0) : Int :=
  if x.isNamed fn then (findEntry x.cfg.staged fn idx el).getD (x.cfg.pend fn idx el) else x.cfg.pend fn idx el

/-- One check: it passes, and the setting it answers with when it fails. -/
abbrev Check := Bool × Nat × Nat

def firstFail (l : List Check) : Option (Nat × Nat) := (l.find? (fun c => !c.1)).map (·.2)

/-- 1.10 × CELLS × VREG against every SYSV while a scheme is SUPPLEMENT (R77, R196). -/
def sysvCheck (x : CheckCtx) : Bool :=
  !(x.cfg.get 1 0 == 1 || x.p 1 0 == 1) ||
  (List.range 8).all (fun e => [x.cfg.get 0 2, x.p 0 2].all (fun cells =>
    decide ((x.v 1 3 e : Rat) * (5 / 100) ≤ 110 / 100 * cells * (x.v 0 3 * (5 / 1000)))))

def pathChecks (x : CheckCtx) : List Check :=
  let far := fun (n : Lane) => x.v 1 1 n.val
  let lanes := List.finRange 4
  let lead := fun (n : Lane) => ((gangMembers (x.v 1 2) n).head?).getD n
  let heads := lanes.filter (fun n => lead n == n)
  let g := x.v 1 2
  [((List.range 5).all (fun i => decide ((heads.filter (fun n => (farMaskOf (far n)).testBit i)).length ≤ 1)), 1, 0),
   (decide ((heads.filter (fun n => farKindOf (far n) == .battery)).length ≤ 1), 1, 0),
   (decide ((heads.filter (fun n => farKindOf (far n) == .trunk)).length ≤ 1), 1, 0),
   (lanes.all (fun n => far n == far (lead n)), 1, 0)] ++
  lanes.map (fun n => ((farKindOf (far n) == .unused || x.cfg.laneFitted n) &&
    (List.finRange 5).all (fun i => !(farMaskOf (far n)).testBit i.val || x.cfg.connFitted.getLsbD i.val), 1, n.val)) ++
  [(!(x.v 1 0 == 1) || lanes.any (fun n => farKindOf (far n) == .battery), 0, 0),
   (lanes.all (fun n => x.v (2 + n.val) 0 == x.v (2 + (lead n).val) 0), 2, 0),
   (decide ((5 : Rat) / 10000 ≤ x.v 1 12 * (1 / 2) * (x.v 0 16 * (1 / 100000))), 12, 0)] ++
  (List.range 8).map (fun e => (decide (100 ≤ x.v 1 3 e ∧ x.v 1 3 e ≤ 1200), 3, e)) ++
  [(sysvCheck x, 0, 0),
   ((List.range 8).all (fun e => decide ((x.v 1 7 : Rat) / 10 ≤ x.v 1 3 e * (5 / 100))), 3, 0), (0 ≤ g, 2, 0)]

/-- Codes of CHEM: 0 NMC, 1 LFP. -/
def cellsOk (chem cells : Int) : Bool :=
  if chem = 0 then 3 ≤ cells && cells ≤ 14 else 4 ≤ cells && cells ≤ 16

def vregOk (chem vreg : Int) : Bool :=
  if chem = 0 then 800 ≤ vreg && vreg ≤ 890 else 700 ≤ vreg && vreg ≤ 730

/-- TERM_N by code (R194). -/
def termN (code : Int) : Nat := ([8, 10, 16, 20, 32, 64][code.toNat]?).getD 10

/-- N_in × IAVG_LIM of the lane or gang that a far-node map assigns BATTERY (R196). -/
def battCeiling (x : CheckCtx) (far gang : Nat → Int) : Option Rat :=
  ((List.finRange 4).find? (fun n => farKindOf (far n.val) == .battery)).map (fun n =>
    sumR ((gangMembers (gang 0) n).map (fun m =>
      (((x.nIn[m.val]?).getD 0 : Nat) : Rat) * (x.v (2 + m.val) 9 * (1 / 4)))))

def chgChecks (x : CheckCtx) : List Check :=
  let both := fun (q : Int → Int → Bool) =>
    [(x.cfg.get 0 1, x.cfg.get 0 2), (x.p 0 1, x.p 0 2)].all (fun c => q c.1 c.2)
  let vreg := x.v 0 3
  let ichg : Rat := x.v 0 4 * (5 / 100)
  let ceil := [battCeiling x (x.cfg.get 1 1) (fun _ => x.cfg.get 1 2), battCeiling x (x.p 1 1) (fun _ => x.p 1 2)]
  [(both cellsOk, 1, 0), (both (fun chem _ => vregOk chem vreg), 1, 0),
   (both (fun _ cells => decide ((cells : Rat) * (vreg * (5 / 1000) + 75 / 1000) ≤ 60)), 2, 0),
   (ceil.all (fun o => match o with | none => true | some c => decide (ichg ≤ c)), 4, 0),
   (sysvCheck x, 2, 0),
   (decide ((1 : Rat) / 10 ≤ ichg / termN (x.v 0 6)), 4, 0),
   (decide (x.v 0 9 + 4 ≤ x.v 0 10 ∧ x.v 0 10 + 4 ≤ x.v 0 11 ∧ x.v 0 11 + 4 ≤ x.v 0 12), 9, 0),
   (!(x.v 0 0 == 1) || (List.range 4).any (fun n => farKindOf (x.v 1 1 n) == .battery), 0, 0)]

/-- Whether R253 counts a lane for SKIP_BAND. -/
def skipCounted (x : CheckCtx) (n : Nat) : Bool :=
  let kinds := [farKindOf (x.cfg.get 1 1 n), farKindOf (x.p 1 1 n)]
  kinds.any (fun k => k == .port || k == .trunk) ||
  (kinds.any (· == .battery) && (x.cfg.get 1 0 == 1 || x.p 1 0 == 1))

def laneChecks (x : CheckCtx) (n : Nat) : List Check :=
  let g := fun idx => x.v (2 + n) idx
  let per : Rat := ratio 1000000 (g 0)
  let lead := ((gangMembers (x.v 1 2) ⟨n % 4, Nat.mod_lt _ (by decide)⟩).head?).getD 0
  [(decide (5 * g 9 ≤ 4 * g 8), 8, 0), (decide (-(g 10) ≤ g 9), 9, 0), (decide (g 22 < g 21), 21, 0),
   (decide (g 25 < 2 * g 20), 20, 0),
   (decide ((g 6 : Rat) * (5 / 2) ≤ per / 10 ∧ (g 7 : Rat) * (5 / 2) ≤ per / 10 ∧
     (g 5 : Rat) * (5 / 16) ≤ per / 10), 0, 0),
   ((gangMembers (x.v 1 2) lead).all (fun m => x.v (2 + m.val) 0 == x.v (2 + lead.val) 0), 0, 0),
   (!skipCounted x n || decide ((g 25 : Rat) / 4 + 1 / 2 ≤ (x.v 12 3 : Rat) / 2), 25, 0),
   (decide (g 27 ≤ g 26 - 2), 26, 0)]

def senseOk (fn ilim rs : Nat) (x : CheckCtx) : Bool :=
  decide (3 * ((x.v fn ilim : Rat) * (5 / 100)) * ((x.v fn rs : Rat) * (5 / 10000)) ≤ 3 / 10)

def portChecks (x : CheckCtx) (p : Nat) : List Check :=
  let fn := 6 + p
  let g := fun idx => x.v fn idx
  let source := g 4 == 1 || g 4 == 2
  let tb := 5 + (g 19).toNat
  [(senseOk fn 1 2 x, 1, 0), (!source || decide (8 ≤ g 8), 4, 0), (!(g 9 == 1) || decide (100 < g 8), 8, 0),
   (!(g 11 == 1 && g 4 == 1), 4, 0),
   (!(g 17 == 1) || (!(g 18 == 0) && x.cfg.connFitted.getLsbD tb), 17, 0),
   (!(g 17 == 1) || (List.range 4).all (fun q => q == p || !(x.v (6 + q) 17 == 1 && x.v (6 + q) 19 == g 19)), 17, 0),
   (!source || (List.range 4).any (fun n => (farMaskOf (x.v 1 1 n)).testBit p), 4, 0)]

def acinChecks (x : CheckCtx) : List Check :=
  [(decide (x.v 10 5 + 4 ≤ x.v 10 6), 5, 0), (decide (x.v 10 8 ≤ x.v 10 6 - 4), 6, 0), (senseOk 10 1 2 x, 1, 0)]

def trunkChecks (x : CheckCtx) : List Check :=
  let g := fun idx => x.v 11 idx
  let ta := x.cfg.connFitted.getLsbD 5
  let tb := x.cfg.connFitted.getLsbD 6
  [(decide (g 6 + 20 ≤ g 5), 5, 0), (decide (g 5 + 10 ≤ g 8), 5, 0), (decide (g 8 + 10 ≤ g 7), 7, 0),
   (!(g 1 == 1) || ta || tb, 1, 0),
   (!(ta || tb) || (List.range 4).any (fun n => farKindOf (x.v 1 1 n) == .trunk), 0xFF, 0),
   (senseOk 11 12 13 x, 12, 0)]

def fcstChecks (x : CheckCtx) : List Check :=
  [((List.range 4).all (fun n => !skipCounted x n ||
      decide ((x.v (2 + n) 25 : Rat) / 4 + 1 / 2 ≤ (x.v 12 3 : Rat) / 2)), 3, 0)]

def thermChecks (x : CheckCtx) : List Check :=
  let g := fun idx => x.v 13 idx
  let t := fun (r : Rat) (a : Nat) => ntcTemp r (g a * 100) (g (a + 2)) (g (a + 4) * 100)
  [(decide (g 0 + 5 ≤ g 3), 0, 0), (decide (g 4 + 10 ≤ 140), 4, 0),
   (decide ((g 3 : Rat) + 5 ≤ t (3 / 100) 5 ∧ t (97 / 100) 5 ≤ -40), 3, 0),
   (decide ((x.v 0 12 : Rat) + 5 ≤ t (3 / 100) 6 ∧ t (97 / 100) 6 ≤ -40), 6, 0)]

/-- The checks of a function, in its chapters' order (R351). -/
def checksOf (x : CheckCtx) (fn : Nat) : List Check :=
  if fn = 0 then chgChecks x else if fn = 1 then pathChecks x
  else if fn ≤ 5 then laneChecks x (fn - 2) else if fn ≤ 9 then portChecks x (fn - 6)
  else if fn = 10 then acinChecks x else if fn = 11 then trunkChecks x else if fn = 12 then fcstChecks x
  else if fn = 13 then thermChecks x else []

/-- The first failed check of the named functions, in ascending function number: function, setting, element. -/
def validate (x : CheckCtx) : Option (Nat × Nat × Nat) :=
  (List.range 15).findSome? (fun fn =>
    if x.isNamed fn then (firstFail (checksOf x fn)).map (fun r => (fn, r.1, r.2)) else none)

/-- A catalogue that falls back (R394): the functions whose values fail their own rules take their defaults. -/
def Cfg.sanitised (c : Cfg) (nIn : List Nat) : Cfg × List Nat :=
  let bad := (List.range 15).filter (fun fn =>
    (firstFail (checksOf { named := 0, cfg := c, nIn := nIn } fn)).isSome)
  ({ c with inForce := dropEntries (fun e => bad.contains e.fn) c.inForce }, bad)

end Sys2Proof.Machine
end

