-- ==== Sys2Proof/Machine/Ops.lean ====
section
/-! DEFINITION. The shared operations: reading and changing one member of a group, the cells of the host's memory,
events, ledger records, frames to the dies. -/

namespace Sys2Proof.Machine

/-- The outcome of a command that runs. -/
abbrev Out := Host.Outcome State Fault Refusal

/-! ### One member of a group -/

def vmod {α : Type} {n : Nat} (v : Vector α n) (i : Fin n) (f : α → α) : Vector α n := v.set i.val (f (v.get i)) i.isLt

def vput {α : Type} {n : Nat} (v : Vector α n) (i : Fin n) (x : α) : Vector α n := v.set i.val x i.isLt

def State.modLane (s : State) (n : Lane) (f : LaneDie → LaneDie) : State := { s with lanes := vmod s.lanes n f }
def State.modPort (s : State) (p : Port) (f : PortSt → PortSt) : State := { s with ports := vmod s.ports p f }
def State.modPd (s : State) (m : PortDie) (f : PortDieSt → PortDieSt) : State := { s with portDies := vmod s.portDies m f }
def State.modConn (s : State) (c : Src) (f : Conn → Conn) : State := { s with conns := vmod s.conns c f }
def State.modNode (s : State) (n : Lane) (f : Node → Node) : State := { s with nodes := vmod s.nodes n f }
def State.modLink (s : State) (t : TrunkPort) (f : Link → Link) : State :=
  { s with trunk := { s.trunk with links := vmod s.trunk.links t f } }
def State.modMbx (s : State) (c : Fin 8) (f : Mbx → Mbx) : State :=
  { s with host := { s.host with mbx := vmod s.host.mbx c f } }

def State.lane (s : State) (n : Lane) : LaneDie := s.lanes.get n
def State.port (s : State) (p : Port) : PortSt := s.ports.get p
def State.pdie (s : State) (m : PortDie) : PortDieSt := s.portDies.get m
def State.conn (s : State) (c : Src) : Conn := s.conns.get c
def State.node (s : State) (n : Lane) : Node := s.nodes.get n
def State.link (s : State) (t : TrunkPort) : Link := s.trunk.links.get t

def portSrc (p : Port) : Src := ⟨p.val, by omega⟩
def srcPort (c : Src) : Option Port := if h : c.val < 4 then some ⟨c.val, h⟩ else none
def trunkSrc (t : TrunkPort) : Src := ⟨t.val + 5, by omega⟩
def srcTrunk (c : Src) : Option TrunkPort := if h : 5 ≤ c.val then some ⟨c.val - 5, by omega⟩ else none
def acin : Src := 4

/-- The port die that serves a connector (R5). -/
def dieOfSrc (c : Src) : PortDie := if c.val = 0 ∨ c.val = 1 ∨ c.val = 4 then 0 else 1

def phaseLane (k : PhaseNo) : Lane := ⟨k.val / 4, by omega⟩
def phasePos (k : PhaseNo) : Pos := ⟨k.val % 4, by omega⟩
def phaseOf (n : Lane) (p : Pos) : PhaseNo := ⟨4 * n.val + p.val, by omega⟩

/-! ### Time -/

/-- Ticks in a number of microseconds and milliseconds (R12). -/
def msTicks (ms : Nat) : Nat := ms * 100
def secTicks (sec : Nat) : Nat := sec * 100000

def State.now (s : State) : Nat := s.time.tick
def State.tickWord (s : State) : Word := BitVec.ofNat 32 s.time.tick
/-- Whole microseconds of fleet time (R372). -/
def State.fleetUs (s : State) : Nat := (s.time.fleetNs / 1000).floor.toNat
/-- Sub-tick position in steps of 10 us / 256 (R13). -/
def State.subTick (s : State) : Nat := s.time.edges * 256 / 1000

/-- Whether `d` ticks have passed since a stamp. -/
def State.passed (s : State) (since d : Nat) : Bool := since + d ≤ s.now

def State.hubUp (s : State) : Bool := s.hub.hub == .running

/-- The host interfaces answer: the hub runs and its IO domain has VIO (R25, R43). -/
def State.hostUp (s : State) : Bool := s.hubUp && s.aon.vio

/-- Order of tick indexes (R12): compared modulo 2^32, less than 2^31 ahead counts as later. -/
def ixBefore (a b : Nat) : Bool :=
  let d := (b % 4294967296 + 4294967296 - a % 4294967296) % 4294967296
  decide (0 < d ∧ d < 2147483648)

/-- A tick index that has been reached: the same, or not later than the present one. -/
def ixReached (a now : Nat) : Bool := a % 4294967296 == now % 4294967296 || ixBefore a now

/-! ### Cells of the host's memory (R328, R329): an unlisted address reads 0 -/

def cellsRead (m : List Host.Cell) (a : Nat) : Byte := ((m.find? (fun c => c.1 == a)).map (·.2)).getD 0

def cellsWrite : List Host.Cell → Nat → Byte → List Host.Cell
  | [], a, b => if b = 0 then [] else [(a, b)]
  | c :: r, a, b =>
    if a < c.1 then (if b = 0 then c :: r else (a, b) :: c :: r)
    else if a = c.1 then (if b = 0 then r else (a, b) :: r)
    else c :: cellsWrite r a b

def cellsWriteAll (m : List Host.Cell) : Nat → List Byte → List Host.Cell
  | _, [] => m
  | a, b :: r => cellsWriteAll (cellsWrite m a b) (a + 1) r

def cellsReadAll (m : List Host.Cell) (a n : Nat) : List Byte := (List.range n).map (fun i => cellsRead m (a + i))

/-- Canonical form: addresses strictly rising, no cell equal to what an unlisted address reads as. -/
abbrev Memory.wf (m : List Host.Cell) : Prop := m.Pairwise (fun a b => a.1 < b.1) ∧ ∀ c ∈ m, c.2 ≠ 0

def State.memWrite (s : State) (a : Nat) (b : List Byte) : State :=
  { s with host := { s.host with mem := cellsWriteAll s.host.mem a b } }
def State.memRead (s : State) (a n : Nat) : List Byte := cellsReadAll s.host.mem a n

/-! ### Events (R13, R461) -/

def State.stamp (s : State) (cls : EvClass) (src : EvSource) (item : Nat) (kind : EvKind) : State :=
  { s with events := s.events ++ [{ cls := cls, tick := s.now, sub := BitVec.ofNat 8 s.subTick, src := src, item := item, kind := kind }] }

def State.stampLane (s : State) (n : Lane) (k : EvKind) : State := s.stamp .protection (.lane n) n.val k

/-! ### Ledger records (R387-R390) -/

def modeCode : Mode → Nat
  | .ship => 0 | .dormant => 1 | .battery => 2 | .supply => 3 | .limp => 4 | .safe => 5

/-- The mode byte of a record: 0xFF in the unpowered state (R390). -/
def modeByte (m : Option Mode) : Byte := match m with | none => 0xFF | some m => BitVec.ofNat 8 (modeCode m)

/-- A record is put in the queue of retained SRAM: no number after 0xFFFF_FFFE, none in a full queue (R388, R389). -/
def pushRecord (l : Ledger) (r : LedgerRec) : Ledger :=
  if 0xFFFFFFFF ≤ l.next then { l with refused := l.refused + 1 }
  else if 64 ≤ l.queue.length then
    { l with dropped := l.dropped + 1, firstLost := if l.dropped = 0 then l.next else l.firstLost, next := l.next + 1 }
  else { l with queue := l.queue ++ [{ r with acc := l.next }], next := l.next + 1 }

/-- A record of a decision: a records-lost record goes before it once there is room for two (R389). -/
def State.createRecord (s : State) (type : Half) (payload : List Byte) (whileOff : Bool) : State :=
  let fl : Byte := BitVec.ofNat 8 (boolBit (s.hnd.unlocked && s.hnd.ctrl != 0) 0 + boolBit s.time.fleetSet 1)
  let mk := fun (t : Half) (p : List Byte) (f : Byte) =>
    ({ acc := 0, fleetUs := s.fleetUs, type := t, mode := modeByte s.aon.mode, flags := f, payload := padTo 12 p } : LedgerRec)
  let l := if 0 < s.ledger.dropped ∧ s.ledger.queue.length ≤ 62 then
      { pushRecord s.ledger (mk 0x0008 (le32 s.ledger.dropped ++ le32 s.ledger.firstLost) fl) with dropped := 0, firstLost := 0 }
    else s.ledger
  { s with ledger := pushRecord l (mk type payload (if whileOff then fl ||| 4 else fl)) }

/-- A record: created at once while the hub runs, else held for the first decision after boot (R25). -/
def State.record (s : State) (type : Half) (payload : List Byte) : State :=
  if s.hubUp then s.createRecord type payload false
  else { s with ledger := { s.ledger with deferred := s.ledger.deferred ++ [(type, payload)] } }

/-- Current in 10 mA steps, voltage in 10 mV steps (R390). -/
def recI (a : Amp) : List Byte := qle 2 a (1 / 100)
def recV (v : Volt) : List Byte := qle 2 v (1 / 100)

/-- Mode change, with its record (type 0x0002): how is 0 decision, 1 SAFE latch, 2 hub reset, 3 while the hub was off. -/
def State.setMode (s : State) (m : Option Mode) (how : Nat) : State :=
  if s.aon.mode = m then s
  else
    let from_ := modeByte s.aon.mode
    let s := { s with aon := { s.aon with mode := m } }
    s.record 0x0002 [from_, modeByte m, BitVec.ofNat 8 how]

/-! ### Frames to the dies (R6, R7) -/

/-- The effective tick of a decision's frames: two ticks after the tick the decision closes (R7). -/
def State.effTick (s : State) : Nat := s.now + 2

def State.sendLane (s : State) (n : Lane) (eff : Nat) (go : LaneGo) (o : LaneOrder) : State :=
  s.modLane n (fun l => { l with frames := l.frames ++ [{ eff := eff, go := go, order := o, set := [] }] })

/-- Changed limits and coefficients on their way to a lane die that runs (R6, R110); a die in reset takes them at once, since
it receives every value at its next start. -/
def State.sendSet (s : State) (n : Lane) (eff : Nat) (es : List CfgEntry) : State :=
  let l := s.lane n
  if es.isEmpty then s
  else if l.up then
    let o := ((l.frames.map (fun (f : LaneFrame) => f.order)).getLast?).getD l.order
    s.modLane n (fun l => { l with frames := l.frames ++ [{ eff := eff, go := .keep, order := o, set := es }] })
  else { s with cfg := { s.cfg with inForce := inForceWith s.cfg.inForce es } }

def State.sendPort (s : State) (m : PortDie) (eff : Nat) (c : PortCmd) : State :=
  s.modPd m (fun d => { d with frames := d.frames ++ [{ eff := eff, cmd := c }] })

/-- A message goes out on a port (R161). It awaits its GoodCRC (R179); a source in a contract that begins an exchange shows
SinkTxNG until the partner has answered (R167; when the die switches back is PRESUMED, log entry 136). -/
def State.pdPut (s : State) (p : Port) (m : PdMsg) : State :=
  { s with
    pdOut := { port := p, msg := m } :: s.pdOut
    ports := vmod s.ports p (fun q => { q with
      lastTx := some m, retries := 0, txNg := q.attach == .source && q.contract.kind != .none }) }

/-- A PD policy response of the hub: a frame to the port die that names its effective tick (R6). -/
def State.pdSend (s : State) (p : Port) (m : PdMsg) : State :=
  s.sendPort (dieOfSrc (portSrc p)) s.effTick (.send p m)

/-! ### Free values -/

/-- The next free value's argument. -/
def State.fresh (s : State) : State × Nat := ({ s with freeCtr := s.freeCtr + 1 }, s.freeCtr)

end Sys2Proof.Machine
end

