-- ==== Sys2Proof/Machine/Flash.lean ====
section
/-! DEFINITION. Flash jobs, learned-state records and catalogue records (R232-R235, R382-R394). -/

namespace Sys2Proof.Machine

/-- Order of foreground work (R383). -/
def jobRank : FlashJob → Nat
  | .catalogue .. | .migrate _ => 0
  | .ledger _ => 1
  | .learned _ | .outMask .. => 2
  | .update .. | .header .. => 3

def insertJob (j : FlashJob) : List FlashJob → List FlashJob
  | [] => [j]
  | x :: r => if jobRank j < jobRank x then j :: x :: r else x :: insertJob j r

/-- Start the next foreground job when the die is idle; a background erase is suspended meanwhile (R383). -/
def Flash.kick (f : Flash) : Flash :=
  match f.busy, f.queue with
  | none, j :: r => { f with busy := some j, queue := r, suspended := f.background.isSome }
  | none, [] => { f with suspended := false }
  | some _, _ => f

/-- A foreground job; none starts while the flash die is in shutdown (R297). -/
def State.addJob (s : State) (j : FlashJob) : State :=
  let f := { s.flash with queue := insertJob j s.flash.queue }
  { s with flash := if s.therm.flashShut then f else f.kick }

/-- A ledger record is written; the last slot of a sector leaves the sector after the next to be erased (R388). -/
def Flash.putLedger (f : Flash) (r : LedgerRec) : Flash :=
  { f with ledger := r :: f.ledger, ledgerSlot := f.ledgerSlot + 1, ledgerErased := f.ledgerErased && (f.ledgerSlot + 1) % 128 != 0 }

/-! ### Learned-state records (R233) -/

def learnedSeq (f : Flash) : Nat :=
  ((f.learned.get 0 ++ f.learned.get 1).map (·.seq)).foldl max 0 + 1

/-- Sequence of the next learned-state record, counting those that wait. -/
def State.nextLearned (s : State) : Nat :=
  let waiting := (s.flash.queue ++ s.flash.busy.toList).filterMap (fun j =>
    match j with | .learned r => some r.seq | .outMask _ r => some r.seq | _ => none)
  max (learnedSeq s.flash) (waiting.foldl max 0 + 1)

/-- A record: bytes 0-15 common, then the type's own, cut at byte 59. -/
def State.learnedRec (s : State) (type index : Nat) (body : List Byte) : LearnedRec :=
  let seq := s.nextLearned
  { type := type, index := index, seq := seq
    bytes := padTo 60 ([BitVec.ofNat 8 type, BitVec.ofNat 8 index] ++ le16 64 ++ le32 seq ++ le64 s.fleetUs ++ body) }

/-- Fingerprint of the settings a trim set rests on (R123, R233); their form under the CRC is the model's (log 12). -/
def Cfg.trimPrint (c : Cfg) (n : Lane) : Word :=
  crc32c ([0, 1, 2, 3, 4].flatMap (fun i => sle 4 (c.get (2 + n.val) i)) ++ sle 4 (c.get 1 1 n.val) ++ sle 4 (c.get 1 2))

def trimBody (c : Cfg) (n : Lane) (t : Vector Amp 4) : List Byte :=
  t.toList.flatMap (fun b => qle 1 b (1 / 20)) ++ le32 (c.trimPrint n).toNat

def kindCode : Option PhaseKind → Nat
  | none => 0
  | some .openCircuit => 1 | some .senseRange => 2 | some .senseSat => 3 | some .senseOffset => 4
  | some .senseDead => 5 | some .retired => 6

def kindOfCode (n : Nat) : Option PhaseKind :=
  ([none, some .openCircuit, some .senseRange, some .senseSat, some .senseOffset, some .senseDead, some .retired][n]?).getD none

def Keep.kindOf (k : Keep) (i : Nat) : Option PhaseKind :=
  (((k.out.toList[i / 4]?).bind (fun v => v.toList[i % 4]?)).getD none)

def outBody (k : Keep) : List Byte :=
  le16 ((List.range 16).foldl (fun a i => a + boolBit (k.kindOf i).isSome i) 0) ++ [0, 0] ++
  (List.range 8).map (fun i => BitVec.ofNat 8 (kindCode (k.kindOf (2 * i)) + 16 * kindCode (k.kindOf (2 * i + 1))))

/-- The newest record of a type and index in flash (R235). -/
def newestLearned (f : Flash) (type index : Nat) : Option LearnedRec :=
  ((f.learned.get 0 ++ f.learned.get 1).filter (fun r => r.type == type && r.index == index)).foldl
    (fun a r => match a with | none => some r | some b => if b.seq < r.seq then some r else a) none

/-- Save a lane's learned trims (R123): 0.10 A or more from the saved set; from FACTORY_TRIM where none is saved, since R123
names no other (DESIGN CHOICE, log entry 126). A save that falls while the hub is down waits for the first decision. -/
def State.saveTrims (s : State) (n : Lane) (t : Vector Amp 4) : State :=
  let old := match s.keep.trims.get n with
    | some o => o
    | none => Vector.ofFn (fun p => s.cfg.q (2 + n.val) 34 (1 / 20) p.val)
  if (List.finRange 4).any (fun p => (1 : Rat) / 10 ≤ t.get p - old.get p || (1 : Rat) / 10 ≤ old.get p - t.get p) then
    let s := { s with keep := { s.keep with trims := vput s.keep.trims n (some t), trimSince := vput s.keep.trimSince n (some s.now)
                                            trimBad := vput s.keep.trimBad n false, trimDue := vput s.keep.trimDue n (!s.hubUp) } }
    if s.hubUp then s.addJob (.learned (s.learnedRec 2 n.val (trimBody s.cfg n t))) else s
  else s

/-- Saves that fell while the hub was down (R123). -/
def State.dueTrims (s : State) : State :=
  (List.finRange 4).foldl (fun s n =>
    match s.keep.trims.get n with
    | some t =>
      if s.keep.trimDue.get n then
        { s with keep := { s.keep with trimDue := vput s.keep.trimDue n false } }.addJob (.learned (s.learnedRec 2 n.val (trimBody s.cfg n t)))
      else s
    | none => s) s

/-- The out mask of the lanes is written (R127, R129). -/
def State.saveOut (s : State) : State :=
  if s.hubUp then s.addJob (.learned (s.learnedRec 3 0 (outBody s.keep))) else s

/-! ### Catalogue records (R392, R393) -/

def catSeq (f : Flash) : Nat := ((f.cat.get 0 ++ f.cat.get 1).map (·.seq)).foldl max 0

/-- The newest record whose format the running firmware reads (R393, R394). -/
def newestCat (f : Flash) : Option CatRec :=
  ((f.cat.get 0 ++ f.cat.get 1).filter (fun r => 1 ≤ r.format && r.format ≤ 3)).foldl
    (fun a r => match a with | none => some r | some b => if b.seq < r.seq then some r else a) none

/-- The slot that does not hold the newest valid record (R393). -/
def catSlot (f : Flash) : Fin 2 :=
  if (f.cat.get 0).any (fun r => r.seq == catSeq f) then 1 else 0

/-- The 4,096 bytes of a catalogue record (R392). -/
def CatRec.bytes (r : CatRec) : List Byte :=
  let entry := fun (e : CfgEntry) => [BitVec.ofNat 8 e.fn, BitVec.ofNat 8 e.idx, BitVec.ofNat 8 e.elem, (0 : Byte)] ++ sle 4 e.val
  let b := le16 r.format ++ le16 r.entries.length ++ le32 r.seq ++ r.fw.toList ++ [0, 0, 0, 0, 0] ++ r.entries.flatMap entry
  let b := b ++ List.replicate (4092 - b.length) 0xFF
  b ++ le32 (crc32c b).toNat

def boardEntries (c : Cfg) : List CfgEntry :=
  [{ fn := 15, idx := 0, elem := 0, val := c.phaseFitted.toNat }, { fn := 15, idx := 1, elem := 0, val := c.connFitted.toNat },
   { fn := 15, idx := 2, elem := 0, val := c.stackSize }, { fn := 15, idx := 3, elem := 0, val := c.keeperHold }]

/-- Record of the settings that will hold: in force, then pending, then the staged values of the named functions. -/
def State.catRecord (s : State) (fw : Vector Byte 3) (named : BitVec 15) : CatRec :=
  let st := s.cfg.staged.filter (fun e => named.getLsbD e.fn)
  { format := 3, seq := catSeq s.flash + 1, fw := fw
    entries := inForceWith (inForceWith s.cfg.inForce s.cfg.pending) st ++ boardEntries s.cfg }

def Flash.putCat (f : Flash) (r : CatRec) : Flash :=
  { f with cat := vmod f.cat (catSlot f) (fun l => r :: l.take 255) }

/-! ### Conversions of older formats (R394) -/

/-- Formats 1 and 2 read as format 3: SYSV of format 1 in 100 mV steps, one TEL_K for all channels; IRC_SHARE 0%, R_PATH
3.0 mOhm where absent. -/
def convertCat (r : CatRec) : List CfgEntry :=
  let e1 := if r.format = 1 then
      let base := r.entries.map (fun e => if e.fn = 1 ∧ e.idx = 3 then { e with val := e.val * 2 } else e)
      let k := findEntry base 14 0 0
      match k with
      | some v => (dropEntries (fun e => e.fn == 14 && e.idx == 0) base) ++
          (List.range 96).map (fun c => { fn := 14, idx := 0, elem := c, val := v })
      | none => base
    else r.entries
  if r.format ≤ 2 then
    let e2 := if (findEntry e1 0 14 0).isSome then e1 else e1 ++ [{ fn := 0, idx := 14, elem := 0, val := 0 }]
    if (findEntry e2 12 6 0).isSome then e2 else e2 ++ [{ fn := 12, idx := 6, elem := 0, val := 30 }]
  else e1

/-- What a new catalogue record changes of settings that FUNC_START applies (R351). -/
def Cfg.changes (c : Cfg) (es : List CfgEntry) : List CfgEntry :=
  let keys := (es.filter (fun e => e.fn < 15) ++ c.inForce).foldl (fun l e => putEntry { e with val := 0 } l) []
  keys.filterMap (fun k =>
    let v := (findEntry es k.fn k.idx k.elem).getD (settingDefault k.fn k.idx)
    if (settingInfo k.fn k.idx).any (fun i => i.takes == .funcStart) && v != c.get k.fn k.idx k.elem then some { k with val := v } else none)

/-- The values that wait for a moment of their own once the record is written. -/
def Cfg.waiting (c : Cfg) (es : List CfgEntry) : List CfgEntry :=
  let keys := (es.filter (fun e => e.fn < 15) ++ c.inForce ++ c.pending).foldl (fun l e => putEntry { e with val := 0 } l) []
  keys.filterMap (fun k =>
    let v := (findEntry es k.fn k.idx k.elem).getD (settingDefault k.fn k.idx)
    if (settingInfo k.fn k.idx).any (fun i => i.takes != .funcStart) && v != c.get k.fn k.idx k.elem then some { k with val := v } else none)

/-- Settings and board entries of a record put in force (R392, R393). -/
def Cfg.ofRecord (c : Cfg) (r : Option CatRec) : Cfg :=
  match r with
  | none => { c with inForce := [], staged := [], pending := [], applying := [], phaseFitted := 0, connFitted := 0, stackSize := 1, keeperHold := 20 }
  | some r =>
    let es := convertCat r
    let b := fun i d => ((findEntry es 15 i 0).getD d)
    { c with inForce := inForceWith [] (es.filter (fun e => e.fn < 15)), staged := [], pending := [], applying := []
             phaseFitted := BitVec.ofInt 16 (b 0 0), connFitted := BitVec.ofInt 7 (b 1 0)
             stackSize := (b 2 1).toNat, keeperHold := (b 3 20).toNat }

end Sys2Proof.Machine
end

