-- ==== Sys2Proof/Machine/Lane.lean ====
section
/-! DEFINITION. What a lane die computes at a switching-period boundary and at its frames (chapter 04, and the parts
of 05, 06, 08 and 11 that run in the lane die). Currents: positive from the far node toward SYS. -/

namespace Sys2Proof.Machine

/-! ### The converters (R78, R79) and the delay line (R87) -/

/-- The nearest multiple of a step; halfway the greater one. -/
def onGrid (step x : Rat) : Rat := (x / step + 1 / 2).floor * step

/-- One step of the 10-bit current converter over ±50 A (R78). -/
def senseStep : Amp := 25 / 256
/-- One step of the 12-bit peak threshold over ±50 A (R78). -/
def peakStep : Amp := 25 / 1024
/-- A period average of phase current, which lies within the converter's scale (R78). -/
def adcI (x : Amp) : Amp := clampR (-50) (50 - senseStep) x
/-- A period average of a node voltage, which lies within 0 to 64 V (R79). -/
def adcV (x : Volt) : Volt := clampR 0 (64 - 1 / 64) x
/-- The threshold of a peak comparator on its grid, the nearest step (R78; DESIGN CHOICE, log entry 118). -/
def peakDac (x : Amp) : Amp := clampR (-50) (50 - peakStep) (onGrid peakStep x)

/-- One delay step in ns: 39.0625 ps (R87). -/
def delayStep : Rat := 5 / 128

/-- What the front ends hand over for a period, as their converters can express it (R78, R79). -/
def digitised (m : PeriodSample) : PeriodSample :=
  { m with sysAvg := adcV m.sysAvg, vinlAvg := adcV m.vinlAvg
           phases := m.phases.map (fun (p : PhaseSample) => { p with iAvg := adcI p.iAvg }) }

/-! ### Settings of a lane, in their units (R108, R130); a ganged lane takes the coefficient set of its leader (R105) -/

def State.laneFn (_ : State) (n : Lane) : Nat := 2 + n.val
def State.laneQ (s : State) (n : Lane) (idx : Nat) (step : Rat) : Rat := s.cfg.q (s.laneFn n) idx step
/-- A coefficient: KP, KI, KD or DP of the gang's leader (R105). -/
def State.coefQ (s : State) (n : Lane) (idx : Nat) (step : Rat) : Rat := s.cfg.q (2 + (s.cfg.leader n).val) idx step

/-- Switching frequency in kHz: periods per millisecond. -/
def State.fsw (s : State) (n : Lane) : Rat := s.laneQ n 0 1
/-- The period of FSW in delay steps: the nearest multiple of 39.0625 ps (R87). -/
def State.nominalSteps (s : State) (n : Lane) : Nat := (1000000 / (s.fsw n * delayStep) + 1 / 2).floor.toNat
/-- The period in force, in delay steps: a lane that follows STK_SYNC holds a length of its own (R135). -/
def State.steps (s : State) (n : Lane) : Nat := if (s.lane n).periodSteps = 0 then s.nominalSteps n else (s.lane n).periodSteps
/-- Period in ns. -/
def State.periodNs (s : State) (n : Lane) : Rat := s.steps n * delayStep
def State.iavg (s : State) (n : Lane) : Amp := s.cfg.q (2 + n.val) 9 (1 / 4)
def State.ipk (s : State) (n : Lane) : Amp := s.cfg.q (2 + n.val) 8 (1 / 4)
def State.ineg (s : State) (n : Lane) : Amp := s.cfg.q (2 + n.val) 10 (1 / 4)

/-! ### Counting phases -/

/-- A phase in service: fitted and not out. -/
def Phase.inService (p : Phase) : Bool := p.st != .out
def LaneDie.nIn (l : LaneDie) : Nat := (l.phases.toList.filter (fun p => p.inService)).length
def LaneDie.nField (l : LaneDie) : Nat := (l.phases.toList.filter (fun p => p.st == .field)).length
def LaneDie.mapPhases (l : LaneDie) (f : Phase → Phase) : LaneDie := { l with phases := l.phases.map f }

/-- Positions in rotation order (R114). -/
def LaneDie.rotation (l : LaneDie) : List Pos := (List.range 4).map (fun i => ⟨(l.field.rot.val + i) % 4, Nat.mod_lt _ (by decide)⟩)
def LaneDie.inOrder (l : LaneDie) (q : Phase → Bool) : List Pos := l.rotation.filter (fun p => q (l.phases.get p))

/-- N_in × IAVG_LIM (R80), before the thermal factor. -/
def State.rawCeil (s : State) (n : Lane) : Amp := (s.lane n).nIn * s.iavg n

/-- The lane ceiling, with the factor k_L the hub sent (R295). -/
def State.laneCeilAim (s : State) (n : Lane) : Amp := (s.lane n).order.kL * s.rawCeil n

/-- An active lane: pulses or a commanded current are possible. -/
def LaneDie.active (l : LaneDie) : Bool := l.run == .running || l.run == .ramping

/-- A fill period runs for 100 ms from the first pulses (R122, R131). -/
def LaneDie.filling (l : LaneDie) (now : Nat) : Bool :=
  match l.field.fillFrom with | none => false | some t => now < t + msTicks 100

def LaneDie.shedInhibited (l : LaneDie) (now : Nat) : Bool :=
  match l.field.shedInhibit with | none => false | some t => now < t

/-! ### The step branch of R116 -/

/-- Admit every warm-bench phase at the next boundary, begin the admission of every cold one, inhibit sheds for
50 ms; an ordinary shed is aborted (R116, R121). -/
def stepBranch (now : Nat) (l : LaneDie) : LaneDie :=
  let l := l.mapPhases (fun p =>
    if p.st = .warm then { p with admitNext := true }
    else if p.st = .cold && !p.admitNext then { p with admitting := true, toWarm := false } else p)
  let ordinary := match l.field.shed with | some (_, _, false) => true | _ => false
  { l with field := { l.field with shedInhibit := some (now + msTicks 50), shedHold := 0
                                   shedAbort := l.field.shedAbort || ordinary } }

/-! ### Stops, standby, starts (R100, R103, R113) -/

def Phase.toMid (p : Phase) : Phase :=
  if p.st = .out then p
  else { p with st := .cold, drive := .mid, ipkEnded := false, admitting := false, toWarm := false, admitNext := false, share := 8, iPk := 0, iAvg := 0
                ipkRun := 0, openRun := 0, rangeRun := 0, deadRun := 0, slope := 0, tEsMin := 0, tEsMax := 0 }

/-- A stopped lane: every leg mid, PSEN_n low, zero current; a shed of a retirement ends with its phase out. -/
def LaneDie.stop (l : LaneDie) : LaneDie :=
  let retired := match l.field.shed with | some (p, _, true) => some p | _ => none
  let gone := retired.toList ++ l.field.retireNext
  let l := { l with phases := Vector.ofFn (fun p =>
    let x := l.phases.get p
    if gone.contains p then { x with st := .out, kind := some .retired } else x) }
  { l.mapPhases Phase.toMid with
    run := .stopped, psen := false, truncating := false, removalSeen := false, chargePrev := false, syncRun := 0
    loop := { l.loop with iCmd := 0, iNext := 0, iv := 0, iLane := 0, rampA := none, integ := 0, integB := 0, cFloor := 0
                          iBias := 0, sagActive := false, cvActive := false }
    field := { l.field with shed := none, shedAbort := false, fillFrom := none, retireNext := [], inReg := false
                            regRun := 0, skipping := false, skipRun := 0, pulses := [], headroomHold := false
                            skipExitDue := false, hist := [] } }

/-- Standby: every in-service phase on warm bench, no current, PSEN_n high (R113). -/
def LaneDie.toStandby (l : LaneDie) : LaneDie :=
  let l := l.stop
  { l.mapPhases (fun p => if p.st = .out then p else { p with st := .warm }) with run := .standby, psen := true }

/-- First pulses: every in-service phase on the field, filters and histories empty, a fill period begins
(R100, R113, R115, R122); c_floor starts at 0 A (R80). The loops' integrators, filters and last errors start at 0, and c_sag
at the C_SRC left from before the start, since R82 and R145 give no value there (DESIGN CHOICE, log entry 119). Ceilings of
the order apply in full: only what a later frame raises is slewed (R102). -/
def LaneDie.firstPulses (l : LaneDie) (now : Nat) (node : Volt) : LaneDie :=
  let l := l.mapPhases (fun p =>
    if p.st = .out then p
    else { p with st := .field, admitting := false, toWarm := false, admitNext := false, share := 8, sinceAdmit := 0
                  ipkRun := 0, openRun := 0, rangeRun := 0, deadRun := 0 })
  { l with
    run := .running, psen := true, chargePrev := false, removalSeen := false
    loop := { l.loop with target := node, integ := 0, dfilt := 0, ePrev := 0, integB := 0, dfiltB := 0, ePrevB := 0
                          cFloor := 0, cSag := l.loop.cSrc, rampA := none, iCmd := 0, iNext := 0, alloc := 0, iSet := 0
                          iSrc := l.order.iSrc, iDis := l.order.iDis, feedCeil := l.order.feedCeil }
    field := { l.field with hist := [], fillFrom := some now, shed := none, shedAbort := false, shedHold := 0
                            sinceAdd := 0, sinceShed := 0, coldHold := 0, inReg := false, regRun := 0
                            stepArmed := true, skipping := false, skipRun := 0, pulses := [], ceilOkRun := 0
                            benchCold := false, skipExitDue := false } }

/-- Out masks sent with a start frame (R127): a phase that is out stays out with its kind. -/
def LaneDie.withOut (l : LaneDie) (out : Vector (Option PhaseKind) 4) (fitted : Pos → Bool) : LaneDie :=
  { l with phases := Vector.ofFn (fun p =>
      let x := l.phases.get p
      if !fitted p then { x with st := .out, kind := none }
      else match out.get p with
        | some k => { x with st := .out, kind := some k }
        | none => if x.st = .out then { x with st := .cold, kind := none } else x) }

def State.phaseFit (s : State) (n : Lane) (p : Pos) : Bool := s.cfg.phaseFitted.getLsbD (4 * n.val + p.val)

/-- A source of trims (R123): the learned set where one is held, else FACTORY_TRIM. -/
def State.startTrims (s : State) (n : Lane) : Vector Amp 4 :=
  match s.keep.trims.get n with
  | some t => t
  | none => Vector.ofFn (fun p => s.cfg.q (2 + n.val) 34 (1 / 20) p.val)

/-! ### Ceilings of the source (R144, R145, R275) -/

/-- Buck and low buck-boost: an input current times VINL / SYS; else the input current (R144). -/
def toLaneCurrent (r : Region) (i : Amp) (vinl sys : Volt) : Amp :=
  match r with
  | .buck | .bbLow => ratio (i * vinl) sys
  | .bbHigh | .boost => i

/-- f(V) of the droop law (R275). -/
def droopF (v knee floor : Volt) : Rat :=
  if knee ≤ v then 1 else if v ≤ floor then 0 else (v - floor) / (knee - floor)

/-- Mean of the trunk taps of the last 20 us (R275). -/
def LaneDie.tapMean (l : LaneDie) : Volt := meanR l.loop.taps

/-- Lane current carried to the SYS side, times SYSK (R307). -/
def LaneDie.powerAtSys (l : LaneDie) : Watt :=
  match l.region with
  | .buck | .bbLow => l.loop.iLane * l.loop.sys
  | .bbHigh | .boost => l.loop.iLane * l.loop.vinl

/-! ### Regions (R91) and ripple (R85) -/

def regionIx : Region → Nat
  | .buck => 0 | .bbLow => 1 | .bbHigh => 2 | .boost => 3

def regionAt (k : Nat) : Region := if k = 0 then .buck else if k = 1 then .bbLow else if k = 2 then .bbHigh else .boost

/-- The edges of the table: between its rows. -/
def regionEdge (k : Fin 3) : Rat := match k with | 0 => 96 / 100 | 1 => 1 | 2 => 104 / 100

/-- M lies beyond an edge as the present region sees it, widened by 0.01. -/
def beyondEdge (r : Region) (k : Fin 3) (m : Rat) : Bool :=
  if regionIx r ≤ k.val then decide (regionEdge k + 1 / 100 < m) else decide (m < regionEdge k - 1 / 100)

/-- Every edge counts its own periods; one that M has lain beyond for 4 of them in a row is crossed (R91). -/
def regionStep (l : LaneDie) (m : Rat) : LaneDie :=
  let runs : Vector Nat 3 := Vector.ofFn (fun k => if beyondEdge l.region k m then l.regionRun.get k + 1 else 0)
  let crossed := fun (k : Fin 3) => decide (4 ≤ runs.get k)
  let ix := regionIx l.region
  let up := ((List.finRange 3).filter (fun k => crossed k && decide (ix ≤ k.val))).length
  let down := ((List.finRange 3).filter (fun k => crossed k && decide (k.val < ix))).length
  { l with region := regionAt (ix + up - down), regionRun := Vector.ofFn (fun k => if crossed k then 0 else runs.get k) }

/-- Predicted ripple, A peak to peak; T in ns, L in uH (R85). -/
def rippleOf (r : Region) (vin vout : Volt) (tNs lUh : Rat) : Amp :=
  match r with
  | .buck | .bbLow => (vin - vout) * clampR 0 1 (ratio vout vin) * tNs / (lUh * 1000)
  | .bbHigh | .boost => vin * clampR 0 1 (1 - ratio vin vout) * tNs / (lUh * 1000)

/-- Predicted inductor down-slope by the same form, A per ns (R85). -/
def downSlope (r : Region) (vin vout : Volt) (lUh : Rat) : Rat :=
  match r with
  | .buck | .bbLow => vout / (lUh * 1000)
  | .bbHigh | .boost => max 0 (vout - vin) / (lUh * 1000)

/-- The peak comparator's threshold t ns into an energy-storing interval: it falls at half the down-slope (R85). -/
def Phase.threshold (p : Phase) (t : Rat) : Amp := peakDac (p.iPk - p.slope * t)

/-- An energy-storing interval of t ns whose current has reached i ends: at its bound, at IPK_LIM, or where the current meets
the falling threshold, though not before the minimum on-time (R85, R90, R93, R126). -/
def State.intervalEnds (s : State) (n : Lane) (p : Phase) (t : Rat) (i : Amp) : Bool :=
  decide (p.tEsMax ≤ t) || decide (peakDac (s.ipk n) ≤ i) || (decide (p.tEsMin ≤ t) && decide (p.threshold t ≤ i))

/-! ### Start angles (R88, R89, R105, R134) -/

/-- The lane takes part in the stack interleave: its FSW is the master's (R134). -/
def State.inStack (s : State) (n : Lane) : Bool :=
  2 ≤ s.stack.size && (s.stack.fsw0 : Rat) == s.fsw n

def State.stackShift (s : State) (n : Lane) : Rat :=
  if s.inStack n then ratio s.stack.position.toNat (16 * s.stack.size) else 0

def cut1 (x : Rat) : Rat := x - x.floor

/-- An angle as the delay line places it (R87). -/
def State.placed (s : State) (n : Lane) (x : Rat) : Rat := if s.steps n = 0 then x else cut1 (onGrid (1 / s.steps n) x)

/-- Start angle of a field phase of lane n, which is in state `l`, from the present field (R88, R105, R134). -/
def State.angleAim (s : State) (n : Lane) (l : LaneDie) (p : Pos) : Rat :=
  let gang := s.cfg.gang n
  let i := ((List.finRange 4).filter (fun j => decide (j.val < p.val) && (l.phases.get j).st == .field)).length
  if gang.length ≤ 1 then s.placed n (cut1 ((n.val : Rat) / 16 + ratio i l.nField + s.stackShift n))
  else
    let count := fun (m : Lane) => if m = n then l.nField else (s.lane m).nField
    let lower := (gang.filter (fun m => m.val < n.val)).foldl (fun a m => a + count m) 0
    let total := gang.foldl (fun a m => a + count m) 0
    s.placed n (cut1 (ratio (lower + i : Nat) total + s.stackShift n))

/-- One period's move toward the new angle, the shorter way, by at most 1/32 (R89). -/
def angleStep (cur aim : Rat) : Rat :=
  let d := cut1 (aim - cur)
  if d = 0 then cur
  else if d < 1 / 2 ∨ (d = 1 / 2 ∧ Config.halfTurnUp cur) then cut1 (cur + min d (1 / 32))
  else cut1 (cur - min (1 - d) (1 / 32))

/-! ### The period boundary -/

/-- Mean of a quantity over the other field phases (R124). -/
def othersMean (l : LaneDie) (p : Pos) (f : Phase → Rat) : Rat :=
  meanR (((List.finRange 4).filter (fun j => j != p && (l.phases.get j).st == .field)).map (fun j => f (l.phases.get j)))

/-- Slewed values of one period (R65, R66, R102): raised ceilings, allocation and charge setpoint rise at the frame's slew,
reduced ones apply in full. -/
def State.slewLane (s : State) (n : Lane) (l : LaneDie) : LaneDie :=
  let per := s.fsw n
  let o := l.order
  let inc := o.iSlew / per
  let node := if o.role = .feed ∨ o.role = .batDiode then l.loop.vinl else l.loop.sys
  let paused := o.role != .feed && o.target < l.loop.target && l.loop.target * (101 / 100) < node
  let up := fun (cur fin : Rat) => if fin < cur then fin else min fin (cur + inc)
  { l with loop := { l.loop with
      target := if paused then l.loop.target else slewTo l.loop.target o.target (o.slew / per)
      alloc := up l.loop.alloc o.alloc
      iSet := up l.loop.iSet o.iSet
      iSrc := up l.loop.iSrc o.iSrc
      iDis := up l.loop.iDis o.iDis
      feedCeil := up l.loop.feedCeil o.feedCeil
      iBias := slewTo l.loop.iBias o.iBias (o.biasSlew / per)
      laneCeil := up l.loop.laneCeil (s.laneCeilAim n)
      rampA := l.loop.rampA.map (fun r => max 0 (r - l.loop.rampRate / per)) } }

/-- The source ceiling of a drawing lane: C_SRC and the sag ceiling (R144, R145); for the trunk the contract term is
P_allow / V (R275). It notes since when c_sag has stayed below C_SRC (R146). -/
def State.sourceCeil (s : State) (n : Lane) (l : LaneDie) : LaneDie :=
  let o := l.order
  let trunk := s.cfg.farKind n == .trunk
  let v := l.tapMean
  let iSrc := if trunk then min l.loop.iSrc (ratio (o.pBase * droopF v o.vKnee o.vFloor) v) else l.loop.iSrc
  let cSrc := toLaneCurrent l.region iSrc l.loop.vinl l.loop.sys
  let cSag := if l.loop.vinl < o.vSagEff then l.loop.cSag * (15 / 16)
              else if o.vSagEff * (101 / 100) < l.loop.vinl then min (l.loop.cSag + cSrc / 1024) cSrc
              else l.loop.cSag
  { l with loop := { l.loop with cSrc := cSrc, cSag := cSag
                                 sagSince := if cSag < cSrc then some (l.loop.sagSince.getD s.now) else none } }

/-- Charge ceiling from the SYS floor (R80). -/
def State.floorCeil (s : State) (l : LaneDie) : LaneDie :=
  let lift := s.cfg.q 1 5 (1 / 10)
  let v := l.loop.vinl
  let c := if l.loop.sys < v + lift / 2 then l.loop.cFloor * (15 / 16)
           else if v + lift * (3 / 4) < l.loop.sys then min (l.loop.cFloor + l.order.iSet / 1024) l.order.iSet
           else l.loop.cFloor
  { l with loop := { l.loop with cFloor := c } }

/-- Effective target of the node the lane regulates (R80, R84, R105); a lane that feeds the trunk follows the law of
R276. -/
def State.targetEff (s : State) (n : Lane) (l : LaneDie) : Volt :=
  let t := match l.order.role with
    | .drawAlloc => l.loop.target * (101 / 100)
    | .feed =>
      if s.cfg.farKind n = .trunk then
        l.order.vFnl - (l.order.vFnl - l.order.vFfl) * ratio (meanR l.loop.feeds) l.order.cFeed
      else l.loop.target
    | _ => l.loop.target
  let gang := 2 ≤ (s.cfg.gang n).length
  if l.order.shared || gang then
    let ll := s.cfg.q (2 + n.val) 19 (1 / 1000)
    let ll := if gang || l.keeper.any (·.expired) then max ll (2 / 1000) else ll
    t * (1 - ll * ratio l.loop.iLane (s.rawCeil n)) + l.order.trim
  else t

/-- One voltage loop of R82: gains, present integrator, filter and last error; the result is i_v before ceilings and
the new error and filter. -/
def loopOut (kp kd dp e ePrev dfilt integ : Rat) : Rat × Rat :=
  let df := dp * dfilt + (1 - dp) * (e - ePrev)
  (kp * e + integ + kd * df, df)

/-- Limits on positive and negative current of the lane's role, before a stop ramp (R80, R94); `chg` is the charge ceiling of
the SUPPLEMENT battery lane. -/
def State.roleLimits (s : State) (n : Lane) (l : LaneDie) (iSet chg : Amp) : Amp × Amp :=
  let o := l.order
  let source := min l.loop.laneCeil (min l.loop.cSrc l.loop.cSag)
  let top : Amp := match o.role with
    | .drawHold => source
    | .drawAlloc => min (toLaneCurrent l.region l.loop.alloc l.loop.vinl l.loop.sys) source
    | .feed => min l.loop.feedCeil l.loop.laneCeil
    | .batSupplement => min l.loop.laneCeil l.loop.iDis
    | .batDiode => min iSet (min l.loop.cFloor l.loop.laneCeil)
  let neg : Amp := if l.field.inReg && !l.field.skipping then s.ineg n * (l.nField : Rat) else 0
  (top, match o.role with | .batSupplement => max neg (-chg) | _ => neg)

/-- Loops and the lane's next current command (R80, R82, R83, R101, R207). The command computed here takes effect at the next
boundary. -/
def State.laneLoop (s : State) (n : Lane) (l : LaneDie) : LaneDie :=
  let o := l.order
  let far := o.role == .feed || o.role == .batDiode
  let g := fun (sIdx : Nat) (step : Rat) => s.coefQ n (if far then sIdx + 1 else sIdx) step
  let node := if far then l.loop.vinl else l.loop.sys
  let e := s.targetEff n l - node
  let held := l.field.skipping || l.loop.reload
  let loAt := fun (x : Rat) => loopOut (g 11 (1 / 16)) (g 15 (1 / 4)) (g 17 (1 / 256)) e l.loop.ePrev l.loop.dfilt x
  let integ := if l.loop.reload then l.loop.iv - (loAt 0).1 else l.loop.integ
  let bias := l.loop.iBias
  let iSet := if l.backstop.tripped then 0 else l.loop.iSet
  let eB := o.cvTarget - l.loop.vinl
  let boAt := fun (x : Rat) => loopOut (s.coefQ n 12 (1 / 16)) (s.coefQ n 16 (1 / 4)) (s.coefQ n 18 (1 / 256)) eB l.loop.ePrevB
    l.loop.dfiltB x
  let integB := if l.loop.reload then l.loop.iBat - (boAt 0).1 else l.loop.integB
  let stepB := s.coefQ n 14 (1 / 4096) * eB
  let bo1 := (boAt (integB + stepB)).1
  let acceptB := o.role == .batSupplement && !held && (if bo1 < 0 then 0 < stepB else if iSet < bo1 then stepB < 0 else true)
  let integB := if acceptB then integB + stepB else integB
  let bo := boAt integB
  let lim := s.roleLimits n l iSet (min iSet (max 0 bo.1))
  let top := match l.loop.rampA with | some r => min lim.1 r | none => lim.1
  let bot := match l.loop.rampA with | some r => max lim.2 (-r) | none => lim.2
  let stepI := g 13 (1 / 4096) * e
  let iv1 := (loAt (integ + stepI)).1 + bias
  let accept := !held && (if top < iv1 then stepI < 0 else if iv1 < bot then 0 < stepI else true)
  let integ := if accept then integ + stepI else integ
  let lo := loAt integ
  let iv := lo.1
  let u := max bot (min top (iv + bias))
  let cvAct := o.role == .batSupplement && max 0 bo.1 < iSet && iv + bias < -(max 0 bo.1)
  { l with loop := { l.loop with
      iv := iv, dfilt := lo.2, ePrev := e, reload := false, integ := integ
      iBat := bo.1, dfiltB := bo.2, ePrevB := eB, integB := integB
      cvActive := cvAct || (o.role == .batDiode && iv + bias ≤ top)
      sagActive := (o.role == .drawHold || o.role == .drawAlloc) && l.loop.cSag < l.loop.cSrc && top == l.loop.cSag &&
        top < iv + bias
      iNext := if far then -u else u } }

/-- The command of the last boundary comes into force (R82). -/
def LaneDie.command (l : LaneDie) : LaneDie := { l with loop := { l.loop with iCmd := l.loop.iNext } }

/-- Direction of a skip pulse: toward the node the lane holds; the SUPPLEMENT battery lane charges where SYS is not below its
target; by the command in an allocation or feed role (R98). -/
def LaneDie.pulseFwd (l : LaneDie) : Bool :=
  match l.order.role with
  | .drawHold => true
  | .batDiode => false
  | .batSupplement => decide (l.loop.sys < l.loop.target)
  | .drawAlloc | .feed => decide (0 ≤ l.loop.iCmd)

/-- Peak commands, slope compensation, bounds and angles of the field phases (R85, R89, R90, R98, R119, R126). The leaving
phase of a shed keeps its angle; a pulse in skip peaks at 2 × SKIP_I. -/
def State.peakCommands (s : State) (n : Lane) (l : LaneDie) : LaneDie :=
  let skip := l.field.skipping
  let fwd := if skip then l.pulseFwd else decide (0 ≤ l.loop.iCmd)
  let vin := if fwd then l.loop.vinl else l.loop.sys
  let vout := if fwd then l.loop.sys else l.loop.vinl
  let lPh := s.laneQ n 4 (1 / 100)
  let rip := rippleOf l.region vin vout (s.periodNs n) lPh
  let total : Rat := sumR (l.phases.toList.map (fun p => if p.st = .field then (p.share : Rat) / 8 else 0))
  let many := 2 ≤ l.nField
  let ton := s.laneQ n 6 (5 / 2)
  let cap := s.periodNs n - s.laneQ n 7 (5 / 2)
  { l with phases := Vector.ofFn (fun j =>
      let p := l.phases.get j
      let leaving := match l.field.shed with | some (q, _, _) => q == j | none => false
      if p.st = .field then
        { p with
          iPk := if skip then min (2 * s.laneQ n 24 (1 / 4)) (s.ipk n)
                 else min (ratio (absR l.loop.iCmd * ((p.share : Rat) / 8)) total + rip / 2 + p.trim) (s.ipk n)
          slope := downSlope l.region vin vout lPh / 2, fwd := fwd, tEsMin := ton
          tEsMax := if many && 4 ≤ p.sinceAdmit then min cap (max (2 * othersMean l j (·.tEs)) (2 * ton)) else cap
          angle := if leaving then p.angle
                   else if p.sinceAdmit = 0 then s.angleAim n l j else angleStep p.angle (s.angleAim n l j)
          sinceAdmit := p.sinceAdmit + 1 }
      else { p with iPk := 0, slope := 0, tEsMin := 0, tEsMax := 0 }) }
where absR (x : Rat) : Rat := if x < 0 then -x else x

def rabs (x : Rat) : Rat := if x < 0 then -x else x

/-- Mean of a quantity of the period that ended over the other field phases (R124). -/
def sampleMean (l : LaneDie) (ms : Vector PhaseSample 4) (p : Pos) (f : PhaseSample → Rat) : Rat :=
  meanR (((List.finRange 4).filter (fun j => j != p && (l.phases.get j).st == .field)).map (fun j => f (ms.get j)))

/-- The front end of a phase runs: on the field, on warm bench, in a cold admission, and in the bias wait (R111, R112,
R124). -/
def LaneDie.frontEnd (l : LaneDie) (p : Phase) : Bool :=
  p.st == .field || p.st == .warm || (p.st == .cold && (p.admitting || p.admitNext || l.run == .bias))

/-- The counters of the fault tests for one phase (R93, R124), against the lane means of the same period. The new values and
the kind that has reached its persistence; of several in one period the first in the order OPEN, SENSE_RANGE, SENSE_SAT,
SENSE_DEAD, since R124 names none (DESIGN CHOICE, log entry 120). -/
def State.faultCounts (s : State) (n : Lane) (l : LaneDie) (j : Pos) (ms : Vector PhaseSample 4) (trunc : Bool) : Phase :=
  let m := ms.get j
  let p := l.phases.get j
  let leaving := match l.field.shed with | some (q, _, _) => q == j | none => false
  let fresh := p.sinceAdmit ≤ 4
  let field := p.st == .field
  let mean := sampleMean l ms j (·.iAvg)
  let meanT := sampleMean l ms j (·.tEs)
  let rating := s.iavg n
  let fwd := 0 ≤ l.loop.iCmd
  let vin := if fwd then l.loop.vinl else l.loop.sys
  let vout := if fwd then l.loop.sys else l.loop.vinl
  let vl := match l.region with | .buck | .bbLow => rabs (vin - vout) | .bbHigh | .boost => rabs vin
  let est := vl * m.tEs / (s.laneQ n 4 (1 / 100) * 1000)
  let openArmed := 2 ≤ l.nField && rating / 10 ≤ rabs mean
  let openFail := rabs m.iAvg < rabs mean / 10 && 3 / 2 * meanT ≤ m.tEs
  let openRun := if !field || leaving || fresh then p.openRun else if !openArmed then 0
    else if openFail then p.openRun + 1 else 0
  let rangeCounted := field && !leaving && !fresh && rating / 5 ≤ est && 100 ≤ m.tEs && rabs mean / 10 ≤ rabs m.iAvg && !trunc
  let rangeRun := if !rangeCounted then p.rangeRun else if m.rise < est / 2 || 2 * est < m.rise then p.rangeRun + 1 else 0
  let deadCounted := field && !fresh && s.cfg.get (s.laneFn n) 1 == 0 && 9 / 2 < l.loop.vinl && 9 / 2 < l.loop.sys
  let deadRun := if !deadCounted then p.deadRun else if m.cmMax < 4 / 10 then p.deadRun + 1 else 0
  let sat := l.frontEnd p && m.sat4
  let due := if p.faultDue.isSome then p.faultDue
    else if openRun = 16 then some .openCircuit else if rangeRun = 8 then some .senseRange
    else if sat then some .senseSat else if deadRun = 8 then some .senseDead else none
  { p with iAvg := if field then m.iAvg else 0, tEs := if field then m.tEs else 0
           openRun := openRun, rangeRun := rangeRun, deadRun := deadRun, faultDue := due
           ipkRun := if field && (m.byIpk || p.ipkEnded) then p.ipkRun + 1 else 0, ipkEnded := false }

/-- Admissions due at this boundary, the aborted shed, and the falling share of a shed (R112, R119, R121). -/
def LaneDie.admissions (l : LaneDie) : LaneDie :=
  let l := match l.field.shed, l.field.shedAbort with
    | some (p, _, false), true =>
      { l with phases := vmod l.phases p (fun x => { x with share := 8 })
               field := { l.field with shed := none, shedAbort := false } }
    | _, _ => { l with field := { l.field with shedAbort := false } }
  let l := l.mapPhases (fun p =>
    if p.admitNext && (p.st == .warm || p.st == .cold) then { p with st := .field, admitNext := false, sinceAdmit := 0, share := 8, openRun := 0, rangeRun := 0, deadRun := 0 }
    else { p with admitNext := false })
  match l.field.shed with
  | some (p, m, r) =>
    { l with phases := vmod l.phases p (fun x => { x with share := 8 - min 8 (m + 1) })
             field := { l.field with shed := some (p, m + 1, r) } }
  | none => l

/-- Means of |I_lane| over the last 16 and 8,192 periods (R115): the histories fill from empty. -/
def LaneDie.iFast (l : LaneDie) : Amp := meanR (l.field.hist.take 16)
def LaneDie.iSlow (l : LaneDie) : Amp := meanR l.field.hist

def State.nFloor (s : State) (n : Lane) (l : LaneDie) : Nat :=
  min (max (max (s.laneQ n 32 1).floor.toNat l.order.floor) 1) l.nIn

/-- The add condition of R116. -/
def State.addCond (s : State) (n : Lane) (l : LaneDie) : Bool :=
  let nf := l.nField
  nf < l.nIn && (nf < s.nFloor n l || s.laneQ n 26 (5 / 100) * s.iavg n < ratio l.iFast nf) &&
  s.laneQ n 28 16 ≤ l.field.sinceAdd

/-- COLD_TH × N_in × IAVG_LIM (R117). -/
def State.coldTh (s : State) (n : Lane) (l : LaneDie) : Amp := s.laneQ n 30 (1 / 100) * l.nIn * s.iavg n

/-- Of R116's shed condition: the load per phase after a removal lies below SHED_TH. -/
def State.shedLow (s : State) (n : Lane) (l : LaneDie) : Bool :=
  decide (2 ≤ l.nField) && decide (ratio l.iSlow (l.nField - 1 : Nat) < s.laneQ n 27 (5 / 100) * s.iavg n)

/-- The bench is held warm: by the hub's requirement, or below the floor (R117). -/
def State.keepWarm (s : State) (n : Lane) (l : LaneDie) : Bool := l.order.warm || decide (l.nField < s.nFloor n l)

/-- The rule of R116 at one boundary. Only a fill period, a transit and the step and add branches restart the shed hold; an
inhibit does not. `step` tells that a step event was stamped in the period that ended. -/
def State.addShed (s : State) (n : Lane) (l : LaneDie) (step : Bool) : LaneDie :=
  let now := s.now
  let fill := l.filling now
  if step then
    if fill then { l with field := { l.field with shedInhibit := some (now + msTicks 50), shedHold := 0 } }
    else stepBranch now l
  else if fill then { l with field := { l.field with shedHold := 0 } }
  else if l.field.shed.isSome then
    if s.addCond n l then stepBranch now l else { l with field := { l.field with shedHold := 0 } }
  else if s.addCond n l then
    match l.inOrder (fun p => p.st == .warm || p.st == .cold) with
    | [] => l
    | j :: _ =>
      { l with phases := vmod l.phases j (fun p =>
                 if p.st = .warm then { p with admitNext := true }
                 else if p.admitNext then p else { p with admitting := true, toWarm := false })
               field := { l.field with sinceAdd := 0, shedHold := 0 } }
  else { l with field := { l.field with shedHold := if s.shedLow n l then l.field.shedHold + 1 else 0 } }

/-- The rule of R116 and the bench rule of R117 at one boundary: the bench counts the periods of I_slow below the
threshold, and returns to warm when I_fast reaches it. -/
def State.fieldRule (s : State) (n : Lane) (l : LaneDie) (step : Bool) : LaneDie :=
  let l := { l with field := { l.field with sinceAdd := l.field.sinceAdd + 1, sinceShed := l.field.sinceShed + 1 } }
  let l := s.addShed n l step
  let th := s.coldTh n l
  let l := { l with field := { l.field with coldHold := if l.iSlow < th then l.field.coldHold + 1 else 0 } }
  if l.field.benchCold && (th ≤ l.iFast || s.keepWarm n l) then
    { l.mapPhases (fun p => if p.st = .cold && !p.admitting && !p.admitNext then { p with admitting := true, toWarm := true } else p) with
      field := { l.field with benchCold := false } }
  else l

/-- The field phases carry current toward the watched node (R96): away from it only the SUPPLEMENT battery lane while
it charges. -/
def LaneDie.delivers (l : LaneDie) : Bool := l.order.role != .batSupplement || 0 ≤ l.loop.iCmd

/-- Whether a skipping lane fires a pulse at a boundary (R98). -/
def State.skipFires (s : State) (n : Lane) (l : LaneDie) : Bool :=
  let band := s.laneQ n 25 (1 / 400)
  match l.order.role with
  | .drawHold => l.loop.sys < l.loop.target
  | .batDiode => l.loop.vinl < l.loop.target && 0 < l.loop.iSet && !l.backstop.tripped
  | .batSupplement => l.loop.sys < l.loop.target ||
      (l.loop.target * (1 + band / 2) < l.loop.sys && 0 < l.loop.iSet && !l.backstop.tripped)
  | .drawAlloc | .feed => decide (l.loop.iCmd ≠ 0)

/-- The means of the period that ended, with the histories they feed (R82, R275, R276). -/
def State.takeMeans (s : State) (n : Lane) (m : PeriodSample) (l : LaneDie) : LaneDie :=
  let iLane := if l.active then sumR ((List.finRange 4).map (fun j =>
      if (l.phases.get j).st = .field then (m.phases.get j).iAvg else 0)) else 0
  let window := max 1 ((s.fsw n / 50).ceil.toNat)
  let taps := (m.vinlAvg :: l.loop.taps).take window
  let l := { l with loop := { l.loop with sys := m.sysAvg, vinl := m.vinlAvg, iLane := iLane, taps := taps } }
  let fed : Watt := if l.order.role = Role.feed then -l.powerAtSys else 0
  { l with loop := { l.loop with feeds := (fed :: l.loop.feeds).take window } }

/-- A lane that carries no current at its boundary: in standby the target follows the node (R113); a running front end is
tested for SENSE_SAT (R124). -/
def LaneDie.idlePeriod (l : LaneDie) (m : PeriodSample) : LaneDie :=
  let node := if l.order.role = .feed ∨ l.order.role = .batDiode then m.vinlAvg else m.sysAvg
  { l with loop := { l.loop with target := if l.run = .standby then node else l.loop.target }
           phases := Vector.ofFn (fun j =>
             let p := l.phases.get j
             let sat := l.frontEnd p && (m.phases.get j).sat4 && (l.run == .bias || l.run == .standby)
             { p with drive := .mid, sinceAdmit := p.sinceAdmit + 1
                      faultDue := if p.faultDue.isNone && sat then some .senseSat else p.faultDue })
           field := { l.field with periods := l.field.periods + 1 } }

/-- Voltages whose ratio is M (R91): the direction is that of the commanded current; a command of exactly 0 A, for which R91
names no direction, counts as toward SYS, here and in R85 (DESIGN CHOICE, log entry 121). -/
def LaneDie.ratioM (l : LaneDie) : Rat :=
  if 0 ≤ l.loop.iCmd then ratio l.loop.sys l.loop.vinl else ratio l.loop.vinl l.loop.sys

/-- Fault tests, admissions, slews, ceilings, region, loops and peak commands of a boundary, in their order (R82). The peak
commands of the period that begins carry the command of the boundary before. -/
def State.laneControl (s : State) (n : Lane) (m : PeriodSample) (l : LaneDie) : LaneDie :=
  let l := { l with phases := Vector.ofFn (fun j => s.faultCounts n l j m.phases (m.truncated || l.truncating)) }
  let l := s.floorCeil (s.sourceCeil n (s.slewLane n l.admissions.command))
  s.peakCommands n (s.laneLoop n (regionStep l l.ratioM))

/-- |e| stands above STEP_V (R108). -/
def State.bigError (s : State) (n : Lane) (l : LaneDie) : Bool :=
  decide (s.laneQ n 20 (5 / 1000) * s.targetEff n l < rabs l.loop.ePrev)

/-- The voltage test of the removal detector on a lane die (R211). -/
def State.removalTest (s : State) (m : PeriodSample) (old l : LaneDie) : Bool :=
  let armed := l.order.role == .batSupplement || l.order.role == .batDiode
  let inPhase := s.charge.phase == .precharge || s.charge.phase == .cc || s.charge.phase == .cv
  armed && inPhase && decide (l.loop.iLane < 0) && l.chargePrev && decide (old.loop.vinl * (105 / 100) < m.vinlAvg) &&
    decide (rabs (l.loop.iLane - old.loop.iLane) < 2)

/-- Skip may begin: enabled, one phase on the field of the whole gang, no fill period (R97). -/
def State.skipReady (s : State) (n : Lane) (l : LaneDie) : Bool :=
  s.cfg.get (s.laneFn n) 23 == 1 && l.nField == 1 &&
    (s.cfg.gang n).all (fun k => k == n || (s.lane k).nField == 0) && !l.filling s.now

/-- A skip pulse drives current toward the watched node (R96, R98). -/
def LaneDie.pulseToward (l : LaneDie) : Bool := l.order.role != .batSupplement || l.pulseFwd

/-- What a field phase does from this boundary (R90, R94, R96, R98): truncation starts no interval toward the node and lets a
freewheeling current fall to zero. -/
def LaneDie.fieldDrive (l : LaneDie) (fire open_ : Bool) (p : Phase) : Drive :=
  if l.field.skipping then (if fire then .storing else if open_ then p.drive else .mid)
  else if l.truncating && l.delivers then (if p.drive = .freewheel then .freewheel else .mid)
  else .storing

/-- Counters, histories and drives at the end of a boundary (R97, R98, R101, R115, R127). Of the 16 periods of R99 those
count in which a pulse fires; one that only continues an earlier pulse does not (DESIGN CHOICE, log entry 122). -/
def State.laneClose (s : State) (n : Lane) (m : PeriodSample) (old l : LaneDie) : LaneDie :=
  let e := l.loop.ePrev
  let tgt := s.targetEff n l
  let small := rabs l.loop.iCmd < s.laneQ n 24 (1 / 4)
  let above := s.laneCeilAim n < l.loop.iv + l.loop.iBias
  let fire := l.field.skipping && !m.pulseOpen && s.skipFires n l && !(l.truncating && l.pulseToward)
  { l with
    phases := l.phases.map (fun p => if p.st = .field then
        { p with drive := l.fieldDrive fire m.pulseOpen p }
      else { p with drive := .mid, sinceAdmit := p.sinceAdmit + 1 })
    chargePrev := decide (l.loop.iLane < 0), removalSeen := l.removalSeen || s.removalTest m old l
    field := { l.field with
      hist := (rabs l.loop.iLane :: l.field.hist).take 8192
      stepArmed := !s.bigError n l
      regRun := if rabs e ≤ tgt / 100 then l.field.regRun + 1 else 0
      skipRun := if small && !l.field.skipping then l.field.skipRun + 1 else 0
      pulses := if l.field.skipping then (fire :: l.field.pulses).take 16 else []
      ceilOkRun := if above then 0 else l.field.ceilOkRun + 1
      periods := l.field.periods + 1, sinceTrim := l.field.sinceTrim + 1 } }

/-- One switching-period boundary of a lane (R82 and the rules it names): the lane after it, and whether a step event
was stamped. -/
def State.lanePeriod (s : State) (n : Lane) (m : PeriodSample) : LaneDie × Bool :=
  let old := s.lane n
  let m := digitised m
  let l := s.takeMeans n m old
  if !l.up then (old, false)
  else if !l.active then (l.idlePeriod m, false)
  else
    let l := s.laneControl n m l
    let step := s.bigError n l && l.field.stepArmed
    (s.fieldRule n (s.laneClose n m old l) step, step)

end Sys2Proof.Machine
end

