-- ==== Sys2Proof/Machine/Fold.lean ====
section
/-! DEFINITION. Telemetry samples at their source rate (R307-R310). -/

namespace Sys2Proof.Machine

/-- Truncation toward zero into a channel's unit (R309). -/
def truncQ (x : Rat) : Int := if 0 ≤ x then x.floor else x.ceil

def sat32 (n : Nat) : Nat := min n 0xFFFFFFFF

def maxSample (o : Option Int) (v : Int) : Int := match o with | some m => max m v | none => v
def minSample (o : Option Int) (v : Int) : Int := match o with | some m => min m v | none => v

/-- One valid sample, in the channel's unit; while the hub is absent the lane die keeps its extremes (R314). -/
def Channel.fold (c : Channel) (up : Bool) (x : Rat) : Channel :=
  let v := truncQ x
  if !up then { c with heldMax := some (maxSample c.heldMax v), heldMin := some (minSample c.heldMin v) }
  else
    { c with sum := c.sum + x, n := c.n + 1, last := some v, max := some (maxSample c.max v)
             min := some (minSample c.min v), count := sat32 (c.count + 1) }

def Tel.sample (t : Tel) (up : Bool) (i : Fin 96) (x : Rat) : Tel := { t with chans := vmod t.chans i (·.fold up x) }

/-- Channel i of a group that starts at channel b. -/
def chan (b i : Nat) : Fin 96 := ⟨(b + i) % 96, Nat.mod_lt _ (by decide)⟩

/-- Power a feeding trunk lane takes from SYS. -/
def State.trunkFeedW (s : State) : Watt :=
  sumR ((List.finRange 4).map (fun n => if s.cfg.farKind n = .trunk ∧ (s.lane n).order.role = .feed then -(s.lane n).powerAtSys else 0))

/-- P_SYS (R307): drawing lanes, the battery lane with its sign, and the BATFET pair of the last round. -/
def State.pSysNow (s : State) : Watt :=
  sumR ((List.finRange 4).map (fun n => if (s.lane n).order.role = .feed then 0 else (s.lane n).powerAtSys)) +
  (match s.therm.info with | some r => r.pairW | none => 0)

/-- Allowed draw at the tap in force (R275), as channel 91 shows it. -/
def State.pAllowNow (s : State) (n : Lane) : Watt :=
  s.trunk.pBase * droopF (s.lane n).tapMean (s.cfg.q 11 5 (1 / 10)) (s.cfg.q 11 6 (1 / 10))

/-- The period channels of one lane at its boundary (R307). -/
def State.samplePeriod (s : State) (n : Lane) : State :=
  let l := s.lane n
  if !l.onLine || !l.up || l.shut then s
  else
    let up := s.hubUp
    let t := (List.finRange 4).foldl (fun (t : Tel) p =>
      let x := l.phases.get p
      if x.inService then t.sample up (chan 0 (4 * n.val + p.val)) (x.iAvg * 1000) else t) s.tel
    let t := t.sample up (chan 16 n.val) (l.loop.iLane * 1000)
    let t := t.sample up (chan 20 n.val) (l.loop.vinl * 1000)
    let t := t.sample up (chan 24 n.val) (l.loop.sys * 1000)
    let t := t.sample up (chan 28 n.val) (l.powerAtSys * 100)
    let t := t.sample up 53 (s.pSysNow * 100)
    let t := t.sample up 54 ((s.pSysNow - s.trunkFeedW) * 100)
    let t := t.sample up 55 (s.trunkFeedW * 100)
    { s with tel := if s.cfg.farKind n = .trunk then t.sample up 91 (s.pAllowNow n) else t }

/-- The gauge channels (R307); invalid while the battery is marked absent (R308). -/
def State.sampleGauge (s : State) (i : Amp) (v : Volt) : State :=
  if s.charge.present && s.hubUp then
    { s with tel := ((s.tel.sample true 46 (v * 1000)).sample true 47 (i * 1000)).sample true 48 (v * i * 100) }
  else s

end Sys2Proof.Machine
end

