-- ==== Sys2Proof/Machine/LaneRows.lean ====
section
/-! DEFINITION. The commands of the lane dies (chapters 04 and 05). A command whose condition does not hold in the
state leaves it unchanged (log entry 4). -/

namespace Sys2Proof.Machine

/-- Values waiting for a moment of effect go into force (R55, R108, R138, R163). -/
def Cfg.release (c : Cfg) (fn : Nat) (t : TakesEffect) : Cfg :=
  let due := fun (e : CfgEntry) => e.fn == fn && (settingInfo e.fn e.idx).any (fun i => i.takes == t)
  { c with inForce := inForceWith c.inForce (c.pending.filter due), pending := c.pending.filter (fun e => !due e) }

def LaneDie.canRun (l : LaneDie) : Bool := l.up && !l.shut && !l.latched

/-- PSEN_n rises: the rotation base, out masks and trims of the start frame are taken, lane-start settings apply and
the lane joins the headroom line (R100, R108, R114, R123, R127, R249). -/
def State.laneEnable (s : State) (n : Lane) (run : LaneRun) : State :=
  let fresh := s.cfg.pending.any (fun e => e.fn == 2 + n.val && e.idx < 5)
  let s := { s with cfg := s.cfg.release (2 + n.val) .laneStart
                    keep := if fresh then { s.keep with trims := vput s.keep.trims n none, trimBad := vput s.keep.trimBad n true } else s.keep }
  let rot : Fin 4 := s.keep.rot.get n + 1
  let s := { s with keep := { s.keep with rot := vput s.keep.rot n rot } }
  let trims := s.startTrims n
  let first := !(s.lane n).onLine
  let raised := first && 2 ≤ (s.cfg.gang n).length && s.cfg.get (2 + n.val) 19 < 2
  let s := s.modLane n (fun l =>
    let l := l.withOut (s.keep.out.get n) (s.phaseFit n)
    { l with run := run, psen := true, onLine := true, periodSteps := s.nominalSteps n
             phases := Vector.ofFn (fun p =>
               let x := l.phases.get p
               { x with trim := trims.get p, faultDue := none, sinceAdmit := 0
                        st := if x.st = .out then .out else if run = .standby then .warm else .cold })
             field := { l.field with rot := rot, inReg := false, regRun := 0, fillFrom := none } })
  let s := if 2 ≤ s.stack.size && !s.inStack n then s.stampLane n .stackUnlocked else s
  if raised then s.record 0x0207 [BitVec.ofNat 8 n.val, 1] else s

/-- A role or direction change, or a floor that admits a second phase, ends skip (R99). -/
def endsSkip (old new : LaneOrder) : Bool := old.dir != new.dir || old.role != new.role || 2 ≤ new.floor

/-- First pulses after an admission from standby, with the lane ceiling of the order in force (R113, R295). -/
def State.openField (s : State) (n : Lane) (node : Volt) (l : LaneDie) : LaneDie :=
  let l := l.firstPulses s.now node
  { l with loop := { l.loop with laneCeil := s.laneCeilAim n } }

/-- An abort of a shed that was not due before is counted and stamped (R121). -/
def State.noteAbort (s : State) (n : Lane) (before : LaneDie) : State :=
  if (s.lane n).field.shedAbort && !before.field.shedAbort && (s.lane n).field.shed.isSome then
    (s.modLane n (fun l => { l with diag := { l.diag with shedAborts := satInc 32 l.diag.shedAborts } })).stampLane n .shedAbort
  else s

/-- The lane die takes the values of a frame: it leaves LIMP, notes an end of skip (R99), a bias that ends, the warm
requirement (R117) and a step that is pending (R118). -/
def LaneDie.takeOrder (l : LaneDie) (o : LaneOrder) (hold : Nat) : LaneDie :=
  { l with
    got := true, keeper := none, holdTenths := hold, order := o
    loop := { l.loop with iBias := if o.iBias = 0 ∧ o.biasSlew = 0 then 0 else l.loop.iBias }
    field := { l.field with skipExitDue := l.field.skipExitDue || (l.field.skipping && endsSkip l.order o) } }

/-- A phase of the lane waits on the bench. -/
def LaneDie.benched (l : LaneDie) : Bool := l.phases.toList.any (fun p => p.st == .warm || p.st == .cold)

def LaneDie.warmUp (l : LaneDie) : LaneDie :=
  if l.order.warm && l.field.benchCold && l.active then
    { l.mapPhases (fun p => if p.st = .cold && !p.admitting && !p.admitNext then { p with admitting := true, toWarm := true } else p) with
      field := { l.field with benchCold := false } }
  else l

/-- The step event of a step-pending frame (R116, R118); a skipping lane leaves skip where the step admits a phase (R99). -/
def LaneDie.notice (l : LaneDie) (now : Nat) : LaneDie :=
  if l.order.stepPending && l.active then
    (if l.filling now then { l with field := { l.field with shedInhibit := some (now + msTicks 50) } }
     else
       let second := l.field.skipping && l.benched
       let l := stepBranch now l
       { l with field := { l.field with skipExitDue := l.field.skipExitDue || second } })
  else l

/-- Slew of a controlled stop over 1 ms (R102, R103): the present command in 1 ms, and no less than the least slew a frame
can carry, so that every stop comes to its end. -/
def stopRate (l : LaneDie) : Rat := max (1 / 10) (rabs l.loop.iCmd)

/-- What the start, standby or stop of a frame does in the die (R100, R103, R113). -/
def State.laneGo (s : State) (n : Lane) (go : LaneGo) : State :=
  let l := s.lane n
  let node := if l.order.role = .feed ∨ l.order.role = .batDiode then l.loop.vinl else l.loop.sys
  match go with
  | .keep => s
  | .start =>
    if !l.canRun || s.aon.safeLatch then s
    else if l.run = .stopped then s.laneEnable n .bias
    else if l.run = .standby then s.modLane n (fun l => s.openField n node l)
    else if l.run = .ramping then s.modLane n (fun l => { l with run := .running, loop := { l.loop with rampA := none } })
    else s
  | .standby =>
    if !l.canRun || s.aon.safeLatch then s
    else if l.run = .stopped then s.laneEnable n .standby
    else s.modLane n LaneDie.toStandby
  | .join =>
    if l.run = .standby && l.canRun && !s.aon.safeLatch then s.modLane n (fun l => s.openField n node l) else s
  | .stopRamp a =>
    if l.run = .running then
      s.modLane n (fun l => { l with run := .ramping, loop := { l.loop with rampA := some (rabs l.loop.iCmd), rampRate := a } })
    else (s.modLane n LaneDie.stop).stampLane n .laneStopped
  | .stopNow => (s.modLane n LaneDie.stop).stampLane n .laneStopped

/-- A hub frame takes effect in a lane die (R6, R100, R102, R103, R113, R118): the die takes the values, then does what
the frame asks. Limits and coefficients wait for the period boundary (R110). -/
def State.applyLane (s : State) (n : Lane) (f : LaneFrame) : State :=
  let before := s.lane n
  let s := s.modLane n (fun l => { ((l.takeOrder f.order s.cfg.keeperHold).warmUp).notice s.now with newSet := l.newSet ++ f.set })
  (s.noteAbort n before).laneGo n f.go

/-- The coefficients whose change reloads an integrator: KP, KD and DP (R110). -/
def reloads (e : CfgEntry) : Bool := (11 ≤ e.idx && e.idx ≤ 12) || (15 ≤ e.idx && e.idx ≤ 18)

/-- Limits and coefficients that a frame has brought apply from a period boundary (R110): changed gains reload the loops of
the gang, a raised ceiling applies in full, and SKIP_EN off or a floor that admits a second phase ends skip (R99). -/
def State.takeSettings (s : State) (n : Lane) : State :=
  let es := (s.lane n).newSet
  if es.isEmpty then s
  else
    let old := s.laneCeilAim n
    let s := { s with cfg := { s.cfg with inForce := inForceWith s.cfg.inForce es } }
    let up := max 0 (s.laneCeilAim n - old)
    let s := s.modLane n (fun l => { l with
      newSet := [], loop := { l.loop with laneCeil := l.loop.laneCeil + up }
      field := { l.field with skipExitDue := l.field.skipExitDue || (l.field.skipping &&
        (s.cfg.get (s.laneFn n) 23 == 0 || (decide (2 ≤ s.laneQ n 32 1) && l.benched))) } })
    if es.any reloads then
      (List.finRange 4).foldl (fun s m => if s.cfg.leader m = n then s.modLane m (fun l => { l with loop := { l.loop with reload := true } }) else s) s
    else s

/-- A lane takes part in the stack: lane die 0 of a master drives STK_SYNC at each L0 period and repeats it on the internal
line; lane dies 1 to 3 of every device align to lane die 0 (R133). -/
def State.syncPulse (s : State) (n : Lane) : State :=
  if n != 0 || s.stack.size ≤ 1 || !(s.lane 0).up then s
  else
    let master := s.stack.position == 0
    let locked := master || (s.lane 0).stackLocked
    let s := if master then { s with stack := { s.stack with syncPulses := s.stack.syncPulses + 1 } } else s
    (List.finRange 4).foldl (fun s m =>
      if s.inStack m && (s.lane m).up && (master || m != 0) then s.modLane m (fun l => { l with stackLocked := locked }) else s) s
/-- LANE_PERIOD_BOUNDARY (R82). -/
def execLanePeriodBoundary (n : Lane) (m : PeriodSample) (s : State) : Out :=
  let s := if (s.lane n).up then (s.takeSettings n).syncPulse n else s
  let r := s.lanePeriod n m
  let before := s.lane n
  let s := ({ s with lanes := vput s.lanes n r.1 }).noteAbort n before
  let s := if r.1.field.regRun = 0 then { s with keep := { s.keep with trimSince := vmod s.keep.trimSince n (fun o => o.map (fun _ => s.now)) } } else s
  .next ((if r.2 then s.stampLane n .step else s).samplePeriod n)

/-- BALANCE_TRIM_UPDATE (R86): trims are frozen in a shed, the only transit (R119), and in skip. -/
def execBalanceTrimUpdate (n : Lane) (s : State) : Out :=
  let l := s.lane n
  let moving := l.field.shed.isSome
  if l.run = .running && 64 ≤ l.field.sinceTrim then
    let mean := meanR ((l.phases.toList.filter (fun p => p.st == .field)).map (fun p => rabs p.iAvg))
    .next (s.modLane n (fun l => { l with
      field := { l.field with sinceTrim := 0 }
      phases := if moving || l.field.skipping then l.phases else l.phases.map (fun p =>
        if p.st = .field then
          { p with trim := if rabs p.iAvg < mean then min 2 (p.trim + 1 / 20)
                           else if mean < rabs p.iAvg then max (-2) (p.trim - 1 / 20) else p.trim }
        else p) }))
  else .next s

/-- PEAK_LIMIT_TRIP (R93): the interval ends whatever the peak command, where the peak comparator sees IPK_LIM (R78). -/
def execPeakLimitTrip (k : PhaseNo) (i : Amp) (s : State) : Out :=
  let n := phaseLane k
  let p := (s.lane n).phases.get (phasePos k)
  if p.st = .field && p.drive == .storing && peakDac (s.ipk n) ≤ rabs i then
    .next (s.modLane n (fun l => { l with
      phases := vmod l.phases (phasePos k) (fun p => { p with drive := .freewheel, ipkEnded := true }) }))
  else .next s

/-- CURRENT_LIMIT_EVENT (R93): 32 consecutive periods ended by IPK_LIM. -/
def execCurrentLimitEvent (k : PhaseNo) (s : State) : Out :=
  let n := phaseLane k
  if 32 ≤ ((s.lane n).phases.get (phasePos k)).ipkRun then
    let s := s.modLane n (fun l => { l with
      phases := vmod l.phases (phasePos k) (fun p => { p with ipkRun := 0 })
      diag := { l.diag with currentLimits := satInc 32 l.diag.currentLimits } })
    .next (s.stamp .protection (.lane n) k.val (.currentLimit k))
  else .next s

/-- The energy-storing interval of a field phase has lasted t ns with its current at `top`: where that ends it, the phase
freewheels (R85, R90). -/
def State.endInterval (s : State) (n : Lane) (t : Rat) (top : Amp) (p : Phase) : Phase :=
  if p.drive = .storing && s.intervalEnds n p t (rabs top) then { p with drive := .freewheel } else p

/-- Where a freewheeling interval ends: at INEG_LIM; at 0 A in skip, before regulation and under truncation (R94, R96). -/
def State.freewheelLimit (s : State) (n : Lane) (l : LaneDie) : Amp :=
  if l.field.skipping || !l.field.inReg || l.truncating then 0 else s.ineg n

/-- NEG_CURRENT_LIMIT: the phase's interval of this period has ended by its peak command, after a time and
at a current, and the freewheeling current has come to `x.i`; at its limit the freewheeling interval ends too (R85, R94). -/
def execNegCurrentLimit (k : PhaseNo) (x : NegSample) (s : State) : Out :=
  let n := phaseLane k
  let l := s.lane n
  let p := s.endInterval n x.tNs x.top (l.phases.get (phasePos k))
  let toward := if p.fwd then x.i else -x.i
  if p.st = .field && p.drive == .freewheel then
    let y := if toward ≤ s.freewheelLimit n l then { p with drive := .mid } else p
    .next (s.modLane n (fun l => { l with phases := vput l.phases (phasePos k) y }))
  else .next s

/-- STAGE_FAULT (R95): mid, PSEN_n low, the event; the third within 1 s takes the lane out of service. -/
def execStageFault (n : Lane) (s : State) : Out :=
  if (s.lane n).up then
    let out := (s.lane n).outOfService
    let s := s.modLane n (fun l =>
      let l := l.stop
      let fs := s.now :: l.faults.filter (fun t => s.now < t + secTicks 1)
      { l with faults := fs, outOfService := l.outOfService || 3 ≤ fs.length
               diag := { l.diag with stageFaults := satInc 32 l.diag.stageFaults } })
    .next (s.stampLane n (.stageFault (!out && (s.lane n).outOfService)))
  else .next s

/-- The target the overshoot and skip-exit comparators stand on (R79, R96): a lane that delivers an allocation has SYS target
+ 1% (R80). -/
def LaneDie.watched (l : LaneDie) : Volt := if l.order.role = .drawAlloc then 101 / 100 * l.loop.target else l.loop.target

/-- TRUNCATION (R96). -/
def execTruncation (n : Lane) (v : Volt) (s : State) : Out :=
  let l := s.lane n
  if l.active && !l.truncating && l.watched * (1 + s.laneQ n 21 (1 / 1000)) < v then
    let s := s.modLane n (fun l => { l with
      truncating := true
      phases := if l.delivers then l.phases.map (fun p => if p.drive = .storing then { p with drive := .freewheel } else p) else l.phases
      diag := { l.diag with truncations := satInc 32 l.diag.truncations } })
    .next (s.stampLane n .truncation)
  else .next s

/-- TRUNCATION_RELEASE (R96). -/
def execTruncationRelease (n : Lane) (v : Volt) (s : State) : Out :=
  let l := s.lane n
  if l.truncating && v < l.watched * (1 + s.laneQ n 21 (1 / 1000) - s.laneQ n 22 (1 / 1000)) then
    .next (s.modLane n (fun l => { l with truncating := false }))
  else .next s

/-- SKIP_ENTRY (R97). -/
def execSkipEntry (n : Lane) (s : State) : Out :=
  let l := s.lane n
  if l.run = .running && !l.field.skipping && s.skipReady n l && 16 ≤ l.field.skipRun then
    let s := s.modLane n (fun l => { l with
      field := { l.field with skipping := true, skipRun := 0, pulses := [] }
      diag := { l.diag with skipEntries := satInc 32 l.diag.skipEntries } })
    .next (s.stampLane n .skipEntry)
  else .next s

/-- SKIP_EXIT_COMPARATOR (R99): the phase fires at once, the integrator holds 2 × SKIP_I, a step event is stamped and
its branch runs (R116). -/
def execSkipExitComparator (n : Lane) (v : Volt) (s : State) : Out :=
  let l := s.lane n
  if l.field.skipping && v < l.watched * (1 - s.laneQ n 25 (1 / 400)) then
    let s := s.modLane n (fun l =>
      let l := stepBranch s.now l
      { l with
        phases := l.phases.map (fun p => if p.st = .field && !(l.truncating && l.delivers) then { p with drive := .storing } else p)
        loop := { l.loop with integ := 2 * s.laneQ n 24 (1 / 4) }
        field := { l.field with skipping := false, skipRun := 0, pulses := [], skipExitDue := false } })
    .next (s.stampLane n .step)
  else .next s

/-- SKIP_EXIT (R99): pulses in more than 12 of 16 periods, or a hub command. -/
def execSkipExit (n : Lane) (s : State) : Out :=
  let l := s.lane n
  let many := 12 < (l.field.pulses.filter id).length
  let off := s.cfg.get (s.laneFn n) 23 == 0
  if l.field.skipping && (many || l.field.skipExitDue || off) then
    let s := s.modLane n (fun l => { l with field := { l.field with skipping := false, skipRun := 0, pulses := [], skipExitDue := false } })
    .next (s.stampLane n .skipExit)
  else .next s

/-- Offset and reference measured while the front end settles or refreshes (R124, R125). -/
def State.senseCheck (s : State) (n : Lane) (offset : Amp) (ref : Option Volt) : Option PhaseKind :=
  if s.laneQ n 33 (1 / 20) < rabs offset then some .senseOffset
  else match ref with
    | some v => if s.cfg.get (s.laneFn n) 1 = 1 ∧ (v < 4 / 10 ∨ 3 < v) then some .senseDead else none
    | none => none

/-- The checks of the bias wait mark the phases that fail them (R124); SENSE_SAT may have come first. -/
def State.biasCheck (s : State) (n : Lane) (l : LaneDie) (offsets : Vector Amp 4) (refs : Vector Volt 4) : LaneDie :=
  let mark (p : Pos) : Phase :=
    let x := l.phases.get p
    if x.st == PhState.field then { x with faultDue := x.faultDue.or (s.senseCheck n (offsets.get p) (some (refs.get p))) } else x
  { l with phases := Vector.ofFn mark }

/-- A fitted phase that is out with SENSE_DEAD, and whose sense pair still shows it at this start, is detected and recorded
again (R51, R125; DEDUCED, log entry 123). -/
def State.deadAgain (s : State) (n : Lane) (refs : Vector Volt 4) (p : Pos) : Bool :=
  let x := (s.lane n).phases.get p
  s.phaseFit n p && x.st == .out && x.kind == some .senseDead &&
    (decide (refs.get p < 4 / 10) || (s.cfg.get (s.laneFn n) 1 == 1 && decide (3 < refs.get p)))

/-- LANE_FIRST_PULSES (R100): offsets are measured in the bias wait, the target starts at the measured node. -/
def execLaneFirstPulses (n : Lane) (node : Volt) (offsets : Vector Amp 4) (refs : Vector Volt 4) (s : State) : Out :=
  if (s.lane n).run = .bias then
    let s := s.modLane n (fun l =>
      let l := s.biasCheck n (l.firstPulses s.now node) offsets refs
      { l with loop := { l.loop with laneCeil := s.laneCeilAim n } })
    .next ((List.finRange 4).foldl (fun s p =>
      if s.deadAgain n refs p then
        s.stamp .protection (.lane n) (phaseOf n p).val (.phaseOut (phaseOf n p) .senseDead 0 0 0 (s.lane n).nIn false)
      else s) s)
  else .next s

/-- IN_REGULATION (R101). -/
def execInRegulation (n : Lane) (s : State) : Out :=
  let l := s.lane n
  if l.run = .running && !l.field.inReg && 16 ≤ l.field.regRun then
    let s := s.modLane n (fun l => { l with field := { l.field with inReg := true } })
    let s := { s with keep := { s.keep with trimSince := vput s.keep.trimSince n (some s.now) } }
    .next (s.stampLane n .inRegulation)
  else .next s

/-- LANE_STOP_COMPLETE (R103): the ramp has reached zero; a controlled stop saves changed trims (R123);
a feeding trunk lane whose keeper hold has ended goes to standby (R418). -/
def execLaneStopComplete (n : Lane) (s : State) : Out :=
  let l := s.lane n
  if l.run = .ramping && l.loop.rampA == some 0 && l.loop.iCmd == 0 then
    let s := s.saveTrims n (l.phases.map (·.trim))
    let s := { s with keep := { s.keep with trimSince := vput s.keep.trimSince n none } }
    let standby := l.keeper.any (·.expired) && l.order.role == .feed
    .next ((s.modLane n (fun l => if standby then l.toStandby else l.stop)).stampLane n .laneStopped)
  else .next s

/-- WARM_REFRESH (R112). -/
def execWarmRefresh (k : PhaseNo) (offset : Amp) (ref : Volt) (s : State) : Out :=
  let n := phaseLane k
  let p := (s.lane n).phases.get (phasePos k)
  if (s.lane n).psen && p.st = .warm && 32 ≤ p.sinceAdmit then
    .next (s.modLane n (fun l => { l with phases := vmod l.phases (phasePos k) (fun p =>
      { p with drive := .refresh, sinceAdmit := 0
               faultDue := if p.faultDue.isSome then p.faultDue else s.senseCheck n offset (some ref) }) }))
  else .next s

/-- COLD_ADMISSION_COMPLETE (R112, R117): the front end has settled and its offset is checked; one refresh follows with both
legs low, after which the phase switches from the next boundary at its start angle, or stays on warm bench. -/
def execColdAdmissionComplete (k : PhaseNo) (offset : Amp) (s : State) : Out :=
  let n := phaseLane k
  let p := (s.lane n).phases.get (phasePos k)
  if (s.lane n).active && p.st = .cold && p.admitting then
    let due := s.senseCheck n offset none
    .next (s.modLane n (fun l => { l with phases := vmod l.phases (phasePos k) (fun p =>
      { p with admitting := false, toWarm := false, faultDue := p.faultDue.or due, sinceAdmit := 0, share := 8
               st := if due.isSome then .cold else if p.toWarm then .warm else .cold
               admitNext := due.isNone && !p.toWarm
               drive := if due.isSome then .mid else .refresh }) }))
  else .next s

/-- SHED_BEGIN (R116, R120, R129): a waiting retirement first, else the last field phase in rotation order. -/
def execShedBegin (n : Lane) (s : State) : Out :=
  let l := s.lane n
  let hold := s.laneQ n 29 1 * s.fsw n
  if l.active && l.field.shed.isNone then
    match l.field.retireNext with
    | p :: r =>
      .next ((s.modLane n (fun l => { l with field := { l.field with shed := some (p, 0, true), retireNext := r } })).stampLane n .shedStart)
    | [] =>
      if !l.filling s.now && !l.shedInhibited s.now && s.nFloor n l < l.nField && hold ≤ l.field.shedHold && hold ≤ l.field.sinceShed then
        match (l.inOrder (fun p => p.st == .field)).getLast? with
        | some p =>
          .next ((s.modLane n (fun l => { l with field := { l.field with shed := some (p, 0, false), shedHold := 0 } })).stampLane n .shedStart)
        | none => .next s
      else .next s
  else .next s

/-- SHED_END (R119, R129): after the eighth boundary the phase passes to the bench, or out if retired. -/
def execShedEnd (n : Lane) (s : State) : Out :=
  match (s.lane n).field.shed with
  | some (p, m, retired) =>
    if 8 ≤ m then
      let s := s.modLane n (fun l => { l with
        phases := vmod l.phases p (fun x =>
          if retired then { x.toMid with st := .out, kind := some .retired, drive := .mid }
          else { x.toMid with st := if l.field.benchCold then .cold else .warm, drive := .mid, sinceAdmit := 0 })
        field := { l.field with shed := none, shedAbort := false, sinceShed := 0, shedHold := 0 } })
      .next (s.stampLane n .shedEnd)
    else .next s
  | none => .next s

/-- SHED_INHIBIT_EXPIRY (R116). -/
def execShedInhibitExpiry (n : Lane) (s : State) : Out :=
  if (s.lane n).field.shedInhibit.isSome && !(s.lane n).shedInhibited s.now then
    .next (s.modLane n (fun l => { l with field := { l.field with shedInhibit := none } }))
  else .next s

/-- BENCH_GO_COLD (R117). -/
def execBenchGoCold (n : Lane) (s : State) : Out :=
  let l := s.lane n
  if l.active && s.laneQ n 31 10 * s.fsw n ≤ l.field.coldHold && !s.keepWarm n l then
    .next (s.modLane n (fun l =>
      { l.mapPhases (fun p => if p.st = .warm && !p.admitNext then { p with st := .cold, admitting := false, toWarm := false } else p) with
        field := { l.field with benchCold := true, coldHold := 0 } }))
  else .next s

/-- FILL_PERIOD_END (R122). -/
def execFillPeriodEnd (n : Lane) (s : State) : Out :=
  if (s.lane n).field.fillFrom.isSome && !(s.lane n).filling s.now then
    .next (s.modLane n (fun l => { l with field := { l.field with fillFrom := none } }))
  else .next s

/-- TRIM_SAVE (R123): 10 min in regulation without a break. -/
def execTrimSave (n : Lane) (s : State) : Out :=
  match s.keep.trimSince.get n with
  | some t =>
    if (s.lane n).field.inReg && s.passed t (secTicks 600) then .next (s.saveTrims n ((s.lane n).phases.map (·.trim))) else .next s
  | none => .next s

/-- The phase is out: legs at mid, front end down; a transit of this phase ends, a retirement that waits for it too
(R127). -/
def LaneDie.phaseGone (l : LaneDie) (j : Pos) (kind : PhaseKind) : LaneDie :=
  let leaving := match l.field.shed with | some (q, _, _) => q == j | none => false
  { l with
    phases := vmod l.phases j (fun x => { x.toMid with st := .out, kind := some kind, drive := .mid, faultDue := none })
    field := { l.field with shed := if leaving then none else l.field.shed
                            retireNext := l.field.retireNext.filter (fun q => q != j) } }

/-- The step branch after a phase-out; in a fill period only sheds are inhibited (R116, R122, R127). -/
def LaneDie.outBranch (l : LaneDie) (now : Nat) : LaneDie :=
  if !l.active then l
  else if l.filling now then { l with field := { l.field with shedInhibit := some (now + msTicks 50) } }
  else stepBranch now l

/-- The lane after a phase-out: the headroom hold, the abort count; with no phase left it stops, out of service (R127). -/
def LaneDie.outEnd (l : LaneDie) (head aborted : Bool) : LaneDie :=
  let l := { l with
    field := { l.field with headroomHold := l.field.headroomHold || head, ceilOkRun := 0 }
    diag := if aborted then { l.diag with shedAborts := satInc 32 l.diag.shedAborts } else l.diag }
  if l.nIn = 0 then { l.stop with outOfService := true } else l

/-- PHASE_OUT (R127, R128): the phase goes out, the ceiling falls, the step branch runs; with no phase left the lane
stops and is out of service. -/
def execPhaseOut (k : PhaseNo) (kind : PhaseKind) (s : State) : Out :=
  let n := phaseLane k
  let j := phasePos k
  let l := s.lane n
  let p := l.phases.get j
  if l.up && p.st != .out && p.faultDue == some kind then
    let mean := othersMean l j (fun x => x.iAvg)
    let tes := ratio p.tEs (othersMean l j (·.tEs)) * 16
    let known := l.field.shedAbort
    let l := (l.phaseGone j kind).outBranch s.now
    let aborted := l.field.shedAbort && l.field.shed.isSome && !known
    let head := l.active && decide (l.order.kL * (l.nIn * s.iavg n) < l.loop.iv + l.loop.iBias)
    let nIn := l.nIn
    let s := { s with lanes := vput s.lanes n (l.outEnd head aborted) }
    let s := s.stamp .protection (.lane n) k.val (.phaseOut k kind mean p.iAvg (quant tes).toNat nIn head)
    .next (if aborted then s.stampLane n .shedAbort else s)
  else .next s

/-- HEADROOM_HOLD_RELEASE (R127). -/
def execHeadroomHoldRelease (n : Lane) (s : State) : Out :=
  if (s.lane n).field.headroomHold && 16 ≤ (s.lane n).field.ceilOkRun then
    .next (s.modLane n (fun l => { l with field := { l.field with headroomHold := false } }))
  else .next s

/-- A lane that takes part in the stack's interleave on a member (R133-R135). -/
def State.follows (s : State) (n : Lane) : Bool := s.inStack n && s.stack.position != 0 && (s.lane n).up

/-- STACK_SYNC_EDGE (R135): the period changes by at most 16 delay steps (625 ps); the error counts toward lock. -/
def execStackSyncEdge (errPs : Int) (s : State) : Out :=
  let adj := max (-16) (min 16 (quant ((errPs : Rat) / (390625 / 10000))))
  .next ((List.finRange 4).foldl (fun s n =>
    if s.follows n then s.modLane n (fun l => { l with
      periodAdj := adj, periodSteps := ((s.steps n : Int) + adj).toNat, syncRun := if errPs.natAbs ≤ 1000 then l.syncRun + 1 else 0 }) else s) s)

/-- STACK_SYNC_LOCKED (R135). -/
def execStackSyncLocked (n : Lane) (s : State) : Out :=
  if s.follows n && 64 ≤ (s.lane n).syncRun then .next (s.modLane n (fun l => { l with stackLocked := true })) else .next s

/-- SYNC_LOSS (R135): the period length is kept, the event is stamped, the lanes count as stack-unlocked. -/
def execSyncLoss (s : State) : Out :=
  .next ((List.finRange 4).foldl (fun s n =>
    if s.follows n then
      (s.modLane n (fun l => { l with stackLocked := false, syncRun := 0, periodAdj := 0
                                      diag := { l.diag with syncLosses := satInc 32 l.diag.syncLosses } })).stampLane n .syncLoss
    else s) s)

/-- Droop threshold of a lane die's comparator: the one the hub sent, from the SYS target in force (R79, R249). -/
def execSysDroopTrip (n : Lane) (v : Volt) (s : State) : Out :=
  let l := s.lane n
  if l.up && !l.shut && l.onLine && !l.drooping && v < l.order.droop then
    .next ((s.modLane n (fun l => { l with drooping := true })).stampLane n .droopTrip)
  else .next s

/-- HDRM_DROOP_RELEASE (R249): SYS above the threshold + 0.5% of the target. -/
def execHdrmDroopRelease (n : Lane) (v : Volt) (s : State) : Out :=
  let l := s.lane n
  if l.drooping && l.order.droop + l.order.sysTarget * (5 / 1000) < v then
    .next (s.modLane n (fun l => { l with drooping := false }))
  else .next s

end Sys2Proof.Machine
end

