-- ==== Sys2Proof/Machine/Connect.lean ====
section
/-! DEFINITION. Connectors: candidacy (R136), limits and thresholds (R143, R145, R147, R153, R156), pairs, freedom of a
far node (R167), what a CC ball shows while a port is unattached (R165-R167). -/

namespace Sys2Proof.Machine

/-- ETA_PLAN (R160). -/
def etaPlan : Rat := 97 / 100

/-- ACIN in PANEL mode (R139). -/
def State.panel (s : State) : Bool := s.cfg.get 10 4 == 1

def State.portStopped (s : State) (p : Port) : Bool := (s.cfg.stoppedBy.toList[6 + p.val]?).getD none |>.isSome

def State.portOn (s : State) (p : Port) (idx : Nat) : Bool := s.cfg.on (6 + p.val) idx
def State.portGet (s : State) (p : Port) (idx : Nat) : Int := s.cfg.get (6 + p.val) idx
/-- FEED_PMAX, SNK_VMAX (R163). -/
def State.feedMax (s : State) (p : Port) : Watt := s.cfg.q (6 + p.val) 8 1
def State.snkVmax (s : State) (p : Port) : Volt := s.cfg.q (6 + p.val) 6 (1 / 10)

def State.portNode (s : State) (p : Port) : Option Lane := s.cfg.nodeOf (portSrc p)

/-- Default current before a contract (R168). -/
def defaultCurrent (p : PortSt) : Amp :=
  match p.rpSeen with
  | .a3p0 => 3
  | .a1p5 => 3 / 2
  | .default => if !p.bcRunning && (p.bc12 == .dcp || p.bc12 == .cdp) then 3 / 2 else 1 / 2

/-- Contract term of R143 for a port: the contract's current, else default power (R168, R180). -/
def contractTerm (p : PortSt) : Amp :=
  if p.contract.kind = .none || p.softened then defaultCurrent p else p.contract.i

def cableTerm (p : PortSt) : Amp := if p.cable5 then 5 else 3

/-- Rp current a port advertises as source (R167). -/
def State.rpCurrent (s : State) (p : Port) : Amp := if 15 ≤ s.feedMax p then 3 else 3 / 2

/-- Trunk port whose pass pair carries the trunk far node: the lowest with its pair closed (R136). -/
def State.trunkIx (s : State) : Option Src :=
  [(5 : Src), 6].find? (fun c => (s.conn c).pair == .closed)

/-- Tap voltage: VINL_n of the trunk lane (R256). -/
def State.tapV (s : State) : Volt :=
  match s.cfg.trunkLane with
  | some n => (s.lane n).tapMean
  | none => 0

/-- Allowed draw at the tap (R275). -/
def State.pAllow (s : State) : Watt :=
  s.trunk.pBase * droopF s.tapV (s.cfg.q 11 5 (1 / 10)) (s.cfg.q 11 6 (1 / 10))

/-- I_HARD of the protections (R143, R153): contract, catalogue and cable terms; for a feeding pair R174; for the pass pairs
TRK_ILIM (R277). -/
def State.iHard (s : State) (c : Src) : Amp :=
  match srcPort c with
  | some p =>
    let q := s.port p
    if q.feeding then min (if q.contract.kind = .none then s.rpCurrent p else q.objMax) (cableTerm q)
    else min (contractTerm q) (min (s.cfg.q (srcFn c) 1 (1 / 20)) (cableTerm q))
  | none => if c = acin then s.cfg.q 10 1 (1 / 20) else s.cfg.q 11 12 (1 / 20)

/-- Thermal factor of a connector: its port die's and its lane's (R296). -/
def State.kConn (s : State) (c : Src) : Rat :=
  let kl := match s.cfg.nodeOf c with | some n => s.therm.kL.get n | none => 1
  min (s.therm.kP.get (dieOfSrc c)) kl

/-- The smallest of the contract, catalogue and cable terms; for the trunk its contract term is the allowance (R143, R275). -/
def State.iTerms (s : State) (c : Src) : Amp := if 5 ≤ c.val then min (ratio s.pAllow s.tapV) (s.iHard c) else s.iHard c

/-- I_SRC (R143). -/
def State.iSrc (s : State) (c : Src) : Amp :=
  let hard := s.iTerms c
  let x := min hard (s.kConn c * hard)
  match (s.conn c).iLearn with
  | some l => if 5 ≤ c.val || (c = acin && s.panel) then x else min x l
  | none => x

/-- V_LOST (R152, R156, R170, R277). -/
def State.vLost (s : State) (c : Src) : Volt :=
  let k := s.conn c
  if c.val < 4 then 85 / 100 * (match k.vOld with | some o => min o k.vExp | none => k.vExp)
  else if c = acin then 9 / 10 * (if s.panel then s.cfg.q 10 8 (1 / 2) else s.cfg.q 10 5 (1 / 2))
  else s.cfg.q 11 6 (1 / 10) - 4

/-- V_OV (R153). -/
def State.vOv (s : State) (c : Src) : Volt :=
  let k := s.conn c
  if 5 ≤ c.val then 63
  else
    let e := if c = acin then s.cfg.q 10 6 (1 / 2) else (match k.vOld with | some o => max o k.vExp | none => k.vExp)
    max (11 / 10 * e) (e + 1)

/-- V_SAG_EFF (R145). -/
def State.vSagEff (s : State) (c : Src) : Volt :=
  let k := s.conn c
  if c = acin && s.panel then max s.hub.panelVop (s.vLost c + 1 / 2)
  else max (max (k.vExp * (1 - s.cfg.q (srcFn c) 3 (1 / 100))) (9 / 2)) (s.vLost c + 1 / 2)

/-- The port die is running and answers (R14, R136). -/
def State.dieResponsive (s : State) (c : Src) : Bool :=
  let d := s.pdie (dieOfSrc c)
  d.up && !d.unresponsive

/-- The conditions of candidacy that the hub's own values decide (R136, R141, R353). -/
def State.mayDraw (s : State) (c : Src) : Bool :=
  s.cfg.connFit c && s.cfg.get (srcFn c) 0 != 0 && s.dieResponsive c &&
  (match s.cfg.nodeOf c with
   | none => false
   | some n => !(s.node n).hold) &&
  (match srcPort c with
   | some p => !(s.port p).feeding
   | none => c = acin || (s.trunkIx == some c && s.cfg.on 11 1 && decide (0 < s.cfg.get 11 11) && !s.trunk.feedingTrunk))

/-- Candidacy as it stands at this moment: the port die's own checks fail where they are detected (R136). -/
def State.candidate (s : State) (c : Src) : Bool :=
  let k := s.conn c
  s.mayDraw c && !k.lockedOut &&
  (match srcPort c with
   | some p => (s.port p).attach == .sink && k.qualified
   | none => if c = acin then k.qualified && !(s.pdie 0).shut else s.trunk.busQualified)

/-- Candidacy as the events used so far have told the hub; what a decision selects and allocates by (R13, R137, R157). -/
def State.heldCandidate (s : State) (c : Src) : Bool :=
  s.mayDraw c && (if 5 ≤ c.val then s.trunk.busKnown else (s.conn c).known)

def State.class (s : State) (c : Src) : Int := s.cfg.get (srcFn c) 0

/-- Connectors wired to a far node. -/
def State.nodeConns (s : State) (n : Lane) : List Src := (List.finRange 7).filter (fun c => s.cfg.nodeOf c == some n)

/-- What the last frame on its way asks of a pair: close, open, or nothing. -/
def State.pairSent (s : State) (c : Src) : Option Bool :=
  (((s.pdie (dieOfSrc c)).frames.filterMap (fun (f : PortFrame) => match f.cmd with
    | .closePair x => if x = c then some true else none
    | .openPair x => if x = c then some false else none
    | _ => none)).getLast?)

/-- The pair is open and no frame on its way closes it. -/
def State.staysOpen (s : State) (c : Src) : Bool := (s.conn c).pair == .opened && s.pairSent c != some true

/-- A far node is free for a port (R167): no other connector on it has a closed pair or is a candidate. -/
def State.nodeFree (s : State) (p : Port) : Bool :=
  match s.portNode p with
  | none => false
  | some n => (s.nodeConns n).all (fun c => c == portSrc p || (s.staysOpen c && !s.candidate c))

/-- Phases in service at the lane's next start, by the out mask that start sends (R127, R129). -/
def State.nNext (s : State) (n : Lane) : Nat :=
  ((List.finRange 4).filter (fun (p : Pos) => s.phaseFit n p && ((s.keep.out.get n).get p).isNone)).length

/-- The lane of a far node can be started (R95, R297, R300, R301, R353, R14); 10 ms after a stage
fault it may be restarted (R95). -/
def State.laneFit (s : State) (n : Lane) : Bool :=
  (s.cfg.gang n).all (fun m =>
    let l := s.lane m
    s.cfg.laneFitted m && l.up && !l.outOfService && !l.shut && !l.latched && !l.unresponsive && l.dieOk && l.tslOk &&
    0 < (if l.run = .stopped then s.nNext m else l.nIn) && (match l.faults.head? with | some t => s.passed t (msTicks 10) | none => true)) && !(s.node n).hold

/-- A port's lane can feed it (R174). -/
def State.canFeed (s : State) (p : Port) : Bool :=
  match s.portNode p with
  | none => false
  | some n => s.laneFit n && s.nodeFree p && !s.aon.safeLatch && !(s.conn (portSrc p)).lockedOut

/-! ### Pairs -/

/-- Bound on the rise of a far node while a pair closes onto it, V per ms (R142, R160). -/
def farSlew : Rat := 10

/-- Settings that wait for the pair's closing go into force, a changed ACIN_MODE with the learned limit and the scans of a
new panel (R146, R152); the slewed close begins (R138, R142, R158). -/
def State.closePair (s : State) (c : Src) : State :=
  if (s.conn c).pair = .opened then
    let was := s.panel
    let s := { s with cfg := s.cfg.release (srcFn c) .pairClosing }
    let turned := c == acin && s.panel != was
    let s := if turned then { s with hub := { s.hub with panelSeen := false, panelOnce := none, panelMean := none } } else s
    s.modConn c (fun k => { k with pair := .closing, slew := farSlew, tripOpen := false, iLearn := if turned then none else k.iLearn })
  else s

def State.openPair (s : State) (c : Src) : State :=
  s.modConn c (fun k => { k with pair := .opened, slew := 0, tripOpen := false })

/-! ### CC terminations of unattached ports (R40, R165-R167) -/

def State.ccRest (s : State) (p : Port) : CcTerm :=
  let q := s.port p
  let role := s.portGet p 4
  if role = 0 || !(s.pdie (dieOfSrc (portSrc p))).up then .rd
  else if (s.pdie (dieOfSrc (portSrc p))).keeper.any (·.expired) then (if role = 1 then .openPin else .rd)
  else if q.deadRd then (if role = 1 && s.hubUp then .openPin else .rd)
  else if s.nodeFree p then (if role = 1 then .rp else q.cc)
  else if role = 1 then .openPin else .rd

/-- Freedom is judged continuously (R167). -/
def State.ccRefresh (s : State) : State :=
  (List.finRange 4).foldl (fun s p =>
    if (s.port p).attach = .unattached && !(s.port p).tryWait then
      let cc := s.ccRest p
      s.modPort p (fun q => { q with cc := if cc = .openPin && s.portGet p 4 = 2 then .rd else cc })
    else s) s

/-- A lane stops switching at once, with every lane of its gang, and says so (R103, R177). -/
def State.stopNode (s : State) (n : Lane) : State :=
  (s.cfg.gang n).foldl (fun s m => (s.modLane m LaneDie.stop).stampLane m .laneStopped) s

end Sys2Proof.Machine
end

