-- ==== Sys2Proof/Machine/Mailbox.lean ====
section
/-! DEFINITION. Host channels: opcodes with their lengths and slots (R343), replies (R328, R330), the checks before a
command runs (R331), duplicates (R334), CANCEL and RESYNC (R335, R336, R341). -/

namespace Sys2Proof.Machine

/-- Return codes of R342. -/
def rcOk : Nat := 0
def rcBusy : Nat := 1
def rcBadOpcode : Nat := 2
def rcBadLength : Nat := 3
def rcBadParam : Nat := 4
def rcWrongState : Nat := 5
def rcDenied : Nat := 6
def rcNotPresent : Nat := 7
def rcValidation : Nat := 8
def rcCrcFail : Nat := 9
def rcSignature : Nat := 10
def rcBinding : Nat := 11
def rcTimeout : Nat := 12
def rcCancelled : Nat := 13
def rcNoSession : Nat := 14

/-- One row of R343: the opcode, which parameter blocks have its length, whether the urgent slot accepts it. -/
structure OpRow where
  op : Nat
  len : List Byte → Bool
  urgent : Bool

def fixedLen (n : Nat) (b : List Byte) : Bool := b.length == n

/-- CFG_WRITE and CFG_READ: a header naming k = 1 to 256 entries of w bytes (R349, R350). -/
def entriesLen (w : Nat) (b : List Byte) : Bool := 4 ≤ b.length && 1 ≤ u16 b 0 && u16 b 0 ≤ 256 && b.length == 4 + w * u16 b 0

def opRows : List OpRow :=
  [⟨0x0000, fixedLen 8, true⟩, ⟨0x0001, fixedLen 4, false⟩, ⟨0x0002, fixedLen 0, true⟩, ⟨0x0003, fixedLen 0, true⟩,
   ⟨0x0004, fixedLen 0, false⟩, ⟨0x0005, fixedLen 0, false⟩, ⟨0x0100, fixedLen 4, false⟩,
   ⟨0x0101, entriesLen 8, false⟩, ⟨0x0102, entriesLen 4, false⟩, ⟨0x0103, fixedLen 4, false⟩,
   ⟨0x0104, fixedLen 4, false⟩, ⟨0x0200, fixedLen 4, false⟩, ⟨0x0201, fixedLen 4, false⟩,
   ⟨0x0202, fixedLen 4, false⟩, ⟨0x0203, fixedLen 4, false⟩, ⟨0x0204, fixedLen 4, true⟩,
   ⟨0x0300, fixedLen 4, true⟩, ⟨0x0301, fixedLen 0, true⟩, ⟨0x0302, fixedLen 0, false⟩,
   ⟨0x0303, fixedLen 0, true⟩, ⟨0x0400, fixedLen 4, false⟩, ⟨0x0401, fixedLen 4, true⟩,
   ⟨0x0402, fixedLen 4, false⟩,
   ⟨0x0500, fun b => 4 ≤ b.length && b.length == 4 + u16 b 2 && u16 b 2 ≤ 272, false⟩,
   ⟨0x0501, fixedLen 0, true⟩, ⟨0x0600, fixedLen 0, true⟩, ⟨0x0700, fixedLen 20, false⟩,
   ⟨0x0701, fixedLen 0, false⟩, ⟨0x0702, fixedLen 0, true⟩, ⟨0x0703, fixedLen 8, false⟩,
   ⟨0x0800, fun b => 160 ≤ b.length && b.length ≤ 2208 && (b.length - 160) % 8 == 0, false⟩,
   ⟨0x0801, fixedLen 4104, false⟩, ⟨0x0802, fixedLen 64, false⟩, ⟨0x0803, fixedLen 12, false⟩,
   ⟨0x0804, fixedLen 4, false⟩, ⟨0x0805, fixedLen 0, false⟩, ⟨0x0806, fixedLen 0, false⟩,
   ⟨0x0807, fixedLen 0, true⟩, ⟨0x0900, fixedLen 4, false⟩, ⟨0x0A00, fixedLen 4, false⟩,
   ⟨0x0A01, fixedLen 0, false⟩, ⟨0x0A02, fixedLen 4, false⟩]

def opRow (op : Nat) : Option OpRow := opRows.find? (fun r => r.op == op)

/-- The refusals of R331, in the order of its table. -/
def precheck (op : Nat) (slot : Slot) (d : Desc) : Option Nat :=
  match opRow op with
  | none => some rcBadOpcode
  | some r =>
    if (match slot with | .normal => 4864 | .urgent => 24) < d.params.length || !r.len d.params then some rcBadLength
    else if d.seq = 0xFFFF || d.reservedBad then some rcBadParam
    else if slot = .urgent && !r.urgent then some rcDenied
    else none

/-! ### Channel blocks -/

def hostChan (c : HostChan) : Fin 8 := ⟨c.val, by omega⟩
def mbxBase (c : HostChan) : Nat := 0x10000 + 0x4000 * c.val

def State.mbx (s : State) (c : HostChan) : Mbx := s.host.mbx.get (hostChan c)
def State.modChan (s : State) (c : HostChan) (f : Mbx → Mbx) : State := s.modMbx (hostChan c) f

/-- Set one bit of HDB_OUT (R326). -/
def State.setHdb (s : State) (bit : Nat) : State :=
  { s with host := { s.host with hdbOut := s.host.hdbOut ||| (1#32 <<< bit) } }

def State.clearHdbNibble (s : State) (c : HostChan) : State :=
  { s with host := { s.host with hdbOut := s.host.hdbOut &&& ~~~(15#32 <<< (4 * c.val)) } }

/-- IRQ_N is low while a bit of HDB_OUT is set whose mask bit is 0 (R326). -/
def State.irqN (s : State) : Bool := !s.hostUp || s.host.hdbOut &&& ~~~s.host.hdbMask == 0

/-- ALERT on the three host channels (R338). -/
def State.alert (s : State) : State := ((s.setHdb 3).setHdb 7).setHdb 11

/-- Bytes of a reply descriptor (R328). -/
def replyDesc (op seq : Half) (code len bell done : Nat) (inl : List Byte) : List Byte :=
  le16 op.toNat ++ le16 seq.toNat ++ le16 code ++ le16 len ++ le32 bell ++ le32 done ++ padTo 16 inl

/-- The reply of a normal command: response block, reply descriptor, MBX_ACK, REPLY (R330). A channel that is
resynchronising only leaves its STATE and sets REPLY (R336). A cancelled command is not a completed one (R334,
R335). -/
def State.answerNormal (s : State) (c : HostChan) (op : Half) (seq : Half) (bell code : Nat) (resp : List Byte) : State :=
  if (s.mbx c).st = .resyncing then
    (s.modChan c (fun m => { m with st := .idle, running := none })).setHdb (4 * c.val)
  else
    let resp := resp.take 3072
    let s := s.memWrite (mbxBase c + 0x1400) resp
    let s := s.memWrite (mbxBase c + 0x20) (replyDesc op seq code resp.length bell s.now [])
    let s := s.modChan c (fun m =>
      let m := { m with ackCode := BitVec.ofNat 16 code, ackSeq := seq, st := .idle, running := none }
      if code = rcCancelled then m
      else { m with lastSeq := seq, lastOp := op, lastCode := BitVec.ofNat 16 code, completed := m.completed + 1 })
    s.setHdb (4 * c.val)

/-- The reply of an urgent command: extension, reply descriptor, MBX_UACK, UREPLY (R328, R332). -/
def State.answerUrgent (s : State) (c : HostChan) (op : Half) (seq : Half) (bell code : Nat) (resp : List Byte) : State :=
  let resp := resp.take 24
  let s := if 16 < resp.length then s.memWrite (mbxBase c + 0x80) (resp.drop 16) else s
  let s := s.memWrite (mbxBase c + 0x60) (replyDesc op seq code resp.length bell s.now resp)
  let s := s.modChan c (fun m => { m with uackCode := BitVec.ofNat 16 code, uackSeq := seq, ubusy := false })
  s.setHdb (4 * c.val + 1)

def State.answer (s : State) (c : HostChan) (slot : Slot) (op seq : Half) (bell code : Nat) (resp : List Byte) : State :=
  match slot with
  | .normal => s.answerNormal c op seq bell code resp
  | .urgent => s.answerUrgent c op seq bell code resp

/-- The reply of the normal command that runs on a channel. -/
def State.finish (s : State) (c : HostChan) (code : Nat) (resp : List Byte) : State :=
  match (s.mbx c).running with
  | some r => s.answerNormal c r.op r.desc.seq r.bell code resp
  | none => s

/-- What a command comes to in the decision that takes it: its reply, or a normal command that runs on, past its
point of no return or before it (R340, R341). -/
inductive Res where
  | reply (code : Nat) (resp : List Byte) (s : State)
  | run (pastNoReturn : Bool) (s : State)

def State.ok (s : State) : Res := .reply rcOk [] s
def State.okWith (s : State) (resp : List Byte) : Res := .reply rcOk resp s
def State.fail (s : State) (code : Nat) : Res := .reply code [] s

/-- An ignored ring (R332). -/
def State.overrun (s : State) (c : HostChan) : State :=
  s.modChan c (fun m => { m with overrun := true, overruns := bvSatInc m.overruns })

/-- A decision takes a command (R330-R334): overrun, duplicate, refusal before it runs, or its effect. -/
def State.takeCmd (s : State) (c : HostChan) (slot : Slot) (op : Half) (d : Desc) (bell : Nat) (body : State → Res) : State :=
  if !s.hubUp then s
  else
    match slot with
    | .urgent =>
      match precheck op.toNat slot d with
      | some code => s.answerUrgent c op d.seq bell code []
      | none =>
        match body s with
        | .reply code resp s => s.answerUrgent c op d.seq bell code resp
        | .run _ s => s
    | .normal =>
      let m := s.mbx c
      if m.st != .idle && m.st != .queued then s.overrun c
      else if m.lastSeq = d.seq && m.lastOp = op && m.lastSeq != 0xFFFF then
        (s.modChan c (fun m => { m with st := .idle, ackCode := m.lastCode, ackSeq := d.seq
                                        duplicates := bvSatInc m.duplicates })).setHdb (4 * c.val)
      else
        let s := s.modChan c (fun m => { m with st := .running, taken := BitVec.ofNat 32 bell
                                                running := some { op := op, desc := d, bell := bell, pastNoReturn := false, waits := none } })
        match precheck op.toNat slot d with
        | some code => s.answerNormal c op d.seq bell code []
        | none =>
          match body s with
          | .reply code resp s => s.answerNormal c op d.seq bell code resp
          | .run past s => s.modChan c (fun m => { m with running := m.running.map (fun r => { r with pastNoReturn := past }) })

/-! ### Descriptors in the private regions (R328) -/

def State.readDesc (s : State) (c : HostChan) (slot : Slot) : Half × Desc :=
  let off := mbxBase c + (match slot with | .normal => 0 | .urgent => 0x40)
  let b := s.memRead off 32
  let len := u16 b 4
  let params := match slot with
    | .normal => s.memRead (mbxBase c + 0x100) (min len 4865)
    | .urgent => slice b 8 (min len 25)
  let reserved := match slot with | .normal => (b.drop 6) | .urgent => (b.drop 6).take 2
  (BitVec.ofNat 16 (u16 b 0), { seq := BitVec.ofNat 16 (u16 b 2), params := params, reservedBad := reserved.any (· != 0) })

/-! ### CANCEL and RESYNC as a decision takes them (R335, R336) -/

/-- The jobs that a command still waits for; those not begun are given up when it is cancelled (R341). -/
def jobOf (c : HostChan) : FlashJob → Bool
  | .catalogue x _ => x == c
  | .outMask x _ => x == c
  | .update x _ | .header x _ => x == c
  | _ => false

/-- The checks of a seal: the flash die only reads (R341, R402). -/
def sealCheck (c : HostChan) (j : FlashJob) : Bool := j == .update c 0x0802

/-- Jobs not begun are given up, and the checks of a seal stop. -/
def State.dropJobs (s : State) (c : HostChan) : State :=
  let f := { s.flash with queue := s.flash.queue.filter (fun j => !jobOf c j)
                          busy := if s.flash.busy.any (sealCheck c) then none else s.flash.busy }
  { s with flash := if s.therm.flashShut then f else f.kick }

/-- A running command has passed its point of no return: said so when it was taken, or its flash job has begun; UPD_SEAL with
the programming of the shelf header (R341). -/
def State.pastReturn (s : State) (c : HostChan) (r : Running) : Bool :=
  r.pastNoReturn || s.flash.busy.any (fun j => (jobOf c j && !sealCheck c j) || (match j with | .ledger x => r.waits == some x.acc | _ => false))

end Sys2Proof.Machine
end

