-- ==== Sys2Proof/Machine/Port.lean ====
section
/-! DEFINITION. Policy of the Type-C ports (chapter 07): resets and escalation, feeds, contracts, swaps, Fast Role Swap,
the vendor trunk mode, and what the hub answers to each PD message. -/

namespace Sys2Proof.Machine

def portDie (p : Port) : PortDie := dieOfSrc (portSrc p)

/-! ### Replies to PORT_ACTION (R357) -/

/-- PORT_ACTION on port p with one of the listed actions is answered. -/
def State.portReply (s : State) (p : Port) (acts : List Nat) (code : Nat) : State :=
  (List.finRange 3).foldl (fun s c =>
    match (s.mbx c).running with
    | some r => if r.op = 0x0402 && u8 r.desc.params 0 = p.val && acts.contains (u8 r.desc.params 1) then s.finish c code [] else s
    | none => s) s

/-! ### Frames to the lanes of a far node -/

def State.lastOrder (s : State) (n : Lane) : LaneOrder := (s.node n).sent.getD (s.lane n).order

/-- A member's part of what a gang carries: its ceiling's share in the gang's (R105; DESIGN CHOICE, log entry 124). -/
def State.gangPart (s : State) (n m : Lane) : Rat :=
  let total := sumR ((s.cfg.gang n).map s.rawCeil)
  if total = 0 then 1 / ((s.cfg.gang n).length : Rat) else s.rawCeil m / total

/-- An order for one member of a gang: a gang acts as one lane, so each member takes its part of every current and power
(R105). -/
def LaneOrder.part (o : LaneOrder) (x : Rat) : LaneOrder :=
  { o with alloc := x * o.alloc, iSrc := x * o.iSrc, iSet := x * o.iSet, iDis := x * o.iDis, feedCeil := x * o.feedCeil
           iBias := x * o.iBias, biasSlew := x * o.biasSlew, iSlew := x * o.iSlew, pBase := x * o.pBase, cFeed := x * o.cFeed
           floor := (x * o.floor).ceil.toNat }

/-- The order as one lane of the gang gets it, with its own factor k_L (R295) and share trim (R84). -/
def State.memberPart (s : State) (n m : Lane) (o : LaneOrder) : LaneOrder :=
  let o := if (s.cfg.gang n).length ≤ 1 then o else o.part (s.gangPart n m)
  { o with kL := s.therm.kL.get m, trim := s.hub.trims.get m }

/-- A controlled stop takes each lane from its own current (R103). -/
def State.memberGo (s : State) (m : Lane) (go : LaneGo) : LaneGo :=
  match go with
  | .stopRamp _ => .stopRamp (stopRate (s.lane m))
  | g => g

/-- A frame to every lane of the far node's gang, with the order last sent changed by `f`. -/
def State.sendNode (s : State) (n : Lane) (eff : Nat) (go : LaneGo) (f : LaneOrder → LaneOrder) : State :=
  let o := f (s.lastOrder n)
  let s := (s.cfg.gang n).foldl (fun s m => s.sendLane m eff (s.memberGo m go) (s.memberPart n m o)) s
  s.modNode n (fun k => { k with sent := some o })

/-! ### Multiplexer (R189) -/

def muxAim (q : PortSt) : BitVec 2 :=
  match q.attach with
  | .unattached | .recovery | .unsupported => 0
  | .audio => 2
  | .sink | .source | .frsWatch => if q.tmode then 3 else if q.bcRunning then 0 else 1

/-- The code last sent to the port die, or in force. -/
def State.muxSent (s : State) (p : Port) : BitVec 2 :=
  let sent := (s.pdie (portDie p)).frames.filterMap (fun f => match f.cmd with | .mux q c => if q = p then some c else none | _ => none)
  (sent.getLast?).getD (s.port p).mux

def State.sendMux (s : State) (p : Port) : State :=
  if s.hubUp && s.muxSent p != muxAim (s.port p) then s.sendPort (portDie p) s.effTick (.mux p (muxAim (s.port p))) else s

/-! ### Feeds (R175-R177) -/

/-- The pair of a feed is closed once it stands open with no frame for it on its way (R17, R175). -/
def State.feedClose (s : State) (p : Port) : State :=
  if (s.conn (portSrc p)).pair = .opened && (s.pairSent (portSrc p)).isNone then
    s.sendPort (portDie p) s.effTick (.closePair (portSrc p))
  else s

/-- A feed starts: the pair is closed and the lane will be started in feed toward 5.0 V (R175). -/
def State.startFeed (s : State) (p : Port) : State :=
  match s.portNode p with
  | some n =>
    let s := s.modPort p (fun q => { q with feeding := true, feedTarget := 5, feedReady := false, frsSignal := false })
    let s := s.modConn (portSrc p) (fun k => { k with vExp := 5, vOld := none, qualified := false, known := false })
    (s.modNode n (fun k => { k with feeding := some p, drain := false, selected := none, change := none })).feedClose p
  | none => s

/-- A feed ends (R177): the lane stops at once, the pair opens, DISCH is driven; the decision drains the far node,
unless it is a swap or SAFE holds. -/
def State.feedEnd (s : State) (p : Port) (drain : Bool) : State :=
  if (s.port p).feeding then
    let s := match s.portNode p with
      | some n => (s.stopNode n).modNode n (fun k => { k with feeding := none, drain := drain && !s.aon.safeLatch, sent := none })
      | none => s
    let s := s.openPair (portSrc p)
    s.modPort p (fun q => { q with feeding := false, disch := true, feedReady := false, feedTarget := 0, frsSignal := false })
  else s

/-- An interrupted swap leaves its step code and a record (R183, R184). -/
def State.swapBroken (s : State) (p : Port) : State :=
  match (s.port p).swap with
  | some w =>
    let s := s.record 0x0405 [BitVec.ofNat 8 p.val, if w.fast then 2 else 1, w.step, boolByte ((s.port p).attachRole == .source)]
    s.modPort p (fun q => { q with swap := none, lastSwapStep := w.step })
  | none => s

/-- FRS watch ends (R185): the lane stops and the pair opens a tick later; a Fast Role Swap that had begun is interrupted
(R183). -/
def State.watchEnd (s : State) (p : Port) : State :=
  if (s.port p).attach = .frsWatch then
    let s := s.swapBroken p
    let s := match s.portNode p with
      | some n => (s.sendNode n s.effTick .stopNow id).modNode n (fun k => { k with feeding := none, openedAt := s.effTick + 1 })
      | none => s
    let s := s.sendPort (portDie p) (s.effTick + 1) (.openPair (portSrc p))
    s.modPort p (fun q => { q with attach := .sink })
  else s

/-! ### Vendor mode end (R190) -/

def State.modeEnd (s : State) (p : Port) : State :=
  (s.modPort p (fun q => { q with tmode := false })).sendMux p

/-! ### Resets (R180, R184) -/

/-- The state a Hard Reset leaves a port in (R170, R180, R184): attach-time role, no contract. V_EXP becomes 5 V when VBUS
returns (SINK_VBUS_QUALIFIED). -/
def State.hardState (s : State) (p : Port) : State :=
  let s := s.swapBroken p
  let s := s.feedEnd p true
  let s := s.watchEnd p
  let s := s.modConn (portSrc p) (fun k => { k with qualified := false, known := false })
  let s := s.modPort p (fun q =>
    { q with attach := if q.attachRole = .source then .source else .sink
             cc := if q.attachRole = .source then .rp else .rd
             contract := .zero, epr := false, transition := false, wait := if q.attachRole = .source then .idle else .sourceCaps
             caps := none, softened := false, hrActive := true, hrAt := some s.now, capsCount := 0, lastReq := none
             hrSince := q.hrSince + 1 })
  s.modeEnd p

/-- A Hard Reset with its record: cause 1 escalation, 2 protection, 3 host, 4 received, 5 port die shutdown (R390). -/
def State.hardNoted (s : State) (p : Port) (cause : Byte) : State :=
  (s.record 0x0404 [BitVec.ofNat 8 p.val, 1, cause, BitVec.ofNat 8 (s.port p).hardResets]).hardState p

/-- A Hard Reset that the hub's policy sends. -/
def State.hardReset (s : State) (p : Port) (cause : Byte) : State := (s.hardNoted p cause).pdSend p .hardReset

/-- Type-C error recovery: CC open, VBUS removed, the counter cleared (R165, R180). -/
def State.errorRecovery (s : State) (p : Port) (cause : Byte) : State :=
  let s := s.record 0x0404 [BitVec.ofNat 8 p.val, 2, cause, BitVec.ofNat 8 (s.port p).hardResets]
  let s := s.swapBroken p
  let s := s.feedEnd p true
  let s := s.watchEnd p
  let s := s.openPair (portSrc p)
  let s := s.modConn (portSrc p) (fun k => { k with vExp := 5, vOld := none, qualified := false, known := false })
  let s := s.modPort p (fun q =>
    { q with attach := .recovery, cc := .openPin, contract := .zero, epr := false, transition := false, wait := .idle
             caps := none, softened := false, hrActive := false, hardResets := 0, vconn := false, tmode := false
             bcRunning := false, tryWait := false })
  s.sendMux p

/-- The escalation of R180. -/
def State.escalate (s : State) (p : Port) : State :=
  if 2 < (s.port p).hardResets then s.errorRecovery p 1
  else (s.modPort p (fun q => { q with hardResets := q.hardResets + 1 })).hardReset p 1

/-- A soft reset, sent or received, as a sink or a source sees it (R168, R170, R180): a transition under way is dropped, and
V_EXP keeps the value of the contract in force before it. -/
def State.softState (s : State) (p : Port) : State :=
  let s := if (s.port p).transition then
      (s.modConn (portSrc p) (fun k => { k with vExp := k.vOld.getD k.vExp, vOld := none })).modPort p (fun q =>
        { q with transition := false, transEnd := 0 })
    else s
  let s := s.modPort p (fun q => { q with softened := q.attach == .sink || q.attach == .frsWatch, srSince := q.srSince + 1 })
  s.modPd (portDie p) (fun d => { d with softResets := satInc 32 d.softResets })

def State.softReset (s : State) (p : Port) : State :=
  ((s.softState p).modPort p (fun q => { q with wait := .softReset })).pdSend p .softReset

/-! ### Offers as source (R174) -/

def floor10mA (i : Amp) : Amp := ((i * 100).floor : Rat) / 100

/-- Current offered at a fixed voltage. -/
def State.offerI (s : State) (p : Port) (v : Volt) : Amp :=
  floor10mA (min (s.feedMax p / v) (cableTerm (s.port p)))

def State.fixedOffers (s : State) (p : Port) (l : List Volt) : List Pdo :=
  (l.filter (fun v => decide (1 ≤ s.offerI p v))).map (fun v => Pdo.fixed v (s.offerI p v))

/-- The objects of Source_Capabilities, and behind them those of EPR_Source_Capabilities (R174). -/
def State.offers (s : State) (p : Port) : List Pdo :=
  let q := s.port p
  let avs := s.portOn p 10 && !q.rev2
  let spr := Pdo.fixed 5 (s.offerI p 5) :: s.fixedOffers p [9, 15, 20] ++
    (if avs && 27 ≤ s.feedMax p then [Pdo.avs 9 20 (min (s.feedMax p) 100)] else [])
  if s.portOn p 9 && q.epr && q.cableEpr && q.cable5 && !q.rev2 then
    spr ++ List.replicate (7 - spr.length) (Pdo.fixed 0 0) ++ s.fixedOffers p [28, 36, 48] ++
      (if avs then [Pdo.avs 15 48 (min (s.feedMax p) 240)] else [])
  else spr

/-- Largest current of an offered object at the requested voltage, none where the object does not give it. -/
def pdoLimit (o : Pdo) (v : Volt) : Option Amp :=
  match o with
  | .fixed u i => if 0 < u then some i else none
  | .pps lo hi i => if lo ≤ v ∧ v ≤ hi then some i else none
  | .avs lo hi w => if lo ≤ v ∧ v ≤ hi ∧ 0 < v then some (w / v) else none

def pdoVolt (o : Pdo) (v : Volt) : Volt := match o with | .fixed u _ => u | _ => v

def pdoKind : Pdo → ContractKind
  | .fixed .. => .fixed
  | .pps .. => .pps
  | .avs .. => .avs

/-- Source_Capabilities are sent and a GoodCRC awaited (R174, R179), by a port whose far node is free, whose lane can feed
and which is not locked out (R174, R181). -/
def State.sendCaps (s : State) (p : Port) : State :=
  let q := s.port p
  if !s.canFeed p then s
  else (s.modPort p (fun q => { q with wait := .caps, capsCount := q.capsCount + 1 })).pdSend p
    (.sourceCaps { pdos := s.offers p, epr := q.epr, eprCapable := s.portOn p 9 && !q.rev2, dualRolePower := s.portGet p 4 == 2 })

/-- A partner's Request at a port that sources (R174, R175). -/
def State.onRequest (s : State) (p : Port) (pos : Nat) (v : Volt) (i : Amp) : State :=
  let q := s.port p
  if q.attach != .source then s.pdSend p .notSupported
  else if !q.feeding then (s.pdSend p .reject).portReply p [7] rcDenied
  else
    match (if pos = 0 then none else (s.offers p)[pos - 1]?) with
    | some o =>
      match pdoLimit o v with
      | some lim =>
        if i ≤ lim then
          let u := pdoVolt o v
          let s := s.pdSend p .accept
          let s := s.modConn (portSrc p) (fun k => if k.vExp = u then k else { k with vOld := some k.vExp, vExp := u })
          let s := s.modPort p (fun q => { q with
            wait := .idle, transition := true, feedReady := false, lastReq := some (pos, u, i), objMax := lim })
          s.portReply p [7] rcOk
        else (s.pdSend p .reject).portReply p [7] rcDenied
      | none => (s.pdSend p .reject).portReply p [7] rcDenied
    | none => (s.pdSend p .reject).portReply p [7] rcDenied

/-! ### Contracts as sink (R171, R172) -/

/-- V(p) and I(p) of an offered object (R171). -/
def sinkChoice (snk : Volt) (o : Pdo) : Option (Volt × Amp) :=
  match o with
  | .fixed v i => if v ≤ snk ∧ 0 < v then some (v, i) else none
  | .pps lo hi i => let v := min hi snk; if v < 5 ∨ v < lo then none else some (v, i)
  | .avs lo hi w => let v := min hi snk; if v < 5 ∨ v < lo then none else some (v, w / v)

def kindRank : ContractKind → Nat
  | .fixed => 3 | .pps => 2 | .avs => 1 | .none => 0

/-- One object as the rule ranks it: whole watts, kind, voltage, position, current. -/
structure Ranked where
  watts : Int
  kind : ContractKind
  v : Volt
  i : Amp
  pos : Nat

def Ranked.better (a b : Ranked) : Bool :=
  if a.watts ≠ b.watts then decide (b.watts < a.watts)
  else if kindRank a.kind ≠ kindRank b.kind then decide (kindRank b.kind < kindRank a.kind)
  else if a.v ≠ b.v then decide (b.v < a.v) else decide (a.pos < b.pos)

def rankObjects (snk : Volt) (lim : Amp) (rev2 : Bool) (l : List Pdo) : List Ranked :=
  (l.zip (List.range l.length)).filterMap (fun x =>
    if rev2 && pdoKind x.1 != .fixed then none
    else (sinkChoice snk x.1).map (fun r =>
      { watts := (r.1 * min r.2 lim).floor, kind := pdoKind x.1, v := r.1, i := min r.2 lim, pos := x.2 + 1 }))

def bestRanked (l : List Ranked) : Option Ranked :=
  l.foldl (fun a x => match a with | none => some x | some b => if x.better b then some x else a) none

/-- Any object above 3 A shows that the partner has discovered a 5 A cable (R171). -/
def showsFiveAmp (snk : Volt) (l : List Pdo) : Bool :=
  l.any (fun o => match o with | .fixed _ i => decide (3 < i) | .pps _ _ i => decide (3 < i)
                               | .avs .. => (sinkChoice snk o).any (fun r => decide (3 < r.2)))

/-- The choice of R171 is requested. -/
def State.requestBest (s : State) (p : Port) : State :=
  let q := s.port p
  match q.caps with
  | some c =>
    let lim := min (s.cfg.q (6 + p.val) 1 (1 / 20)) (cableTerm q)
    match bestRanked (rankObjects (s.snkVmax p) lim q.rev2 c.pdos) with
    | some b =>
      (s.modPort p (fun q => { q with wait := .request b.v b.i b.pos b.kind, lastReq := some (b.pos, b.v, b.i) })).pdSend p
        (.request b.pos b.v b.i)
    | none => s
  | none => s

def State.onSourceCaps (s : State) (p : Port) (c : SourceCaps) : State :=
  let q := s.port p
  if q.attach = .source then s.modPort p (fun q => { q with caps := some c })
  else if q.attach = .sink || q.attach = .frsWatch then
    let s := s.modPort p (fun q => { q with caps := some c, cable5 := q.cable5 || showsFiveAmp (s.snkVmax p) c.pdos })
    s.requestBest p
  else s

/-- The lane of a port's far node goes to standby with no allocation (R172, R182). -/
def State.standbyFor (s : State) (p : Port) : State :=
  match s.portNode p with
  | some n =>
    if (s.node n).selected = some (portSrc p) then
      (s.sendNode n s.effTick .standby (fun o => { o with alloc := 0 })).modNode n (fun k => { k with allocW := 0 })
    else s
  | none => s

/-- The partner accepts a Request (R170, R172). -/
def State.onRequestAccept (s : State) (p : Port) : State :=
  match (s.port p).wait with
  | .request v _ _ _ =>
    let c := portSrc p
    let old := (s.conn c).vExp
    let s := s.portReply p [7] rcOk
    if v = old then s.modPort p (fun q => { q with wait := .psRdy })
    else
      let s := s.modConn c (fun k => { k with vExp := v, vOld := some old })
      (s.modPort p (fun q => { q with wait := .psRdy, transition := true })).standbyFor p
  | _ => s

/-- Trunk port a Type-C port may stand in for, and whether the mode may be entered now (R190). -/
def State.modePort (s : State) (p : Port) : TrunkPort := if s.portGet p 19 = 1 then 1 else 0

def State.modeAllowed (s : State) (p : Port) : Bool :=
  let t := s.modePort p
  s.portOn p 17 && s.portGet p 18 != 0 && (s.conn (trunkSrc t)).pair == .opened &&
  ((s.link t).lastRx = 0 || s.passed (s.link t).lastRx (msTicks 250))

def State.modeSvid (s : State) (p : Port) : Half := BitVec.ofInt 16 (s.portGet p 18)

/-- Enter Mode is acknowledged: the stand-in begins (R190). -/
def State.modeEnter (s : State) (p : Port) : State :=
  (s.modPort p (fun q => { q with tmode := true, wait := .idle })).sendMux p

/-- What a port starts of its own after a contract (R171, R182, R185, R190); nothing while its function is stopped (R192). -/
def State.afterContract (s : State) (p : Port) (first : Bool) : State :=
  let q := s.port p
  if s.portStopped p then s
  else
    let s := if first && !q.rev2 && (s.portOn p 11 || (q.attach == .source && s.portGet p 12 != 2)) then s.pdSend p .getSinkCap else s
    let s := if first && s.portOn p 17 && q.dfp && s.modeAllowed p then
        (s.pdSend p (.discoverIdentity .sop)).modPort p (fun q => { q with wait := .modeReply })
      else s
    let capable := match q.caps with | some c => c.eprCapable | none => false
    if q.attach == .sink && s.portOn p 7 && capable && q.cable5 && 20 < s.snkVmax p && !q.eprTried && !q.epr && !q.rev2 then
      (s.pdSend p .eprModeEnter).modPort p (fun q => { q with eprTried := true, wait := .eprEntry })
    else s

/-- A contract as sink is in force (R170, R172, R180); a learned limit is cleared (R146). -/
def State.contractMade (s : State) (p : Port) : State :=
  let q := s.port p
  match q.lastReq with
  | some (pos, v, i) =>
    let kind := match q.caps with
      | some c => match (if pos = 0 then none else c.pdos[pos - 1]?) with | some o => pdoKind o | none => .fixed
      | none => .fixed
    let first := !q.hadContract
    let renewed := q.contract.kind = kind && q.contract.v = v && q.contract.i = i && !q.softened
    let s := if renewed then s else s.modConn (portSrc p) (fun k => { k with iLearn := none })
    let s := s.modPort p (fun q => { q with
      contract := { kind := kind, pos := pos, v := v, i := i }, wait := .idle, softened := false, hardResets := 0
      transEnd := s.now + 500, hadContract := true })
    s.afterContract p first
  | none => s

/-- A contract as source is in force: PS_RDY has been sent (R175). -/
def State.sourceContract (s : State) (p : Port) : State :=
  let q := s.port p
  match q.lastReq with
  | some (pos, v, i) =>
    let kind := match (if pos = 0 then none else (s.offers p)[pos - 1]?) with | some o => pdoKind o | none => .fixed
    let first := !q.hadContract
    let s := s.modPort p (fun q => { q with
      contract := { kind := kind, pos := pos, v := v, i := i }, transition := false, feedReady := false, hardResets := 0
      wait := .idle, hadContract := true, transEnd := s.now + 500 })
    s.afterContract p first
  | none => s

/-! ### Swaps (R182, R183, R185-R187) -/

def State.swapStep (s : State) (p : Port) (step : Byte) : State :=
  s.modPort p (fun q => { q with swap := q.swap.map (fun w => { w with step := step }) })

/-- Steps of a swap that VBUS shows (R183): the old source's VBUS gone, the new source's VBUS there. -/
def State.swapVbus (s : State) (p : Port) (present : Bool) : State :=
  match (s.port p).swap with
  | some w =>
    let step : Byte :=
      if w.fast then w.step
      else if w.toSource then (if !present && w.step = 1 then 2 else w.step)
      else if present && w.step = 3 then 4 else w.step
    s.modPort p (fun q => { q with swap := some { w with step := step } })
  | none => s

/-- A PR_Swap is agreed: to sink, the feed ends without the drain; to source, the lane goes to standby. -/
def State.prSwapStart (s : State) (p : Port) (toSource : Bool) : State :=
  let s := s.modPort p (fun q => { q with swap := some { fast := false, toSource := toSource, step := 1 } })
  if toSource then (s.standbyFor p).modPort p (fun q => { q with wait := .psRdy })
  else ((s.feedEnd p false).swapStep p 2).modPort p (fun q => { q with contract := .zero, transition := false })

/-- A swap ends well: the port is in its new role without a contract. -/
def State.swapDone (s : State) (p : Port) (source : Bool) : State :=
  let s := s.modConn (portSrc p) (fun k => { k with vExp := 5, vOld := none })
  s.modPort p (fun q => { q with swap := none, attach := if source then .source else .sink, contract := .zero, epr := false
                                 transition := false, wait := if source then .idle else .sourceCaps, caps := none })

/-- The old source's PS_RDY in a swap to source, or the new source's in a swap to sink (R182, R186, R187). A lane that drew
stops and its pair opens before the feed closes it again (R17). -/
def State.onSwapRdy (s : State) (p : Port) (w : Swap) : State :=
  if w.toSource then
    if w.fast then
      let s := s.swapStep p 0x14
      if (s.port p).feedReady then (((s.pdSend p .psRdy).swapStep p 0x15).swapDone p true).sendCaps p else s
    else
      let s := (s.swapStep p 3).modPort p (fun q => { q with attach := .source, cc := .rp, contract := .zero, wait := .idle })
      let s := match s.portNode p with | some n => s.sendNode n s.effTick .stopNow id | none => s
      let s := if (s.conn (portSrc p)).pair = .opened then s else s.sendPort (portDie p) s.effTick (.openPair (portSrc p))
      (s.startFeed p).swapStep p 4
  else s.swapDone p false

/-- Whether PR_SWAP and the far node allow a swap to the given role (R182). -/
def State.prAllowed (s : State) (p : Port) (toSource : Bool) : Bool :=
  if toSource then s.portGet p 12 = 1 && s.canFeed p else s.portGet p 12 != 2

/-- A source whose partner is dual-role and has unconstrained power sends one PR_Swap per attach, under TO_SINK or ANY
(R182). It goes out as soon as no other exchange is under way. -/
def State.offerSink (s : State) (p : Port) : State :=
  let q := s.port p
  if q.attach = .source && q.contract.kind != .none && q.wait = .idle && !q.transition && q.swap.isNone && !q.swapTried &&
      q.sinkDual && q.sinkUnc && s.prAllowed p false && !s.portStopped p then
    (s.pdSend p .prSwap).modPort p (fun q => { q with wait := .swapReply, swapTried := true })
  else s

/-! ### Battery queries (R193, R236) -/

def State.vNom (s : State) : Volt := s.cfg.get 0 2 * (if s.cfg.get 0 1 = 0 then 36 / 10 else 32 / 10)
def State.soc (s : State) : Rat := if s.gauge.qFcc = 0 then 0 else clampR 0 1 (s.gauge.qRem / s.gauge.qFcc)
/-- Energy in 0.1 Wh steps. -/
def energy16 (x : Rat) : Half := BitVec.ofNat 16 (min 0xFFFF (quant (x * 10)).toNat)

def State.batteryCapMsg (s : State) (ref : Byte) : PdMsg :=
  .batteryCap (BitVec.ofInt 16 (s.cfg.get 0 19)) (BitVec.ofInt 16 (s.cfg.get 0 20)) (energy16 (s.cfg.q 0 17 (1 / 10) * s.vNom))
    (energy16 (s.gauge.qFcc * s.vNom)) (ref != 0)

def State.batteryStatusMsg (s : State) (ref : Byte) : PdMsg :=
  let charging := match s.charge.phase with | .trickle | .precharge | .cc | .cv => true | _ => false
  .batteryStatus (if s.gauge.socQualified then energy16 (s.soc * s.gauge.qFcc * s.vNom) else 0xFFFF) (ref != 0)
    (s.charge.present && ref == 0)
    (if charging && 5 / 100 < s.gauge.iMeas then 0 else if s.gauge.iMeas < -(5 / 100) then 1 else 2)

/-! ### The hub's answer to a PD message (R161, R162, R171-R190) -/

/-- Rejection of what the port waits for; a Wait is answered to the host as BUSY (R357). -/
def State.onRefused (s : State) (p : Port) (code : Nat) : State :=
  let q := s.port p
  match q.wait with
  | .request .. =>
    (s.modPort p (fun q => { q with wait := if q.contract.kind = .none || q.softened then .sourceCaps else .idle })).portReply p [7] code
  | .swapReply => (s.modPort p (fun q => { q with wait := .idle })).portReply p [1] code
  | .frsReply => (s.modPort p (fun q => { q with wait := .idle })).escalate p
  | .drReply => (s.modPort p (fun q => { q with wait := .idle })).portReply p [2] code
  | .vconnReply => (s.modPort p (fun q => { q with wait := .idle })).portReply p [3] code
  | _ => s.modPort p (fun q => { q with wait := match q.wait with | .eprEntry | .modeReply | .exitReply | .battery => .idle | w => w })

def State.onAccept (s : State) (p : Port) : State :=
  let q := s.port p
  match q.wait with
  | .request .. => s.onRequestAccept p
  | .softReset =>
    let s := s.portReply p [4] rcOk
    if q.attach = .source then s.sendCaps p else s.modPort p (fun q => { q with wait := .sourceCaps })
  | .swapReply => (s.portReply p [1] rcOk).prSwapStart p (q.attach != .source)
  | .frsReply => s.modPort p (fun q => { q with wait := .psRdy })
  | .drReply => (s.modPort p (fun q => { q with dfp := !q.dfp, wait := .idle })).portReply p [2] rcOk
  | .vconnReply =>
    let s := (s.modPort p (fun q => { q with vconn := !q.vconn, wait := .idle })).portReply p [3] rcOk
    if (s.port p).vconn then s.pdSend p .psRdy else s
  | _ => s

/-- The SVID named is the one the port's mode runs under. -/
def State.ourSvid (s : State) (p : Port) (v : Half) : Bool := s.portOn p 17 && v != 0 && v == s.modeSvid p

def State.pdPolicy (s : State) (p : Port) (m : PdMsg) : State :=
  let q := s.port p
  match m with
  | .goodCrc => if q.wait = .caps then s.modPort p (fun q => { q with capsCount := 0 }) else s
  | .accept => s.onAccept p
  | .reject | .notSupported => s.onRefused p rcDenied
  | .wait => s.onRefused p rcBusy
  | .psRdy =>
    match q.swap with
    | some w => s.onSwapRdy p w
    | none => if q.wait = .psRdy then s.contractMade p else s
  | .softReset =>
    let s := (s.softState p).pdSend p .accept
    if q.attach = .source then s.sendCaps p else s.modPort p (fun q => { q with wait := .sourceCaps })
  | .getSourceCap => if q.attach = .source && q.feeding && s.canFeed p then s.sendCaps p else s.pdSend p .notSupported
  | .getSinkCap => s.pdSend p (.sinkCaps (s.portGet p 4 == 2) false (if s.portOn p 11 && !q.rev2 then s.rpCurrent p else 0))
  | .sourceCaps c => s.onSourceCaps p c
  | .sinkCaps dual unc frs => s.modPort p (fun q => { q with sinkDual := dual, sinkUnc := unc, frsAmp := frs })
  | .request pos v i => s.onRequest p pos v i
  | .prSwap =>
    if q.contract.kind = .none || q.swap.isSome then s.pdSend p .reject
    else if s.prAllowed p (q.attach != .source) then (s.pdSend p .accept).prSwapStart p (q.attach != .source)
    else s.pdSend p .reject
  | .drSwap =>
    if s.portGet p 13 = 0 && !q.tmode then (s.pdSend p .accept).modPort p (fun q => { q with dfp := !q.dfp })
    else s.pdSend p .reject
  | .vconnSwap =>
    if s.portGet p 14 = 0 && (q.vconn || (s.pdie (portDie p)).vconnSupply) then
      let s := (s.pdSend p .accept).modPort p (fun q => { q with vconn := !q.vconn })
      if (s.port p).vconn then s.pdSend p .psRdy else s
    else s.pdSend p .reject
  | .frSwap =>
    match q.swap with
    | some w =>
      if w.fast && !w.toSource then
        let s := (s.swapStep p 0x13).pdSend p .accept
        let s := if q.frsSignal then s else (s.pdSend p .psRdy).swapStep p 0x14
        s.modPort p (fun q => { q with attach := .sink, cc := .rd, wait := .psRdy, contract := .zero })
      else s.pdSend p .notSupported
    | none => s.pdSend p .notSupported
  | .eprModeEnter =>
    if q.attach = .source && s.portOn p 9 && !q.rev2 && q.cable5 && q.cableEpr && q.contract.kind != .none then
      ((s.pdSend p .eprModeAck).modPort p (fun q => { q with epr := true })).sendCaps p
    else s.pdSend p .notSupported
  | .eprModeAck =>
    if q.wait = .eprEntry then s.modPort p (fun q => { q with epr := true, wait := .sourceCaps }) else s
  | .eprKeepAlive => if q.attach = .source && q.epr then s.pdSend p .eprKeepAliveAck else s
  | .eprKeepAliveAck => s
  | .eprExit => s.modPort p (fun q => { q with epr := false, wait := if q.attach = .source then q.wait else .sourceCaps })
  | .getBatteryCap ref => if q.rev2 then s.pdSend p .notSupported else s.pdSend p (s.batteryCapMsg ref)
  | .getBatteryStatus ref => if q.rev2 then s.pdSend p .notSupported else s.pdSend p (s.batteryStatusMsg ref)
  | .discoverIdentity .sop1 | .discoverIdentity .sop2 => s
  | .discoverIdentity .sop => s.pdSend p (.identity (BitVec.ofInt 16 (s.cfg.get 0 19)) (BitVec.ofInt 16 (s.cfg.get 0 20)))
  | .discoverSvids => if s.portOn p 17 && !q.dfp then s.pdSend p (.svids [s.modeSvid p]) else s.pdSend p .notSupported
  | .discoverModes svid =>
    if s.ourSvid p svid && !q.dfp then s.pdSend p (.modes svid [1]) else s.pdSend p (.enterModeNak svid)
  | .enterMode svid pos =>
    if s.ourSvid p svid && pos = 1 && !q.dfp && s.modeAllowed p && !q.tmode then (s.pdSend p (.enterModeAck svid)).modeEnter p
    else s.pdSend p (.enterModeNak svid)
  | .exitMode svid => if q.tmode then (s.pdSend p (.exitModeAck svid)).modeEnd p else s.pdSend p (.enterModeNak svid)
  | .exitModeAck _ =>
    if q.wait = .exitReply then ((s.modPort p (fun q => { q with wait := .idle })).modeEnd p).portReply p [8] rcOk else s
  | .identity _ _ => if q.wait = .modeReply then s.pdSend p .discoverSvids else s
  | .svids l =>
    if q.wait = .modeReply then
      if l.contains (s.modeSvid p) then s.pdSend p (.discoverModes (s.modeSvid p)) else s.modPort p (fun q => { q with wait := .idle })
    else s
  | .modes svid l =>
    if q.wait = .modeReply then
      if s.ourSvid p svid && l.head? == some 1 && s.modeAllowed p && !s.portStopped p then s.pdSend p (.enterMode svid 1)
      else s.modPort p (fun q => { q with wait := .idle })
    else s
  | .enterModeAck svid => if q.wait = .modeReply && s.ourSvid p svid then s.modeEnter p else s
  | .enterModeNak _ => if q.wait = .modeReply then s.modPort p (fun q => { q with wait := .idle }) else s
  | .batteryCap .. | .batteryStatus .. => s
  | .hardReset => s.hardNoted p 4
  | .cableIdentity a5 epr active =>
    let s := s.modPort p (fun q => { q with cable5 := q.cable5 || a5, cableEpr := epr, cableKnown := true })
    let s := if active then s.pdSend p (.discoverIdentity .sop2) else s
    if q.attach = .source && q.feeding && a5 && !q.cableKnown then s.sendCaps p else s
  | .other => s.pdSend p .notSupported

/-! ### Attach and detach (R155, R165, R168-R170) -/

def State.attachAs (s : State) (p : Port) (a : Attach) (rp : Rp) (cc2 : Bool) : State :=
  let s := s.modConn (portSrc p) (fun k =>
    { k with lockedOut := k.lockedOut && !k.detached, trips := if k.lockedOut && k.detached then [] else k.trips
             vExp := 5, vOld := none, qualified := false, iLearn := none })
  let bc := a == .sink && rp == .default && s.portOn p 15 && s.hubUp
  let s := s.modPort p (fun q => { PortSt.zero with
    cc := if a = .sink then .rd else .rp, deadRd := q.deadRd, attach := a, attachRole := a, cc2 := cc2, rpSeen := rp
    bcRunning := bc, dfp := a == .source, vconn := a == .source && (s.pdie (portDie p)).vconnSupply
    wait := if a = .sink then .sourceCaps else .idle, mux := q.mux, disch := q.disch })
  s.stamp .presence (.port (portDie p)) p.val (.attach p)

/-- The port goes back to unattached and takes the values that wait for its next attach (R163); a detach counts for R155 where it says so. -/
def State.detachPort (s : State) (p : Port) (counts : Bool) : State :=
  let q := s.port p
  let s := match q.swap with | some _ => s.swapBroken p | none => s
  let s := s.feedEnd p true
  let s := s.watchEnd p
  let s := s.openPair (portSrc p)
  let s := s.modConn (portSrc p) (fun k =>
    { k with vExp := 5, vOld := none, qualified := false, iLearn := none, detached := k.detached || counts })
  let s := s.portReply p [1, 2, 3, 4, 7, 8] rcTimeout
  let s := s.modPort p (fun q => { PortSt.zero with cc := .rd, deadRd := q.deadRd, mux := q.mux, disch := q.disch })
  let s := { s with cfg := s.cfg.release (6 + p.val) .nextAttach }
  let s := s.modPort p (fun q => { q with cc := s.ccRest p })
  (s.stamp .presence (.port (portDie p)) p.val (.detach p)).ccRefresh

end Sys2Proof.Machine
end

