-- ==== Sys2Proof/Machine/Source.lean ====
section
/-! DEFINITION. Source selection and allocation (R137, R140-R142, R147-R152), as a decision runs them. -/

namespace Sys2Proof.Machine

def State.sysV (s : State) : Volt := if 0 < s.hub.sysAvg then s.hub.sysAvg else s.hub.sysTarget

/-- V_src of a connector: the voltage its power is reckoned at. -/
def State.vSrc (s : State) (c : Src) : Volt :=
  if c.val < 4 then (s.conn c).vExp
  else if c = acin then (if s.panel then (s.conn c).v else (s.conn c).vExp)
  else s.tapV

/-- Lane ceilings of a far node: k_L × N_in × IAVG_LIM summed over the gang (R295). -/
def State.nodeCeil (s : State) (n : Lane) : Amp :=
  sumR ((s.cfg.gang n).map (fun m => s.therm.kL.get m * s.rawCeil m))

/-- A port whose voltage transition, or whose swap to source, awaits PS_RDY counts zero (R172, R182). -/
def State.portHold (s : State) (c : Src) : Bool :=
  match srcPort c with
  | some p => ((s.port p).transition || (s.port p).swap.any (·.toSource)) && (s.port p).wait == .psRdy
  | none => false

/-- P_avail (R147). A panel without a finished tracking interval is reckoned at its cap (DEDUCED, log entry 138). -/
def State.pAvail (s : State) (n : Lane) (c : Src) : Watt :=
  if s.portHold c then 0
  else
    let v := s.vSrc c
    let src := v * s.iSrc c
    let src := match s.hub.panelMean with | some m => if c = acin && s.panel then min src (m * (105 / 100)) else src | none => src
    min src (min v s.sysV * s.nodeCeil n)

/-- Ranking of R140: class, then whole watts, then index. -/
def State.rankBefore (s : State) (n : Lane) (a b : Src) : Bool :=
  if s.class a ≠ s.class b then decide (s.class a < s.class b)
  else
    let pa := (s.pAvail n a).floor
    let pb := (s.pAvail n b).floor
    if pa ≠ pb then decide (pb < pa) else decide (a.val < b.val)

def State.bestOf (s : State) (n : Lane) (l : List Src) : Option Src :=
  l.foldl (fun a x => match a with | none => some x | some b => if s.rankBefore n x b then some x else a) none

def State.nodeCandidates (s : State) (n : Lane) : List Src := (s.nodeConns n).filter (fun c => s.heldCandidate c)

/-- SWAP_HOLD in ticks and SWAP_GAIN (R160). -/
def swapHold : Nat := msTicks 500
def swapGain : Rat := 5 / 4

/-- A challenger's condition against the incumbent (R140). -/
def State.challenges (s : State) (n : Lane) (c inc : Src) : Bool :=
  c != inc && (decide (s.class c < s.class inc) || (s.class c == s.class inc && decide (swapGain * s.pAvail n inc ≤ s.pAvail n c)))

/-- Change of a far node's selected source begins (R142): the lane to standby with no allocation, the old pair opened a
tick later. Without a new source the lane stops. -/
def State.changeTo (s : State) (n : Lane) (new : Option Src) : State :=
  let old := (s.node n).selected
  let opens : Bool := match old with | some c => c.val < 5 && !s.staysOpen c && new != old | none => false
  let eff := s.effTick
  let s := s.sendNode n eff (if new.isNone then .stopNow else .standby) (fun o => { o with alloc := 0 })
  let s := match old with
    | some c => if opens then s.sendPort (dieOfSrc c) (eff + 1) (.openPair c) else s
    | none => s
  let step := match new with
    | some c => if c.val < 5 && ((s.conn c).pair != .closed || opens) then some (c, ChangeStep.standby) else none
    | none => none
  s.modNode n (fun k => { k with selected := new, change := step, challengers := [], srcTrim := 0, allocW := 0
                                 openedAt := if opens then eff + 1 else eff })

/-- Selection on one far node (R140, R141, R157): a node whose lane feeds keeps its feed unless a candidate appears. -/
def State.selectNode (s : State) (n : Lane) : State :=
  let k := s.node n
  let cands := s.nodeCandidates n
  if k.feeding.isSome || k.drain then s
  else
    match k.selected with
    | some inc =>
      if cands.contains inc then
        let now := s.now
        let chs := (cands.filter (fun c => s.challenges n c inc)).map (fun c =>
          (c, ((k.challengers.find? (fun x => x.1 == c)).map (·.2)).getD now))
        let s := s.modNode n (fun k => { k with challengers := chs })
        match s.bestOf n ((chs.filter (fun x => s.passed x.2 swapHold)).map (·.1)) with
        | some c => s.changeTo n (some c)
        | none => s
      else s.changeTo n (s.bestOf n cands)
    | none =>
      match s.bestOf n cands with
      | some c => s.changeTo n (some c)
      | none => s

/-- The pair of the new source: the far node is drained first where it stands above the connector's voltage (R142). -/
def State.changeStep (s : State) (n : Lane) : State :=
  let k := s.node n
  match k.change with
  | some (c, .standby) =>
    if s.now < k.openedAt then s
    else if (s.conn c).v - 1 / 2 < (s.lane n).loop.vinl && 9 / 2 < (s.lane n).loop.vinl then
      let ceil := s.nodeCeil n
      let s := s.sendNode n s.effTick .join (fun o =>
        { o with dir := .draw, role := .drawAlloc, alloc := ceil, iSrc := ceil, vSagEff := 0, vLost := 0 })
      s.modNode n (fun k => { k with change := some (c, .draining), openedAt := s.now })
    else
      let s := s.sendPort (dieOfSrc c) (max s.effTick (k.openedAt + 1)) (.closePair c)
      s.modNode n (fun k => { k with change := some (c, .closing) })
  | _ => s

/-- A source lost or tripped while its pair closes ends the change (R157); a closing that is still on its way to the port die
is taken back (R18). -/
def State.changeLost (s : State) (c : Src) : State :=
  let s := if c.val < 5 && s.pairSent c == some true then s.sendPort (dieOfSrc c) s.effTick (.openPair c) else s
  (List.finRange 4).foldl (fun s n =>
    if (s.node n).selected == some c then s.modNode n (fun k => { k with selected := none, change := none }) else s) s

/-! ### Allocation (R148-R150) -/

/-- Far nodes whose selected source can deliver now: no change under way, so its pair has been reported closed. -/
def State.drawing (s : State) : List (Lane × Src) :=
  (List.finRange 4).filterMap (fun n =>
    let k := s.node n
    match k.selected with
    | some c => if k.change.isNone && k.feeding.isNone && s.heldCandidate c then some (n, c) else none
    | none => none)

def State.sumAvail (s : State) (l : List (Lane × Src)) : Watt := sumR (l.map (fun x => s.pAvail x.1 x.2))

/-- SYS demand: the load of the last round, raised to a prepared forecast step (R148, R247). -/
def State.pDemand (s : State) : Watt :=
  (s.fcst.prepared.filter (·.raised)).foldl (fun a x => max a x.watts) s.hub.pSys

/-- P_req (R148). -/
def State.pReq (s : State) : Watt := (s.pDemand + s.charge.iReq * s.gauge.vBat) / etaPlan + s.hub.pCorr

/-- Shares of one class: each source's availability, or its part of what remains. -/
def State.shareClass (s : State) (l : List (Lane × Src)) (remaining : Watt) : List (Lane × Watt) :=
  let total := s.sumAvail l
  l.map (fun x => let a := s.pAvail x.1 x.2; (x.1, if total ≤ remaining then a else remaining * ratio a total))

def State.shares (s : State) : List (Lane × Watt) :=
  let d := s.drawing
  let of := fun (k : Int) => d.filter (fun x => s.class x.2 == k)
  let r1 := s.shareClass (of 1) (max 0 s.pReq)
  let left1 := max 0 s.pReq - sumR (r1.map (·.2))
  let r2 := s.shareClass (of 2) left1
  let left2 := left1 - sumR (r2.map (·.2))
  r1 ++ r2 ++ s.shareClass (of 3) left2

def State.allocate (s : State) : State :=
  let sh := s.shares
  { s with nodes := Vector.ofFn (fun n =>
      let k := s.nodes.get n
      { k with allocW := ((sh.find? (fun x => x.1 == n)).map (·.2)).getD 0 }) }

/-- A lane's allocation as an input current (R148). -/
def State.allocA (s : State) (n : Lane) : Amp :=
  match (s.node n).selected with
  | some c => if (s.node n).allocW = 0 then 0 else ratio (s.node n).allocW (s.vSrc c)
  | none => 0

/-- P_corr moves by the charge-current shortfall × V_BAT, within 10% of P_req, which contains it (R148): with the rest of
P_req at b, |P_corr| ≤ (b + P_corr) / 10 is -b/11 ≤ P_corr ≤ b/9. -/
def State.correctDemand (s : State) (shortfall : Amp) : State :=
  let base := (s.pDemand + s.charge.iReq * s.gauge.vBat) / etaPlan
  { s with hub := { s.hub with pCorr := clampR (-(base / 11)) (base / 9) (s.hub.pCorr + shortfall * s.gauge.vBat) } }

/-- The correction of a source limit by the port die's reading, at most 2% a round (R144). -/
def State.correctSource (s : State) (n : Lane) (reading : Amp) : State :=
  match (s.node n).selected with
  | some c =>
    let i := s.iSrc c
    s.modNode n (fun k => { k with srcTrim := k.srcTrim + clampR (-(i / 50)) (i / 50) (i - reading) })
  | none => s

/-! ### Feeds and FRS watch against candidates (R141, R185, R187, R188) -/

/-- Whether a feed that must end uses Fast Role Swap as initial source (R187). -/
def State.frsAsSource (s : State) (p : Port) : Bool :=
  let q := s.port p
  s.portOn p 11 && !q.rev2 && q.contract.kind != .none && (match q.caps with | some c => c.dualRolePower | none => false)

/-- The Fast Role Swap signal of an initial source (R187). -/
def State.frsDrive (s : State) (p : Port) : State :=
  s.modPort p (fun q => { q with frsSignal := true, swap := some { fast := true, toSource := false, step := 0x11 } })

/-- A candidate appears on a node whose lane feeds a port, or waits in FRS watch (R141, R185, R188). -/
def State.preempt (s : State) (n : Lane) (c : Src) : State :=
  match (s.node n).feeding with
  | some p =>
    if (s.port p).attach = .frsWatch then s.watchEnd p
    else if (s.port p).frsSignal then s
    else if s.frsAsSource p then s.frsDrive p
    else (s.record 0x0406 [BitVec.ofNat 8 p.val, 3, BitVec.ofNat 8 c.val]).errorRecovery p 1
  | none => s

/-- What Fast Role Swap as initial sink needs beside the attach as sink (R185). -/
def State.frsHolds (s : State) (p : Port) : Bool :=
  let q := s.port p
  s.portOn p 11 && !q.rev2 && 0 < q.frsAmp && decide (q.frsAmp ≤ s.feedMax p / 5) && s.canFeed p &&
  (s.conn (portSrc p)).pair == .closed

/-- Arming of Fast Role Swap as initial sink (R185). -/
def State.frsArmed (s : State) (p : Port) : Bool :=
  (s.port p).attach == .sink && s.frsHolds p && !(s.port p).transition && (s.port p).swap.isNone

def State.watchBegin (s : State) (p : Port) : State :=
  match s.portNode p with
  | some n =>
    let s := s.modPort p (fun q => { q with attach := .frsWatch, feedTarget := 5 })
    let s := s.modConn (portSrc p) (fun k => { k with qualified := false, known := false })
    s.modNode n (fun k => { k with feeding := some p, selected := none, change := none })
  | none => s

end Sys2Proof.Machine
end

