-- ==== Sys2Proof/Machine/Gauge.lean ====
section
/-! DEFINITION. The battery gauge (chapter 09): counter, state of charge, capacity and impedance learning, pack
identity, gauge records. -/

namespace Sys2Proof.Machine

/-! ### Converters (R217, R219): 18 bits over ±100 mV, 16 bits over 64 V -/

def State.bshunt (s : State) : Ohm := s.cfg.q 0 16 (1 / 100000)
def iCodeVolt : Volt := (1 / 10) / 131072
def vCodeVolt : Volt := 64 / 65536

def State.sampleAmp (s : State) (c : BitVec 18) : Amp := c.toInt * iCodeVolt / s.bshunt
def sampleVolt (c : BitVec 16) : Volt := c.toNat * vCodeVolt

/-- Charge of one count, in ampere-hours. -/
def State.qCount (s : State) : Rat := iCodeVolt * (250 / 1000000) / s.bshunt / 3600

def State.cells (s : State) : Rat := s.cfg.get 0 2
def State.lfp (s : State) : Bool := s.cfg.get 0 1 == 1
/-- DESIGN_CAP in ampere-hours. -/
def State.designCap (s : State) : Rat := s.cfg.q 0 17 (1 / 10)

/-! ### Open-circuit table (R223) -/

def ocvTable (lfp : Bool) : List Rat :=
  if lfp then [2900, 3200, 3250, 3280, 3290, 3300, 3310, 3320, 3330, 3350, 3400]
  else [3300, 3500, 3580, 3600, 3660, 3720, 3800, 3880, 3970, 4070, 4190]

/-- Interpolation over equal steps of 10% in a rising table, in millivolts: the fraction at `v`. -/
def interp (v : Rat) : Nat → List Rat → Rat
  | k, a :: b :: r => if v < b then (k + (v - a) / (b - a)) / 10 else interp v (k + 1) (b :: r)
  | _, _ => 1

/-- Table state of charge at a battery voltage. -/
def State.tableSoc (s : State) (vbat : Volt) : Rat :=
  let mv := vbat / s.cells * 1000
  let t := ocvTable s.lfp
  if mv < (t.head?).getD 0 then 0 else interp mv 0 t

/-- Table voltage of the whole pack at a state of charge that is a multiple of 5%. -/
def State.tableVolt (s : State) (twentieths : Nat) : Volt :=
  let t := ocvTable s.lfp
  let at_ := fun (i : Nat) => (t[i]?).getD 0
  (if twentieths % 2 = 0 then at_ (twentieths / 2) else (at_ (twentieths / 2) + at_ (twentieths / 2 + 1)) / 2) / 1000 * s.cells

/-! ### Records (R233, R234) -/

def socCode (x : Rat) : Nat := (quant (x * 10000)).toNat

def State.gaugeBody (s : State) : List Byte :=
  let g := s.gauge
  qle 4 g.qFcc (1 / 1000) ++ qle 2 g.rPack (1 / 10000) ++ qle 2 g.rRef (1 / 10000) ++ le16 (min g.evCount 65535) ++
  [BitVec.ofNat 8 (boolBit g.socQualified 0 + boolBit g.capLearned 1 + boolBit g.impLearned 2), BitVec.ofNat 8 g.batidNow.val] ++
  qle 4 g.throughputAh (1 / 100) ++ le16 (socCode s.soc) ++ qle 2 g.rRefTemp (1 / 10)

/-- A gauge record is written; the identity and the written values are remembered (R230, R234). -/
def State.writeGauge (s : State) : State :=
  if s.hubUp then
    let s := { s with gauge := { s.gauge with batid := some s.gauge.batidNow, storedSoc := some s.soc, lastRecR := s.gauge.rPack
                                              lastRecSoc := s.soc, lastRecTick := s.now } }
    s.addJob (.learned (s.learnedRec 1 0 s.gaugeBody))
  else s

/-! ### Anchors and capacity (R222, R224, R226) -/

def State.setSoc (s : State) (x : Rat) : State := { s with gauge := { s.gauge with qRem := x * s.gauge.qFcc } }

/-- A learned capacity (R226). -/
def State.learnCap (s : State) (q : Rat) : State :=
  if s.designCap / 2 ≤ q ∧ q ≤ s.designCap * (12 / 10) then
    let g := s.gauge
    let d := clampR (-(g.qFcc / 20)) (g.qFcc / 20) (q - g.qFcc)
    ({ s with gauge := { g with qFcc := g.qFcc + d, capLearned := true } }).writeGauge
  else s

/-- Termination anchor (R224, R226). -/
def State.anchorTermination (s : State) (vregEff : Volt) : State :=
  let full := decide (s.tableVolt 20 ≤ s.cells * vregEff)
  let x := if full then 1 else s.tableSoc (s.cells * vregEff)
  let s := match s.gauge.anchorRest with
    | some a => if full && s.gauge.socQualified then s.learnCap (ratio s.gauge.sinceAnchorAh (1 - a)) else s
    | none => s
  let s := s.setSoc x
  { s with gauge := { s.gauge with socQualified := true, anchorRest := none, anchorTerm := full, sinceAnchorAh := 0 } }

/-- Rest anchor (R224, R226), once per unbroken rest. -/
def State.anchorAtRest (s : State) (vbat : Volt) : State :=
  let cell := vbat / s.cells
  let flat := s.lfp && decide (325 / 100 ≤ cell ∧ cell ≤ 333 / 100) && s.gauge.socQualified
  let s := { s with gauge := { s.gauge with restDone := true } }
  if flat then s
  else
    let x := s.tableSoc vbat
    let was := s.gauge.socQualified
    let s := if was && s.gauge.anchorTerm && decide (x ≤ 3 / 10) then s.learnCap (ratio (-s.gauge.sinceAnchorAh) (1 - x)) else s
    let s := s.setSoc x
    { s with gauge := { s.gauge with socQualified := true, anchorTerm := false, sinceAnchorAh := 0
                                     anchorRest := if x ≤ 3 / 10 then some x else none } }

/-- Rest interval of R224 in ticks: 30 min. -/
def restTicks : Nat := secTicks 1800

def State.restDue (s : State) : Bool :=
  !s.gauge.restDone && (match s.gauge.restSince with | some t => s.passed t restTicks | none => false)

/-- The counter is captured and Q_rem moved at a round (R222, R226, R229). -/
def State.countRound (s : State) : State :=
  let g := s.gauge
  let dq := (g.sum - g.roundSum).toInt * s.qCount
  { s with gauge := { g with
      roundSum := g.sum, qRem := clampR 0 g.qFcc (g.qRem + dq), sinceAnchorAh := g.sinceAnchorAh + dq
      throughputAh := if dq < 0 then g.throughputAh - dq else g.throughputAh
      iMeas := if g.nRound = 0 then g.iMeas else g.iSum / g.nRound
      vBat := if g.nRound = 0 then g.vBat else g.vSum / g.nRound
      iSum := 0, vSum := 0, nRound := 0 } }

/-! ### Pack identity (R230) -/

/-- What a pack change clears. -/
def State.packChange (s : State) (newSoc : Rat) : State :=
  let g := s.gauge
  let oldCode := (g.batid.map (·.val)).getD 0
  let s := s.record 0x0304 ([BitVec.ofNat 8 oldCode, BitVec.ofNat 8 g.batidNow.val] ++
    le16 (socCode ((g.storedSoc).getD 0)) ++ le16 (socCode newSoc) ++ [1])
  let s := { s with gauge := { s.gauge with
    socQualified := false, capLearned := false, impLearned := false, qFcc := s.designCap, events := [], evCount := 0
    rRef := 0, throughputAh := 0, anchorRest := none, anchorTerm := false, sinceAnchorAh := 0 } }
  (s.setSoc newSoc).writeGauge

/-- Identity and anchor at presence qualification (R224, R230). -/
def State.presenceAnchor (s : State) (vbat : Volt) : State :=
  let x := s.tableSoc vbat
  match s.gauge.batid, s.gauge.storedSoc with
  | some b, some old =>
    let near := b.val ≤ s.gauge.batidNow.val + 1 && s.gauge.batidNow.val ≤ b.val + 1
    if near && decide (x - old ≤ 5 / 100 ∧ old - x ≤ 5 / 100) then s.setSoc x else s.packChange x
  | _, _ => let s := s.setSoc x; { s with gauge := { s.gauge with socQualified := false, anchorRest := none, anchorTerm := false } }

/-- A code read in a round; a change while the battery stays present is recorded (R230). -/
def State.readBatid (s : State) (code : Fin 64) : State :=
  let g := s.gauge
  let s := if s.charge.present && code != g.batidNow then
      s.record 0x0304 ([BitVec.ofNat 8 g.batidNow.val, BitVec.ofNat 8 code.val] ++ le16 (socCode s.soc) ++ le16 (socCode (s.tableSoc g.vBat)) ++ [0])
    else s
  { s with gauge := { s.gauge with batidNow := code } }

/-! ### Impedance events (R227, R228) -/

/-- Insertion into a rising list. -/
def insertSorted (x : Rat) : List Rat → List Rat
  | [] => [x]
  | y :: r => if x ≤ y then x :: y :: r else y :: insertSorted x r

def sortRat (l : List Rat) : List Rat := l.foldr insertSorted []

def spanR (l : List Rat) : Rat := maxR 0 l - minR 0 l

/-- The pack reading that R_REF is stored with. -/
def State.tBat (s : State) : DegC :=
  if s.cfg.get 0 13 = 1 then max (s.therm.tb.get 0) (s.therm.tb.get 1) else s.therm.tb.get 0

/-- Full-scale codes of either converter (R227). -/
def State.saturated (s : State) (i : Amp) (v : Volt) : Bool :=
  decide (131071 * iCodeVolt / s.bshunt ≤ i ∨ i ≤ -(131072 * iCodeVolt / s.bshunt) ∨ 65535 * vCodeVolt ≤ v)

/-- The 12 samples around a step, newest first: post-window, four between, pre-window. -/
def State.impEvent (s : State) (normal : Bool) : Option Rat :=
  let w := s.gauge.samples.take 12
  let post := w.take 4
  let pre := w.drop 8
  let di := meanR (post.map (·.i)) - meanR (pre.map (·.i))
  let step := rabs di
  let vPre := meanR (pre.map (·.v))
  if w.length = 12 && max (1 / 2) (s.designCap / 4) ≤ step && spanR (post.map (·.i)) ≤ step / 10 && spanR (pre.map (·.i)) ≤ step / 10 &&
     normal && s.tableVolt 4 ≤ vPre && vPre ≤ s.tableVolt 19 && 80 ≤ s.gauge.sinceEvent &&
     !(post ++ pre).any (·.spoiled) then
    some ((meanR (post.map (·.v)) - vPre) / di)
  else none

/-- A qualifying event is held until 64 have come, then moves R_PACK (R228). -/
def State.applyEvent (s : State) (r : Rat) : State :=
  let g := { s.gauge with sinceEvent := 0, evCount := s.gauge.evCount + 1 }
  if g.impLearned then
    let x := clampR (g.rPack / 2) (g.rPack * (3 / 2)) r
    let s := { s with gauge := { g with rPack := g.rPack + (x - g.rPack) / 64 } }
    if g.lastRecR / 50 ≤ rabs (s.gauge.rPack - g.lastRecR) then s.writeGauge else s
  else
    let ev := g.events ++ [r]
    if ev.length < 64 then { s with gauge := { g with events := ev } }
    else
      let m := meanR (((sortRat ev).drop 8).take 48)
      ({ s with gauge := { g with events := [], rPack := m, rRef := m, rRefTemp := s.tBat, impLearned := true } }).writeGauge

/-- State of health and cycle count (R229). -/
def State.soh (s : State) : Rat :=
  let g := s.gauge
  let a := if g.capLearned then ratio g.qFcc s.designCap else 1
  let b := if g.impLearned then ratio g.rRef g.rPack else 1
  min 1 (min a b)

def State.cycles (s : State) : Rat := ratio s.gauge.throughputAh s.gauge.qFcc

/-! ### Commands -/

/-- The hub die is powered: its converters and counter run (R217). -/
def State.hubPowered (s : State) : Bool := s.hub.hub != .off

/-- What the hub takes from a sample in the decision that uses it (R212, R222, R224, R227): the round's means, the runs of rest
and of current collapse, a qualifying impedance event. -/
def State.useGauge (s : State) (tick : Nat) (i : Amp) (v : Volt) : State :=
  let small := decide (rabs i < 5 / 100)
  let lane := match s.cfg.battLane with | some n => decide (1 ≤ rabs (s.lane n).loop.iLane) && (s.lane n).active | none => false
  let rest := decide (rabs i < s.cfg.q 0 18 (1 / 100))
  let x := s.gauge
  let s := { s with gauge := { x with
    iSum := x.iSum + i, vSum := x.vSum + v, nRound := x.nRound + 1
    samples := (GaugeSample.mk i v (s.aon.softFrom.isSome || s.saturated i v) :: x.samples).take 12, sinceEvent := min 80 (x.sinceEvent + 1)
    collapseRun := if small && lane then x.collapseRun + 1 else 0
    restSince := if !rest then none else if x.restSince.isSome then x.restSince else some tick
    restDone := rest && x.restDone } }
  match s.impEvent (s.charge.window == .normal && s.charge.present) with
  | some r => s.applyEvent r
  | none => s

/-- GAUGE_SAMPLE (R217, R219, R461): the counter runs whenever the hub die is powered; the sample is a charge event for the
hub's policy. -/
def execGaugeSample (g : GaugePair) (s : State) : Out :=
  if !s.hubPowered then .next s
  else
    let i := s.sampleAmp g.iCode
    let v := sampleVolt g.vCode
    let x := s.gauge
    let s := { s with gauge := { x with sum := x.sum + BitVec.signExtend 64 g.iCode, lastTick := s.now } }
    let s := s.sampleGauge i v
    match s.hub.hub with
    | .running | .booted _ _ => .next (s.stamp .charge .housekeeping 0 (.gaugeSample i v))
    | _ => .next s

/-- REST_ANCHOR (R224). -/
def execRestAnchor (vbat : Volt) (s : State) : Out :=
  if s.hubUp && s.charge.present && s.restDue then .next (s.anchorAtRest vbat) else .next s

/-- GAUGE_RECORD_PERIODIC (R234). -/
def execGaugeRecordPeriodic (s : State) : Out :=
  if s.hubUp && s.passed s.gauge.lastRecTick (secTicks 600) && 1 / 100 ≤ rabs (s.soc - s.gauge.lastRecSoc) then .next s.writeGauge
  else .next s

/-- Slots of one half of the learned-state region: 1 MB of 64 bytes (R232). -/
def learnedSlots : Nat := 16384

/-- The newest record of each type and index that a half holds. -/
def compactLearned (l : List LearnedRec) : List LearnedRec :=
  l.filter (fun r => !l.any (fun x => x.type == r.type && x.index == r.index && decide (r.seq < x.seq)))

/-- LEARNED_STATE_COMPACTION (R232). -/
def execLearnedStateCompaction (s : State) : Out :=
  let a := s.flash.learnedActive
  let full := s.flash.learned.get a
  if s.hubUp && learnedSlots ≤ full.length && !s.therm.flashShut then
    let b : Fin 2 := if a = 0 then 1 else 0
    .next { s with flash := { s.flash with learned := vput (vput s.flash.learned a []) b (compactLearned (s.flash.learned.get b ++ full)), learnedActive := b } }
  else .next s

end Sys2Proof.Machine
end

