-- ==== Sys2Proof/Machine/Charge.lean ====
section
/-! DEFINITION. Charging (chapter 08): phases, currents and targets, suspension, windows, timers, presence, STAT. -/

namespace Sys2Proof.Machine

/-- VREG per cell, ICHG (R194). -/
def State.vreg (s : State) : Volt := s.cfg.q 0 3 (1 / 200)
def State.ichg (s : State) : Amp := s.cfg.q 0 4 (1 / 20)
def State.iTerm (s : State) : Amp := s.ichg / termN (s.cfg.get 0 6)

/-- Per-cell thresholds of R195. -/
def State.trickleTh (s : State) : Volt := if s.lfp then 2 else 22 / 10
def State.preTh (s : State) : Volt := if s.lfp then 26 / 10 else 3

/-- Regulation voltage in force, per cell (R201). -/
def State.vregEff (s : State) : Volt := if s.charge.window = .warm then s.vreg - 1 / 10 else s.vreg

def State.modCharge (s : State) (f : Charge → Charge) : State := { s with charge := f s.charge }

def chgCode : ChgPhase → Nat
  | .idle => 0 | .trickle => 1 | .precharge => 2 | .cc => 3 | .cv => 4 | .terminated => 5

def winCode : Window → Nat
  | .cold => 0 | .cool => 1 | .normal => 2 | .warm => 3 | .hot => 4

/-- SUSPENDED stops the current; cause 0x0A no longer does once R209 has cleared it, though it stays set until the
backstop counter resets (R209). -/
def State.suspended (s : State) : Bool := (if s.charge.backAck then s.charge.causes &&& ~~~0x0200#16 else s.charge.causes) != 0
def State.hasCause (s : State) (code : Nat) : Bool := s.charge.causes.getLsbD (code - 1)
/-- A charge cycle is under way. -/
def State.cycling (s : State) : Bool := s.charge.phase != .idle || s.charge.startRound

def causeBit (code : Nat) : BitVec 16 := 1#16 <<< (code - 1)

/-- Seconds as a 32-bit count. -/
def secs (x : Rat) : List Byte := le32 (quant x).toNat

/-- A cause newly set is recorded (R203, R207, R390). -/
def State.setCause (s : State) (code : Nat) : State :=
  if s.hasCause code then s
  else
    let c := s.charge
    let s := s.record 0x0301 ([BitVec.ofNat 8 code, BitVec.ofNat 8 (chgCode c.phase), BitVec.ofNat 8 c.reduction, 0] ++ secs c.realS ++ secs c.fastS)
    s.modCharge (fun c => { c with causes := c.causes ||| causeBit code, clearSince := none })

def State.clearCause (s : State) (code : Nat) : State := s.modCharge (fun c => { c with causes := c.causes &&& ~~~(causeBit code) })

/-- Lane die whose backstop matters: any battery-lane die that has tripped (R207, R209). -/
def State.backstopTripped (s : State) : Bool :=
  match s.cfg.battLane with | some n => (s.cfg.gang n).any (fun m => (s.lane m).backstop.tripped) | none => false

/-- The latched causes are cleared; 0x0A only once the backstop counter has reset (R209). -/
def State.clearLatched (s : State) : State :=
  let s := [6, 7, 8, 9, 11].foldl (fun s c => s.clearCause c) s
  if !s.charge.causes.getLsbD 9 then s
  else if s.backstopTripped then s.modCharge (fun c => { c with backAck := true }) else s.clearCause 10

def Charge.cleared (c : Charge) : Charge :=
  { c with trickleS := 0, preS := 0, fastS := 0, realS := 0, reduction := 0, thermal := false, restartUsed := false, clearSince := none }

/-- TMR_FAST in seconds. -/
def State.tmrFast (s : State) : Rat := s.cfg.get 0 8 * 3600
/-- TMR_PRE in seconds; the trickle timer is 30 min (R195). -/
def State.tmrPre (s : State) : Rat := s.cfg.get 0 7 * 1800

/-- A charge cycle starts: one round at zero current, then a phase (R198). -/
def State.startCycle (s : State) : State :=
  if s.cfg.on 0 0 && s.charge.present && s.aon.mode == some .supply then
    s.modCharge (fun c => { c.cleared with phase := .idle, startRound := true, fastBudgetS := s.tmrFast, iSet := 0, iReq := 0 })
  else s

/-- A cycle ends (R198); leaving SUPPLY also clears the latched causes (R209). -/
def State.endCycle (s : State) : State :=
  s.modCharge (fun c => { c.cleared with phase := .idle, startRound := false, fastBudgetS := 0, iSet := 0, iReq := 0 })

/-- The phase a voltage calls for (R198). -/
def State.phaseFor (s : State) (vbat : Volt) : ChgPhase :=
  if vbat < s.cells * s.trickleTh then .trickle else if vbat < s.cells * s.preTh then .precharge else .cc

/-! ### Windows (R205) -/

def State.edge (s : State) (i : Nat) : DegC := s.cfg.get 0 (9 + i)

/-- Outward on crossing an edge, inward 2 degrees past it. -/
def State.windowStep (s : State) (t : DegC) : Window :=
  let cold := s.edge 0; let cool := s.edge 1; let warm := s.edge 2; let hot := s.edge 3
  let w := s.charge.window
  if t < cold ∨ (w = .cold ∧ t ≤ cold + 2) then .cold
  else if hot < t ∨ (w = .hot ∧ hot - 2 ≤ t) then .hot
  else if t < cool ∨ ((w = .cold ∨ w = .cool) ∧ t ≤ cool + 2) then .cool
  else if warm < t ∨ ((w = .hot ∨ w = .warm) ∧ warm - 2 ≤ t) then .warm
  else .normal

/-- Selected battery NTCs read inside their window (R194, R292). -/
def State.ntcValid (s : State) : Bool := s.therm.tbOk.get 0 && (s.cfg.get 0 13 = 0 || s.therm.tbOk.get 1)

/-- The window of a round and its suspension causes (R203, R205). -/
def State.windowRound (s : State) : State :=
  let w := s.windowStep s.tBat
  let s := s.modCharge (fun c => { c with window := w })
  let s := if w = .cold then s.setCause 1 else s.clearCause 1
  if w = .hot then s.setCause 2 else s.clearCause 2

/-! ### Charge current and target (R200, R201) -/

def State.iPhase (s : State) : Amp :=
  match s.charge.phase with
  | .idle | .terminated => 0
  | .trickle => 1 / 10
  | .precharge => s.cfg.q 0 5 (1 / 100) * s.ichg
  | .cc | .cv => s.ichg

/-- I_THERM: the reduced ceiling of the battery lane or gang (R295). -/
def State.iTherm (s : State) : Amp := match s.cfg.battLane with | some n => s.nodeCeil n | none => 0

def State.iWin (s : State) : Amp :=
  if s.charge.window = .cool && (match s.charge.phase with | .precharge | .cc | .cv => true | _ => false) then s.iPhase / 2 else s.iPhase

def State.iReqOf (s : State) : Amp := min s.iWin (min s.charge.iHost s.iTherm)

/-- I_IN: the cap of R150, none below zero. -/
def State.iInCap (s : State) : Amp := max 0 (ratio (etaPlan * s.sumAvail s.drawing - s.pDemand) s.gauge.vBat)

/-- The thermal term is the smallest term of a selected source's I_SRC (R206). -/
def State.inputThermal (s : State) : Bool :=
  s.drawing.any (fun x =>
    let k := s.kConn x.2
    decide (k < 1) && (match (s.conn x.2).iLearn with | some l => decide (k * s.iTerms x.2 ≤ l) | none => true))

/-- Reduction in force by its code of record 0x0301: window, I_THERM, thermal input, I_HOST, input (R390). -/
def State.reductionOf (s : State) (iIn : Amp) : Nat :=
  let req := s.iReqOf
  if iIn < req then (if s.inputThermal then 3 else 5)
  else if s.iTherm = req && s.iTherm < s.iWin then 2
  else if s.charge.iHost = req && s.charge.iHost < s.iWin then 4
  else if s.iWin < s.iPhase then 1 else 0

def State.thermalOf (s : State) (iIn : Amp) : Bool :=
  s.charge.window = .cool || s.charge.window = .warm ||
  decide (s.iTherm < s.iWin ∧ s.iTherm ≤ s.charge.iHost) || (decide (iIn < s.iReqOf) && s.inputThermal)

/-- Setpoint, request and target are computed anew (R200, R201, R210, R216). -/
def State.chargeSetpoint (s : State) : State :=
  let iIn := s.iInCap
  let idle := s.suspended || (match s.charge.phase with | .idle | .terminated => true | _ => false)
  let req := s.iReqOf
  let irc := if s.gauge.impLearned then max 0 (min (s.gauge.iMeas * s.cfg.q 0 14 (5 / 100) * s.gauge.rPack) (s.cells * (5 / 100))) else 0
  let vIrc := slewTo s.charge.vIrc irc (s.cells / 1000)
  s.modCharge (fun c => { c with
    iSet := if idle then 0 else min req iIn
    iReq := if idle then 0 else if c.phase = .cv then min req (11 / 10 * s.gauge.iMeas + 1 / 10) else req
    vIrc := vIrc, reduction := s.reductionOf iIn
    cvTarget := (if c.phase = .trickle then s.cells * s.preTh else s.cells * s.vregEff) + (if c.phase = .trickle then 0 else vIrc) })

/-- Round length in seconds (R206). -/
def roundS : Rat := 1024 / 1000000

/-- The timers of one round (R206). -/
def State.chargeTimers (s : State) : State :=
  let th := s.thermalOf s.iInCap
  let s := s.modCharge (fun c => { c with thermal := th })
  if s.suspended then s
  else
    match s.charge.phase with
    | .trickle => s.modCharge (fun c => { c with trickleS := c.trickleS + roundS, realS := c.realS + roundS })
    | .precharge => s.modCharge (fun c => { c with preS := c.preS + roundS, realS := c.realS + roundS })
    | .cc | .cv =>
      let rate := if th then max (1 / 4) (ratio s.gauge.iMeas s.ichg) else 1
      s.modCharge (fun c => { c with fastS := c.fastS + roundS * rate, realS := c.realS + roundS })
    | _ => s

/-- The conditions a thermal restart waits for (R207). -/
def State.limitsAbsent (s : State) : Bool :=
  s.charge.window = .normal &&
  (match s.cfg.battLane with
   | some n => (s.cfg.gang n).all (fun m => decide (max (s.lane m).tempDie (s.lane m).tempTsl < s.cfg.q 13 0 1 - s.cfg.q 13 1 1))
   | none => true) &&
  s.drawing.all (fun x => decide ((s.pdie (dieOfSrc x.2)).temp < s.cfg.q 13 4 1))

/-- Corrections of the round (R81, R202): the setpoint by the gauge's difference, by at most 2% a round; while the
battery-voltage loop is active the target by the battery node's, within 0.2%. They run while the lane charges. -/
def State.chargeTrims (s : State) : State :=
  let c := s.charge
  if c.iSet = 0 then s.modCharge (fun c => { c with iTrim := 0 })
  else
    let cv := match s.cfg.battLane with | some n => (s.lane n).loop.cvActive | none => false
    let s := if cv then s.modCharge (fun c => { c with vTrim := c.vTrim + clampR (-(c.cvTarget / 500)) (c.cvTarget / 500) (c.cvTarget - s.gauge.vBat) })
      else s
    s.modCharge (fun c => { c with iTrim := c.iTrim + clampR (-(c.iSet / 50)) (c.iSet / 50) (c.iSet - s.gauge.iMeas) })

/-- Charge control of one housekeeping round (R198-R207), after the counter and the window have been read. -/
def State.chargeRound (s : State) : State :=
  let s := if s.charge.startRound then
      let p := s.phaseFor s.gauge.vBat
      s.modCharge (fun c => { c with phase := p, startRound := false })
    else s.chargeTimers
  let s := if s.hasCause 4 && s.gauge.vBat < s.cells * (s.vregEff - 1 / 10) then s.clearCause 4 else s
  let s := if s.charge.backAck && !s.backstopTripped then (s.clearCause 10).modCharge (fun c => { c with backAck := false }) else s
  let s := if s.hasCause 6 then s.modCharge (fun c => { c with clearSince := if !s.limitsAbsent then none else if c.clearSince.isSome then c.clearSince else some s.now })
    else s
  s.chargeTrims.chargeSetpoint

/-- A selected NTC outside its window sets cause 0x03; NTCs invalid for one round and then valid again end cause 0x0B
(R203). -/
def State.ntcRound (s : State) : State :=
  if !s.ntcValid then
    (if s.cfg.battLane.isSome then s.setCause 3 else s).modCharge (fun c => { c with ntcGap := true })
  else if s.charge.ntcGap then (s.clearCause 11).modCharge (fun c => { c with ntcGap := false })
  else s

/-! ### Presence and removal (R206, R208, R211, R212) -/

def removalCode : RemovalDetector → Nat
  | .ntc => 1 | .voltageStep => 2 | .currentCollapse => 3

/-- A removal is recorded, its cycle ends, and presence and the gauge's windows are cleared (R208, R212). -/
def State.removalCleared (s : State) (d : RemovalDetector) (vbat : Volt) (iMeas : Amp) : State :=
  let c := s.charge
  let s := s.record 0x0303 ([BitVec.ofNat 8 (removalCode d), BitVec.ofNat 8 (chgCode c.phase)] ++ recV vbat ++ recI iMeas ++
    qle 2 s.tBat (1 / 10) ++ secs c.fastS)
  let s := s.endCycle.modCharge (fun c => { c with present := false })
  { s with fcst := { s.fcst with lowered := true }, gauge := { s.gauge with samples := [], collapseRun := 0, restSince := none, restDone := false } }

/-- Cause 0x03 for NTCs out of their window; else, with valid NTCs, 10 s to the next qualification and cause 0x0B at the third
removal within 10 min (R203, R208). -/
def State.removalCause (s : State) (d : RemovalDetector) : State :=
  if d = .ntc then s.setCause 3
  else if s.ntcValid then
    let recent := s.charge.removals.filter (fun t => !s.passed t (secTicks 600))
    let s := s.modCharge (fun c => { c with removals := (s.now :: recent).take 3, requalAfter := s.now + secTicks 10, ntcGap := false })
    if 2 ≤ recent.length then s.setCause 11 else s
  else s

/-- The hub's part of a removal (R208, R212); in DIODE the pair and its control go off with the battery. -/
def State.removeBattery (s : State) (d : RemovalDetector) (vbat : Volt) (iMeas : Amp) : State :=
  if !s.charge.present then s
  else
    let s := (s.removalCleared d vbat iMeas).removalCause d
    let s := { s with aon := { s.aon with diodeOn := if s.cfg.supplement then s.aon.diodeOn else false
                                          batfet := if s.cfg.supplement then s.aon.batfet else .off }
                      hub := { s.hub with diodePending := false } }
    match s.cfg.battLane with
    | some n => s.sendNode n s.effTick .stopNow id
    | none => s

/-! ### STAT (R214, R215) -/

def State.statPatterns (s : State) : Pattern × Pattern :=
  let latched := [7, 8, 9, 10, 11].any s.hasCause
  if s.cfg.get 0 15 = 0 then (.off, .off)
  else if s.aon.mode == some .safe then (.off, .on)
  else if latched then (.off, .fast)
  else if s.aon.mode == some .supply && !s.charge.present then (.off, .blip)
  else if s.hasCause 6 then (.slow, .double)
  else if s.suspended then (.slow, .slow)
  else
    match s.charge.phase with
    | .trickle | .precharge => (.slow, .off)
    | .cc | .cv => (.on, .off)
    | .terminated => (.blip, .off)
    | .idle => (.off, .off)

/-- Whether a pattern drives its output low at a time of its 4 s cycle, in milliseconds. -/
def patternLow (p : Pattern) (ms : Nat) : Bool :=
  match p with
  | .off => false
  | .on => true
  | .slow => ms % 1000 < 500
  | .fast => ms % 250 < 125
  | .blip => ms % 4000 < 100
  | .double => ms % 2000 < 100 || (300 ≤ ms % 2000 && ms % 2000 < 400)

/-- Levels of STAT0 and STAT1: true is driven low. -/
def State.statLow (s : State) : Bool × Bool := (patternLow s.aon.stat0 s.aon.statMs, patternLow s.aon.stat1 s.aon.statMs)

/-! ### Commands -/

/-- The battery-voltage loop is the lane's active charge ceiling (R199). -/
def State.cvActive (s : State) : Bool := match s.cfg.battLane with | some n => (s.lane n).loop.cvActive | none => false

/-- CHARGE_PHASE_ADVANCE (R199). -/
def execChargePhaseAdvance (a : ChargeAdvance) (vbat : Volt) (iMeas : Amp) (s : State) : Out :=
  if !s.hubUp then .next s
  else
    let c := s.charge
    match a with
    | .toPrecharge =>
      if c.phase = .trickle && s.cells * s.trickleTh ≤ vbat && 5 / 100 ≤ iMeas then .next (s.modCharge (fun c => { c with phase := .precharge })).chargeSetpoint
      else .next s
    | .toCc =>
      if c.phase = .precharge && s.cells * s.preTh ≤ vbat then
        .next (s.modCharge (fun c => { c with phase := .cc })).chargeSetpoint
      else .next s
    | .toCv => if c.phase = .cc && s.cvActive then .next (s.modCharge (fun c => { c with phase := .cv })).chargeSetpoint else .next s
    | .terminate =>
      if c.phase = .cv && s.cvActive && !s.suspended && iMeas < s.iTerm then
        let s := s.record 0x0302 (recV vbat ++ recI iMeas ++ secs c.fastS)
        let s := s.modCharge (fun c => { c with phase := .terminated })
        .next ((s.anchorTermination s.vregEff).writeGauge).chargeSetpoint
      else .next s
    | .recharge =>
      if c.phase = .terminated && vbat < s.cells * (s.vregEff - 1 / 10) then
        .next (s.modCharge (fun c => { c with phase := s.phaseFor vbat, fastS := 0, fastBudgetS := s.tmrFast })).chargeSetpoint
      else .next s

/-- PRE_TIMER_EXPIRY (R203, R206): trickle 30 min, precharge TMR_PRE. -/
def execPreTimerExpiry (s : State) : Out :=
  let c := s.charge
  if s.hubUp && ((c.phase = .trickle && 1800 ≤ c.trickleS) || (c.phase = .precharge && s.tmrPre ≤ c.preS)) then
    .next (s.setCause (if c.restartUsed then 8 else 9)).chargeSetpoint
  else .next s

/-- FAST_TIMER_EXPIRY (R207). -/
def execFastTimerExpiry (s : State) : Out :=
  let c := s.charge
  if s.hubUp && (c.phase = .cc || c.phase = .cv) && c.fastBudgetS ≤ c.fastS && !(s.hasCause 6 || s.hasCause 7 || s.hasCause 8) then
    .next (s.setCause (if c.restartUsed then 8 else if c.thermal then 6 else 7)).chargeSetpoint
  else .next s

/-- THERMAL_RESTART (R207). -/
def execThermalRestart (s : State) : Out :=
  match s.charge.clearSince with
  | some t =>
    if s.hubUp && s.cycling && s.hasCause 6 && s.passed t (secTicks 600) && s.limitsAbsent then
      let s := s.clearCause 6
      .next (s.modCharge (fun c => { c with fastS := 0, fastBudgetS := s.tmrFast / 2, restartUsed := true, clearSince := none
                                            phase := s.phaseFor s.gauge.vBat })).chargeSetpoint
    else .next s
  | none => .next s

/-- Die of the battery lane or of its gang (R207). -/
def State.battDie (s : State) (n : Lane) : Bool :=
  match s.cfg.battLane with | some b => (s.cfg.gang b).contains n | none => false

/-- BACKSTOP_INTERVAL (R207): a 1 s interval of the die's own clock, in LIMP too. -/
def execBackstopInterval (n : Lane) (meanCharge : Amp) (s : State) : Out :=
  if s.battDie n && (s.lane n).up then
    let b := (s.lane n).backstop
    .next (s.modLane n (fun l => { l with backstop :=
      if 2 / 10 < meanCharge then { b with counted := b.counted + 1, idle := 0 } else { b with idle := b.idle + 1 } }))
  else .next s

/-- BACKSTOP_TRIP (R207): 20 h counted. -/
def execBackstopTrip (n : Lane) (s : State) : Out :=
  let b := (s.lane n).backstop
  if s.battDie n && !b.tripped && 72000 ≤ b.counted then
    .next ((s.modLane n (fun l => { l with backstop := { b with tripped := true }, loop := { l.loop with iSet := 0 } })).stamp .charge (.lane n) n.val .backstop)
  else .next s

/-- BACKSTOP_RESET (R207): 60 minutes without a counted interval. -/
def execBackstopReset (n : Lane) (s : State) : Out :=
  let b := (s.lane n).backstop
  if s.battDie n && 3600 ≤ b.idle then .next (s.modLane n (fun l => { l with backstop := { counted := 0, idle := 0, tripped := false } })) else .next s

/-- BAT_OV_SUSPEND (R203). -/
def execBatOvSuspend (vbat : Volt) (s : State) : Out :=
  if s.hubUp && s.charge.present && s.cells * (s.vreg + 75 / 1000) < vbat then .next (s.setCause 4).chargeSetpoint else .next s

/-- PRESENCE_QUALIFIED (R61, R198, R206, R208, R224, R230). -/
def execPresenceQualified (vbat : Volt) (s : State) : Out :=
  if s.hubUp && !s.charge.present && s.ntcValid && s.charge.requalAfter ≤ s.now && s.cfg.battLane.isSome then
    let s := s.modCharge (fun c => { c with present := true })
    let s := (s.clearCause 3).presenceAnchor vbat
    let s := { s with gauge := { s.gauge with vBat := vbat } }
    let s := if s.cfg.supplement then s else { s with hub := { s.hub with diodePending := true } }
    .next s.startCycle
  else .next s

/-- REMOVAL_INDICATION (R211, R212, R461): a lane die's detection puts the lane in standby; the hub's part follows in the
decision that uses the event, the first one while the hub is absent. -/
def execRemovalIndication (d : RemovalDetector) (vbat : Volt) (iMeas : Amp) (s : State) : Out :=
  match d, s.cfg.battLane with
  | .voltageStep, some n =>
    if (s.cfg.gang n).any (fun m => (s.lane m).removalSeen) then
      let s := (s.cfg.gang n).foldl (fun s m => s.modLane m LaneDie.toStandby) s
      .next (s.stamp .presence (.lane n) n.val (.removal d vbat iMeas))
    else .next s
  | .ntc, _ => if s.hubUp && !s.ntcValid then .next (s.stamp .presence .housekeeping 0 (.removal d vbat iMeas)) else .next s
  | .currentCollapse, _ =>
    if s.hubUp && 8 ≤ s.gauge.collapseRun then .next (s.stamp .presence .housekeeping 0 (.removal d vbat iMeas)) else .next s
  | .voltageStep, none => .next s

/-- STAT_PATTERN_TIMER (R214): one step of 25 ms of the 4 s cycle of the patterns, on the 32 kHz clock. -/
def execStatPatternTimer (s : State) : Out :=
  if s.aon.vaon then .next { s with aon := { s.aon with statMs := (s.aon.statMs + 25) % 4000 } } else .next s

end Sys2Proof.Machine
end

