-- ==== Sys2Proof/Machine/PortRows.lean ====
section
/-! DEFINITION. The commands of the Type-C ports (R161-R193). What the hub decides happens in the decision that uses the
event (R13, R461); what the port die does by itself happens at once, and in LIMP too (R191). -/

namespace Sys2Proof.Machine

/-- A PD-class event of a port (R461): a message, CC signalling, a timer's expiry. -/
def State.stampPd (s : State) (p : Port) (k : EvKind) : State := s.stamp .pd (.port (portDie p)) p.val k

/-- A presence-class event of a port (R461). -/
def State.stampPort (s : State) (p : Port) (k : EvKind) : State := s.stamp .presence (.port (portDie p)) p.val k

/-- An accessory or a partner that the port does not support (R162). -/
def State.unsupported (s : State) (p : Port) : State := (s.modPort p (fun q => { q with attach := .unsupported })).stampPort p (.attach p)

/-- CC_ATTACH (R162, R165, R189). -/
def execCcAttach (p : Port) (seen : CcSeen) (s : State) : Out :=
  let q := s.port p
  let role := s.portGet p 4
  if q.attach != .unattached || !(s.pdie (portDie p)).up then .next s
  else
    match seen with
    | .rp level cc2 => if q.cc = .rd then .next ((s.attachAs p .sink level cc2).ccRefresh) else .next s
    | .rd cc2 =>
      if q.cc = .rp && !q.tryWait then
        if role = 2 && s.portOn p 5 then .next (s.modPort p (fun q => { q with cc := .rd, tryWait := true, cc2 := cc2 }))
        else .next ((s.attachAs p .source .default cc2).ccRefresh)
      else .next s
    | .raBoth =>
      if q.cc != .rp then .next s
      else if s.portOn p 16 then .next ((s.attachAs p .audio .default false).modPort p (fun q => { q with vconn := false, dfp := true, bcRunning := false }))
      else .next (s.unsupported p)
    | .both => .next (s.unsupported p)

/-- vSinkDisconnect (R165). -/
def vSinkDisconnect : Volt := 362 / 100

/-- SINK_DETACH (R165): neither pin shows Rp, or VBUS is below vSinkDisconnect; VBUS absence does not count for 1.3 s after a
Hard Reset, nor during a role swap. -/
def execSinkDetach (p : Port) (x : SinkSense) (s : State) : Out :=
  let q := s.port p
  let held := match q.hrAt with | some t => !s.passed t (msTicks 1300) | none => false
  if q.attach = .sink || q.attach = .frsWatch || q.attach = .unsupported then
    if !x.rpAbsent && (held || q.swap.isSome || vSinkDisconnect ≤ x.v) then .next s
    else .next (s.detachPort p (x.rpAbsent && !q.hrActive && q.swap.isNone))
  else .next s

/-- SOURCE_DETACH (R165, R177): a transition under way is recorded as interrupted. -/
def execSourceDetach (p : Port) (s : State) : Out :=
  let q := s.port p
  if q.attach = .source || q.attach = .audio || q.attach = .unsupported then
    let s := if q.feeding && q.transition then s.record 0x0402 [BitVec.ofNat 8 p.val, 0xFF, 1] else s
    .next (s.detachPort p (!q.hrActive && q.swap.isNone))
  else .next s

/-- DRP_TOGGLE (R165-R167). -/
def execDrpToggle (p : Port) (s : State) : Out :=
  let q := s.port p
  if q.attach = .unattached && s.portGet p 4 = 2 && !q.tryWait && (s.pdie (portDie p)).up then
    .next (s.modPort p (fun q => { q with
      cc := if q.cc = .rp || q.deadRd || !s.nodeFree p || (s.pdie (portDie p)).keeper.any (·.expired) then .rd else .rp }))
  else .next s

/-- TRY_SNK_TIMEOUT (R165): the port attaches as source, where its far node is still free for Rp (R167). -/
def execTrySnkTimeout (p : Port) (s : State) : Out :=
  let q := s.port p
  if q.attach = .unattached && q.tryWait then
    if s.nodeFree p then .next ((s.attachAs p .source .default q.cc2).ccRefresh)
    else .next (s.modPort p (fun q => { q with cc := .rd, tryWait := false }))
  else .next s

/-- ERROR_RECOVERY_END (R165, R180): the values that waited for the next attach apply, a changed PORT_ROLE among them
(R192). -/
def execErrorRecoveryEnd (p : Port) (s : State) : Out :=
  let q := s.port p
  if q.attach = .recovery then
    let s := s.modPort p (fun q => { PortSt.zero with
      cc := .rd, deadRd := q.deadRd, mux := q.mux, disch := q.disch, hrSince := q.hrSince, srSince := q.srSince
      lastSwapStep := q.lastSwapStep })
    let s := { s with cfg := s.cfg.release (6 + p.val) .nextAttach }
    .next ((s.modPort p (fun q => { q with cc := s.ccRest p })).ccRefresh)
  else .next s

/-- SINK_VBUS_QUALIFIED (R170). A Hard Reset is over for a sink once VBUS has fallen (SOURCE_LOST), or 1.3 s later; V_EXP is
5 V from the moment VBUS returns (R180). -/
def execSinkVbusQualified (p : Port) (v : Volt) (s : State) : Out :=
  let q := s.port p
  let c := portSrc p
  let hr := q.hrActive && (match q.hrAt with | some t => !s.passed t (msTicks 1300) | none => false)
  let s' := if q.hrActive then s.modConn c (fun k => { k with vExp := 5, vOld := none }) else s
  if q.attach = .sink && s'.vLost c ≤ v && v ≤ s'.vOv c && !hr && (s.conn c).lastTrip.isNone then
    let s := (s'.modPort p (fun q => { q with hrActive := false })).swapVbus p true
    let s := s.modConn c (fun k => { k with qualified := true, v := v })
    .next ((s.stampPort p (.qualified c (s.conn c).lockedOut)).ccRefresh)
  else .next s

/-- BC12_DETECTION_DONE (R169, R189): the decision that uses the result sets the mux. With the hub absent DP and DM are at
high impedance (R39). -/
def execBc12DetectionDone (p : Port) (r : Bc12) (s : State) : Out :=
  if (s.port p).bcRunning && s.hubUp then .next (s.stampPd p (.bcDone p r)) else .next s

/-- A Soft_Reset or Hard_Reset that reaches a port while the hub is absent: 5 V default behaviour (R191). -/
def State.limpDefault (s : State) (p : Port) (hard : Bool) : State :=
  let s := if hard then s.hardState p
    else s.modPort p (fun q => { q with contract := .zero, softened := q.attach == .sink, wait := .sourceCaps, epr := false })
  if (s.port p).attach = .source && !hard then
    (s.feedEnd p false).modPort p (fun q => { q with hrActive := true, hrAt := some s.now })
  else s

/-- The hub's policy answers for the port: it runs, and the die is not shut down (R191, R297). -/
def State.answers (s : State) (p : Port) : Bool := s.hubUp && !(s.pdie (portDie p)).shut

/-- A valid message reaches the port's die: the partner's first one fixes the revision (R161), a GoodCRC ends the retries
(R179), any of them ends SinkTxNG. -/
def State.heardFrom (s : State) (p : Port) (rev2 : Bool) : State :=
  s.modPort p (fun q => { q with rev2 := q.rev2 || (rev2 && !q.heard), heard := true, lastTx := none, retries := 0, txNg := false })

/-- The port's protocol layer runs: attached, its die up. -/
def State.listens (s : State) (p : Port) : Bool :=
  (s.port p).attach != .unattached && (s.port p).attach != .recovery && (s.pdie (portDie p)).up

/-- PD_MESSAGE_RECEIVED (R161, R173, R191). -/
def execPdMessageReceived (p : Port) (m : PdRx) (s : State) : Out :=
  let q := s.port p
  if !s.listens p then .next s
  else if !m.crcOk then .next (s.modPd (portDie p) (fun d => { d with pdCrc := satInc 32 d.pdCrc }))
  else
    let s := s.heardFrom p m.rev2
    if s.answers p then .next (s.stampPd p (.pdMessage p m.msg))
    else
      match m.msg with
      | .eprKeepAlive => .next (if q.attach = .source then s.pdPut p .eprKeepAliveAck else s)
      | .softReset => .next (s.limpDefault p false)
      | .hardReset => .next (s.limpDefault p true)
      | _ => .next s

/-- SOURCE_CAPABILITIES_RECEIVED (R171): the decision that uses the message chooses one object. -/
def execSourceCapabilitiesReceived (p : Port) (m : CapsMsg) (s : State) : Out :=
  if s.listens p then
    let s := s.heardFrom p m.rev2
    .next (if s.answers p then s.stampPd p (.pdMessage p (.sourceCaps m.caps)) else s)
  else .next s

/-- REQUEST_RECEIVED (R174): the decision that uses the message accepts or rejects it. -/
def execRequestReceived (p : Port) (h : RequestHead) (v : Volt) (i : Amp) (s : State) : Out :=
  if s.listens p then
    let s := s.heardFrom p h.rev2
    .next (if s.answers p then s.stampPd p (.pdMessage p (.request h.pos v i)) else s)
  else .next s

/-- VOLTAGE_TRANSITION_ACCEPT (R172): the partner accepts a Request that changes the voltage. -/
def execVoltageTransitionAccept (p : Port) (s : State) : Out :=
  let change := match (s.port p).wait with | .request v _ _ _ => v != (s.conn (portSrc p)).vExp | _ => false
  if s.answers p && change then .next ((s.heardFrom p false).stampPd p (.pdMessage p .accept)) else .next s

/-- VENDOR_MODE_ENTRY (R190): Enter Mode is acknowledged, by the partner or by the port; the next decision sets the mux. -/
def execVendorModeEntry (p : Port) (s : State) : Out :=
  let q := s.port p
  if s.answers p && (q.attach = .sink || q.attach = .source) && q.contract.kind != .none && !q.tmode && s.modeAllowed p then
    .next (s.stampPd p (.modeEntry p))
  else .next s

/-! ### Timers: the expiry is stamped, and the hub acts on it where the timer still runs when it uses the event -/

/-- A PD timer's condition: the port waits for what the timer bounds (R171, R175, R178-R180). -/
def State.timerRuns (s : State) (p : Port) (t : PdTimer) : Bool :=
  let q := s.port p
  match t with
  | .response => (match q.wait with | .idle | .eprEntry | .sourceCaps => false
                                    | .psRdy => q.swap.any (·.fast) | .caps => q.capsCount == 0 | _ => true)
  | .unacked => q.attach == .sink || q.attach == .source || q.attach == .frsWatch
  | .waitCap => q.attach == .sink && q.wait == .sourceCaps
  | .noResponse => q.attach == .source && q.wait == .caps && q.capsCount != 0
  | .capResend => q.attach == .source && q.wait == .caps && decide (0 < q.capsCount) && decide (q.capsCount < 50)
  | .eprEntry => q.wait == .eprEntry
  | .cableRetry => q.attach == .source && q.vconn && !q.cableKnown && decide (q.cableTries < 20)
  | .srcTransition => q.feeding && q.transition && q.lastReq.isSome
  | .transition x =>
    q.wait == .psRdy && (match x, q.swap with
      | .psTransition, none => true
      | .psSourceOn, some w => !w.toSource
      | .psSourceOff, some w => w.toSource
      | _, _ => false)
  | .eprWatch => q.attach == .source && q.epr
  | .srcRecover => q.hrActive && q.attach == .source

/-- The reply that SenderResponseTimer waited for is missing (R180, R357). -/
def State.noReply (s : State) (p : Port) : State :=
  match (s.port p).wait with
  | .softReset => (s.portReply p [4] rcTimeout).escalate p
  | .request .. => (s.portReply p [7] rcTimeout).softReset p
  | .swapReply => (s.portReply p [1] rcTimeout).softReset p
  | .drReply => (s.portReply p [2] rcTimeout).softReset p
  | .vconnReply => (s.portReply p [3] rcTimeout).softReset p
  | .exitReply => (s.portReply p [8] rcTimeout).softReset p
  | .caps => (s.portReply p [7] rcTimeout).softReset p
  | .frsReply | .modeReply | .battery | .psRdy => s.softReset p
  | .idle | .eprEntry | .sourceCaps => s

/-- A source restores vSafe5V after a Hard Reset (R184): its feed starts again where its lane can. -/
def State.recoverFeed (s : State) (p : Port) : State :=
  let ready := s.canFeed p
  let s := s.modPort p (fun q => { q with hrActive := false })
  if ready then s.startFeed p else s

/-- The voltage of an accepted Request is approached (R175). -/
def State.srcMove (s : State) (p : Port) : State :=
  match (s.port p).lastReq, s.portNode p with
  | some (_, v, _), some n =>
    let s := s.modPort p (fun q => { q with feedTarget := v, feedReady := false })
    s.sendNode n s.effTick .keep (fun o => { o with target := v, slew := 20 })
  | _, _ => s

/-- What the hub does on the expiry of a timer that still runs (R171, R175, R178-R180, R184). -/
def State.onTimer (s : State) (p : Port) (t : PdTimer) : State :=
  if !s.timerRuns p t then s
  else
    match t with
    | .response => s.noReply p
    | .unacked => if (s.port p).wait = .softReset then (s.portReply p [4] rcTimeout).escalate p else s.softReset p
    | .waitCap | .noResponse | .eprWatch => s.escalate p
    | .capResend => s.sendCaps p
    | .eprEntry => s.modPort p (fun q => { q with wait := .idle, epr := false, eprTried := true })
    | .cableRetry => (s.pdSend p (.discoverIdentity .sop1)).modPort p (fun q => { q with cableTries := q.cableTries + 1 })
    | .srcTransition => s.srcMove p
    | .transition .psTransition => s.escalate p
    | .transition _ => s.errorRecovery p 1
    | .srcRecover => s.recoverFeed p

/-- The expiry of a running timer is stamped for the hub (R461). -/
def State.expire (s : State) (p : Port) (t : PdTimer) : State :=
  if s.answers p && s.timerRuns p t then s.stampPd p (.pdTimer p t) else s

/-- PD_RESPONSE_TIMEOUT (R179, R180): the reply is missing; or a message has had no GoodCRC, and is sent again at most
nRetryCount times. Source_Capabilities have their own resend (SOURCE_CAP_RESEND). -/
def execPdResponseTimeout (x : PdSilence) (s : State) : Out :=
  let p := x.port
  let q := s.port p
  if x.noCrc then
    match q.lastTx with
    | some m =>
      if q.retries < 2 then .next ((s.pdPut p m).modPort p (fun y => { y with retries := q.retries + 1 }))
      else
        let s := s.modPort p (fun y => { y with lastTx := none, retries := 0 })
        .next (if q.wait = .caps then s else s.expire p .unacked)
    | none => .next s
  else .next (s.expire p .response)

/-- SINK_WAIT_CAP_TIMEOUT (R180). -/
def execSinkWaitCapTimeout (p : Port) (s : State) : Out := .next (s.expire p .waitCap)

/-- NO_RESPONSE_TIMEOUT (R180). -/
def execNoResponseTimeout (p : Port) (s : State) : Out := .next (s.expire p .noResponse)

/-- SOURCE_CAP_RESEND (R179): at most nCapsCount times. -/
def execSourceCapResend (p : Port) (s : State) : Out := .next (s.expire p .capResend)

/-- PPS_REQUEST_REPEAT (R173): while the contract is in force, in FRS watch too; the port die sends it, in LIMP too. -/
def execPpsRequestRepeat (p : Port) (s : State) : Out :=
  let q := s.port p
  match q.lastReq with
  | some (pos, v, i) =>
    if (q.attach = .sink || q.attach = .frsWatch) && (q.contract.kind = .pps || q.contract.kind = .avs) then
      let s := s.pdPut p (.request pos v i)
      .next (if s.hubUp && q.wait = .idle then s.modPort p (fun q => { q with wait := .request v i pos q.contract.kind }) else s)
    else .next s
  | none => .next s

/-- EPR_KEEPALIVE (R173): the port die sends it, in FRS watch and in LIMP too. -/
def execEprKeepalive (p : Port) (s : State) : Out :=
  if ((s.port p).attach = .sink || (s.port p).attach = .frsWatch) && (s.port p).epr then .next (s.pdPut p .eprKeepAlive) else .next s

/-- EPR_ENTRY_TIMEOUT (R171): the port stays on its SPR contract and does not ask again. -/
def execEprEntryTimeout (p : Port) (s : State) : Out := .next (s.expire p .eprEntry)

/-- CABLE_DISCOVER_RETRY (R178). -/
def execCableDiscoverRetry (p : Port) (s : State) : Out := .next (s.expire p .cableRetry)

/-- VCONN_LIMIT (R178): recorded once per attach. -/
def execVconnLimit (p : Port) (i : Amp) (s : State) : Out :=
  let q := s.port p
  if q.vconn && 2 / 10 < i then
    let s := s.modPort p (fun q => { q with vconn := false, vconnTripped := true })
    .next (if q.vconnTripped then s else s.stamp .protection (.port (portDie p)) p.val (.vconnLimit p))
  else .next s

/-- SOURCE_TRANSITION_START (R175): 28 ms after the GoodCRC of the Accept. -/
def execSourceTransitionStart (p : Port) (s : State) : Out := .next (s.expire p .srcTransition)

/-- The lane has reported its target (R175, R182, R186): PS_RDY of a transition or a swap; the first feed is followed by
Source_Capabilities. -/
def State.onFeedReached (s : State) (p : Port) : State :=
  let q := s.port p
  if !q.feeding then s
  else
    let s := s.modPort p (fun q => { q with feedReady := true })
    match q.swap with
    | some w =>
      if !w.toSource then s
      else if w.fast then (if w.step = 0x14 then (((s.pdSend p .psRdy).swapStep p 0x15).swapDone p true).sendCaps p else s)
      else (((s.pdSend p .psRdy).swapStep p 5).swapDone p true).sendCaps p
    | none =>
      if q.transition then (s.pdSend p .psRdy).sourceContract p
      else if q.contract.kind = .none && q.wait = .idle then s.sendCaps p
      else s

/-- FEED_TARGET_REACHED (R175, R182, R186): the far node lies within 2% of the target for 16 periods; the lane reports it. -/
def execFeedTargetReached (p : Port) (v : Volt) (s : State) : Out :=
  let q := s.port p
  if s.hubUp && q.feeding && rabs (v - q.feedTarget) ≤ 2 / 100 * q.feedTarget then .next (s.stampPd p (.feedReached p)) else .next s

/-- VBUS at vSafe0V in a swap to sink: PS_RDY goes out, and Rd is presented (R182). -/
def State.onDischarged (s : State) (p : Port) : State :=
  match (s.port p).swap with
  | some w =>
    if !w.toSource && !w.fast && w.step = 2 then
      ((s.pdSend p .psRdy).swapStep p 3).modPort p (fun q => { q with attach := .sink, cc := .rd, wait := .psRdy })
    else s
  | none => s

/-- VBUS_DISCHARGE_DONE (R177, R182): DISCH falls; a swap to sink goes on in the decision that uses the VBUS event. -/
def execVbusDischargeDone (p : Port) (v : Volt) (s : State) : Out :=
  let q := s.port p
  if q.disch && v < 8 / 10 then
    let s := s.modPort p (fun q => { q with disch := false })
    .next (if s.hubUp && q.swap.isSome then s.stampPort p (.discharged p) else s)
  else .next s

/-- HARD_RESET_RECEIVED (R180, R184, R191). -/
def execHardResetReceived (p : Port) (s : State) : Out :=
  let q := s.port p
  if q.attach = .sink || q.attach = .source || q.attach = .frsWatch then
    if s.answers p then .next (s.stampPd p (.pdMessage p .hardReset)) else .next (s.hardNoted p 4)
  else .next s

/-- A source port restores vSafe5V by itself while the hub is absent (R191): the pair closes and the lane starts in
feed toward 5.0 V. -/
def State.limpFeed (s : State) (p : Port) : State :=
  match s.portNode p with
  | some n =>
    let s := s.modPort p (fun q => { q with feeding := true, feedTarget := 5 })
    let s := s.modConn (portSrc p) (fun k => { k with vExp := 5, vOld := none })
    let s := (s.modNode n (fun k => { k with feeding := some p })).closePair (portSrc p)
    (s.cfg.gang n).foldl (fun s m =>
      (s.modLane m (fun l => { l with order := { l.order with dir := .feed, role := .feed, target := 5, slew := 20, feedCeil := s.rpCurrent p } })).laneEnable m .bias) s
  | none => s

/-- SOURCE_RECOVER (R184, R191): tSrcRecover after a Hard Reset. -/
def execSourceRecover (p : Port) (s : State) : Out :=
  let q := s.port p
  let due := match q.hrAt with | some t => s.passed t (msTicks 830) | none => true
  if q.hrActive && q.attach = .source && due then
    if s.hubUp then .next (s.expire p .srcRecover)
    else
      let ready := s.canFeed p
      let s := s.modPort p (fun q => { q with hrActive := false })
      .next (if ready then s.limpFeed p else s)
  else .next s

/-- FRS_SIGNAL_DETECTED (R186): the port die stamps it and sends FR_Swap. -/
def execFrsSignalDetected (p : Port) (s : State) : Out :=
  if (s.port p).attach = .frsWatch then
    let s := s.modPort p (fun q => { q with swap := some { fast := true, toSource := true, step := 0x12 }, wait := .frsReply })
    .next ((s.pdPut p .frSwap).stampPd p (.frsSignal p))
  else .next s

/-- FRS_VBUS_FALL (R186): the decision that uses the event admits the lane. -/
def execFrsVbusFall (p : Port) (v : Volt) (s : State) : Out :=
  if (s.port p).attach = .frsWatch && v < 472 / 100 then
    .next ((s.modConn (portSrc p) (fun k => { k with v := v })).stampPd p (.frsVbus p))
  else .next s

/-- FRS_SIGNAL_END (R187): the pair opens and DISCH runs. A swap whose FR_Swap has been accepted goes on with PS_RDY, the
die's own after the signal it has driven (R183). -/
def execFrsSignalEnd (p : Port) (s : State) : Out :=
  let q := s.port p
  if q.frsSignal then
    let s := s.feedEnd p true
    .next (if q.swap.any (fun w => w.fast && !w.toSource && w.step == 0x13) then (s.pdPut p .psRdy).swapStep p 0x14 else s)
  else .next s

/-- PS_TRANSITION_TIMEOUT (R179, R180): without PS_RDY a transition ends in a Hard Reset, a power-role swap in error
recovery. -/
def execPsTransitionTimeout (p : Port) (x : PsTimer) (s : State) : Out := .next (s.expire p (.transition x))

/-- EPR_KEEPALIVE_WATCH_EXPIRY (R179): the source ends EPR by a Hard Reset. -/
def execEprKeepaliveWatchExpiry (p : Port) (s : State) : Out := .next (s.expire p .eprWatch)

/-! ### Frames of the port dies (R6) -/

/-- A port die closes a pair on the hub's command only where its own checks allow it: no latch, no trip, no lock-out, and on
an input pair a qualified source or a feed (R21, R136, R153, R155). -/
def State.mayClose (s : State) (x : Src) : Bool :=
  let k := s.conn x
  !s.aon.safeLatch && k.lastTrip.isNone && !k.lockedOut &&
  (match srcPort x with | some p => k.qualified || (s.port p).feeding | none => x != acin || k.qualified)

/-- A command of the hub takes effect in a port die. -/
def State.applyPort (s : State) (m : PortDie) (c : PortCmd) : State :=
  let s := s.modPd m (fun d => { d with got := true, keeper := none, holdTenths := s.cfg.keeperHold })
  match c with
  | .openPair x => (s.openPair x).ccRefresh
  | .closePair x => if s.mayClose x then (s.closePair x).ccRefresh else s
  | .mux p code => s.modPort p (fun q => { q with mux := code })
  | .send p x => s.pdPut p x
  | .nothing => s

end Sys2Proof.Machine
end

