-- ==== Sys2Proof/Machine/Session.lean ====
section
/-! DEFINITION. Shelves and the update session: manifests, staging, building, sealing, arming, confirmation and fallback
(chapter 17, R395-R407). -/

namespace Sys2Proof.Machine

/-! ### Shelves (R395-R397) -/

/-- The firmware version that runs; the recovery firmware reports major 0 (R397). -/
def State.fwVersion (s : State) : Vector Byte 3 :=
  match s.hub.shelf with
  | .a => (s.flash.shelves.get 0).version
  | .b => (s.flash.shelves.get 1).version
  | .recovery => #v[0, 0, 0]

/-- Bytes of a shelf's image: unbuilt sectors read erased. -/
def Shelf.image (h : Shelf) : List Byte :=
  ((List.range ((h.length + 4095) / 4096)).flatMap (fun i =>
    ((h.sectors.find? (fun x => x.1 == i)).map (fun x => padTo 4096 x.2)).getD (List.replicate 4096 0xFF))).take h.length

/-- Header bytes 0 to 67 (R395): a state byte that is set reads 0x00. -/
def Shelf.header (h : Shelf) : List Byte :=
  let st := fun (b : Bool) => (if b then 0 else 0xFF : Byte)
  let b := le16 1 ++ [0, 0] ++ le32 h.hwType.toNat ++ h.version.toList ++ [0] ++ le32 h.length ++ padTo 32 h.sha ++ le32 h.actSeq ++
    [h.policy, 0, 0, 0]
  b ++ le32 (crc32c b).toNat ++ [st h.complete, st h.armed, st h.trial, st h.confirmed, st h.retired] ++
  (List.range 3).map (fun k => st (decide (k < h.attempts)))

def Shelf.valid (h : Shelf) (hwType : Word) : Bool := h.headerOk && h.complete && !h.retired && h.hwType == hwType

def Shelf.hashOk (h : Shelf) : Bool := sha256 h.image == h.sha

def shelfIdOf (i : Fin 2) : ShelfId := if i = 0 then .a else .b

/-- The shelf the hub booted from; none for the recovery shelf. -/
def State.activeShelf (s : State) : Option Shelf :=
  match s.hub.shelf with
  | .a => some (s.flash.shelves.get 0)
  | .b => some (s.flash.shelves.get 1)
  | .recovery => none

def State.modShelf (s : State) (i : Fin 2) (f : Shelf → Shelf) : State :=
  { s with flash := { s.flash with shelves := vmod s.flash.shelves i f } }

/-- One higher than any activation sequence in either shelf (R395). -/
def State.nextActSeq (s : State) : Nat := max (s.flash.shelves.get 0).actSeq (s.flash.shelves.get 1).actSeq + 1

/-! ### Manifests (R399, R400) -/

def manUnits (m : List Byte) : Nat := u16 m 2
def manLength (m : List Byte) : Nat := u32 m 12
def manSectors (m : List Byte) : Nat := (manLength m + 4095) / 4096
def manVersion (m : List Byte) : Vector Byte 3 := Vector.ofFn (fun i => BitVec.ofNat 8 (u8 m (8 + i.val)))
def manMap (m : List Byte) (sector : Nat) : Bool := (u8 m (96 + sector / 8)).testBit (sector % 8)
/-- Target sectors carried by blocks, in block order. -/
def manCarried (m : List Byte) : List Nat := (List.range 512).filter (manMap m)
def manBlocks (m : List Byte) : Nat := (manCarried m).length
def manTag (m : List Byte) : Word := crc32c m
def manFull (m : List Byte) : Bool := (List.range (manSectors m)).all (manMap m)
def manHostConfirm (m : List Byte) : Bool := (u8 m 16).testBit 0
def manRaiseFloor (m : List Byte) : Bool := (u8 m 16).testBit 1
def manRevoke (m : List Byte) : BitVec 3 := BitVec.ofNat 3 (u8 m 17)

/-- Stream length: manifest, block records, signature (R398). -/
def manStream (m : List Byte) : Nat := 160 + 8 * manUnits m + 4104 * manBlocks m + 64

def verBefore (a b : Vector Byte 3) : Bool :=
  let f := fun (v : Vector Byte 3) => (v.get 0).toNat * 65536 + (v.get 1).toNat * 256 + (v.get 2).toNat
  f a < f b

/-- The malformed cases of R399. -/
def State.manMalformed (s : State) (m : List Byte) : Bool :=
  let baseLen := (s.activeShelf.map (·.length)).getD 0
  let n := manSectors m
  let left := ~~~s.otp.revoked
  u16 m 0 != 1 || 256 < manUnits m || u8 m 11 != 0 || 4 ≤ u8 m 16 || 8 ≤ u8 m 17 || (slice m 18 14).any (· != 0) ||
  manLength m == 0 || 2097152 < manLength m ||
  (List.range 512).any (fun i => manMap m i && n ≤ i) ||
  (List.range n).any (fun i => !manMap m i && (baseLen + 4095) / 4096 ≤ i) ||
  (left &&& ~~~(manRevoke m)) == 0

/-- The checks of R401 but for the readiness of the flash: return code and reject reason of the first that fails. From
recovery only a map that names every sector of the target passes (R397). -/
def State.manCheck (s : State) (m : List Byte) : Option (Nat × Nat) :=
  if m.length != 160 + 8 * manUnits m then some (rcBadLength, 5)
  else if s.manMalformed m then some (rcValidation, 5)
  else if BitVec.ofNat 32 (u32 m 4) != s.otp.hwType then some (rcBinding, 1)
  else if manUnits m != 0 && !(List.range (manUnits m)).any (fun i => u64 m (160 + 8 * i) == s.otp.unit.toNat) then some (rcBinding, 2)
  else if verBefore (manVersion m) s.otp.floor then some (rcDenied, 3)
  else if manFull m then none
  else
    match s.activeShelf with
    | none => some (rcValidation, 4)
    | some h => if slice m 32 32 == h.sha then none else some (rcValidation, 4)

/-- The first unrevoked key slot that verifies the signature over the manifest (R400). -/
def State.sigOk (s : State) (m sig : List Byte) : Bool :=
  (List.finRange 3).any (fun k => !s.otp.revoked.getLsbD k.val &&
    ecdsaVerify m (beNat (slice sig 0 32)) (beNat (slice sig 32 32)) (s.otp.keys.get k))

/-! ### The session -/

def State.modUpd (s : State) (f : Update → Update) : State := { s with update := f s.update }

/-- UPD_STATUS byte 0 (R362). -/
def updCode : UpdState → Nat
  | .idle => 0 | .receiving => 1 | .sealedUp => 2 | .armed => 3 | .rejected => 4 | .active => 5

/-- A session that may still be continued (R362). -/
def Update.isOpen (u : Update) : Bool := u.st == .receiving || u.st == .sealedUp || u.st == .armed || u.st == .active

/-- A relayed package is being stored, or was rejected and is still reported (R404). -/
def Update.storing (u : Update) : Bool := u.relayed && (u.st == .receiving || u.st == .sealedUp || u.st == .armed)

/-- Record of an update event: event, reason, target version, tag (R390, R405). -/
def State.updRecord (s : State) (event reason : Nat) (ver : Vector Byte 3) : State :=
  s.record 0x0801 ([BitVec.ofNat 8 event, BitVec.ofNat 8 reason] ++ ver.toList ++ [0, 0, 0] ++ le32 s.update.tag.toNat)

def State.updVersion (s : State) : Vector Byte 3 := manVersion s.update.manifest

/-- The 32 bytes of a journal entry (R403). -/
def Journal.bytes (j : Journal) : List Byte :=
  let b := padTo 28 ([BitVec.ofNat 8 j.kind, 0, 0, 0] ++ le32 j.seq ++ le32 j.a ++ le64 j.b)
  b ++ le32 (crc32c b).toNat

def State.journal (s : State) (kind a b : Nat) : State :=
  { s with flash := { s.flash with journal :=
      { kind := kind, seq := s.flash.journal.length, a := a, b := b } :: s.flash.journal } }

/-- The staging region waits for its background erase; relaying as origin ends. -/
def State.staleStaging (s : State) : State :=
  { s with flash := { s.flash with stagingErased := false }
           trunk := { s.trunk with relay := false, relayLeft := [], resend := [], kickoffBroadcast := false, ackStates := [] } }

/-- The session is closed (R403); what it was keeps its reason. -/
def State.closeSession (s : State) (reason : Nat) : State :=
  let tag := s.update.tag
  ((s.journal 10 tag.toNat 0).staleStaging).modUpd (fun u => { Update.zero with tag := u.tag, reason := reason, target := u.target })

/-- The session is rejected (R402, R404). -/
def State.rejectSession (s : State) (reason : Nat) : State :=
  let s := s.updRecord 4 reason s.updVersion
  ((s.journal 6 s.update.tag.toNat reason).staleStaging).modUpd (fun u =>
    { u with st := .rejected, reason := reason, blocks := [], built := [], partials := [], fragments := [], kickoff := none })

/-- The session opens (R401): the inactive shelf loses what it held. -/
def State.openSession (s : State) (m : List Byte) (tag : Word) : State :=
  let target : Fin 2 := if s.hub.shelf = .a then 1 else 0
  let s := s.modUpd (fun u => { u with st := .receiving, reason := 0, tag := tag, manifest := m, target := target })
  let s := { s with flash := { s.flash with stagingErased := false } }
  let s := (s.modShelf target (fun _ => Shelf.blank)).journal 1 tag.toNat 0
  s.updRecord 1 0 (manVersion m)

/-! ### Records held and sectors built (R398, R402) -/

def blockOk (i : Nat) (rec_ : List Byte) : Bool :=
  u32 rec_ 0 == i && BitVec.ofNat 32 (u32 rec_ 4) == crc32c (slice rec_ 8 4096)

def Update.held (u : Update) (i : Nat) : Option (Nat × Word × List Byte) := u.blocks.find? (fun b => b.1 == i)
def Update.allHeld (u : Update) : Bool := (List.range (manBlocks u.manifest)).all (fun i => (u.held i).isSome)
def Update.buildDone (u : Update) : Bool := (List.range (manSectors u.manifest)).all (fun i => u.built.contains i)

/-- Staging sectors that record i touches, and the records that touch a set of sectors (R403). -/
def recSectors (m : List Byte) (i : Nat) : List Nat :=
  let a := 160 + 8 * manUnits m + 4104 * i
  (List.range ((a + 4103) / 4096 + 1)).filter (fun k => a / 4096 ≤ k)

def recTouched (m : List Byte) (i j : Nat) : Bool := (recSectors m j).any (fun k => (recSectors m i).contains k)

/-- A record whose CRC fails again is erased with its sectors; every record that touches them is missing (R403). -/
def Update.eraseRecord (u : Update) (i : Nat) : Update :=
  let m := u.manifest
  { u with blocks := u.blocks.filter (fun b => !recTouched m i b.1)
           partials := u.partials.filter (fun b => !recTouched m i b.1)
           fragments := u.fragments.filter (fun f => !(recSectors m i).contains (f.1 / 16)) }

/-- The source of a target sector: its block, or the same sector of the base image, padded as erased (R399, R402). -/
def State.sectorSource (s : State) (k : Nat) : Option (List Byte) :=
  let u := s.update
  if manMap u.manifest k then
    ((manCarried u.manifest).idxOf? k).bind (fun i => (u.held i).map (fun b => b.2.2))
  else s.activeShelf.bind (fun h => (h.sectors.find? (fun x => x.1 == k)).map (·.2) <|> some (List.replicate 4096 0xFF))

/-- A sector has been built into the inactive shelf. -/
def State.builtSector (s : State) (k : Nat) : State :=
  match s.update.st, s.sectorSource k with
  | .receiving, some d =>
    if s.update.built.contains k then s
    else
      let s := s.modShelf s.update.target (fun h => { h with sectors := h.sectors ++ [(k, d)], length := manLength s.update.manifest })
      (s.modUpd (fun u => { u with built := u.built ++ [k] })).journal 3 k 0
  | _, _ => s

/-! ### Seal (R402) -/

/-- Steps 2 and 3: the reject reason, if the seal fails. -/
def State.sealReason (s : State) (sig : List Byte) : Option Nat :=
  let u := s.update
  if !s.sigOk u.manifest sig then some 7
  else if sha256 (s.flash.shelves.get u.target).image != slice u.manifest 64 32 then some 8
  else none

/-- A sealed session with a kick-off time is armed: ARMED and the activation sequence are written (R395, R406). -/
def State.armIfDue (s : State) : State :=
  if s.update.st = .sealedUp && s.update.kickoff.isSome then
    let n := s.nextActSeq
    let s := s.modShelf s.update.target (fun h => { h with armed := true, actSeq := n })
    (s.modUpd (fun u => { u with st := .armed })).updRecord 3 0 s.updVersion
  else s

/-- Step 4: the header is written and COMPLETE set. -/
def State.sealSession (s : State) (sig : List Byte) : State :=
  let m := s.update.manifest
  let hw := s.otp.hwType
  let s := s.modShelf s.update.target (fun h => { h with
    hwType := hw, version := manVersion m, length := manLength m, sha := slice m 64 32
    policy := BitVec.ofNat 8 (u8 m 16), headerOk := true, complete := true })
  let s := (s.modUpd (fun u => { u with st := .sealedUp, signature := sig })).journal 4 s.update.tag.toNat 0
  (s.updRecord 2 0 (manVersion m)).armIfDue

/-! ### Kick-off times (R404, R406) -/

def State.setKickoff (s : State) (t : Nat) : State :=
  ((s.modUpd (fun u => { u with kickoff := some t, kickDone := false, reason := 0 })).journal 5 s.update.tag.toNat t).armIfDue

/-! ### Confirmation and fallback (R407) -/

def State.confirmUpdate (s : State) : State :=
  let m := s.update.manifest
  let v := manVersion m
  let raise := manRaiseFloor m && verBefore s.otp.floor v && s.otp.floorRaises < 32
  let s := s.modShelf s.update.target (fun h => { h with confirmed := true })
  let s := { s with otp := { s.otp with revoked := s.otp.revoked ||| manRevoke m, floor := if raise then v else s.otp.floor
                                        floorRaises := if raise then s.otp.floorRaises + 1 else s.otp.floorRaises } }
  ((s.journal 8 s.update.tag.toNat 0).updRecord 6 0 v).closeSession 0

/-- RETIRED on a trial shelf with its FALLBACK record; the session that activated it closes (R396, R407). -/
def State.retireShelf (s : State) (i : Fin 2) (reason : Nat) : State :=
  let v := (s.flash.shelves.get i).version
  let s := (s.modShelf i (fun h => { h with retired := true })).updRecord 7 reason v
  if s.update.st = .active && s.update.target = i then (s.journal 9 s.update.tag.toNat reason).closeSession reason else s

/-- At a boot, a watchdog expiry inside the window has ended it (R407). -/
def State.bootFallback (s : State) : State :=
  if s.update.st = .active && s.update.window && s.update.wdgSpoiled then s.retireShelf s.update.target 13 else s

/-- Replay of the journal (R403): a session whose manifest no longer passes is discarded. -/
def State.replayJournal (s : State) : State :=
  let u := s.update
  if u.st = .receiving || u.st = .sealedUp || u.st = .armed then
    if u.relayed && u.manifest.isEmpty then s
    else if (s.manCheck u.manifest).isSome then
      s.staleStaging.modUpd (fun u => { Update.zero with target := u.target })
    else s
  else s

end Sys2Proof.Machine
end

