-- ==== Sys2Proof/Machine/Reset.lean ====
section
/-! DEFINITION. Hub resets, LIMP and the keepers, SAFE, the SHIP and DORMANT requests and what each kind of start keeps
(chapters 01 and 18, R19-R25, R38, R68-R76, R408-R421). -/

namespace Sys2Proof.Machine

def State.modAon (s : State) (f : Aon → Aon) : State := { s with aon := f s.aon }
def State.modHub (s : State) (f : HubSt → HubSt) : State := { s with hub := f s.hub }

/-- A dormant request that has not powered the hub down. -/
def State.dormantWaits (s : State) : Bool := s.aon.request.any (fun r => r.dormant)

def State.modeIs (s : State) (m : Mode) : Bool := s.aon.mode == some m

/-- Die codes of record 0x0005 (R426); 0 stands for the hub and the always-on domain. -/
def dieCode : Die → Nat
  | .lane n => 1 + n.val
  | .port m => 5 + m.val

/-- A valid source: a connector that is a candidate, as far as the hub's events say (R13, R22). -/
def State.validSource (s : State) : Bool := (List.finRange 7).any (fun c => s.heldCandidate c)

/-- Band code of a record: A 0, B 1, C 2, D 3. -/
def bandCode : Band → Nat
  | .a => 0 | .b => 1 | .c => 2 | .d => 3

/-- The strap reader's decoding of a pin voltage by its three thresholds (R44, R45). A pin at 0.10 V reads B; at 0.40 V and
at 1.00 V it reads C (the table of R45 gives 0.40 V to both B and C: DESIGN CHOICE, log entry 116). -/
def bandOf (v : Volt) : Band := if v < 1 / 10 then .a else if v < 4 / 10 then .b else if v ≤ 1 then .c else .d

def Straps.read (p : BootPins) : Straps :=
  { i2cAddr := bandOf p.i2cAddr, stackId0 := bandOf p.stackId0, stackId1 := bandOf p.stackId1, testen := p.testen }

/-- A STACK_ID bit: 0 in band D, else 1; bands B and C are a strap fault (R47, R48). -/
def stackBit (x : Band) : Nat := if x = .d then 0 else 1
def stackPos (p : Straps) : BitVec 2 := BitVec.ofNat 2 (2 * stackBit p.stackId1 + stackBit p.stackId0)
def strapFaultOf (p : Straps) : Bool := [p.stackId0, p.stackId1].any (fun x => x == .b || x == .c)

/-! ### LIMP (R416) -/

/-- Every lane and port die that has received a setpoint enters LIMP; a hold under way does not restart (R416, R421). DP and
DM go to high impedance, which ends a BC 1.2 detection (R39).
Under SAFE no keeper restores anything (R25). -/
def State.limpDies (s : State) : State :=
  if s.aon.safeLatch then s
  else
    let k : Keeper := { entry := s.now, expired := false }
    { s with
      lanes := s.lanes.map (fun (l : LaneDie) => if l.up && l.got && l.keeper.isNone then { l with keeper := some k } else l)
      portDies := s.portDies.map (fun (d : PortDieSt) => if d.up && d.got && d.keeper.isNone then { d with keeper := some k } else d)
      ports := s.ports.map (fun (q : PortSt) => { q with bcRunning := false }) }

def State.limpMode (s : State) : State :=
  if s.modeIs .battery || s.modeIs .supply then (s.setMode (some .limp) 2).modAon (fun a => { a with limpFrom := a.limpFrom.or (some s.now) }) else s

/-! ### Hub reset (R408-R411, R415) -/

/-- Causes whose boot the always-on domain chooses (R410). -/
def warmCause (cause : Nat) : Bool := cause == 4 || cause == 6 || cause == 7

/-- The choice of R410, without the check of the image, which the warm boot makes. -/
def State.warmChosen (s : State) (cause : Nat) : Bool :=
  warmCause cause && !s.update.window && (s.aon.warmBoots.filter (fun t => !s.passed t (secTicks 60))).length < 2

/-- The watchdog while the hub is held: its window ends, its registers take their reset values; counts and the values
of the last expiry stay (R376, R377, R379). -/
def Wdg.held (w : Wdg) : Wdg :=
  { w with window := 500, nextWindow := 500, lineup := 1, locked := false, seen := 0, double := 0, armed := false
           elapsed := none, keyRefused := 0, badKey := 0 }

/-- Any hub reset ends every stream (R314). -/
def Tel.atReset (t : Tel) : Tel := { t with streams := Vector.replicate 3 none }

/-- Registers of the host side after a hub reset (R25, R326, R327, R337); the cells of the private regions stay. -/
def HostIf.atReset (h : HostIf) : HostIf :=
  { HostIf.zero with mem := h.mem, spiDiscards := h.spiDiscards, uartDiscards := h.uartDiscards }

/-- The hub die is put in reset: dies and mode go to LIMP, commands and rings are lost, the timer unit is cleared
(R365, R411), the flash die completes what it has started and the jobs that wait are lost (R385). -/
def State.hubReset (s : State) (cause : Nat) : State :=
  match s.hub.hub with
  | .off => s
  | .held _ _ => s
  | _ =>
    let warm := s.warmChosen cause
    let s := s.limpDies
    let s := s.modHub (fun h => { h with hub := .held cause warm, resetAt := none, vsel := [] })
    let s := s.limpMode
    { s with host := s.host.atReset, tel := s.tel.atReset, timers := .zero, wdg := s.wdg.held
             flash := { s.flash with queue := [] } }

/-- What holds the hub in reset (R415). -/
def State.heldInReset (s : State) : Bool :=
  s.aon.resetLow || s.flash.busy.isSome || s.flash.suspended || s.therm.hubShut

/-! ### Boot: what each start keeps (R411, R414) -/

/-- An operation of the flash die that runs to its end while the hub is held, without a reply (R385). -/
def State.flashFinish (s : State) : State :=
  let f := s.flash
  let f := match f.busy with
    | some (.catalogue _ r) => f.putCat r
    | some (.migrate r) => f.putCat r
    | some (.ledger r) => f.putLedger r
    | some (.learned r) => { f with learned := vmod f.learned f.learnedActive (r :: ·) }
    | some (.outMask _ r) => { f with learned := vmod f.learned f.learnedActive (r :: ·) }
    | some (.update _ _) | some (.header _ _) => f
    | none => f
  let l := match s.flash.busy with
    | some (.ledger _) => { s.ledger with queue := s.ledger.queue.drop 1 }
    | _ => s.ledger
  let c := s.cfg
  let c := match s.flash.busy with
    | some (.catalogue _ r) => { c with pending := c.waiting r.entries, applying := c.changes r.entries }
    | _ => c
  { s with flash := { f with busy := none }, ledger := l, cfg := c }

/-- The far nodes as the hub reads them from the dies after a boot (R421): a node whose pair is closed keeps its
connector, a feeding port its node. -/
def State.readNodes (s : State) (endHold : Bool) : State :=
  let node (n : Lane) : Node :=
    let old := s.nodes.get n
    let feeding := (List.finRange 4).find? (fun p =>
      s.portNode p == some n && ((s.port p).feeding || (s.port p).attach == .frsWatch))
    let sel := if feeding.isSome then none
      else (s.nodeConns n).find? (fun c => (s.conn c).pair != .opened && (s.conn c).qualified)
    let change := match sel with
      | some c => if c.val < 5 && (s.conn c).pair = .closing then some (c, ChangeStep.closing) else none
      | none => none
    { Node.zero with selected := sel, feeding := feeding, change := change, hold := old.hold && !endHold, allocW := old.allocW }
  { s with nodes := Vector.ofFn node }

/-- Stops end and staged values are lost at every boot (R345, R411); a catalogue that was complete is in force (R352). -/
def Cfg.atBoot (c : Cfg) : Cfg :=
  { c with staged := [], stoppedBy := Vector.replicate 15 none, inForce := inForceWith c.inForce c.applying, applying := [] }

/-- Parts of a boot common to both kinds: the window starts, stops end, the charge state comes from retained SRAM, TMR0 and
TMR1 run linked from the first instruction (R375). -/
def State.bootCommon (s : State) (cause : Nat) (warm : Bool) : State :=
  let s := s.replayJournal
  let s := { s with cfg := s.cfg.atBoot, wdg := { s.wdg.held with elapsed := some 0 }, charge := (s.aon.chargeMirror).getD s.charge
                    tel := { s.tel with chans := s.tel.chans.map (fun (c : Channel) => { c with sum := 0, n := 0, last := none }) }
                    timers := { TimerUnit.zero with tmr := vmod TimerUnit.zero.tmr 0 (fun t => { t with ctl := 0x21 }) } }
  s.modHub (fun h => { h with hub := .booted cause warm, cause := cause, warmBoot := warm, boots := h.boots + 1, resetAt := none })

/-! #### Shelves (R395, R396) -/

/-- The trial shelf of R396, once retired shelves have been passed over. -/
def State.trialShelf (s : State) : Option (Fin 2) :=
  (List.finRange 2).find? (fun i =>
    let h := s.flash.shelves.get i
    h.valid s.otp.hwType && h.trial && !h.confirmed)

def State.confirmedShelf (s : State) : Option (Fin 2) :=
  (List.finRange 2).foldl (fun best i =>
    let h := s.flash.shelves.get i
    if h.valid s.otp.hwType && h.confirmed && h.hashOk then
      match best with
      | none => some i
      | some b => if (s.flash.shelves.get b).actSeq < h.actSeq then some i else best
    else best) none

def State.runShelf (s : State) (x : ShelfId) : State := s.modHub (fun h => { h with shelf := x })

def State.bootConfirmed (s : State) : State :=
  match s.confirmedShelf with
  | some i => s.runShelf (shelfIdOf i)
  | none => s.runShelf .recovery

/-- The image a cold boot runs (R396): at most both shelves are tried. -/
def State.selectShelf : Nat → State → State
  | 0, s => s.bootConfirmed
  | k + 1, s =>
    match s.trialShelf with
    | none => s.bootConfirmed
    | some i =>
      let h := s.flash.shelves.get i
      if 3 ≤ h.attempts then State.selectShelf k (s.retireShelf i 13)
      else if h.hashOk then
        ({ s with flash := { s.flash with shelves := vmod s.flash.shelves i (fun h => { h with attempts := h.attempts + 1 }) } }).runShelf
          (shelfIdOf i)
      else State.selectShelf k (s.retireShelf i 15)

/-! #### Catalogue and learned state (R235, R393, R394) -/

/-- The catalogue in force at a cold boot; functions that a migration sets to their defaults are recorded. -/
def State.bootCatalogue (s : State) : State :=
  let r := newestCat s.flash
  let cfg := s.cfg.ofRecord r
  match r with
  | some rec =>
    if rec.format < 3 then
      let nIn := (List.finRange 4).map (fun n => ((List.finRange 4).filter (fun p => cfg.phaseFitted.getLsbD (4 * n.val + p.val))).length)
      let x := cfg.sanitised nIn
      x.2.foldl (fun s fn => s.record 0x0101 ([2, BitVec.ofNat 8 fn, BitVec.ofNat 8 rec.format, 3] ++ le32 rec.seq)) { s with cfg := x.1 }
    else { s with cfg := cfg }
  | none => { s with cfg := cfg }

/-- Byte offsets are those of the record from byte 0 (R233). -/
def gaugeOfRecord (g : Gauge) (b : List Byte) : Gauge :=
  let fcc : Rat := u32 b 16 / 1000
  let soc : Rat := u16 b 32 / 10000
  let fl := u8 b 26
  { g with qFcc := fcc, rPack := u16 b 20 / 10000, rRef := u16 b 22 / 10000, evCount := u16 b 24
           socQualified := false, capLearned := fl.testBit 1, impLearned := fl.testBit 2
           batid := some ⟨u8 b 27 % 64, Nat.mod_lt _ (by decide)⟩, throughputAh := u32 b 28 / 100
           storedSoc := some soc, qRem := soc * fcc, rRefTemp := i16 b 34 / 10
           lastRecR := u16 b 20 / 10000, lastRecSoc := soc }

def trimsOfRecord (b : List Byte) : Vector Amp 4 :=
  Vector.ofFn (fun p => ((BitVec.ofNat 8 (u8 b (16 + p.val))).toInt : Rat) / 20)

/-- A valid trim record: its fingerprint matches the present settings, and no return of a phase has made it invalid (R123,
R235). A set that still waits for its save is newer than the record. -/
def State.bootTrims (s : State) (n : Lane) : Option (Vector Amp 4) :=
  if s.aon.retained && s.keep.trimBad.get n then none
  else if s.aon.retained && s.keep.trimDue.get n then s.keep.trims.get n
  else match newestLearned s.flash 2 n.val with
  | some r => if BitVec.ofNat 32 (u32 r.bytes 20) = s.cfg.trimPrint n then some (trimsOfRecord r.bytes) else none
  | none => none

def outOfRecord (b : List Byte) : Vector (Vector (Option PhaseKind) 4) 4 :=
  Vector.ofFn (fun n => Vector.ofFn (fun p =>
    let k := 4 * n.val + p.val
    kindOfCode (u8 b (20 + k / 2) / (if k % 2 = 0 then 1 else 16) % 16)))

/-- Learned state at a cold boot: retained SRAM, where it holds a newer state, prevails over flash (R235). -/
def State.bootLearned (s : State) : State :=
  let s := { s with keep := { s.keep with trims := Vector.ofFn (fun n => s.bootTrims n), trimSince := Vector.replicate 4 none } }
  if s.aon.retained then s
  else
    let s := match newestLearned s.flash 3 0 with
      | some r => { s with keep := { s.keep with out := outOfRecord r.bytes } }
      | none => s
    match newestLearned s.flash 1 0 with
    | some r => { s with gauge := gaugeOfRecord s.gauge r.bytes }
    | none => { s with gauge := { s.gauge with qFcc := s.designCap, qRem := 0, socQualified := false } }

/-- The next accession number and the watchdog count after a loss of VAON (R379, R388). -/
def State.bootLedger (s : State) : State :=
  if s.aon.retained then s
  else
    let top := (s.flash.ledger.map (·.acc)).foldl max 0
    let newest := s.flash.ledger.foldl (fun a r =>
      if r.type = 0x0004 then (match a with | none => some r | some b => if b.acc < r.acc then some r else a) else a) none
    { s with ledger := { s.ledger with next := top + 65 }
             wdg := { s.wdg with rstCount := match newest with | some r => BitVec.ofNat 16 (u16 r.payload 6) | none => 0 } }

/-- The gauge over an interval in SHIP or DORMANT (R225): 30 min or more count as rest; a shorter one from DORMANT is
debited by the entry current. -/
def State.bridgeGauge (s : State) (cause : Nat) : State :=
  let us := s.aon.intervalUs
  if 1800000000 ≤ us then
    { s with gauge := { s.gauge with restSince := some (s.now - restTicks), restDone := false } }
  else if cause = 2 then
    let q := (us : Rat) / 3600000000 * s.cfg.q 1 10 (5 / 1000)
    { s with gauge := { s.gauge with qRem := max 0 (s.gauge.qRem - q), restSince := none } }
  else { s with gauge := { s.gauge with restSince := none } }

/-- Straps, TESTEN and stack position read at a cold boot (R44, R47-R49, R422). -/
def State.readStraps (s : State) (pins : BootPins) : State :=
  let x := Straps.read pins
  let s := s.modAon (fun a => { a with
    prevStraps := if a.retained then some a.straps else none, straps := x, pins := pins
    strapFault := strapFaultOf x || decide (s.cfg.stackSize ≤ (stackPos x).toNat) })
  { s with stack := { Stack.zero with position := stackPos x, size := s.cfg.stackSize } }

/-- The charge state from IDLE (R213). -/
def Charge.afresh (c : Charge) : Charge :=
  { Charge.zero with iHost := c.iHost, present := c.present, removals := c.removals }

/-- Every block returns to its reset values; the extremes the lane dies hold stay with them (R314). -/
def Tel.coldBoot (t : Tel) : Tel :=
  { Tel.zero with chans := t.chans.map (fun (c : Channel) => { Channel.zero with heldMax := c.heldMax, heldMin := c.heldMin }) }

/-- The trunk state of the hub at a cold boot: what port die 1 holds and what retained SRAM keeps stay; roster, sessions and
the member's own lease are lost (R274, R411). -/
def Trunk.coldBoot (t : Trunk) : Trunk :=
  { Trunk.zero with links := t.links, seen := t.seen, nodeId := t.nodeId, derivedId := t.derivedId, seq := t.seq
                    isCaptain := t.isCaptain, captain := if t.isCaptain then t.captain else none, captainUnit := t.captainUnit
                    fleetEpoch := t.fleetEpoch, beaconNo := t.beaconNo, sessionId := t.sessionId, epoch := t.epoch
                    busQualified := t.busQualified, feedingTrunk := t.feedingTrunk, dupId := t.dupId }

/-- The diagnostic counters of the receiver run on through a cold boot (R364). -/
def Forecast.coldBoot (f : Forecast) : Forecast :=
  { Forecast.zero with crcErr := f.crcErr, verErr := f.verErr, lenErr := f.lenErr, intErr := f.intErr, lateFrames := f.lateFrames }

/-- The out masks are restored in phase 4 of a cold boot (R127, R414): an unfitted phase and one that the masks hold out are
out before the lane's first start (R111). A lane that runs keeps its phases. -/
def State.restoreOut (s : State) : State :=
  { s with lanes := Vector.ofFn (fun n =>
      let l := s.lane n
      if l.run = .stopped then l.withOut (s.keep.out.get n) (s.phaseFit n) else l) }

/-- A cold boot with its cause (R411, R414): causes 0, 1 and 2 start from the unpowered state, SHIP and DORMANT. -/
def State.coldBoot (s : State) (cause : Nat) (pins : BootPins) : State :=
  let fresh := cause ≤ 2
  let s := { s with
    host := { s.host with mem := [] }, tel := { s.tel.coldBoot with dropped := if fresh then 0 else s.tel.dropped }, hnd := .zero
    fcst := if fresh then .zero else s.fcst.coldBoot
    trunk := s.trunk.coldBoot
    lanes := s.lanes.map (fun (l : LaneDie) => { l with unresponsive := false, lag := 0, onLine := l.run != LaneRun.stopped })
    portDies := s.portDies.map (fun (d : PortDieSt) => { d with unresponsive := false, lag := 0 }) }
  let s := s.bootFallback.selectShelf 2
  let s := s.bootCatalogue
  let s := s.readStraps pins
  let s := s.bootLearned.bootLedger
  let s := s.bootCommon cause false
  let s := s.modHub (fun h => { h with vsel := [], vselCode := if s.aon.vio || fresh then none else h.vselCode
                                       sysFinal := if fresh then 0 else h.sysFinal, pgoodOnce := false, panelVop := 0, panelVoc := 0
                                       panelLast := 0, panelDir := 1, panelMean := none, panelSeen := false, panelOnce := none
                                       panelScanAt := 0, dormSince := none })
  let s := s.modCharge (fun c => { c with iHost := s.ichg })
  let s := if fresh then
      ((s.modHub (fun h => { h with lastMode := none })).modCharge Charge.afresh).bridgeGauge cause
    else s
  (s.readNodes fresh).restoreOut.modAon (fun a => { a with retained := true, softAbandoned := false })

/-- A warm boot (R411, R414). -/
def State.warmBoot (s : State) (cause : Nat) : State :=
  let s := s.bootCommon cause true
  (s.readNodes false).modAon (fun a => { a with warmBoots := (s.now :: a.warmBoots).take 2 })

/-! ### Unpowered, power dies and the wake (R38, R39, R371-R373, R412, R413) -/

/-- A phase of a die in reset: what is out of service stays known as such (R111, R127). -/
def Phase.reset (p : Phase) : Phase := if p.st = .out then { Phase.zero with st := .out, kind := p.kind } else Phase.zero

/-- A lane die after its own reset: the latch of R300 is mirrored in retained SRAM; it clears where the die loses its
power, as its counters do (R364). A die that was declared unresponsive stays so until a cold boot of the hub (R14). -/
def LaneDie.rebooted (l : LaneDie) (up keepLatch : Bool) : LaneDie :=
  { LaneDie.zero with up := up, latched := keepLatch && l.latched, outOfService := l.outOfService, unresponsive := l.unresponsive
                      diag := if keepLatch then l.diag else LaneDie.zero.diag, phases := l.phases.map Phase.reset }

/-- A port die after its own reset; its counters run from its last power-on (R364). -/
def PortDieSt.rebooted (d : PortDieSt) (up powered : Bool) : PortDieSt :=
  let z := { PortDieSt.zero with up := up, unresponsive := d.unresponsive }
  if powered then { z with late := d.late, softResets := d.softResets, pdCrc := d.pdCrc, trips := d.trips, badTa := d.badTa
                           badTb := d.badTb, dropped := d.dropped }
  else z

/-- Settings on their way to a die that goes into reset reach it with its next start (R6). -/
def State.landSettings (s : State) : State :=
  let es := s.lanes.toList.flatMap (fun (l : LaneDie) => l.newSet ++ l.frames.flatMap (fun (f : LaneFrame) => f.set))
  { s with cfg := { s.cfg with inForce := inForceWith s.cfg.inForce es } }

/-- The power dies go into their own reset, or come out of it: pairs open, CC at dead-battery Rd, which stays in force for the
whole of a dead-battery start (R166), nothing received. -/
def State.diesReset (s : State) (up keepLatch : Bool) : State :=
  let s := s.landSettings
  { s with
    lanes := s.lanes.map (·.rebooted up keepLatch)
    portDies := s.portDies.map (·.rebooted up keepLatch)
    ports := s.ports.map (fun (q : PortSt) => { PortSt.zero with deadRd := q.deadRd })
    conns := s.conns.map (fun (k : Conn) => { Conn.zero with lockedOut := k.lockedOut, trips := k.trips, joinFails := k.joinFails })
    nodes := s.nodes.map (fun (k : Node) => { Node.zero with hold := k.hold })
    trunk := { s.trunk with links := Vector.replicate 2 .zero, busQualified := false, busKnown := false, feedingTrunk := false } }

/-- Both rails are up: neither is held down by its current limit (R38). -/
def State.railsUp (s : State) : Bool := !s.aon.railDown.toList.any id

/-- The power dies leave their reset, with the tick index as the strobe gives it (R12); a rail that is held down keeps
them in it (R38). -/
def State.diesUp (s : State) : State :=
  if !s.railsUp then s
  else { s with
    lanes := s.lanes.map (fun (l : LaneDie) => { l with up := true, tick := s.tickWord })
    portDies := s.portDies.map (fun (d : PortDieSt) => { d with up := true, tick := s.tickWord }) }

/-- The unpowered state: nothing but flash, one-time-programmable memory and, while VAON stays, retained SRAM is left
(R39, R411). A flash operation that is cut off is recovered under R386. -/
def State.unpowered (s : State) (vaonLost : Bool) : State :=
  let flash := { s.flash with busy := none, queue := [], background := none, suspended := false
                              stagingErased := s.flash.stagingErased && s.flash.background != some .staging }
  let r := State.reset
  let base := { r with pending := s.pending, flash := flash, otp := s.otp, freeCtr := s.freeCtr, update := s.update }
  if vaonLost then base
  else
    let a := s.aon
    let s := s.landSettings.setMode none 3
    { base with
      ledger := s.ledger, keep := s.keep, cfg := s.cfg, wdg := s.wdg.held
      gauge := { s.gauge with samples := [], socQualified := false, sum := 0, capSum := 0, capTick := 0, roundSum := 0 }
      charge := { Charge.zero with present := s.charge.present, removals := s.charge.removals }
      trunk := { s.trunk.coldBoot with links := r.trunk.links, seen := [], busQualified := false, feedingTrunk := false }
      aon := { r.aon with vaon := true, pgood := false, safeLatch := a.safeLatch, retained := a.retained, straps := a.straps, slots := a.slots
                          slotSeq := a.slotSeq, sysTarget := a.sysTarget, warmBoots := [] } }

/-- SHIP or DORMANT: the hub and power dies power down (R70, R72); the retained request ends. -/
def State.powerDown (s : State) (m : Mode) : State :=
  let s := s.setMode (some m) 0
  let s := s.modHub (fun h => { h with hub := .off, resetAt := none, boots := 0 })
  let s := s.diesReset false false
  let s := { s with ports := Vector.replicate 4 .zero, host := .zero, timers := .zero, wdg := s.wdg.held, events := []
                    flash := { s.flash with queue := [] } }
  s.modAon (fun a => { a with request := none, pgood := false, stat0 := .off, stat1 := .off, limpFrom := none
                              softAbandoned := false, wakeConn := none, wakeNSeen := false, chargeMirror := none })

/-- The factory test state (R50): neither the hub nor the power dies run, and no mode is entered. -/
def State.factoryState (s : State) : State :=
  (((s.setMode none 3).diesReset false false).modHub (fun h => { h with hub := .off, resetAt := none })).modAon
    (fun a => { a with factoryTest := true })

/-- A wake from SHIP or DORMANT (R71, R75, R373): the ship FET closes, the control connects SYS, the power dies start,
tick index and fleet time are carried forward. An FT ball that reads high leads to the factory test state (R50, R412). -/
def State.wake (s : State) (cause : Nat) (w : WakeInfo) : State :=
  let s := { s with
    time := { s.time with tick := s.time.tick + w.intervalUs / 10, edges := 0, fleetNs := s.time.fleetNs + (w.intervalUs : Rat) * 1000
                          fleetLocked := false, fleetRun := 0 }
    gauge := { s.gauge with sum := 0, capSum := 0, capTick := 0, roundSum := 0, samples := [] } }
  let s := if w.pins.ftHigh then s else s.diesUp
  let s := s.modAon (fun a => { a with shipFet := true, diodeOn := true, intervalUs := w.intervalUs, pins := w.pins, softAbandoned := false })
  if w.pins.ftHigh then s.factoryState else s.modHub (fun h => { h with hub := .held cause false, boots := 0 })

/-! ### SAFE (R21) -/

/-- What a sourcing port does when the latch is set: the contract ends, with the Fast Role Swap signal first where it is
set up (R21, R187); a port in FRS watch stays attached as sink. -/
def State.safePort (s : State) (p : Port) : State :=
  let q := s.port p
  if q.attach = .frsWatch then (s.swapBroken p).modPort p (fun q => { q with attach := .sink })
  else if !q.feeding then s
  else if s.frsAsSource p && !q.frsSignal then (s.modPort p (fun q => { q with contract := .zero, transition := false })).frsDrive p
  else (s.feedEnd p false).modPort p (fun q => { q with contract := .zero, transition := false })

def safeCode : SafeTrigger → Nat
  | .sysOvershoot => 1 | .batteryOv => 2 | .batfetCurrent => 3 | .safeEnter => 4 | .hubOther => 5

def markPresent (t : SafeTrigger) (v : Vector Bool 3) : Vector Bool 3 :=
  match t with
  | .sysOvershoot => vput v 0 true
  | .batteryOv => vput v 1 true
  | .batfetCurrent => vput v 2 true
  | .safeEnter | .hubOther => v

/-- The SAFE latch is set: lanes stop, input switches open and no frame on its way closes one, sourcing ports end their
contracts (R21). The event carries what record 0x0003 needs. A trigger that finds the latch set is noted as present (R24). -/
def State.setSafe (s : State) (t : SafeTrigger) (src : EvSource) (die : Nat) (value : Int) : State :=
  if !s.aon.vaon then s
  else if s.aon.safeLatch then s.modAon (fun a => { a with present := markPresent t a.present })
  else
    let s := s.modAon (fun a => { a with safeLatch := true, pgood := false })
    let s := (List.finRange 4).foldl (fun s n =>
      if (s.lane n).run = .stopped then s.modLane n (fun l => { l with keeper := none })
      else (s.modLane n (fun l => { l.stop with keeper := none })).stampLane n .laneStopped) s
    let s := { s with portDies := s.portDies.map (fun (d : PortDieSt) => { d with
      keeper := none, frames := d.frames.filter (fun (f : PortFrame) => match f.cmd with | .closePair _ => false | _ => true) }) }
    let s := (List.finRange 4).foldl (fun s p => s.safePort p) s
    let s := (List.finRange 5).foldl (fun s c =>
      let x : Src := ⟨c.val, by omega⟩
      if (srcPort x).any (fun p => (s.port p).frsSignal) then s else s.openPair x) s
    let s := (List.finRange 4).foldl (fun s n => s.modNode n (fun k => { k with
      selected := none, change := none, challengers := [], allocW := 0, drain := false, sent := none
      feeding := if k.feeding.any (fun p => (s.port p).frsSignal) then k.feeding else none })) s
    let s := s.modAon (fun a => { a with present := markPresent t a.present })
    let s := { s with update := if s.update.window then { s.update with spoiled := true } else s.update }
    let s := s.stamp .protection src die (.safeSet t value s.now)
    if s.modeIs .battery || s.modeIs .supply || s.modeIs .limp then s.setMode (some .safe) 1 else s

/-- The trigger is still present, as the last round measured it; SAFE_CLEAR waits for it (R24), and for the crystal
(R456). -/
def State.safeBlocked (s : State) : Bool := s.aon.present.toList.any id || s.aon.xtalLost

/-- Battery node above CELLS × (VREG + 100 mV) (R21). -/
def State.safeOv (s : State) : Volt := s.cells * (s.vreg + 1 / 10)

/-! ### Requests for SHIP and DORMANT (R70-R73) -/

def State.shipDelay (s : State) : Nat := secTicks (s.cfg.get 1 13).toNat

/-- Record 0x0201: event, connector, 0 command or 1 automatic. -/
def State.pathRecord (s : State) (event : Byte) (conn : Nat) (auto_ : Bool) : State :=
  s.record 0x0201 [event, BitVec.ofNat 8 conn, boolByte auto_]

/-- The first step of a dormant sequence (R70): SUPPLEMENT lowers the SYS target to V_BAT - 0.1 V; DIODE goes on to the
power-down at once. -/
def State.dormantStart (s : State) (vbat : Volt) (automatic : Bool) : State :=
  let sup := s.cfg.supplement
  let s := if sup then s.modHub (fun h => { h with sysFinal := vbat - 1 / 10 }) else s
  let r : Request := { dormant := true, automatic := automatic, deadline := s.now, stage := if sup then .moving else .ramping }
  (s.modAon (fun a => { a with request := some r })).writeGauge

/-- A ship request is held with its deadline; PGOOD is driven low and the gauge record written (R72, R73, R234). -/
def State.shipStart (s : State) (delay : Nat) (automatic : Bool) : State :=
  let r : Request := { dormant := false, automatic := automatic, deadline := s.now + delay, stage := .wait }
  (s.modAon (fun a => { a with request := some r, pgood := false })).writeGauge

/-- A dormant request moves the target itself (R70). -/
def State.dormantHeld (s : State) : Bool := match s.aon.request with | some r => r.dormant && s.cfg.supplement | none => false

/-- SYSV of the accepted code; SYSV0 before a code is accepted (log entry 32). -/
def State.selSysv (s : State) : Volt := s.cfg.q 1 3 (1 / 20) (s.hub.vselCode.getD 0).val

/-- A source or WAKE_N ends the wait of a ship request, or a dormant sequence before the power-down (R70, R72). -/
def State.abortRequest (s : State) : State :=
  match s.aon.request with
  | some r =>
    if !r.dormant && r.stage != .wait then s
    else
      let s := s.modAon (fun a => { a with request := none, diodeOn := if r.dormant && s.cfg.supplement then false else a.diodeOn })
      let s := if r.dormant && s.cfg.supplement then
          s.modHub (fun h => { h with sysFinal := s.selSysv })
        else s
      s.pathRecord (if r.dormant then 1 else 3) 0 r.automatic
  | none => s

/-- An open trunk session (R22, R258): both pass pairs closed, or a lease in force. -/
def State.trunkSession (s : State) : Bool :=
  ((s.conn 5).pair == .closed && (s.conn 6).pair == .closed) || s.trunk.session != 0xFF

/-- R22 admits DORMANT: BATTERY, no valid source, no open trunk session. -/
def State.dormantAllowed (s : State) : Bool :=
  s.modeIs .battery && !s.validSource && !s.trunkSession

/-- R22 admits SHIP: BATTERY or SAFE, no valid source. -/
def State.shipAllowed (s : State) : Bool := (s.modeIs .battery || s.modeIs .safe) && !s.validSource

def State.pathStopped (s : State) : Bool := ((s.cfg.stoppedBy.toList[1]?).getD none).isSome

/-! ### The ideal-diode control (R20, R58-R61) -/

inductive DiodeRule where
  | disabled | normal | backstop
  deriving DecidableEq, Repr

/-- A battery lane that can run. -/
def State.battFit (s : State) : Bool := match s.cfg.battLane with | some n => s.laneFit n | none => false

/-- R61 keeps the control off in DIODE: no battery, or SYS not yet raised above a new one. -/
def State.diodeBarred (s : State) : Bool := !s.cfg.supplement && (!s.charge.present || s.hub.diodePending)

/-- Which rule the control follows (R20, R60-R62, R72). It is disabled 1 ms after a ship hand-over. By itself it works in
DORMANT, LIMP and SAFE: in LIMP under SUPPLEMENT as a backstop, unless a battery lane out of service had it enabled (R299);
in SAFE not where R61 has the hub keep it off. A masterless device follows the DIODE column (R422). Else it works as the
hub or a wake has enabled it. -/
def State.diodeRule (s : State) : DiodeRule :=
  if !s.aon.vaon || s.aon.request.any (fun r => r.stage == .pairOpen) then .disabled
  else
    match s.aon.mode with
    | some .safe => if s.diodeBarred && s.stack.masterless.isNone then .disabled else .normal
    | some .dormant => .normal
    | some .limp =>
      if s.stack.masterless.isSome || !s.cfg.supplement || (s.aon.diodeOn && !s.battFit) then .normal else .backstop
    | some .ship => if s.aon.shipFet && s.aon.diodeOn then .normal else .disabled
    | _ => if s.aon.diodeOn then .normal else .disabled

/-- Battery-lane current out of the far node, summed over a gang, as the always-on domain receives it (R58). -/
def State.battLaneI (s : State) : Amp :=
  match s.cfg.battLane with
  | some n => sumR ((s.cfg.gang n).map (fun m => (s.lane m).loop.iLane))
  | none => 0

/-- The control closes the pair: a gap above 2 V is soft-connected at no more than SOFT_SLEW (R58, R59). -/
def State.diodeClose (s : State) (sys vbat : Volt) : State :=
  if 2 < vbat - sys then s.modAon (fun a => { a with batfet := .linear, softFrom := some s.now, softRate := s.cfg.q 1 6 (1 / 2) })
  else s.modAon (fun a => { a with batfet := .on, softFrom := none, softRate := 0 })

def State.diodeOpen (s : State) : State := s.modAon (fun a => { a with batfet := .off, softFrom := none, softRate := 0 })

end Sys2Proof.Machine
end

