-- ==== Sys2Proof/Machine/AonRows.lean ====
section
/-! DEFINITION. The commands of the always-on domain: supplies, SAFE, wakes, SHIP and DORMANT, the ideal diode, hub
resets and boots, keepers (R38-R43, R58-R61, R70-R75, R408-R421, R456). -/

namespace Sys2Proof.Machine

/-! ### Supplies -/

/-- An unpowered board on its pack: the always-on domain enters SHIP and does not release the hub (R413). With an FT ball
high the factory test state is taken, which enters no mode (R50; DESIGN CHOICE, log entry 115). -/
def State.packStart (s : State) (ftHigh : Bool) : State :=
  let s := s.modAon (fun a => { a with vpwr := true, vaon := true, pgood := false })
  if ftHigh then s.factoryState else s.setMode (some .ship) 3

/-- POWER_ON (R50, R69, R166, R412, R413): from a source the power dies start, every port at dead-battery Rd, and the hub waits
for its cold boot. -/
def execPowerOn (pins : BootPins) (fromPack : Bool) (s : State) : Out :=
  if s.aon.vpwr then .next s
  else if fromPack then .next (s.packStart pins.ftHigh)
  else
    let s := s.modAon (fun a => { a with vpwr := true, vaon := true, pins := pins, pgood := false })
    if pins.ftHigh then .next s.factoryState
    else
      let s := { s.diesUp with ports := s.ports.map (fun (q : PortSt) => { q with deadRd := true }) }
      .next (s.modHub (fun h => { h with hub := .held 0 false, boots := 0 }))

/-- PACK_CONNECT (R413). -/
def execPackConnect (s : State) (ftHigh : Bool := false) : Out := if s.aon.vpwr then .next s else .next (s.packStart ftHigh)

/-- VPWR_LOSS (R442). -/
def execVpwrLoss (vaonLost : Bool) (s : State) : Out := if s.aon.vpwr then .next (s.unpowered vaonLost) else .next s

def railIx (r : Rail) : Fin 2 := match r with | .vdd33 => 0 | .vdrv => 1

/-- RAIL_OVERLOAD (R38): the lane and port dies hold in reset. -/
def execRailOverload (r : Rail) (s : State) : Out :=
  if s.hub.hub = .off then .next s
  else .next ((s.diesReset false true).modAon (fun a => { a with railDown := vput a.railDown (railIx r) true }))

/-- RAIL_RECOVERED (R38): the dies run again once both rails are up, unless the device sleeps. -/
def execRailRecovered (r : Rail) (s : State) : Out :=
  if s.aon.railDown.get (railIx r) then
    let s := s.modAon (fun a => { a with railDown := vput a.railDown (railIx r) false })
    .next (if s.hub.hub = .off then s else s.diesUp)
  else .next s

/-- XTAL_LOST (R456). -/
def execXtalLost (s : State) : Out :=
  if s.aon.vaon && !s.aon.xtalLost then
    .next ((s.modAon (fun a => { a with xtalLost := true })).stamp .protection .aon 0 .xtalLost)
  else .next s

/-- XTAL_RESTORED (R456). -/
def execXtalRestored (s : State) : Out := .next (s.modAon (fun a => { a with xtalLost := false }))

/-! ### SAFE (R21) -/

/-- SAFE_LATCH_SET: a trigger has set the latch. -/
def execSafeLatchSet (t : SafeTrigger) (s : State) : Out := .next (s.setSafe t .aon 0 0)

/-- Millivolts and milliamperes of record 0x0003. -/
def milli (x : Rat) : Int := inSteps x (1 / 1000)

/-- SYS_OVERSHOOT_SAFE: 110% of the setpoint while truncation is active, armed from 5.0 V. -/
def execSysOvershootSafe (n : Lane) (sys : Volt) (s : State) : Out :=
  let l := s.lane n
  let tgt := if l.order.role = .batDiode || l.order.role = .feed then l.order.sysTarget else l.loop.target
  if l.up && l.truncating && 5 ≤ tgt && 11 / 10 * tgt < sys then
    .next (s.setSafe .sysOvershoot (.lane n) (dieCode (.lane n)) (milli sys))
  else .next s

/-- BATTERY_OV_SAFE: the battery lane die. -/
def execBatteryOvSafe (n : Lane) (vbat : Volt) (s : State) : Out :=
  if s.battDie n && (s.lane n).up && s.safeOv < vbat then .next (s.setSafe .batteryOv (.lane n) (dieCode (.lane n)) (milli vbat))
  else .next s

/-- BATFET_CURRENT_SAFE: current through the pair while both gates are off. -/
def execBatfetCurrentSafe (i : Amp) (s : State) : Out :=
  if s.aon.vaon && s.aon.batfet = .off && i ≠ 0 then .next (s.setSafe .batfetCurrent .aon 0 (milli i)) else .next s

/-! ### Wakes (R71, R75) -/

/-- In SHIP or DORMANT with the hub unpowered. -/
def State.asleep (s : State) (m : Mode) : Bool := s.modeIs m && s.hub.hub == .off && s.aon.vaon

/-- WAKE_N_SHIP_WAKE. -/
def execWakeNShipWake (w : WakeInfo) (s : State) : Out :=
  if s.asleep .ship then .next ((s.wake 1 w).modAon (fun a => { a with wakeNSeen := true, wakeConn := none })) else .next s

/-- CONNECTOR_WAKE. -/
def execConnectorWake (c : Src) (v : Volt) (w : WakeInfo) (s : State) : Out :=
  let go := fun (cause : Nat) => (s.wake cause w).modAon (fun a => { a with wakeConn := some c, wakeNSeen := false })
  if v ≤ 4 then .next s
  else if s.asleep .ship then .next (go 1)
  else if s.asleep .dormant then .next (go 2)
  else .next s

/-- DORMANT_EXIT. -/
def execDormantExit (why : DormantExit) (w : WakeInfo) (s : State) : Out :=
  if s.asleep .dormant then
    match why with
    | .wakeN => .next ((s.wake 2 w).modAon (fun a => { a with wakeNSeen := true, wakeConn := none }))
    | .discharge i => if s.cfg.q 1 12 (1 / 2) < -i then .next ((s.wake 2 w).modAon (fun a => { a with wakeConn := none, wakeNSeen := false })) else .next s
  else .next s

/-- SPURIOUS_WAKE (R71, R75): after a wake from SHIP the device ships itself again. -/
def execSpuriousWake (s : State) : Out :=
  match s.aon.wakeConn with
  | some c =>
    if s.hubUp && s.passed s.hub.firstTick (secTicks 2) && !s.validSource && !s.aon.wakeNSeen then
      let s := (s.pathRecord 4 c.val true).modAon (fun a => { a with wakeConn := none })
      if s.hub.cause = 1 && s.shipAllowed then
        .next ((s.pathRecord 2 c.val true).shipStart 0 true)
      else .next s
    else .next s
  | none => .next s

/-- WAKE_N_LOW: the always-on domain detects it with the hub or without (R5); it is a presence event, which a hub in reset
or in its boot uses in its first decision (R73, R75). -/
def execWakeNLow (s : State) : Out :=
  if s.aon.vaon && s.hub.hub != .off then .next ((s.stamp .presence .aon 0 .wakeN).modAon (fun a => { a with wakeNSeen := true })) else .next s

/-! ### DORMANT and SHIP sequences (R70-R73) -/

/-- DORMANT_AUTO_ENTRY. -/
def execDormantAutoEntry (vbat : Volt) (s : State) : Out :=
  let min_ := (s.cfg.get 1 11).toNat
  match s.hub.dormSince with
  | some t =>
    if s.hubUp && 0 < min_ && s.passed t (secTicks (60 * min_)) && s.dormantAllowed && !s.pathStopped && s.aon.request.isNone then
      .next ((s.pathRecord 0 0 true).dormantStart vbat true)
    else .next s
  | none => .next s

/-- DORMANT_SEQUENCE_CONTINUE: SYS has settled; the pair takes SYS over and the battery lane ramps down over 1 ms. -/
def execDormantSequenceContinue (sys : Volt) (s : State) : Out :=
  match s.aon.request with
  | some r =>
    if s.hubUp && r.dormant && r.stage = .moving && rabs (sys - s.hub.sysFinal) ≤ s.hub.sysFinal / 100 then
      let s := s.modAon (fun a => { a with diodeOn := true, request := some { r with stage := .ramping } })
      match s.cfg.battLane with
      | some n => .next (s.sendNode n s.effTick (.stopRamp (stopRate (s.lane n))) id)
      | none => .next s
    else .next s
  | none => .next s

/-- Lanes stop and every input and trunk switch opens (R70, R72). -/
def State.stopAll (s : State) : State :=
  let s := (List.finRange 4).foldl (fun s n => s.modLane n LaneDie.stop) s
  (List.finRange 7).foldl (fun s c => s.openPair c) s

/-- DORMANT_POWER_DOWN: the battery lane has stopped. -/
def execDormantPowerDown (s : State) : Out :=
  match s.aon.request with
  | some r =>
    let still := match s.cfg.battLane with | some n => (s.cfg.gang n).all (fun m => !(s.lane m).active) | none => true
    if s.hubUp && r.dormant && r.stage = .ramping && still && s.dormantAllowed && !s.aon.safeLatch then
      .next ((s.stopAll.modAon (fun a => { a with diodeOn := true })).powerDown .dormant)
    else .next s
  | none => .next s

/-- SHIP_DELAY_EXPIRY: stop frames to every lane, every switch opened, the last steps handed over. -/
def execShipDelayExpiry (s : State) : Out :=
  match s.aon.request with
  | some r =>
    if s.hubUp && !r.dormant && r.stage = .wait && r.deadline ≤ s.now then
      let eff := s.effTick
      let s := (List.finRange 4).foldl (fun s n => s.sendLane n eff (.stopRamp (stopRate (s.lane n))) (s.lane n).order) s
      let s := (List.finRange 7).foldl (fun s c => s.sendPort (dieOfSrc c) eff (.openPair c)) s
      .next (s.modAon (fun a => { a with request := some { r with stage := .handed, deadline := s.now } }))
    else .next s
  | none => .next s

/-- SHIP_BATFET_OPEN: 1 ms after the hand-over, with the hub or without. -/
def execShipBatfetOpen (s : State) : Out :=
  match s.aon.request with
  | some r =>
    if !r.dormant && r.stage = .handed && s.passed r.deadline (msTicks 1) then
      .next (s.diodeOpen.modAon (fun a => { a with diodeOn := false, request := some { r with stage := .pairOpen } }))
    else .next s
  | none => .next s

/-- SHIP_FET_OPEN: 1.1 ms after the hand-over. -/
def execShipFetOpen (s : State) : Out :=
  match s.aon.request with
  | some r =>
    if !r.dormant && r.stage = .pairOpen && s.passed r.deadline 110 then
      .next ((s.diodeOpen.stopAll.modAon (fun a => { a with shipFet := false, diodeOn := false })).powerDown .ship)
    else .next s
  | none => .next s

/-! ### The ideal diode (R58-R61) -/

/-- IDEAL_DIODE_CLOSE. -/
def execIdealDiodeClose (sys vbat : Volt) (s : State) : Out :=
  if s.diodeRule = .normal && s.aon.batfet = .off && !s.aon.softAbandoned && 2 / 100 < vbat - sys then .next (s.diodeClose sys vbat)
  else .next s

/-- IDEAL_DIODE_OPEN: SYS above the battery, or more than 1 A through the pair toward the battery. -/
def execIdealDiodeOpen (sys vbat : Volt) (shuntA : Amp) (s : State) : Out :=
  let pair := shuntA + s.battLaneI
  if s.aon.batfet ≠ .off && s.diodeRule ≠ .disabled && (vbat + 1 / 100 < sys || 1 < pair) then .next s.diodeOpen else .next s

/-- SOFT_CONNECT_TIMEOUT: abandoned after 100 ms; held for the ledger. With the hub off the tick index stands, and the
always-on domain times the 100 ms by itself (DESIGN CHOICE, log entry 4). -/
def execSoftConnectTimeout (sys vbat : Volt) (s : State) : Out :=
  match s.aon.softFrom with
  | some t =>
    if s.aon.batfet = .linear && (s.passed t (msTicks 100) || s.hub.hub == .off) && 2 ≤ vbat - sys then
      .next ((s.diodeOpen.modAon (fun a => { a with softAbandoned := true })).record 0x0202 (recV sys ++ recV vbat))
    else .next s
  | none => .next s

/-- SOFT_CONNECT_COMPLETE. -/
def execSoftConnectComplete (sys vbat : Volt) (s : State) : Out :=
  if s.aon.batfet = .linear && vbat - sys < 2 then .next (s.modAon (fun a => { a with batfet := .on, softFrom := none, softRate := 0 })) else .next s

/-- LIMP_BACKSTOP_CLOSE (R60). -/
def execLimpBackstopClose (sys vbat : Volt) (s : State) : Out :=
  if s.diodeRule = .backstop && s.aon.batfet = .off && !s.aon.softAbandoned && sys < 9 / 10 * s.aon.sysTarget && 2 / 100 < vbat - sys then
    .next (s.diodeClose sys vbat)
  else .next s

/-- The SYS target of the DIODE scheme with a battery at vbat (R57). -/
def State.diodeAim (s : State) (vbat : Volt) : Volt := min 60 (max s.hub.sysFinal (vbat + s.cfg.q 1 5 (1 / 10)))

/-- DIODE_CONTROL_ENABLE (R57, R61). -/
def execDiodeControlEnable (sys vbat : Volt) (s : State) : Out :=
  let aim := s.diodeAim vbat
  if s.hubUp && s.hub.diodePending && s.charge.present && !s.cfg.supplement && rabs (sys - aim) ≤ aim / 100 then
    .next ((s.modHub (fun h => { h with diodePending := false })).modAon (fun a => { a with diodeOn := true }))
  else .next s

/-! ### Hub resets and boots (R385, R408-R414) -/

/-- RESET_N_ASSERT (R409): 24 low edges of the crystal clock, two of the 32 kHz RC while XTAL_LOST is set; 23 edges may
be taken either way. `stillLow` of the pulse is the level in which the sampling leaves the ball: a low one holds the hub in reset until
a later sampling finds it high (R415). -/
def execResetNAssert (x : ResetPulse) (s : State) : Out :=
  let s := s.modAon (fun a => { a with resetLow := x.stillLow })
  if s.aon.xtalLost then (if 2 ≤ x.lowEdges then .next (s.hubReset 3) else .next s)
  else if 24 ≤ x.lowEdges then .next (s.hubReset 3)
  else if x.lowEdges = 23 then
    let f := s.fresh
    if Config.resetPulseTaken f.2 then .next (f.1.hubReset 3) else .next f.1
  else .next s

/-- HUB_LOCKUP (R408). -/
def execHubLockup (s : State) : Out := .next (s.hubReset 7)

/-- FLASH_HOLD_RELEASE (R385): the die has completed the operation it had started, and a suspended erase. -/
def execFlashHoldRelease (s : State) : Out :=
  match s.hub.hub with
  | .held _ _ =>
    let f := s.flash
    let s := s.flashFinish
    .next { s with flash := { s.flash with
      background := none, suspended := false
      ledgerErased := s.flash.ledgerErased || f.background == some .ledgerErase
      stagingErased := s.flash.stagingErased || f.background == some .staging } }
  | _ => .next s

/-- COLD_BOOT (R414). In a start the FT balls are checked before the hub is released (R50, R412). -/
def execColdBoot (pins : BootPins) (s : State) : Out :=
  match s.hub.hub with
  | .held cause false =>
    if s.heldInReset then .next s
    else if cause ≤ 2 && pins.ftHigh then .next s.factoryState
    else .next (s.coldBoot cause pins)
  | _ => .next s

/-- WARM_BOOT (R410, R414): an image that fails its CRC makes the boot cold, with the same cause. -/
def execWarmBoot (crcOk : Bool) (s : State) : Out :=
  match s.hub.hub with
  | .held cause true =>
    if s.heldInReset then .next s
    else if crcOk then .next (s.warmBoot cause)
    else .next (s.modHub (fun h => { h with hub := .held cause false }))
  | _ => .next s

/-! ### Keepers (R416-R419) -/

/-- The hub has halted: it answers nothing and decides nothing until a reset (R25, R416). -/
def State.haltHub (s : State) : State :=
  if s.hubUp then s.modHub (fun h => { h with hub := .halted, resetAt := none }) else s

/-- HUB_HALT_DETECTED: no frame for 50 ticks counts as a halted hub. The die enters LIMP by itself, a port die with DP and
DM released (R39); with the SAFE latch set it stays as it is (R25). -/
def execHubHaltDetected (d : Die) (s : State) : Out :=
  let k : Keeper := { entry := s.now, expired := false }
  match d with
  | .lane n =>
    let l := s.lane n
    if !l.up || !l.got || l.keeper.isSome then .next s
    else if s.aon.safeLatch then .next s.haltHub
    else .next ((s.haltHub.modLane n (fun l => { l with keeper := some k })).limpMode)
  | .port m =>
    let x := s.pdie m
    if !x.up || !x.got || x.keeper.isSome then .next s
    else if s.aon.safeLatch then .next s.haltHub
    else
      let s := (s.haltHub.modPd m (fun x => { x with keeper := some k })).limpMode
      .next ((List.finRange 4).foldl (fun s p => if portDie p = m then s.modPort p (fun q => { q with bcRunning := false }) else s) s)

/-- The four changes that apply to every row of R418. -/
def LaneOrder.keeper (o : LaneOrder) : LaneOrder := { o with floor := 0, warm := false, stepPending := false, iBias := 0, biasSlew := 0 }

/-- A drawing lane of another far node is running. -/
def State.drawRunning (s : State) : Bool :=
  s.lanes.toList.any (fun l => l.active && (l.order.role == .drawHold || l.order.role == .drawAlloc))

/-- The lane's part of its keeper default (R418). A lane that delivered an allocation holds the target its move completes
to (R65). -/
def State.keeperLane (s : State) (n : Lane) (l : LaneDie) : LaneDie :=
  let o := l.order.keeper
  let l := { l with loop := { l.loop with iBias := 0 } }
  if !l.active then { l with order := o }
  else if s.cfg.farKind n = .trunk && l.order.dir = .draw then { l with order := { o with pBase := 5 } }
  else
    match l.order.role with
    | .drawHold => { l with order := o }
    | .drawAlloc => { l with order := { o with role := .drawHold, shared := true } }
    | .batSupplement =>
      { l with order := { o with iSet := 0, target := if s.drawRunning then 98 / 100 * o.target else o.target }
               loop := { l.loop with iSet := 0 } }
    | .batDiode => { (l.toStandby) with order := o }
    | .feed =>
      { l with order := o, run := .ramping, loop := { l.loop with rampA := some (rabs l.loop.iCmd), rampRate := stopRate l } }

/-- The port a lane of the far node feeds. -/
def State.fedPort (s : State) (n : Lane) : Option Port := (s.node (s.cfg.leader n)).feeding

/-- KEEPER_HOLD_EXPIRY (R418, R419). A frame that takes effect in the same tick prevails (R421). -/
def execKeeperHoldExpiry (d : Die) (s : State) : Out :=
  match d with
  | .lane n =>
    let l := s.lane n
    match l.keeper with
    | some k =>
      if !k.expired && s.passed k.entry (l.holdTenths * 10000) && !s.aon.safeLatch
          && !l.frames.any (fun f => ixReached f.eff l.tick.toNat) then
        let s := s.modLane n (fun l => { l with keeper := some { k with expired := true } })
        match s.fedPort n with
        | some p =>
          if (s.port p).attach = .frsWatch then
            let s := ((s.swapBroken p).modPort p (fun q => { q with attach := .sink })).modNode (s.cfg.leader n) (fun k => { k with feeding := none })
            .next (s.modLane n (fun l => { l.stop with order := l.order.keeper }))
          else .next ((s.feedEnd p true).modLane n (fun l => { l with order := l.order.keeper }))
        | none => .next { s with lanes := vput s.lanes n (s.keeperLane n (s.lane n)) }
      else .next s
    | none => .next s
  | .port m =>
    let x := s.pdie m
    match x.keeper with
    | some k =>
      if !k.expired && s.passed k.entry (x.holdTenths * 10000) && !s.aon.safeLatch
          && !x.frames.any (fun f => ixReached f.eff x.tick.toNat) then
        let s := s.modPd m (fun x => { x with keeper := some { k with expired := true } })
        .next (((List.finRange 4).foldl (fun s p =>
          if portDie p = m && (s.port p).attach = .source && (s.port p).feeding then s.errorRecovery p 1 else s) s).ccRefresh)
      else .next s
    | none => .next s

/-- DIE_UNRESPONSIVE (R14): 50 ticks late. -/
def execDieUnresponsive (d : Die) (s : State) : Out :=
  let rec_ := fun (s : State) => s.record 0x0005 ([BitVec.ofNat 8 (dieCode d), 0, 0, 0] ++ le32 s.tickWord.toNat)
  match d with
  | .lane n =>
    let l := s.lane n
    if s.hubUp && 50 ≤ l.lag && !l.unresponsive then .next (rec_ (s.modLane n (fun l => { l with unresponsive := true }))) else .next s
  | .port m =>
    let x := s.pdie m
    if s.hubUp && 50 ≤ x.lag && !x.unresponsive then .next (rec_ (s.modPd m (fun x => { x with unresponsive := true }))).ccRefresh
    else .next s

/-! ### Frames (R6, R7) -/

/-- DIE_FRAME_APPLY: the first frame whose effective tick has come by the die's copy of the index (R12). A die has a period
boundary, or a clock edge, in every tick, so a frame that is applied in a later tick has arrived after its own; it is
counted late (R6, R364; DEDUCED, log entry 117). -/
def execDieFrameApply (d : Die) (s : State) : Out :=
  match d with
  | .lane n =>
    match (s.lane n).frames with
    | f :: r =>
      let at_ := (s.lane n).tick.toNat
      if ixReached f.eff at_ && (s.lane n).up then
        let late := ixBefore f.eff at_
        let s := s.modLane n (fun l => { l with frames := r, diag := { l.diag with late := if late then satInc 32 l.diag.late else l.diag.late } })
        .next (s.applyLane n f)
      else .next s
    | [] => .next s
  | .port m =>
    match (s.pdie m).frames with
    | f :: r =>
      let at_ := (s.pdie m).tick.toNat
      if ixReached f.eff at_ && (s.pdie m).up then
        let late := ixBefore f.eff at_
        let s := s.modPd m (fun x => { x with frames := r, late := if late then satInc 32 x.late else x.late })
        .next (s.applyPort m f.cmd)
      else .next s
    | [] => .next s

end Sys2Proof.Machine
end

