-- ==== Sys2Proof/Machine/Thermal.lean ====
section
/-! DEFINITION. Temperatures (chapter 12): conversion, throttling, shutdown and release, the latch, shutdown slots. -/

namespace Sys2Proof.Machine

/-! ### Conversion (R292, R293) -/

def sensorNo : Sensor → Nat
  | .hub => 0
  | .laneDie n => 1 + n.val
  | .portDie m => 5 + m.val
  | .flash => 7
  | .tsl n => 8 + n.val
  | .tb k => 12 + k.val

/-- A value in steps of 0.1 degree. -/
def tenths (t : DegC) : DegC := (quant (t * 10) : Rat) / 10

/-- Shutdown temperature and release value of a sensor (R292). -/
def State.shutAt (s : State) (x : Sensor) : DegC := match x with | .tsl _ => s.cfg.q 13 3 1 | _ => 150
def State.releaseAt (s : State) (x : Sensor) : DegC := match x with | .tsl _ => s.cfg.q 13 3 1 - 20 | _ => 130

/-- The reading of a slot: the temperature where it is valid, none where it is broken. -/
def State.convert (s : State) (x : Sensor) (v : SlotValue) : Option DegC :=
  match v with
  | .diode t => if -55 ≤ t && t ≤ 175 then some t else none
  | .ratio r =>
    if 3 / 100 ≤ r && r ≤ 97 / 100 then
      let lane := match x with | .tsl _ => true | _ => false
      some (tenths (if lane then ntcTemp r (s.cfg.q 13 5 100) (s.cfg.get 13 7) (s.cfg.q 13 9 100)
                    else ntcTemp r (s.cfg.q 13 6 100) (s.cfg.get 13 8) (s.cfg.q 13 10 100)))
    else none

/-- The sensor and the value are of one kind: a diode, or an NTC ratio. -/
def slotFits (x : Sensor) (v : SlotValue) : Bool :=
  match x, v with
  | .tsl _, .ratio _ => true
  | .tb _, .ratio _ => true
  | .tsl _, .diode _ => false
  | .tb _, .diode _ => false
  | _, .diode _ => true
  | _, .ratio _ => false

/-! ### Shutdown (R297, R300-R302) -/

/-- What a reading does: the shutdown temperature stands for a broken one (R301). -/
def State.effective (s : State) (x : Sensor) (r : Option DegC) : DegC := r.getD (s.shutAt x)

/-- The 16 bytes of a slot (R302): the copied marker is outside the CRC. -/
def ShutSlot.bytes (x : ShutSlot) : List Byte :=
  let b := [BitVec.ofNat 8 x.sensor, BitVec.ofNat 8 x.cause] ++ sle 2 x.reading ++ le32 x.tick ++ le32 x.seq ++ [x.mode, BitVec.ofNat 8 x.count]
  b ++ [if x.copied then 0 else 0xFF, crc8 b]

/-- Over-temperature shutdowns of a sensor's die in the last 60 min, as the slots show them (R302). -/
def State.slotCount (s : State) (sensor : Nat) : Nat :=
  ((s.aon.slots ++ s.aon.slotPending).filter (fun x => x.sensor == sensor && x.cause == 1 && !s.passed x.tick (secTicks 3600))).length

/-- A slot that waits for the always-on domain. -/
def State.pendSlot (s : State) (sensor cause : Nat) (r : Option DegC) (count : Nat) : State :=
  let x : ShutSlot := { sensor := sensor, cause := cause, reading := match r with | some t => quant (t * 10) | none => -32768
                        tick := s.now, seq := 0, mode := modeByte s.aon.mode, count := count, copied := false }
  s.modAon (fun a => { a with slotPending := a.slotPending ++ [x] })

/-- Every shutdown stamps a protection event and leaves a slot (R297, R302). -/
def State.noteShutdown (s : State) (x : Sensor) (src : EvSource) (r : Option DegC) (count : Nat) : State :=
  let s := s.pendSlot (sensorNo x) (if r.isSome then 1 else 2) r count
  s.stamp .protection src (sensorNo x) (if r.isSome then .dieShutdown else .brokenSensor)

/-- A lane die shuts down (R297, R300): the third over-temperature shutdown in 60 min latches it out. -/
def State.laneShutdown (s : State) (n : Lane) (x : Sensor) (r : Option DegC) : State :=
  let l := s.lane n
  let fresh := !l.shut
  let times := l.otTimes.filter (fun t => !s.passed t (secTicks 3600))
  let times := if fresh && r.isSome then s.now :: times else times
  let latch := fresh && r.isSome && 3 ≤ times.length && !l.latched
  let isTsl := match x with | .tsl _ => true | _ => false
  let s := s.modLane n (fun l =>
    { (if l.shut then l else l.stop) with
      shut := true, shutDie := l.shutDie || !isTsl, shutTsl := l.shutTsl || isTsl, okRounds := 0, otTimes := times
      latched := l.latched || latch })
  let s := if fresh && l.psen then s.stampLane n .laneStopped else s
  let s := s.noteShutdown x (.lane n) r times.length
  if latch then s.pendSlot (sensorNo x) 3 r times.length else s

/-- A port die shuts down (R297): Hard Reset where a contract stands, VCONN off, vendor mode ended, ACIN opened. -/
def State.portShutdown (s : State) (m : PortDie) (r : Option DegC) : State :=
  let fresh := !(s.pdie m).shut
  let s := s.modPd m (fun d => { d with shut := true, okRounds := 0 })
  let s := if fresh then
      let s := (List.finRange 4).foldl (fun s p =>
        if portDie p = m then
          let s := if (s.port p).contract.kind != .none then (s.hardNoted p 5).pdPut p .hardReset else s
          (s.modPort p (fun q => { q with vconn := false })).modeEnd p
        else s) s
      if m = 0 then (s.openPair acin).modConn acin (fun k => { k with qualified := false }) else s
    else s
  s.noteShutdown (.portDie m) (.port m) r (s.slotCount (5 + m.val) + if r.isSome then 1 else 0)

/-- The hub die: the always-on domain holds it in reset; the release is a cold boot with cause 8 (R297, R298, R408). -/
def State.hubShutdown (s : State) (r : Option DegC) : State :=
  let s := s.noteShutdown .hub .aon r (s.slotCount 0 + if r.isSome then 1 else 0)
  let s := { s with therm := { s.therm with hubShut := true, hubOkRounds := 0 } }
  let s := s.hubReset 8
  match s.hub.hub with
  | .held _ _ => s.modHub (fun h => { h with hub := .held 8 false })
  | _ => s

def State.flashShutdown (s : State) (r : Option DegC) : State :=
  let count := s.slotCount 7 + if r.isSome then 1 else 0
  ({ s with therm := { s.therm with flashShut := true, flashOkRounds := 0 } }).noteShutdown .flash .housekeeping r count

/-- HOUSEKEEPING_SLOT (R292, R297, R301): the die acts on its own reading. A die that its
reading already holds in shutdown stamps no second event. -/
def execHousekeepingSlot (x : Sensor) (v : SlotValue) (s : State) : Out :=
  if !slotFits x v || !s.hubPowered then .next s
  else
    let r := s.convert x v
    let t := s.effective x r
    let bad := s.shutAt x ≤ t
    match x with
    | .hub =>
      let was := s.therm.hubShut
      let s := { s with therm := { s.therm with hubT := t, hubOk := r.isSome } }
      .next (if bad && !was then s.hubShutdown r else s)
    | .laneDie n =>
      let l := s.lane n
      let was := l.shutDie
      if !l.up then .next s
      else
        let s := s.modLane n (fun l => { l with tempDie := t, dieOk := r.isSome })
        .next (if bad && !was then s.laneShutdown n x r else s)
    | .tsl n =>
      let l := s.lane n
      let was := l.shutTsl
      if !l.up || !l.onLine then .next s
      else
        let s := s.modLane n (fun l => { l with tempTsl := t, tslOk := r.isSome })
        .next (if bad && !was then s.laneShutdown n x r else s)
    | .portDie m =>
      let d := s.pdie m
      let was := d.shut
      if !d.up then .next s
      else
        let s := s.modPd m (fun d => { d with temp := t, tempOk := r.isSome })
        .next (if bad && !was then s.portShutdown m r else s)
    | .flash =>
      let was := s.therm.flashShut
      let s := { s with therm := { s.therm with flashT := t, flashOk := r.isSome } }
      .next (if bad && !was then s.flashShutdown r else s)
    | .tb k =>
      .next { s with therm := { s.therm with tb := vput s.therm.tb k (r.getD (s.therm.tb.get k)), tbOk := vput s.therm.tbOk k r.isSome } }

/-! ### Rounds and release (R294, R298) -/

/-- A lane die's causing readings are valid and below their release values. -/
def State.laneOkRound (s : State) (n : Lane) : Bool :=
  let l := s.lane n
  (!l.shutDie || (l.dieOk && l.tempDie < 130)) && (!l.shutTsl || (l.tslOk && l.tempTsl < s.releaseAt (.tsl n)))

def okNext (shut ok : Bool) (n : Nat) : Nat := if shut && ok then n + 1 else 0

/-- Rounds counted toward a release (R298). -/
def State.countReleases (s : State) : State :=
  let t := s.therm
  { s with
    lanes := Vector.ofFn (fun n => { s.lane n with okRounds := okNext (s.lane n).shut (s.laneOkRound n) (s.lane n).okRounds })
    portDies := s.portDies.map (fun (d : PortDieSt) => { d with okRounds := okNext d.shut (d.tempOk && d.temp < 130) d.okRounds })
    therm := { t with hubOkRounds := okNext t.hubShut (t.hubOk && t.hubT < 130) t.hubOkRounds
                      flashOkRounds := okNext t.flashShut (t.flashOk && t.flashT < 130) t.flashOkRounds } }

/-- Division of the hub core clock by the diode's reading (R294). -/
def hubDivStep (d : Nat) (t : DegC) : Nat :=
  if 120 ≤ t then 4
  else if d = 4 then (if t < 105 then 1 else if t < 115 then 2 else 4)
  else if 110 ≤ t then 2
  else if d = 2 then (if t < 105 then 1 else 2) else 1

/-- HOUSEKEEPING_ROUND (R292, R294, R461): the hub core division and the flash clock are switched in hardware; the round's
readings become one thermal event. NTCs that read invalid with a battery present are a removal indication (R211), an event of the
presence class. -/
def execHousekeepingRound (r : RoundInfo) (s : State) : Out :=
  if !s.hubPowered then .next s
  else
    let s := s.countReleases
    let t := s.therm
    let s := { s with
      therm := { t with hubDiv := hubDivStep t.hubDiv t.hubT, flashHalf := 110 ≤ t.flashT || (t.flashHalf && 105 ≤ t.flashT)
                        round := t.round + 1, roundTick := s.now, info := some r }
      conns := Vector.ofFn (fun c => { s.conn c with i := r.connI.get c, v := r.connV.get c })
      trunk := { s.trunk with links := Vector.ofFn (fun k => { s.link k with flow := r.passI.get k }) } }
    let s := s.modHub (fun h => { h with sysAvg := r.vsys })
    let s := if s.hubUp && !s.ntcValid && s.charge.present then
        s.stamp .presence .housekeeping 0 (.removal .ntc s.gauge.vBat s.gauge.iMeas)
      else s
    match s.hub.hub with
    | .running | .booted _ _ => .next (s.stamp .thermal .housekeeping 0 .thermalRound)
    | _ => .next s

/-- What the ports of a die start of their own when policy resumes, after LIMP or a port die's shutdown (R191, R298,
R421): capabilities or a Request where a contract is missing. -/
def State.resumePort (s : State) (p : Port) : State :=
  let q := s.port p
  let s := s.modPort p (fun q => { q with wait := match q.wait with | .sourceCaps => .sourceCaps | _ => .idle, transition := false })
  if q.hrActive then s
  else
    match q.attach with
    | .sink =>
      if q.contract.kind = .none || q.softened then
        if q.caps.isSome then s.requestBest p else s.modPort p (fun q => { q with wait := .sourceCaps })
      else s
    | .source =>
      if !q.feeding then (if s.canFeed p then s.startFeed p else s)
      else if q.contract.kind = .none then s.sendCaps p else s
    | _ => s

/-- Dies in the order of their sensors: hub, lane dies, port dies, flash. -/
def releaseDie (d : Fin 8) : Sensor :=
  if h : d.val = 0 then .hub
  else if h1 : d.val < 5 then .laneDie ⟨d.val - 1, by omega⟩
  else if h2 : d.val < 7 then .portDie ⟨d.val - 5, by omega⟩
  else .flash

/-- SHUTDOWN_RELEASE (R298). -/
def execShutdownRelease (d : Fin 8) (s : State) : Out :=
  match releaseDie d with
  | .hub => if s.therm.hubShut && 10 ≤ s.therm.hubOkRounds then .next { s with therm := { s.therm with hubShut := false, hubOkRounds := 0 } } else .next s
  | .laneDie n =>
    if (s.lane n).shut && 10 ≤ (s.lane n).okRounds then
      .next (s.modLane n (fun l => { l with shut := false, shutDie := false, shutTsl := false, okRounds := 0 }))
    else .next s
  | .portDie m =>
    if (s.pdie m).shut && 10 ≤ (s.pdie m).okRounds then
      let s := s.modPd m (fun d => { d with shut := false, okRounds := 0 })
      .next (if s.hubUp then (List.finRange 4).foldl (fun s p => if portDie p = m then s.resumePort p else s) s else s)
    else .next s
  | .flash =>
    if s.therm.flashShut && 10 ≤ s.therm.flashOkRounds then
      .next { s with therm := { s.therm with flashShut := false, flashOkRounds := 0 }, flash := s.flash.kick }
    else .next s
  | _ => .next s

/-- SHUTDOWN_SLOT_WRITE (R302): the waiting slots are written in sensor order; 32 are kept. -/
def execShutdownSlotWrite (s : State) : Out :=
  match s.aon.slotPending with
  | [] => .next s
  | x :: r =>
    .next (s.modAon (fun a => { a with slotPending := r, slotSeq := a.slotSeq + 1
                                       slots := ({ x with seq := a.slotSeq } :: a.slots).take 32 }))

/-- Slots not yet copied go to the ledger in sequence order (R303). -/
def State.copySlots (s : State) : State :=
  let due := (s.aon.slots.filter (fun x => !x.copied)).reverse
  let s := due.foldl (fun s x => s.record 0x0901 ([BitVec.ofNat 8 x.sensor, BitVec.ofNat 8 x.cause] ++ sle 2 x.reading ++
    le32 x.seq ++ le32 x.tick)) s
  s.modAon (fun a => { a with slots := a.slots.map (fun (x : ShutSlot) => { x with copied := true }) })

/-! ### Throttling (R294-R296) -/

/-- T_LANE (R293). -/
def LaneDie.tLane (l : LaneDie) : DegC := if l.onLine then max l.tempDie l.tempTsl else l.tempDie

/-- A factor falls at once and rises with 2 degrees of hysteresis. -/
def factorStep (f : DegC → Rat) (k : Rat) (t : DegC) : Rat := if f t < k then f t else if k < f (t + 2) then f (t + 2) else k

def State.laneFactor (s : State) (t : DegC) : Rat :=
  let band := s.cfg.q 13 1 1
  1 - (1 - s.cfg.q 13 2 (5 / 100)) * clampR 0 1 ((t - (s.cfg.q 13 0 1 - band)) / band)

def State.portFactor (s : State) (t : DegC) : Rat := 1 - 1 / 2 * clampR 0 1 ((t - s.cfg.q 13 4 1) / 10)

/-- The factors of a round, and whether one fell: a thermal reduction (R245, R295). -/
def State.throttle (s : State) : State × Bool :=
  let t := s.therm
  let kL := Vector.ofFn (fun n => factorStep s.laneFactor (t.kL.get n) (s.lane n).tLane)
  let kP := Vector.ofFn (fun m => factorStep s.portFactor (t.kP.get m) (s.pdie m).temp)
  let fell := (List.finRange 4).any (fun n => kL.get n < t.kL.get n) || (List.finRange 2).any (fun m => kP.get m < t.kP.get m)
  ({ s with therm := { t with kL := kL, kP := kP } }, fell)

end Sys2Proof.Machine
end

