-- ==== Sys2Proof/Machine/Forecast.lean ====
section
/-! DEFINITION. The forecast port, allowances, pre-positioning and HDRM_N (chapter 10). -/

namespace Sys2Proof.Machine

def State.modFcst (s : State) (f : Forecast → Forecast) : State := { s with fcst := f s.fcst }

/-! ### Blocks (R242, R252) -/

/-- BLOCK_T in ticks. -/
def blockTicks (code : Int) : Nat := if code = 0 then 50 else if code = 2 then 200 else 100
def State.blockT (s : State) : Nat := blockTicks (s.cfg.get 12 1)
def State.stepP (s : State) : Watt := s.cfg.q 12 2 10

/-- Start of block b, in ticks: the present block's start and whole block periods. -/
def State.blockAt (s : State) (b : Nat) : Nat := s.fcst.blockStart + (b - s.fcst.block) * s.blockT

/-- The demand of a block that the present decision reckons with, where a frame has named it. -/
def Forecast.demand (f : Forecast) (b : Nat) : Option Demand := f.demands.find? (fun d => d.block == b)

/-- D(b): what the most recent frame handed over gave for b (R242), whether a decision has used that frame or not. -/
def Forecast.named (f : Forecast) (b : Nat) : Option Demand :=
  ((f.waiting.reverse.flatMap (·.2)).find? (fun d => d.block == b)).or (f.demand b)

/-- The frames stamped before tick m join the table the decision reckons with (R10, R242). -/
def State.landDemands (s : State) (m : Nat) : State :=
  let due := s.fcst.waiting.filter (fun x => ixBefore x.1 m)
  let all := due.foldl (fun l x => x.2 ++ l.filter (fun d => !x.2.any (fun y => y.block == d.block))) s.fcst.demands
  s.modFcst (fun f => { f with demands := all, waiting := f.waiting.filter (fun x => !ixBefore x.1 m) })

/-! ### Battery contribution (R244) -/

def State.rEst (s : State) : Ohm := if s.gauge.impLearned then s.gauge.rPack else s.cfg.q 12 5 (1 / 1000)
def State.rUse (s : State) : Ohm := s.rEst * (1 + s.cfg.q 12 4 (5 / 100))
def State.ocv (s : State) : Volt := s.gauge.vBat - s.gauge.iMeas * s.rEst
def State.batIdis (s : State) : Amp := s.cfg.q 12 7 1
def State.vMin (s : State) : Volt := s.cells * s.preTh
def State.sysFloor (s : State) : Volt := s.cfg.q 1 7 (1 / 10)

def min4 (a b c d : Rat) : Rat := min (min a b) (min c d)

/-- DIODE form of P_bat. -/
def State.pBatDiode (s : State) : Watt :=
  let r := s.rUse + s.cfg.q 12 6 (1 / 10000)
  let i := min s.batIdis (min (ratio (s.ocv - max s.vMin s.sysFloor) r) (ratio s.ocv (2 * r)))
  if i < 0 then 0 else i * (s.ocv - r * i)

def State.pBatSupplement (s : State) (n : Lane) : Watt :=
  let r := s.rUse
  let i := min4 (s.nodeCeil n) s.batIdis (ratio (s.ocv - s.vMin) r) (ratio s.ocv (2 * r))
  if i < 0 then 0 else etaPlan * i * (s.ocv - r * i)

/-- P_bat: zero with the battery absent or in SAFE; a SUPPLEMENT battery lane out of service leaves SYS to the ideal
diode (R299), so the DIODE form applies. -/
def State.pBat (s : State) : Watt :=
  if !s.charge.present || s.aon.safeLatch then 0
  else if s.cfg.supplement then
    match s.cfg.battLane with
    | some n => if s.laneFit n then s.pBatSupplement n else s.pBatDiode
    | none => s.pBatDiode
  else s.pBatDiode

/-! ### Allowance (R243, R245) -/

def clampW (x : Rat) : Rat := clampR 0 32767 x

/-- P_SUS. -/
def State.pSus (s : State) : Watt := clampW (etaPlan * s.sumAvail s.drawing + s.pBat)

/-- P_src(s, b): the raise at 10 A/ms completes by start(b) - 300 us, or the present allocation. -/
def State.pSrcAt (s : State) (x : Lane × Src) (start : Nat) : Watt :=
  let a := s.pAvail x.1 x.2
  let now := (s.node x.1).allocW
  let ms := ratio (max 0 (a - now)) (s.vSrc x.2) / 10
  if (s.effTick : Rat) + ms * 100 ≤ (start : Rat) - 30 then a else now

def State.allowanceAt (s : State) (start : Nat) : Watt :=
  clampW (etaPlan * sumR (s.drawing.map (fun x => s.pSrcAt x start)) + s.pBat)

/-- A(b) of the decision in whole watts; a word already sent is kept unless one of the events of R245 lowers it. -/
def State.allowance (s : State) (lowered : Bool) (b : Nat) : Nat :=
  let a := (quant (s.allowanceAt (s.blockAt b))).toNat
  match s.fcst.sent.find? (fun x => x.1 == b) with
  | some (_, w) => if lowered then a else max a w
  | none => a

def Forecast.allow (f : Forecast) (b : Nat) : Nat := ((f.allowances.find? (fun x => x.1 == b)).map (·.2)).getD 0

/-- The forecast condition of HDRM_N (R249). -/
def Forecast.short (f : Forecast) : Bool :=
  f.locked && (match f.named f.block with | some d => decide (f.allow f.block < d.watts) | none => false)

/-- The condition is set or released, and a block in which it stands is counted once. -/
def State.hdrmEval (s : State) : State :=
  let f := s.fcst
  let on := f.short
  let first := on && f.hdrmBlock != some f.block
  s.modFcst (fun f => { f with hdrm := on, hdrmBlock := if first then some f.block else f.hdrmBlock
                               hdrmBlocks := if first then bvSatInc f.hdrmBlocks else f.hdrmBlocks })

/-- HDRM_N (R39, R249): low while a lane die's droop comparator or the hold of R127 asserts the headroom line, or while
the forecast condition holds; in LIMP only the line acts. -/
def State.hdrmLow (s : State) : Bool :=
  s.lanes.toList.any (fun l => l.up && !l.shut && (l.drooping || l.field.headroomHold)) || (s.hubUp && s.fcst.hdrm)

/-! ### Steps (R246, R247) -/

/-- Square root to better than 10^-6 (log entry 11): Newton's iteration from above. -/
def newton (x : Rat) : Nat → Rat → Rat
  | 0, y => y
  | k + 1, y => newton x k (cut12 ((y + ratio x y) / 2))

def sqrtR (x : Rat) : Rat := if x ≤ 0 then 0 else newton x 40 (x + 1)

/-- Shares of R148 with P_SYS raised to a block's demand. -/
def State.sharesFor (s : State) (watts : Watt) : List (Lane × Watt) :=
  ({ s with hub := { s.hub with pSys := watts, pCorr := 0 }, fcst := { s.fcst with prepared := [] } }).shares

/-- Forecast current of each lane expected to carry a step (R246). -/
def State.stepLanes (s : State) (watts : Watt) (start : Nat) : List (Lane × Amp) :=
  let fit := match s.cfg.battLane with | some n => s.cfg.supplement && s.charge.present && s.laneFit n | none => false
  match fit, s.cfg.battLane with
  | true, some n =>
    let r := s.rUse
    let p := max 0 (watts - etaPlan * sumR (s.drawing.map (fun x => s.pSrcAt x start))) / etaPlan
    let disc := s.ocv * s.ocv - 4 * r * p
    [(n, if 0 ≤ disc then ratio (s.ocv - sqrtR disc) (2 * r) else ratio s.ocv (2 * r))]
  | _, _ => s.drawing.map (fun x =>
      (x.1, ratio (((s.sharesFor watts).find? (fun y => y.1 == x.1)).map (·.2) |>.getD 0) (s.vSrc x.2)))

/-- Raise time of the slowest source at 10 A/ms, in ticks. -/
def State.raiseTicks (s : State) (watts : Watt) : Nat :=
  let sh := s.sharesFor watts
  let ms := s.drawing.map (fun x =>
    let w := ((sh.find? (fun y => y.1 == x.1)).map (·.2)).getD 0
    ratio (max 0 (w - (s.node x.1).allocW)) (s.vSrc x.2) / 10)
  ((maxR 0 ms) * 100).ceil.toNat

def floorFor (nIn : Nat) (i per : Amp) : Nat := min nIn (ratio i per).ceil.toNat

/-- The actions of one step (R246). -/
def State.planStep (s : State) (d : Demand) (pre : Watt) : State :=
  let start := s.blockAt d.block
  let lanes := s.stepLanes d.watts start
  let raise : PrepEntry := { at_ := start - 30 - s.raiseTicks d.watts, act := .allocationRaise, lane := 0, step := d.block, value := d.watts }
  let each := lanes.flatMap (fun x =>
    let n := x.1
    let per := s.laneQ n 26 (5 / 100) * s.iavg n
    let nIn := ((s.cfg.gang n).map (fun m => (s.lane m).nIn)).sum
    let bias := d.onset && s.cfg.supplement && s.cfg.farKind n == .battery
    let warm : PrepEntry := { at_ := start - 103, act := .warm, lane := n, step := d.block, value := 0 }
    let floor : PrepEntry := { at_ := start - 100, act := .floorStep, lane := n, step := d.block, value := floorFor nIn x.2 per }
    let up : PrepEntry := { at_ := start, act := .bias, lane := n, step := d.block
                            value := s.cfg.q 12 8 (1 / 10) * (x.2 - sumR ((s.cfg.gang n).map (fun m => (s.lane m).loop.iLane))) }
    [warm, floor] ++ (if bias then [up] else []))
  s.modFcst (fun f => { f with
    prepared := f.prepared ++ [{ block := d.block, pre := pre, watts := d.watts, lanes := lanes.map (·.1), raised := false }]
    prep := f.prep ++ raise :: each, steps := bvSatInc f.steps })

/-- The demand that the block before gives, or P_SYS where no frame has named it (R246). -/
def State.before (s : State) (b : Nat) : Watt := match s.fcst.demand (b - 1) with | some x => x.watts | none => s.hub.pSys

/-- New steps of the demand table: each block's rise over the block before it, or over P_SYS where that is unknown. -/
def State.planSteps (s : State) : State :=
  s.fcst.demands.foldl (fun s d =>
    let pre := s.before d.block
    if s.fcst.block ≤ d.block && !s.fcst.prepared.any (fun x => x.block == d.block) && s.stepP < d.watts - pre then s.planStep d pre
    else s) s

/-- A frame to a lane that carries a step; the step-pending flag is a single notice. -/
def State.fcstSend (s : State) (n : Lane) (f : LaneOrder → LaneOrder) : State :=
  (s.sendNode n s.effTick .keep f).modNode n (fun k => { k with sent := k.sent.map (fun o => { o with stepPending := false }) })

/-- One action is sent (R118, R148, R246). -/
def State.prepAct (s : State) (e : PrepEntry) : State :=
  let s := s.modFcst (fun f => { f with prep := f.prep.filter (· != e) })
  match e.act with
  | .allocationRaise =>
    s.modFcst (fun f => { f with prepared := f.prepared.map (fun x => if x.block = e.step then { x with raised := true } else x) })
  | .warm => s.fcstSend e.lane (fun o => { o with warm := true })
  | .floorStep => s.fcstSend e.lane (fun o => { o with floor := e.value.floor.toNat, stepPending := true })
  | .bias =>
    (s.fcstSend e.lane (fun o => { o with iBias := e.value, biasSlew := 1000 })).modFcst (fun f => { f with biasFrom := some s.effTick })

/-- Actions due by the effective tick of this decision are sent in it. -/
def State.prepDue (s : State) : State := (s.fcst.prep.filter (fun e => e.at_ ≤ s.effTick)).foldl (fun s e => s.prepAct e) s

/-- The run of blocks of a step has ended (R247). -/
def State.stepOver (s : State) (x : FcstStep) : Bool :=
  x.block ≤ s.fcst.block &&
    (match s.fcst.demand s.fcst.block with | some d => decide ((d.watts : Rat) ≤ x.pre + s.stepP) | none => true)

/-- A newer frame has given a step to come another demand (R242): it is prepared anew, where it is still a step. -/
def State.stepRevised (s : State) (x : FcstStep) : Bool :=
  decide (s.fcst.block < x.block) && (s.fcst.demand x.block).any (fun d => decide ((d.watts : Rat) ≠ x.watts))

/-- Steps end: what was set for them alone is cleared, floors and warm requirements among it, and nothing more of them is
sent (R247). -/
def State.stepsEnd (s : State) (over_ : FcstStep → Bool) : State :=
  let ended := s.fcst.prepared.filter over_
  let rest := s.fcst.prepared.filter (fun x => !over_ x)
  let s := s.modFcst (fun f => { f with prepared := rest, prep := f.prep.filter (fun e => !ended.any (fun x => x.block == e.step)) })
  ended.foldl (fun s x => x.lanes.foldl (fun s n =>
    if rest.any (fun y => y.lanes.contains n) then s else s.fcstSend n (fun o => { o with floor := 0, warm := false })) s) s

/-! ### Lock and unlock (R250, R251) -/

def State.fcstUnlock (s : State) : State :=
  let lanes := (List.finRange 4).filter (fun n => match (s.node n).sent with
    | some o => o.floor != 0 || o.warm || o.iBias != 0 | none => false)
  let s := s.modFcst (fun f => { f with locked := false, run := 0, fresh := true, demands := [], waiting := [], prepared := [], prep := [], biasFrom := none, hdrm := false })
  if s.hubUp then lanes.foldl (fun s n => s.fcstSend n (fun o => { o with floor := 0, warm := false, iBias := 0, biasSlew := 0 })) s else s

/-- A case of R250 holds. -/
def State.fcstLost (s : State) : Bool :=
  !s.aon.vio || !s.cfg.on 12 0 || !s.hubUp || s.fcst.blockCode != s.cfg.get 12 1 || s.passed s.fcst.lastHanded (3 * s.blockT)

/-- The decision's allowances, after its events, and what follows from them (R242-R247). -/
def State.fcstDecide (s : State) (m : Nat) (lowered : Bool) : State :=
  let s := s.landDemands m
  let s := if s.fcst.locked && s.fcstLost then s.fcstUnlock else s
  let last := (s.fcst.demands.map (·.block)).foldl max (s.fcst.block + 15)
  let blocks := (List.range (last + 1 - s.fcst.block)).map (fun i => s.fcst.block + i)
  let al := blocks.map (fun b => (b, s.allowance lowered b))
  let fell := lowered && s.fcst.sent.any (fun x => s.fcst.block ≤ x.1 && al.any (fun y => y.1 == x.1 && decide (y.2 < x.2)))
  let pSus := s.pSus
  let pBat := s.pBat
  let s := s.modFcst (fun f => { f with
    allowances := al, pSus := pSus, pBat := pBat, revoked := f.revoked || fell
    sent := f.sent.filter (fun x => f.block ≤ x.1), demands := f.demands.filter (fun d => f.block ≤ d.block + 1) })
  let s := if s.fcst.locked then
      let s := (s.stepsEnd s.stepRevised).planSteps.prepDue
      s.stepsEnd s.stepOver
    else s
  s.hdrmEval

/-! ### Frames (R237-R241) -/

/-- The IO domain answers: VIO present and the hub running (R25, R43). -/
def State.ioUp (s : State) : Bool := s.hostUp

/-- Block number of the last frame start, from which later ones are counted. -/
def State.frameBlock (s : State) : Nat :=
  match s.fcst.lastFrame with
  | some t => s.fcst.block - (s.fcst.blockStart - t) / s.blockT
  | none => s.fcst.block

/-- Big-endian bytes of 16-bit units: fields are sent most significant bit first. -/
def unitBytes (l : List Half) : List Byte := l.flatMap (fun w => beBytes 2 w.toNat)

def State.fdoStatus (s : State) : Nat :=
  boolBit s.fcst.locked 0 + boolBit s.hdrmLow 1 + boolBit s.cfg.supplement 2 + boolBit s.charge.present 3 + boolBit s.fcst.revoked 4 +
  32 * (match s.aon.mode with | some m => modeCode m | none => 0)

/-- The FDO frame that a frame start begins to shift out (R239). -/
def State.fdoFrame (s : State) (n : Nat) (block : Nat) : List Half :=
  let head : List Half := [BitVec.ofNat 16 (4096 + 256 * n + s.fcst.lastSeq.toNat), BitVec.ofNat 16 s.fdoStatus]
  let words := (List.range (n + 1)).map (fun i => BitVec.ofNat 16 (min 32767 (s.fcst.allow (block + i))))
  let body := head ++ words
  body ++ [crc16 (unitBytes body)]

/-- FORECAST_FRAME_START (R237, R239, R242): the block of the frame, its allowances, the forecast condition. -/
def execForecastFrameStart (n : Fin 16) (s : State) : Out :=
  if !s.ioUp then .next s
  else
    let t := s.blockT
    let b := match s.fcst.lastFrame with
      | some f => s.frameBlock + max 1 ((2 * (s.now - f) + t) / (2 * t))
      | none => s.fcst.block + 1
    let words := (List.range (n.val + 1)).map (fun i => (b + i, s.fcst.allow (b + i)))
    let fdo := s.fdoFrame n.val b
    let s := s.modFcst (fun f => { f with
      block := b, blockStart := s.now, lastFrame := some s.now, lastN := n.val + 1, fdo := fdo, revoked := false
      revokedSent := if f.revoked then bvSatInc f.revokedSent else f.revokedSent
      sent := words ++ f.sent.filter (fun x => !words.any (fun y => y.1 == x.1)) })
    .next s.hdrmEval

/-- Demand words of a frame of the present block. -/
def frameDemands (b : Nat) (words : List Half) : List Demand :=
  (words.zip (List.range words.length)).map (fun x =>
    { block := b + 1 + x.2, watts := (x.1 &&& 0x7FFF).toNat, onset := x.1.getLsbD 15 })

/-- Interval from the previous frame start within 2% of BLOCK_T (R241). -/
def State.intervalOk (s : State) (ns : Nat) : Bool :=
  let t := s.blockT * 10000
  decide (98 * t ≤ 100 * ns ∧ 100 * ns ≤ 102 * t)

/-- A frame that is not handed over (R241): it breaks the run of R250. -/
def State.fcstDiscard (s : State) (f : Forecast → Forecast) : State :=
  s.modFcst (fun x => { f x with discarded := bvSatInc x.discarded, run := 0, fresh := false })

/-- FORECAST_FRAME_HANDOVER (R241, R242, R250): length, CRC, version, interval, in that order. -/
def execForecastFrameHandover (f : FdiFrame) (s : State) : Out :=
  if !s.ioUp || !s.cfg.on 12 0 then .next s
  else
    let w0 := (f.words.head?).getD 0
    let n := ((w0 >>> 8) &&& 15).toNat + 1
    let body := f.words.take (n + 2)
    if !f.complete || f.words.length != n + 3 then .next (s.fcstDiscard (fun x => { x with lenErr := satInc 32 x.lenErr }))
    else if f.words[n + 2]? != some (crc16 (unitBytes body)) then .next (s.fcstDiscard (fun x => { x with crcErr := satInc 32 x.crcErr }))
    else if w0 >>> 12 != 1 then .next (s.fcstDiscard (fun x => { x with verErr := satInc 32 x.verErr }))
    else
      let ok := s.intervalOk f.intervalNs
      if !s.fcst.fresh && !ok then .next (s.fcstDiscard (fun x => { x with intErr := satInc 32 x.intErr }))
      else
        let b := s.frameBlock
        let new := frameDemands b (body.drop 2)
        let start := (s.fcst.lastFrame).getD s.now
        let s := s.modFcst (fun x => { x with
          waiting := x.waiting ++ [(s.now, new)]
          lastSeq := BitVec.ofNat 8 w0.toNat, handed := bvSatInc x.handed, lateFrames := if f.late then satInc 32 x.lateFrames else x.lateFrames
          locked := x.locked || (0 < x.run && ok), run := x.run + 1, fresh := false, lastHanded := start, blockCode := s.cfg.get 12 1 })
        .next s

/-- BLOCK_START (R242, R249): a block start without a frame start. -/
def execBlockStart (s : State) : Out :=
  if s.fcst.lastFrame.isSome && s.fcst.blockStart + s.blockT ≤ s.now then
    .next (s.modFcst (fun f => { f with block := f.block + 1, blockStart := f.blockStart + s.blockT })).hdrmEval
  else .next s

/-- FORECAST_UNLOCK (R250, R251). -/
def execForecastUnlock (s : State) : Out := if s.fcst.locked && s.fcstLost then .next s.fcstUnlock else .next s

/-- PREPOSITION_ACTION (R246): an action whose tick has come. -/
def execPrepositionAction (n : Lane) (a : PrepAction) (s : State) : Out :=
  match s.fcst.prep.find? (fun e => e.act == a && (e.lane == n || a == .allocationRaise) && e.at_ ≤ s.effTick) with
  | some e => if s.hubUp then .next (s.prepAct e) else .next s
  | none => .next s

/-- BIAS_HOLD_EXPIRY (R246): 200 us after its start the bias falls to 0 at 1,000 A/ms; the frame goes out two ticks before. -/
def execBiasHoldExpiry (s : State) : Out :=
  match s.fcst.biasFrom, s.cfg.battLane with
  | some t, some n =>
    if s.hubUp && t + 20 ≤ s.effTick then
      .next ((s.fcstSend n (fun o => { o with iBias := 0, biasSlew := 1000 })).modFcst (fun f => { f with biasFrom := none }))
    else .next s
  | _, _ => .next s

/-! ### VIO (R43) -/

/-- VIO_LOST: the IO domain's inputs are ignored, VSEL keeps its code, the forecast stream counts as missing. -/
def execVioLost (s : State) : Out :=
  if s.aon.vio then
    let s := (s.modAon (fun a => { a with vio := false })).modHub (fun h => { h with vsel := [] })
    .next s.fcstUnlock
  else .next s

/-- VIO_RETURN: the next decision records the interval. -/
def execVioReturn (intervalUs : Nat) (s : State) : Out :=
  if s.aon.vio then .next s
  else .next ((s.modAon (fun a => { a with vio := true, vioUs := some intervalUs })).modHub (fun h => { h with vsel := [] }))

end Sys2Proof.Machine
end

