-- ==== Sys2Proof/Machine/SourceRows.lean ====
section
/-! DEFINITION. The commands of the sources (R136-R157). -/

namespace Sys2Proof.Machine

/-- SWAP_HOLD_EXPIRY (R140). -/
def execSwapHoldExpiry (node : Lane) (challenger : Src) (s : State) : Out :=
  let k := s.node node
  match k.selected with
  | some inc =>
    let held := k.challengers.filter (fun x => s.passed x.2 swapHold && s.heldCandidate x.1 && s.challenges node x.1 inc)
    if s.hubUp && s.heldCandidate inc && s.bestOf node (held.map (·.1)) == some challenger then .next (s.changeTo node (some challenger))
    else .next s
  | none => .next s

/-- ACIN_QUALIFIED (R136, R145): V_EXP of a brick and VOC of a panel are the mean with the pair open. -/
def execAcinQualified (v : Volt) (s : State) : Out :=
  let lo := if s.panel then s.cfg.q 10 8 (1 / 2) else s.cfg.q 10 5 (1 / 2)
  let k := s.conn acin
  if lo ≤ v && v ≤ s.cfg.q 10 6 (1 / 2) && (s.pdie 0).up && !(s.pdie 0).shut && k.lastTrip.isNone then
    let s := s.modConn acin (fun k => { k with qualified := true, v := v, vExp := if k.pair = .opened then v else k.vExp })
    .next ((s.stamp .presence (.port 0) acin.val (.qualified acin (s.conn acin).lockedOut)).ccRefresh)
  else .next s

/-- A panel's pair has closed (R151, R152): VOC, V_OP and the direction; the scan 1 s after its first closing is due. P_last,
which R151 leaves open before the first interval, starts at 0 (DESIGN CHOICE, log entry 131). -/
def HubSt.panelStart (h : HubSt) (voc : Volt) (now : Nat) : HubSt :=
  { h with panelVoc := voc, panelVop := 8 / 10 * voc, panelDir := -1, panelLast := 0, panelMean := none
           panelSeen := true, panelOnce := if h.panelSeen then h.panelOnce else some now
           panelScanAt := if h.panelSeen then h.panelScanAt else now }

/-- The two sides of a closing pair have met: within 1% of the connector voltage (R142); where a pass pair energises, the dead
side within 2% of the live one (R256). -/
def Conn.met (k : Conn) (conn inner : Volt) : Bool :=
  if k.energising then decide (rabs (conn - inner) ≤ max conn inner / 50) else decide (rabs (conn - inner) ≤ conn / 100)

/-- PAIR_CLOSED (R142, R151, R256): a panel's tracking starts. A pass pair's event is of the trunk class (R461). -/
def execPairClosed (c : Src) (conn vinl : Volt) (s : State) : Out :=
  if (s.conn c).pair = .closing && (s.conn c).met conn vinl then
    let s := s.modConn c (fun k => { k with pair := .closed, slew := 0, energising := false, v := conn, joinFails := 0, retryAt := 0 })
    let s := if c = acin && s.panel then { s with hub := s.hub.panelStart (s.conn acin).vExp s.now } else s
    .next ((s.stamp (if 5 ≤ c.val then .trunk else .presence) (.port (dieOfSrc c)) c.val (.pairClosed c)).ccRefresh)
  else .next s

/-- FAR_NODE_DRAIN_DONE (R142, R177). -/
def execFarNodeDrainDone (n : Lane) (vinl : Volt) (s : State) : Out :=
  let k := s.node n
  let note := fun (s : State) => (s.cfg.gang n).foldl (fun s m => s.modLane m (fun l => { l with loop := { l.loop with vinl := vinl } })) s
  match k.change with
  | some (c, .draining) =>
    if vinl ≤ max ((s.conn c).v - 1 / 2) (9 / 2) then
      let s := (s.cfg.gang n).foldl (fun s m => s.modLane m LaneDie.toStandby) s
      .next ((note s).modNode n (fun k => { k with change := some (c, .standby) }))
    else .next s
  | _ =>
    if k.drain && vinl ≤ 9 / 2 then .next ((note (s.stopNode n)).modNode n (fun k => { k with drain := false, sent := none }))
    else .next s

/-- DRAIN_TIMEOUT (R142): the change is abandoned for this decision. -/
def execDrainTimeout (n : Lane) (s : State) : Out :=
  match (s.node n).change with
  | some (_, .draining) =>
    if s.hubUp && s.passed (s.node n).openedAt (msTicks 10) then
      let s := s.sendNode n s.effTick .standby (fun o => { o with alloc := 0 })
      .next (s.modNode n (fun k => { k with selected := none, change := none }))
    else .next s
  | _ => .next s

/-- SAG_HOLD (R160). -/
def sagHold : Nat := secTicks 1

/-- SAG_LIMIT_LEARNED (R146): c_sag has stayed below C_SRC for SAG_HOLD. The sag event, which R461 names in no class, is
stamped in the presence class (DESIGN CHOICE, log entry 135). -/
def execSagLimitLearned (c : Src) (iMean : Amp) (s : State) : Out :=
  match s.cfg.nodeOf c with
  | some n =>
    let l := s.lane n
    let sag := l.active && l.loop.sagSince.any (fun t => s.passed t sagHold)
    if s.hubUp && c.val < 5 && !(c = acin && s.panel) && (s.node n).selected == some c && sag then
      let i := 95 / 100 * iMean
      let s := s.modConn c (fun k => { k with iLearn := some i, learnSince := s.now })
      .next ((s.record 0x0403 ([BitVec.ofNat 8 c.val, 0] ++ recI i)).stamp .presence .hubPeripheral c.val (.sag c))
    else .next s
  | none => .next s

/-- SAG_PROBE (R146). -/
def execSagProbe (c : Src) (s : State) : Out :=
  let k := s.conn c
  match k.iLearn with
  | some i =>
    if s.hubUp && s.passed k.learnSince (secTicks 10) then
      let x := i + s.iTerms c * (5 / 100)
      .next (s.modConn c (fun k => { k with iLearn := if s.iTerms c ≤ x then none else some x, learnSince := s.now }))
    else .next s
  | none => .next s

def State.panelDraws (s : State) : Bool :=
  s.panel && (s.conn acin).pair == .closed && (List.finRange 4).any (fun n => (s.node n).selected == some acin)

/-- PANEL_TRACK (R151). -/
def execPanelTrack (activeHalf : Bool) (p : Watt) (s : State) : Out :=
  if s.hubUp && s.panelDraws then
    let h := { s.hub with panelMean := some p }
    if activeHalf then
      let dir : Int := if p < h.panelLast then -h.panelDir else h.panelDir
      let v := h.panelVop + dir * (s.cfg.q 10 10 (1 / 1000)) * h.panelVop
      .next { s with hub := { h with panelDir := dir, panelLast := p
                                     panelVop := clampR (55 / 100 * h.panelVoc) (95 / 100 * h.panelVoc) v } }
    else .next { s with hub := h }
  else .next s

/-- The step of a scan with the highest mean power; of equals the first. -/
def bestStep (powers : Vector Watt 9) : Fin 9 :=
  (List.finRange 9).foldl (fun a i => if powers.get a < powers.get i then i else a) 0

/-- A scan is due (R152): once 1 s after the pair first closed, and every PANEL_SCAN, in force now, since the last one. -/
def State.scanDue (s : State) : Bool :=
  let every := (s.cfg.get 10 11).toNat
  s.hub.panelOnce.any (fun t => s.passed t (secTicks 1)) || (every != 0 && s.hub.panelSeen && s.passed s.hub.panelScanAt (secTicks (60 * every)))

/-- PANEL_SCAN (R152). -/
def execPanelScan (powers : Vector Watt 9) (s : State) : Out :=
  if s.hubUp && s.panelDraws && s.scanDue then
    let b := bestStep powers
    .next { s with hub := { s.hub with
      panelVop := (95 / 100 - b.val * (5 / 100)) * s.hub.panelVoc, panelLast := powers.get b, panelMean := some (powers.get b)
      panelOnce := none, panelScanAt := s.now } }
  else .next s

/-- Current in the pair's role direction; `i` counts from the connector into the device, and `mean` is a pass pair's current
averaged over the last 100 µs (R154, R257). -/
def State.forward (s : State) (c : Src) (i mean : Amp) : Amp :=
  match srcPort c, srcTrunk c with
  | some p, _ => if (s.port p).feeding then -i else i
  | none, some _ => if mean < 0 then -i else i
  | none, none => i

/-- A pass pair is neutral while that average lies within ±1.0 A (R257). -/
def neutralPair (c : Src) (mean : Amp) : Bool := (srcTrunk c).isSome && decide (rabs mean ≤ 1)

/-- Whether a protection's trigger holds (R153, R257). -/
def State.trips (s : State) (c : Src) (p : Protection) (v : Volt) (i mean : Amp) : Bool :=
  let k := s.conn c
  let f := s.forward c i mean
  let strong := if neutralPair c mean then rabs i else f
  let live := k.pair == .closed || (k.tripOpen && k.lastTrip == some s.now)
  match p with
  | .overVoltage => (k.pair != .opened || (k.tripOpen && k.lastTrip == some s.now)) && decide (s.vOv c < v)
  | .reverse => live && !neutralPair c mean && decide (f < -(1 / 2))
  | .overCurrent => live && decide (5 / 4 * s.iHard c < strong)
  | .short => live && decide (3 * s.iHard c < strong)

/-- PROTECTION_TRIP (R153-R155): both gates are pulled down; the connector leaves candidacy; the third trip in 60 s locks
it out. A protection that fires with the one that opened the pair only stamps its event. -/
def execProtectionTrip (c : Src) (p : Protection) (v : Volt) (x : TripCurrent) (s : State) : Out :=
  if (s.pdie (dieOfSrc c)).up && s.trips c p v x.i x.mean then
    let k := s.conn c
    let first := !k.tripOpen
    let recent := k.trips.filter (fun t => !s.passed t (secTicks 60))
    let lock := first && 2 ≤ recent.length
    let s := if first then
        let s := s.modConn c (fun k => { k with
          pair := .opened, slew := 0, tripOpen := true, qualified := false, v := v, i := x.i, trips := (s.now :: recent).take 3
          lastTrip := some s.now, lockedOut := k.lockedOut || lock, detached := false, iLearn := if lock then none else k.iLearn })
        s.modPd (dieOfSrc c) (fun d => { d with trips := satInc 32 d.trips })
      else s
    .next ((s.stamp .protection (.port (dieOfSrc c)) c.val (.trip c p v x.i first lock)).ccRefresh)
  else .next s

/-- REQUALIFY_AFTER_TRIP (R155). -/
def execRequalifyAfterTrip (c : Src) (s : State) : Out :=
  match (s.conn c).lastTrip with
  | some t => if s.passed t (secTicks 1) then .next (s.modConn c (fun k => { k with lastTrip := none })) else .next s
  | none => .next s

/-- LOCKOUT_END_LOW_VOLTAGE (R155). -/
def execLockoutEndLowVoltage (c : Src) (v : Volt) (s : State) : Out :=
  if 4 ≤ c.val && v < 4 && (s.conn c).lockedOut then
    .next (s.modConn c (fun k => { k with lockedOut := false, trips := [], detached := k.detached || decide (c = acin) }))
  else .next s

/-- Highest voltage at which an input connector qualifies (R136, R170). -/
def State.vTop (s : State) (c : Src) : Volt := if c = acin then s.cfg.q 10 6 (1 / 2) else s.vOv c

/-- SOURCE_LOST (R156): the pair opens and the event is stamped. The trunk's pass pairs stay closed (R277); a port in FRS
watch keeps its pair (R185); VBUS that falls after a Hard Reset ends it for the sink, and VBUS that returns is met at 5 V
(R170, R180). A connector whose pair is open and whose voltage has left its range upward is no longer qualified (R136), nor is a trunk bus above 63.0 V (R277). -/
def execSourceLost (c : Src) (v : Volt) (s : State) : Out :=
  if !(s.pdie (dieOfSrc c)).up then .next s
  else if s.vLost c ≤ v then
    if c.val < 5 && (s.conn c).qualified && (s.conn c).pair == .opened && s.vTop c < v then
      let s := s.modConn c (fun k => { k with qualified := false, v := v })
      .next ((s.stamp .presence (.port (dieOfSrc c)) c.val (.unqualified c)).ccRefresh)
    else if 5 ≤ c.val && s.trunkIx.all (· == c) && s.trunk.busQualified && 63 < v then
      .next ({ s with trunk := { s.trunk with busQualified := false } }.stamp .presence (.port 1) c.val (.unqualified c))
    else .next s
  else
    match srcPort c with
    | some p =>
      let q := s.port p
      if q.attach = .sink && ((s.conn c).qualified || (s.conn c).pair != .opened || q.hrActive) then
        let cut := q.transition
        let s := s.openPair c
        let s := s.modConn c (fun k => { k with qualified := false, v := v, vExp := if q.hrActive then 5 else k.vExp, vOld := none })
        let s := (s.swapVbus p false).modPort p (fun q => { q with hrActive := false, transition := false, wait := if cut then .idle else q.wait })
        .next ((s.stamp .presence (.port (portDie p)) c.val (.sourceLost c cut)).ccRefresh)
      else .next s
    | none =>
      if c = acin then
        if (s.conn c).qualified || (s.conn c).pair != .opened then
          let s := (s.openPair c).modConn c (fun k => { k with qualified := false, v := v })
          .next ((s.stamp .presence (.port 0) c.val (.sourceLost c false)).ccRefresh)
        else .next s
      else if s.trunkIx.all (· == c) && s.trunk.busQualified then
        let s := { s with trunk := { s.trunk with busQualified := false } }
        .next (s.stamp .presence (.port 1) c.val (.sourceLost c false))
      else .next s

/-- FAR_NODE_LOST (R156): the lane's own comparator ends every energy-storing interval; standby. -/
def execFarNodeLost (n : Lane) (v : Volt) (s : State) : Out :=
  let l := s.lane n
  if l.active && l.order.dir = .draw && v < l.order.vLost then
    .next ((s.modLane n (fun l => { l.toStandby with loop := { l.toStandby.loop with vinl := v } })).stamp .presence (.lane n) n.val .farNodeLost)
  else .next s

end Sys2Proof.Machine
end

