-- ==== Sys2Proof/Machine/Trunk.lean ====
section
/-! DEFINITION. The Dvor trunk (chapter 11): frames and queues, node IDs, fleet time, the captain, the grant layer, the
update relay, and the ring rules its inbox shares with the telemetry streams (R316, R329). -/

namespace Sys2Proof.Machine

def State.modTrunk (s : State) (f : Trunk → Trunk) : State := { s with trunk := f s.trunk }
def State.modDue (s : State) (f : TrunkDue → TrunkDue) : State := s.modTrunk (fun t => { t with due := f t.due })
def State.trkOn (s : State) : Bool := s.cfg.on 11 1

/-- Nanoseconds of the local clock since tick 0. -/
def State.localNs (s : State) : Nat := s.now * 10000 + s.time.edges * 10

/-! ### Rings in a region (R316, R329) -/

/-- A record is put in a ring whose indices stand at `base` and whose `size` data bytes begin at base + 16; none where it
does not fit between the indices. A record never wraps: where too few bytes remain a marker is written and the record
starts at offset 0. -/
def State.ringPut (s : State) (base size : Nat) (rec_ : List Byte) : Option State :=
  let wr := u32 (s.memRead base 4) 0
  let rd := u32 (s.memRead (base + 4) 4) 0
  let n := rec_.length
  if wr + n ≤ size then
    if (wr < rd && wr + n < rd) || (rd ≤ wr && (wr + n < size || rd != 0)) then
      some ((s.memWrite (base + 16 + wr) rec_).memWrite base (le32 ((wr + n) % size)))
    else none
  else if rd ≤ wr && n < rd then
    let s := if wr + 4 ≤ size then s.memWrite (base + 16 + wr) (le32 0xFFFFFFFF) else s
    some ((s.memWrite (base + 16) rec_).memWrite base (le32 n))
  else none

/-! ### Frames (R260, R263) -/

def frameBytes (f : TrunkFrame) : List Byte :=
  let b := [1, f.type] ++ le16 f.dst.toNat ++ le16 f.src.toNat ++ le16 f.hops.toNat ++ le16 f.seq.toNat ++
    le16 f.payload.length ++ f.payload
  b ++ le32 (crc32c b).toNat

/-- The frame that a port's bytes carry, where they are valid (R263). -/
def parseFrame (b : List Byte) : Option TrunkFrame :=
  let n := u16 b 10
  if 16 ≤ b.length && u8 b 0 == 1 && n ≤ 272 && b.length == 16 + n && crc32c (b.take (12 + n)) == BitVec.ofNat 32 (u32 b (12 + n)) then
    some { type := BitVec.ofNat 8 (u8 b 1), dst := BitVec.ofNat 12 (u16 b 2), src := BitVec.ofNat 12 (u16 b 4)
           hops := BitVec.ofNat 16 (u16 b 6), seq := BitVec.ofNat 16 (u16 b 8), payload := slice b 12 n }
  else none

/-- Priority order of R268, 0 first. -/
def frameRank (type : Byte) : Nat :=
  if type = 2 then 0 else if type = 3 then 1 else if type = 6 then 2 else if type = 5 then 3 else if type = 4 then 4
  else if type = 1 then 5 else if type = 8 || type = 0x0A then 7 else if type = 7 then 8 else 6

def worstRank (q : List TrunkFrame) : Nat := (q.map (fun f => frameRank f.type)).foldl max 0
def bestRank (q : List TrunkFrame) : Nat := (q.map (fun f => frameRank f.type)).foldl min 8

/-- A frame joins a port's queue; a full queue drops the oldest of its lowest priority (R268). -/
def State.enqueue (s : State) (t : TrunkPort) (f : TrunkFrame) : State :=
  let q := (s.link t).queue
  if q.length < 16 then s.modLink t (fun l => { l with queue := q ++ [f] })
  else
    let i := q.findIdx (fun x => frameRank x.type == worstRank q)
    (s.modLink t (fun l => { l with queue := q.eraseIdx i ++ [f] })).modPd 1 (fun d => { d with dropped := satInc 32 d.dropped })

def State.upPorts (s : State) : List TrunkPort := (List.finRange 2).filter (fun t => (s.link t).up)

/-- A frame of this member, with its next SEQ (R260). -/
def State.newFrame (s : State) (type : Byte) (dst : BitVec 12) (payload : List Byte) : TrunkFrame :=
  { type := type, dst := dst, src := s.trunk.nodeId, hops := 0, seq := s.trunk.seq, payload := payload }

/-- The member originates a frame on the given ports. -/
def State.originate (s : State) (ports : List TrunkPort) (type : Byte) (dst : BitVec 12) (payload : List Byte) : State :=
  let f := s.newFrame type dst payload
  ports.foldl (fun s t => s.enqueue t f) (s.modTrunk (fun t => { t with seq := t.seq + 1 }))

/-- A frame to every link-up port, which waits in the session engine while a queue is full. -/
def State.originateHeld (s : State) (type : Byte) (dst : BitVec 12) (payload : List Byte) : State :=
  let f := s.newFrame type dst payload
  s.upPorts.foldl (fun s t =>
    if (s.link t).queue.length < 16 then s.enqueue t f else s.modLink t (fun l => { l with backlog := l.backlog ++ [f] }))
    (s.modTrunk (fun t => { t with seq := t.seq + 1 }))

/-- Link delay D: the mean of the last 8 results (R265). -/
def Link.delay (l : Link) : Rat := ratio (sumR l.delays) l.delays.length

/-! ### Node IDs and neighbours (R264-R266) -/

def State.derived (s : State) : Bool := s.cfg.get 11 2 == 0
def State.myUnit (s : State) : Dword := s.otp.unit

/-- The derived ID: 1 + (unit ID mod 4,094), or the one it has moved to after a clash (R264, R266). -/
def State.unitId (s : State) : BitVec 12 := s.trunk.derivedId.getD (BitVec.ofNat 12 (1 + s.myUnit.toNat % 4094))

/-- The ID from TRK_NODE_ID or the unit ID; a member that takes a new one joins again (R264, R290). -/
def State.takeNodeId (s : State) : State :=
  let id : BitVec 12 := if s.derived then s.unitId else BitVec.ofInt 12 (s.cfg.get 11 2)
  if id = s.trunk.nodeId then s
  else s.modTrunk (fun t => { t with nodeId := id, dupId := false, due := { t.due with report := t.captain.map (fun _ => s.now) } })

/-- The member loses its node ID (R266). -/
def State.loseId (s : State) (port : Nat) : State :=
  let id := s.trunk.nodeId
  if s.derived then
    (s.modTrunk (fun t => { t with derivedId := some (BitVec.ofNat 12 (id.toNat % 4094 + 1)) })).takeNodeId
  else if s.trunk.dupId then s
  else
    (s.modTrunk (fun t => { t with dupId := true, pBase := 5, pendingGrant := none, session := 0xFF, leaseEnd := 0 })).record 0x0503
      ([2, BitVec.ofNat 8 port] ++ le16 id.toNat)

def State.standsIn (s : State) (t : TrunkPort) : Bool := (List.finRange 4).any (fun p => (s.port p).tmode && s.modePort p == t)

/-- The HELLO payload (R265); TURN is set where the answer is sent. -/
def State.helloPayload (s : State) (t : TrunkPort) (req : Bool) (answer : Option Half) : List Byte :=
  le64 s.myUnit.toNat ++ le16 1 ++
  [BitVec.ofNat 8 (boolBit req 0 + boolBit s.derived 1 + boolBit s.trkOn 2 + boolBit (s.standsIn t) 3), BitVec.ofNat 8 t.val] ++
  le16 ((answer.map (·.toNat)).getD 0xFFFF) ++ [0, 0] ++ le32 0 ++
  le16 ((s.trunk.captain.map (·.node.toNat)).getD 0) ++ [0, 0]

/-- A HELLO at its port (R265, R266): link-up, link delay, answer, clash. -/
def State.takeHello (s : State) (a : TrunkArrival) (f : TrunkFrame) : State :=
  let t := a.port
  let p := f.payload
  let wasUp := (s.link t).up
  let unit : Dword := BitVec.ofNat 64 (u64 p 0)
  let turn := u32 p 16
  let measured := match (s.link t).asked.find? (fun x => x.1.toNat == u16 p 12) with
    | some x => if turn < 1000000 then [((a.sfdNs : Rat) - x.2 - turn) / 2] else []
    | none => []
  let s := s.modLink t (fun l => { l with
    up := true, upAt := if l.up then l.upAt else s.now, lastRx := s.now, neighbour := some (f.src, unit)
    delays := (measured ++ l.delays).take 8, asked := l.asked.filter (fun x => x.1.toNat != u16 p 12) })
  let s := if wasUp then s else s.stamp .trunk .trunk t.val (.linkUp t)
  let s := if (u8 p 10).testBit 0 then s.originate [t] 1 0 (s.helloPayload t false (some f.seq)) else s
  if f.src = s.trunk.nodeId && unit.toNat < s.myUnit.toNat then s.loseId t.val else s

/-! ### Repetition (R267) -/

def State.seenOf (s : State) (src : BitVec 12) : Option SeenSrc :=
  s.trunk.seen.find? (fun x => x.src == src && !s.passed x.tick (secTicks 2))

def seqNewer (new old : Half) : Bool := 1 ≤ (new - old).toNat && (new - old).toNat ≤ 32767

def otherPort (t : TrunkPort) : TrunkPort := if t = 0 then 1 else 0

/-- Whether a valid frame that arrived on port t is repeated on the other one. -/
def State.repeats (s : State) (t : TrunkPort) (f : TrunkFrame) : Bool :=
  f.dst != 0 && f.dst != s.trunk.nodeId && f.hops.toNat < 1023 && (s.link (otherPort t)).up &&
  (match s.seenOf f.src with | some x => x.seq.all (fun q => seqNewer f.seq q) | none => true) &&
  (f.dst == 0xFFF || (match s.seenOf f.dst with | some x => x.port != t | none => true))

/-- CORR of a BEACON, signed ns (R269). -/
def addCorr (p : List Byte) (x : Rat) : List Byte := p.take 8 ++ sle 4 (i32 p 8 + quant x) ++ p.drop 12

def State.noteSeen (s : State) (t : TrunkPort) (f : TrunkFrame) (repeated : Bool) : State :=
  let old := (s.seenOf f.src).bind (·.seq)
  let e : SeenSrc := { src := f.src, seq := if repeated then some f.seq else old, port := t, tick := s.now }
  s.modTrunk (fun x => { x with seen := e :: x.seen.filter (fun y => y.src != f.src && !s.passed y.tick (secTicks 2)) })

def State.repeatFrame (s : State) (t : TrunkPort) (f : TrunkFrame) : State :=
  let r := s.repeats t f
  let g := { f with hops := f.hops + 1, payload := if f.type = 2 then addCorr f.payload (s.link t).delay else f.payload }
  let s' := s.noteSeen t f r
  if r then s'.enqueue (otherPort t) g else s'

/-! ### Fleet time (R269, R270) -/

def fleetBound (hops : Half) : Rat := 4500 + 40 * hops.toNat

/-- The fleet clock is disciplined by a BEACON of the captain followed. -/
def State.discipline (s : State) (a : TrunkArrival) (f : TrunkFrame) (newEpoch : Bool) : State :=
  let p := f.payload
  let target : Rat := (u64 p 0 : Rat) * 1000 + i32 p 8 + (s.link a.port).delay
  let mine := s.time.fleetNs - ((s.localNs : Rat) - a.sfdNs) * s.time.fleetRate
  let err := target - mine
  if !s.time.fleetSet || newEpoch || 1000000 < rabs err then
    let s := { s with time := { s.time with fleetNs := s.time.fleetNs + err, fleetSet := true, fleetLocked := false, fleetRun := 0
                                            fleetSteps := min (s.time.fleetSteps + 1) 65535 } }
    s.record 0x0501 (sle 8 (quant (err / 1000)) ++ le16 f.src.toNat)
  else
    let run := if rabs err ≤ fleetBound f.hops then s.time.fleetRun + 1 else 0
    { s with time := { s.time with fleetNs := s.time.fleetNs + clampR (-50000) 50000 err
                                   fleetRate := Config.fleetRateCorrection s.time.fleetRate (err / 1000)
                                   fleetRun := min run 8, fleetLocked := decide (8 ≤ run) } }

/-- Fleet time counts as locked; a captain keeps it (R269, R270). -/
def State.fleetHeld (s : State) : Bool := s.time.fleetLocked || s.trunk.isCaptain

/-! ### Feed capacity (R276) -/

/-- SYS load without the feed. -/
def State.pOwn (s : State) : Watt := s.hub.pSys - s.trunkFeedW

def State.nonTrunk (s : State) : List (Lane × Src) := s.drawing.filter (fun x => x.2.val < 5)

/-- C_F, whole tens of watts, scaled by the thermal minimum of port die 1 and the lane (R296). -/
def State.feedCap (s : State) : Nat :=
  match s.cfg.trunkLane with
  | none => 0
  | some n =>
    let lane := min s.tapV s.sysV * sumR ((s.cfg.gang n).map (fun m => s.rawCeil m))
    let spare := etaPlan * (etaPlan * s.sumAvail s.nonTrunk - s.pOwn)
    (s.kConn 5 * min (s.cfg.q 11 9 10) (min lane spare) / 10).floor.toNat * 10

/-! ### The captain (R271-R274) -/

/-- Rank of keys (R271). -/
def CapKey.better (a b : CapKey) : Bool :=
  if a.always != b.always then a.always
  else if a.cf ≠ b.cf then decide (b.cf < a.cf)
  else decide (a.node.toNat < b.node.toNat)

def State.myKey (s : State) : CapKey := { always := s.cfg.get 11 3 == 1, cf := s.feedCap, node := s.trunk.nodeId }

def State.mayClaim (s : State) : Bool :=
  s.trkOn && (s.cfg.get 11 3 == 1 || (s.cfg.get 11 3 == 0 && 0 < s.feedCap))

def keyOfBeacon (f : TrunkFrame) : CapKey := { always := u8 f.payload 20 == 1, cf := u16 f.payload 22, node := f.src }
def keyOfClaim (f : TrunkFrame) : CapKey := { always := u8 f.payload 8 == 1, cf := u16 f.payload 10, node := f.src }

/-- 150 ms, the captain's loss limit (R291). -/
def lossTicks : Nat := msTicks 150

def State.startClaim (s : State) : State :=
  if s.trunk.claiming.isSome then s
  else s.modTrunk (fun t => { t with claiming := some s.now, due := { t.due with claim := s.now } })

/-- The captain steps down (R273, R274). -/
def State.stepDown (s : State) (cause : Byte) (node : BitVec 12) : State :=
  (s.modTrunk (fun t => { t with isCaptain := false, roster := [], sessions := [], unrostered := [], captain := none
                                 lastBeacon := none, capZeroSince := none })).record 0x0502 ([2, cause] ++ le16 node.toNat)

/-- A BEACON (R269-R273). -/
def State.takeBeacon (s : State) (a : TrunkArrival) (f : TrunkFrame) : State :=
  let key := keyOfBeacon f
  if s.trunk.isCaptain && !key.better (s.trunk.captain.getD s.myKey) then s
  else
    let s := if s.trunk.isCaptain then s.stepDown 0 f.src else s
    let heard := s.trunk.lastBeacon.any (fun t => !s.passed t lossTicks)
    let other := match s.trunk.captain with
      | some c => heard && c.node != key.node && c.better key
      | none => false
    if other then s
    else
      let epoch : Word := BitVec.ofNat 32 (u32 f.payload 16)
      let newEpoch := epoch != s.trunk.fleetEpoch
      let joins := newEpoch || s.trunk.captain.isNone
      let newCap := s.trunk.captain.any (fun c => c.node != key.node) || s.trunk.captain.isNone
      let s := s.discipline a f newEpoch
      let s := s.modTrunk (fun t => { t with
        captain := some key, captainUnit := BitVec.ofNat 64 (u64 f.payload 24), lastBeacon := some s.now, hopsBeacon := f.hops
        beaconNo := BitVec.ofNat 32 (u32 f.payload 12), fleetEpoch := epoch
        constRecorded := t.constRecorded && !newCap, constDiffer := t.constDiffer && !newCap
        claiming := if key.better s.myKey then none else t.claiming
        due := if joins then { t.due with report := some s.now } else t.due })
      if s.cfg.get 11 3 = 1 && s.mayClaim && s.myKey.better key then s.startClaim else s

/-- A CLAIM (R272). -/
def State.takeClaim (s : State) (f : TrunkFrame) : State :=
  if (keyOfClaim f).better s.myKey then s.modTrunk (fun t => { t with claiming := none, betterClaim := some s.now }) else s

/-- BEACON payload; T_ORIGIN and CORR are set at the start delimiter (R269). -/
def State.beaconPayload (s : State) : List Byte :=
  let k := s.trunk.captain.getD s.myKey
  le64 0 ++ le32 0 ++ le32 s.trunk.beaconNo.toNat ++ le32 s.trunk.fleetEpoch.toNat ++
  [boolByte k.always, 0] ++ le16 k.cf ++ le64 s.myUnit.toNat ++
  le16 ((s.trunk.roster.filter (fun e => e.state == 1 || e.state == 2)).length) ++ [0, 0]

def State.sendBeacon (s : State) : State :=
  let s := s.modTrunk (fun t => { t with beaconNo := t.beaconNo + 1, due := { t.due with beacon := s.now + msTicks 50 } })
  s.originate s.upPorts 2 0xFFF s.beaconPayload

/-- The claimant becomes captain: BEACON at once, BULLETIN 250 ms later (R272). -/
def State.electCaptain (s : State) : State :=
  let key := s.myKey
  let s := s.modTrunk (fun t => { t with
    isCaptain := true, claiming := none, captain := some key, captainUnit := s.myUnit, roster := [], sessions := []
    fleetEpoch := if s.time.fleetSet then t.fleetEpoch else s.myUnit.setWidth 32, capZeroSince := none
    due := { t.due with bulletin := s.now + msTicks 250, unrostered := s.now + secTicks 1, report := some s.now } })
  (s.record 0x0502 ([1, 0] ++ le16 s.trunk.nodeId.toNat)).sendBeacon

/-- Captaincy at the first decision after a hub reset (R274): better keys are those of the frames that wait. -/
def State.resumeCaptain (s : State) : State :=
  if !s.trunk.isCaptain then s
  else
    let key := s.trunk.captain.getD s.myKey
    let betterHeard := s.events.findSome? (fun e => match e.kind with
      | .trunkFrame _ f => if (f.type = 2 && (keyOfBeacon f).better key) || (f.type = 6 && (keyOfClaim f).better key) then some f.src else none
      | _ => none)
    match betterHeard with
    | some n => s.stepDown 0 n
    | none =>
      let s := s.modDue (fun d => { d with bulletin := s.now + msTicks 250, unrostered := s.now + secTicks 1, report := some s.now })
      (s.record 0x0502 ([3, 0] ++ le16 s.trunk.nodeId.toNat)).sendBeacon

/-- What FUNC_START on TRUNK changes at once (R290). -/
def State.trunkApplied (s : State) : State :=
  let s := if s.trunk.isCaptain && (!s.trkOn || s.cfg.get 11 3 = 2) then
      s.modTrunk (fun t => { t with isCaptain := false, roster := [], sessions := [], unrostered := [], captain := none, lastBeacon := none })
    else s
  if s.trkOn then s else s.modTrunk (fun t => { t with claiming := none, due := { t.due with report := none } })

/-! ### The grant layer (R278-R284) -/

/-- DRAW_REQ, whole watts (R278). -/
def State.drawReq (s : State) : Nat := (min (s.cfg.q 11 11 10) s.pReq).floor.toNat

/-- Power the trunk lane draws, and feeds, now. -/
def State.trunkDrawW (s : State) : Watt :=
  sumR ((List.finRange 4).map (fun n => if s.cfg.farKind n = .trunk ∧ (s.lane n).order.role ≠ .feed then max 0 (s.lane n).powerAtSys else 0))

def State.wholeW (x : Watt) : Nat := min 0xFFFF (quant x).toNat

/-- The REPORT payload (R278). -/
def State.reportPayload (s : State) : List Byte :=
  let v := s.fwVersion
  let droop := match s.cfg.trunkLane with | some n => (s.lane n).droopLaw | none => false
  le64 s.myUnit.toNat ++ le16 (if s.trunk.feedingTrunk then s.feedCap else 0) ++ le16 (State.wholeW s.trunkFeedW) ++
  le16 s.drawReq ++ le16 (State.wholeW s.trunkDrawW) ++ qle 2 s.tapV (1 / 100) ++
  [modeByte s.aon.mode, BitVec.ofNat 8 (chgCode s.charge.phase),
   if s.gauge.socQualified then BitVec.ofNat 8 (s.soc * 100).floor.toNat else 0xFF,
   BitVec.ofNat 8 (boolBit s.charge.present 0 + boolBit droop 1 + boolBit (s.cfg.get 11 11 == 0) 2 + boolBit s.trunk.constDiffer 3 +
     boolBit s.derived 4),
   BitVec.ofInt 8 (s.cfg.get 11 4), boolByte (s.cfg.get 11 3 == 1)] ++
  le16 ((v.get 0).toNat * 256 + (v.get 1).toNat) ++ [0, 0] ++
  [BitVec.ofNat 8 (updCode s.update.st), BitVec.ofNat 8 s.update.reason] ++ le16 (s.update.tag.toNat % 65536)

/-- GRANT payload (R282). -/
def grantPayload (epoch : Word) (g : Nat) (status session : Nat) (eff leaseEnd : Nat) (unit : Dword) : List Byte :=
  le32 epoch.toNat ++ le16 g ++ [BitVec.ofNat 8 status, BitVec.ofNat 8 session] ++ le64 eff ++ le64 leaseEnd ++ le64 unit.toNat

/-- A GRANT addressed to this member (R266, R280, R282). -/
def State.takeGrant (s : State) (p : List Byte) : State :=
  let g : Watt := u16 p 4
  let drop := fun (t : Trunk) => { t with pBase := 5, session := 0xFF, leaseEnd := 0, pendingGrant := none }
  if u64 p 24 != s.myUnit.toNat then s
  else
    match u8 p 6 with
    | 0 =>
      if s.trunk.dupId then s
      else s.modTrunk (fun t => { t with
        unrost := false, session := BitVec.ofNat 8 (u8 p 7), leaseEnd := u64 p 16
        pBase := if g < t.pBase || u64 p 8 ≤ s.fleetUs then g else t.pBase
        pendingGrant := if t.pBase < g && s.fleetUs < u64 p 8 then some (g, u64 p 8) else none })
    | 1 => s.modTrunk (fun t => { drop t with unrost := false })
    | 2 => s.modTrunk (fun t => { drop t with unrost := true })
    | 3 => s.loseId 0xFF
    | _ => s

/-- The captain sends a GRANT; its own is applied where it stands. -/
def State.sendGrant (s : State) (node : BitVec 12) (p : List Byte) : State :=
  if node = s.trunk.nodeId && u64 p 24 = s.myUnit.toNat then s.takeGrant p else s.originateHeld 5 node p

/-- A roster entry from a REPORT (R279); slot, state, grant and session stay. -/
def rosterFrom (old : RosterEntry) (f : TrunkFrame) (us : Nat) : RosterEntry :=
  let p := f.payload
  { old with nodeId := f.src, state := if old.session = 0xFF then 1 else 2, flags := BitVec.ofNat 8 (u8 p 21)
             unit := BitVec.ofNat 64 (u64 p 0), hops := f.hops, fw := BitVec.ofNat 16 (u16 p 24)
             feedCap := BitVec.ofNat 16 (u16 p 8), drawReq := BitVec.ofNat 16 (u16 p 12), feedNow := BitVec.ofNat 16 (u16 p 10)
             drawNow := BitVec.ofNat 16 (u16 p 14), vTap := BitVec.ofNat 16 (u16 p 16), prio := BitVec.ofNat 8 (u8 p 22)
             mode := BitVec.ofNat 8 (u8 p 18), soc := BitVec.ofNat 8 (u8 p 20), seenUs := us, upd := BitVec.ofNat 32 (u32 p 28) }

def RosterEntry.blank (slot : Nat) : RosterEntry :=
  { slot := slot, nodeId := 0, state := 0, flags := 0, unit := 0, hops := 0, fw := 0, feedCap := 0, drawReq := 0, feedNow := 0
    drawNow := 0, vTap := 0, grant := 0, session := 0xFF, prio := 0, mode := 0, soc := 0, seenUs := 0, upd := 0 }

def State.freeSlot (s : State) : Option Nat :=
  (List.range 512).find? (fun i => !s.trunk.roster.any (fun e => e.slot == i))

def insertSlot (e : RosterEntry) : List RosterEntry → List RosterEntry
  | [] => [e]
  | x :: r => if e.slot < x.slot then e :: x :: r else if e.slot = x.slot then e :: r else x :: insertSlot e r

/-- A DUPLICATE GRANT (R266). -/
def State.sendDuplicate (s : State) (node : BitVec 12) (unit : Dword) : State :=
  s.sendGrant node (grantPayload s.trunk.epoch 0 3 0xFF s.fleetUs s.fleetUs unit)

/-- A REPORT at the captain (R266, R280). -/
def State.takeReport (s : State) (f : TrunkFrame) : State :=
  if !s.trunk.isCaptain then s
  else
    let unit : Dword := BitVec.ofNat 64 (u64 f.payload 0)
    match s.trunk.roster.find? (fun e => e.nodeId == f.src) with
    | some e =>
      if e.unit.toNat < unit.toNat then s.sendDuplicate f.src unit
      else
        let s := if unit.toNat < e.unit.toNat then s.sendDuplicate f.src e.unit else s
        s.modTrunk (fun t => { t with roster := insertSlot (rosterFrom e f s.fleetUs) t.roster })
    | none =>
      match s.freeSlot with
      | some i =>
        let left := s.trunk.unrostered.filter (fun x => x.1 != f.src)
        s.modTrunk (fun t => { t with roster := insertSlot (rosterFrom (.blank i) f s.fleetUs) t.roster, unrostered := left })
      | none =>
        let others := s.trunk.unrostered.filter (fun x => x.1 != f.src && !s.passed x.2.1 (secTicks 2))
        s.modTrunk (fun t => { t with unrostered := (f.src, s.now, unit) :: others })

/-! #### Allocation (R281) -/

def RosterEntry.inPlay (e : RosterEntry) : Bool := e.state == 1 || e.state == 2
def RosterEntry.neverDraws (e : RosterEntry) : Bool := e.flags.getLsbD 2

/-- Order of candidates: TRK_PRIO, then holders of a session, then node ID. -/
def candBefore (a b : RosterEntry) : Bool :=
  if a.prio ≠ b.prio then decide (a.prio.toNat < b.prio.toNat)
  else if (a.session = 0xFF) ≠ (b.session = 0xFF) then decide (a.session ≠ 0xFF)
  else decide (a.nodeId.toNat < b.nodeId.toNat)

def insertCand (e : RosterEntry) : List RosterEntry → List RosterEntry
  | [] => [e]
  | x :: r => if candBefore e x then e :: x :: r else x :: insertCand e r

def sortCand (l : List RosterEntry) : List RosterEntry := l.foldr insertCand []

/-- λ with Σ min(d, λ) = left, over demands in ascending order. -/
def waterLevel : List Rat → Rat → Rat
  | [], left => left
  | d :: r, left => if left ≤ d * (r.length + 1 : Nat) then left / (r.length + 1 : Nat) else waterLevel r (left - d)

/-- One class of the allocation: grants above P_FLOOR and what is left. -/
def shareLevel (l : List RosterEntry) (left : Rat) : List (RosterEntry × Nat) × Rat :=
  let d := l.map (fun e => (e.drawReq.toNat : Rat) - 5)
  let want := sumR d
  if left ≤ 0 then (l.map (fun e => (e, 5)), left)
  else if want ≤ left then (l.map (fun e => (e, e.drawReq.toNat)), left - want)
  else
    let lam := waterLevel (sortRat d) left
    (l.map (fun e => (e, (5 + min ((e.drawReq.toNat : Rat) - 5) lam).floor.toNat)), 0)

structure Alloc where
  feed : Nat
  budget : Rat
  grants : List (RosterEntry × Nat)
  members : Nat
  unrostered : Nat
  deriving DecidableEq, Repr

def State.allocGrants (s : State) : Alloc :=
  let ros := s.trunk.roster.filter (·.inPlay)
  let feed : Nat := (ros.map (fun e => e.feedCap.toNat)).sum
  let b := (1 - s.cfg.q 11 14 (1 / 100)) * feed
  let sl := (sortCand (ros.filter (fun e => 10 ≤ e.drawReq.toNat && !e.neverDraws))).take 100
  let unr := (s.trunk.unrostered.filter (fun x => !s.passed x.2.1 (secTicks 2))).length
  let nNs := (ros.filter (fun e => !e.neverDraws && !sl.any (fun x => x.nodeId == e.nodeId))).length + unr
  let left : Rat := b - 5 * nNs - 5 * sl.length
  let cls := fun (k : Nat) => sl.filter (fun e => e.prio.toNat == k)
  let r := [0, 1, 2, 3].foldl (fun (acc : List (RosterEntry × Nat) × Rat) k =>
    let x := shareLevel (cls k) acc.2
    (acc.1 ++ x.1, x.2)) ([], left)
  { feed := feed, budget := b, grants := r.1, members := ros.length, unrostered := unr }

/-- The lowest session index that neither an open nor a closing entry holds; a closing one where all are held. -/
def freeSession (l : List Session) : Nat :=
  match (List.range 100).find? (fun i => !l.any (fun x => x.index == i)) with
  | some i => i
  | none => ((List.range 100).find? (fun i => !l.any (fun x => x.index == i && x.state == 1))).getD 0

/-- The session of a member of S: renewed, or opened. -/
def State.openOrRenew (s : State) (e : RosterEntry) (g us : Nat) : State :=
  let p := fun (x : Session) => ({ x with
    prio := e.prio, grant := BitVec.ofNat 16 g, request := e.drawReq, used := e.drawNow
    leaseLo := BitVec.ofNat 32 (us + 1000000), renewals := x.renewals + 1 } : Session)
  let mine := fun (x : Session) => x.nodeId == e.nodeId && x.state == 1
  let s : State := match s.trunk.sessions.find? mine with
    | some _ =>
      let l := s.trunk.sessions.map (fun (x : Session) => if mine x then p x else x)
      s.modTrunk (fun t => { t with sessions := l })
    | none =>
      let i := freeSession s.trunk.sessions
      let id := s.trunk.sessionId + 1
      let new : Session :=
        { index := i, nodeId := e.nodeId, state := 1, prio := 0, grant := 0, request := 0, openedLo := BitVec.ofNat 32 us
          leaseLo := 0, used := 0, id := id, renewals := 0 }
      let l := s.trunk.sessions.filter (fun (x : Session) => x.index != i)
      s.modTrunk (fun t => { t with sessionId := id, sessions := l ++ [p new] })
  let idx := ((s.trunk.sessions.find? mine).map (·.index)).getD 0xFF
  let s := s.modTrunk (fun t => { t with roster := insertSlot { e with state := 2, grant := BitVec.ofNat 16 g, session := BitVec.ofNat 8 idx } t.roster })
  s.sendGrant e.nodeId (grantPayload s.trunk.epoch g 0 idx (us + 200000) (us + 1000000) e.unit)

/-- A member that has fallen out of S (R281). -/
def State.closeGrant (s : State) (x : Session) (us : Nat) : State :=
  let ses := s.trunk.sessions.map (fun (y : Session) => if y.index = x.index then { y with state := 2, grant := 0 } else y)
  let ros := s.trunk.roster.map (fun (e : RosterEntry) =>
    if e.nodeId = x.nodeId then { e with session := 0xFF, grant := 0, state := if e.state = 2 then 1 else e.state } else e)
  let s := s.modTrunk (fun t => { t with sessions := ses, roster := ros })
  match s.trunk.roster.find? (fun e => e.nodeId == x.nodeId) with
  | some e => s.sendGrant x.nodeId (grantPayload s.trunk.epoch 0 1 x.index us us e.unit)
  | none => s

/-- BULLETIN payload (R284). -/
def State.bulletinPayload (s : State) (a : Alloc) (us : Nat) : List Byte :=
  let ros := s.trunk.roster.filter (·.inPlay)
  let draw : Nat := (ros.map (fun e => e.drawNow.toNat)).sum
  le32 s.trunk.epoch.toNat ++ le64 us ++ le32 a.feed ++ le32 (quant a.budget).toNat ++ le32 (a.grants.map (·.2)).sum ++
  le16 a.members ++ le16 a.grants.length ++ le16 a.unrostered ++ le16 (ros.filter (fun e => 0 < e.feedCap.toNat)).length ++
  le16 (s.cfg.get 11 5 * 10).toNat ++ le16 (s.cfg.get 11 6 * 10).toNat ++ le16 (s.cfg.get 11 14 * 10).toNat ++ le32 draw ++
  [BitVec.ofNat 8 (boolBit (decide (a.feed < draw)) 0 + boolBit (ros.any (fun e => e.flags.getLsbD 3)) 1), 0, 0, 0, 0, 0]

/-- The captain allocates, broadcasts the BULLETIN and sends the GRANTs (R281, R282). -/
def State.sendBulletin (s : State) : State :=
  let us := s.fleetUs
  let open_ := s.trunk.sessions.filter (fun x => x.state == 1)
  let s := s.modTrunk (fun t => { t with epoch := t.epoch + 1, sessions := open_
                                         due := { t.due with bulletin := s.now + msTicks 250, report := some (s.now + 200 * (t.nodeId.toNat % 100)) } })
  let a := s.allocGrants
  let s := s.originate s.upPorts 3 0xFFF (s.bulletinPayload a us)
  let out := s.trunk.sessions.filter (fun x => !a.grants.any (fun g => g.1.nodeId == x.nodeId))
  let s := out.foldl (fun s x => s.closeGrant x us) s
  a.grants.foldl (fun s g => s.openOrRenew g.1 g.2 us) s

/-- A BULLETIN of the captain (R278, R284). -/
def State.takeBulletin (s : State) (f : TrunkFrame) : State :=
  if s.trunk.isCaptain || s.trunk.captain.all (fun c => c.node != f.src) then s
  else
    let p := f.payload
    let differ := (u16 p 32 : Int) != s.cfg.get 11 5 * 10 || (u16 p 34 : Int) != s.cfg.get 11 6 * 10
    let note := differ && !s.trunk.constRecorded
    let s := s.modTrunk (fun t => { t with constDiffer := differ, constRecorded := t.constRecorded || differ
                                           due := { t.due with report := some (s.now + 200 * (t.nodeId.toNat % 100)) } })
    if note then s.record 0x0503 ([3, 0xFF] ++ le16 f.src.toNat) else s

/-! ### The update relay (R286, R287, R404) -/

/-- The bytes of the stream from a, n of them, where every fragment that covers them is held. -/
def Update.streamBytes (u : Update) (a n : Nat) : Option (List Byte) :=
  let first := a / 256
  let count := (a + n + 255) / 256 - first
  let parts := (List.range count).map (fun i => u.fragments.find? (fun f => f.1 == first + i))
  if parts.all (·.isSome) then some (slice (parts.flatMap (fun p => ((p.map (·.2)).getD []))) (a - first * 256) n) else none

/-- The stream of a sealed local package (R398). -/
def Update.stream (u : Update) : List Byte :=
  u.manifest ++ (List.range (manBlocks u.manifest)).flatMap (fun i =>
    match u.held i with | some b => le32 i ++ le32 b.2.1.toNat ++ padTo 4096 b.2.2 | none => []) ++ u.signature

/-- Fragments or bytes held without a gap from offset 0 (R287, R362). -/
def Update.contiguous (u : Update) : Nat :=
  if u.relayed then
    let n := ((List.range ((u.relayLength + 255) / 256)).takeWhile (fun i => u.fragments.any (fun f => f.1 == i))).length
    min (n * 256) u.relayLength
  else if u.manifest.isEmpty then 0
  else
    let n := ((List.range (manBlocks u.manifest)).takeWhile (fun i => (u.held i).isSome)).length
    u.manifest.length + 4104 * n + (if n = manBlocks u.manifest then u.signature.length else 0)

/-- The member seals a complete relayed stream by itself, once the build has ended (R404). -/
def State.sealRelayed (s : State) : State :=
  let u := s.update
  if u.relayed && u.st == .receiving && !u.manifest.isEmpty && u.allHeld && u.buildDone then
    match u.streamBytes (manStream u.manifest - 64) 64 with
    | some sig =>
      match s.sealReason sig with
      | some r => s.rejectSession r
      | none => s.sealSession sig
    | none => s
  else s

/-- The manifest of a relayed package, once its bytes are held, is checked under R401. -/
def State.relayedManifest (s : State) : State :=
  let u := s.update
  if u.st != .receiving || !u.manifest.isEmpty then s
  else
    match u.streamBytes 0 160 with
    | none => s
    | some h =>
      match u.streamBytes 0 (160 + 8 * manUnits h) with
      | none => s
      | some m =>
        match s.manCheck m with
        | some e => (s.modUpd (fun u => { u with manifest := m })).rejectSession e.2
        | none => s.openSession m u.tag

/-- Records that have become complete (R404). -/
def State.relayedRecords (s : State) : State :=
  if s.update.st != .receiving || s.update.manifest.isEmpty then s
  else
    (List.range (manBlocks s.update.manifest)).foldl (fun s i =>
      let u := s.update
      if (u.held i).isSome then s
      else
        match u.streamBytes (u.manifest.length + 4104 * i) 4104 with
        | none => s
        | some r =>
          if blockOk i r then
            (s.modUpd (fun u => { u with blocks := u.blocks ++ [(i, BitVec.ofNat 32 (u32 r 4), r.drop 8)] })).journal 2 i (u32 r 4)
          else s.modUpd (fun u => u.eraseRecord i)) s

/-- An UPDATE fragment (R404): none is stored while the flash die is shut down. -/
def State.takeUpdate (s : State) (f : TrunkFrame) : State :=
  let p := f.payload
  let tag : Word := BitVec.ofNat 32 (u32 p 0)
  let u := s.update
  let begins := !u.isOpen && s.flash.stagingErased && !(u.st == .rejected && u.tag == tag) && !s.trunk.relay
  if s.therm.flashShut || p.length != 272 then s
  else
    let s := if begins then
        s.modUpd (fun u => { Update.zero with st := .receiving, tag := tag, relayed := true, origin := f.src
                                              relayLength := u32 p 8, target := u.target })
      else s
    let u := s.update
    let i := u32 p 4 / 256
    if u.relayed && u.st == .receiving && u.tag == tag && u32 p 4 % 256 == 0 && u32 p 4 < u.relayLength then
      let s := if u.fragments.any (fun x => x.1 == i) then s
        else { s.modUpd (fun u => { u with fragments := u.fragments ++ [(i, slice p 16 256)], origin := f.src }) with
               flash := { s.flash with stagingErased := false } }
      s.relayedManifest.relayedRecords.sealRelayed
    else s

def ackStateCode : UpdState → Nat
  | .sealedUp => 1 | .armed => 2 | .rejected => 3 | .idle | .receiving | .active => 0

/-- The 46 bytes of an UPDATE_ACK (R287). -/
def State.ackPayload (s : State) : List Byte :=
  let u := s.update
  let held := u.contiguous
  let base := held / 256
  let total := (u.relayLength + 255) / 256
  let miss := fun (k : Nat) => decide (base + k < total) && !u.fragments.any (fun f => f.1 == base + k)
  le32 u.tag.toNat ++ le32 held ++ le32 (base * 256) ++
  (List.range 32).map (fun b => BitVec.ofNat 8 ((List.range 8).foldl (fun a j => a + boolBit (miss (8 * b + j)) j) 0)) ++
  [BitVec.ofNat 8 (ackStateCode u.st), BitVec.ofNat 8 u.reason]

def insertNat (x : Nat) : List Nat → List Nat
  | [] => [x]
  | y :: r => if x < y then x :: y :: r else if x = y then y :: r else y :: insertNat x r

/-- An UPDATE_ACK at the origin: its state, and the fragments it names as missing. -/
def State.takeAck (s : State) (f : TrunkFrame) : State :=
  let p := f.payload
  if !s.trunk.relay || u32 p 0 != s.update.tag.toNat || p.length != 46 then s
  else
    let total := (s.update.stream.length + 255) / 256
    let named := (List.range 256).filter (fun k => (u8 p (12 + k / 8)).testBit (k % 8) && u32 p 8 / 256 + k < total)
    s.modTrunk (fun t => { t with ackStates := (f.src, u8 p 44) :: t.ackStates.filter (fun x => x.1 != f.src)
                                  resend := named.foldl (fun l k => insertNat (u32 p 8 / 256 + k) l) t.resend })

/-- A KICKOFF (R404). -/
def State.takeKickoff (s : State) (f : TrunkFrame) : State :=
  let u := s.update
  let t := u64 f.payload 4
  let now := s.fleetUs
  if !(u.st == .receiving || u.st == .sealedUp || u.st == .armed) || u32 f.payload 0 != u.tag.toNat then s
  else
    match u.kickoff with
    | none => s.setKickoff t
    | some old =>
      if old = t && !u.kickDone then s
      else if now + 1000000 ≤ t && (now + 1000000 ≤ old || (old ≤ now && u.kickDone && 9 ≤ u.reason && u.reason ≤ 12)) then s.setKickoff t
      else s

/-- A MESSAGE becomes a record of the MBX6 inbox, with the tick at which it was handed to the hub (R329). -/
def State.takeMessage (s : State) (tick : Nat) (f : TrunkFrame) : State :=
  let n := f.payload.length
  let pad := (4 - n % 4) % 4
  let rec_ := le32 s.trunk.inboxSeq.toNat ++ le32 tick ++ le16 f.src.toNat ++ le16 f.seq.toNat ++ le16 f.hops.toNat ++
    le16 n ++ f.payload ++ List.replicate pad 0
  let s := s.modTrunk (fun t => { t with inboxSeq := t.inboxSeq + 1 })
  match s.ringPut 0x28000 16368 rec_ with
  | some s => s.setHdb 24
  | none => (s.modTrunk (fun t => { t with inboxLost := t.inboxLost + 1 })).setHdb 25

/-- A consumed frame as the hub acts on it (R261, R267). -/
def State.takeFrame (s : State) (tick : Nat) (a : TrunkArrival) (f : TrunkFrame) : State :=
  match f.type.toNat with
  | 2 => s.takeBeacon a f
  | 3 => s.takeBulletin f
  | 4 => s.takeReport f
  | 5 => s.takeGrant f.payload
  | 6 => s.takeClaim f
  | 7 => s.takeUpdate f
  | 8 => s.takeAck f
  | 9 => s.takeMessage tick f
  | 10 => s.takeKickoff f
  | _ => s

end Sys2Proof.Machine
end

