-- ==== Sys2Proof/Machine/Telemetry.lean ====
section
/-! DEFINITION. Telemetry (chapter 13): round channels, publication, capture, block reads, streams. -/

namespace Sys2Proof.Machine

def State.modTel (s : State) (f : Tel → Tel) : State := { s with tel := f s.tel }

/-! ### Units and round channels (R307, R308) -/

def unitCode (c : Nat) : Nat :=
  if c < 20 then 1 else if c < 28 then 2 else if c < 32 then 3 else if c < 46 then 5
  else if c = 46 then 2 else if c = 47 then 1 else if c = 48 then 3 else if c = 49 then 6 else if c = 50 then 7 else if c = 51 then 0x0A
  else if c = 52 then 2 else if c < 56 then 3 else if c < 63 then 1 else if c < 70 then 2 else if c < 72 then 1 else if c < 76 then 4
  else if c = 76 then 1 else if c = 77 then 2 else if c = 78 then 8 else if c = 79 then 0x0B else if c < 86 then 9 else if c < 90 then 2
  else if c < 93 then 4 else if c = 93 then 2 else if c = 94 then 0x0B else 6

/-- A(B) and D(B) of the present block, by block number. -/
def blockAllowance (f : Forecast) : Rat := (((f.allowances.find? (fun x => x.1 == f.block)).map (·.2)).getD 0 : Nat)
def blockDemand (f : Forecast) : Rat := (((f.demands.find? (fun x => x.block == f.block)).map (·.watts)).getD 0 : Nat)

/-- Far nodes with their selected sources. -/
def State.selectedSources (s : State) : List (Lane × Src) :=
  (List.finRange 4).filterMap (fun n => (s.node n).selected.map (fun c => (n, c)))

/-- What a port die reads at a connector is valid while it runs and is not in shutdown (R308). -/
def State.connRead (s : State) (c : Src) : Bool :=
  s.cfg.connFit c && (s.pdie (dieOfSrc c)).up && !(s.pdie (dieOfSrc c)).shut

/-- The round samples of R307 that are valid: channel and exact value in the channel's unit. -/
def State.roundSamples (s : State) : List (Fin 96 × Rat) :=
  let g := fun (b : Nat) (l : List (Bool × Rat)) => (l.zipIdx.filter (fun x => x.1.1)).map (fun x => (chan b x.2, x.1.2))
  let lanes := List.finRange 4
  let pds := List.finRange 2
  let srcs := List.finRange 7
  let t := s.therm
  let trunk := s.cfg.trunkLane.isSome
  let battery := s.charge.present
  let info := fun (f : RoundInfo → Rat) => match s.therm.info with | some r => (true, f r) | none => (false, 0)
  g 32 (lanes.map (fun n => let l := s.lane n; (l.up && l.dieOk && !l.shut, l.tempDie * 10))) ++
  g 36 (lanes.map (fun n => let l := s.lane n; (l.up && l.onLine && l.tslOk && !l.shut, l.tempTsl * 10))) ++
  g 40 ([(t.hubOk && !t.hubShut, t.hubT * 10)] ++ pds.map (fun m => let d := s.pdie m; (d.up && d.tempOk && !d.shut, d.temp * 10)) ++
    [(t.flashOk && !t.flashShut, t.flashT * 10)]) ++
  g 44 (pds.map (fun k => (t.tbOk.get k && (k == 0 || s.cfg.get 0 13 != 0), t.tb.get k * 10))) ++
  g 49 [(battery, s.soc * 10000), (battery, s.gauge.rPack * 10000), (battery, s.soh * 100), info (·.vsys * 1000)] ++
  g 56 (srcs.map (fun c => (s.connRead c, (s.conn c).i * 1000))) ++
  g 63 (srcs.map (fun c => (s.connRead c, (s.conn c).v * 1000))) ++
  g 70 (pds.map (fun k => (s.connRead (trunkSrc k), (s.link k).flow * 1000))) ++
  g 72 [(s.fcst.locked, blockAllowance s.fcst), (s.fcst.locked, blockDemand s.fcst), (true, s.fcst.pSus), (true, s.sumAvail s.selectedSources),
        (true, s.charge.iSet * 1000), (true, s.charge.cvTarget * 1000), (true, s.charge.fastS),
        (true, (chgCode s.charge.phase + 256 * s.charge.causes.toNat : Nat))] ++
  g 80 (lanes.map (fun n => (s.cfg.laneFitted n, t.kL.get n * 1000)) ++ pds.map (fun m => (true, t.kP.get m * 1000))) ++
  g 86 [info (·.vdd33 * 1000), info (·.vpwr * 1000), info (·.vio * 1000), info (·.vdrv * 1000), (trunk, s.trunk.pBase)] ++
  g 92 [(trunk, (s.feedCap : Rat)), (true, s.hub.sysTarget * 1000),
        (true, (lanes.foldl (fun a n => a + (s.lane n).nField * 16 ^ n.val) 0 : Nat)), info (·.hdrmShare * 10000)]

/-! ### Publication (R308-R311) -/

def wordOf (x : Int) : Word := BitVec.ofInt 32 x
def orNone (o : Option Int) : Word := match o with | some v => wordOf v | none => 0x80000000

/-- The round ends for one channel: its round value joins the average; extremes that a lane die held are folded. -/
def Channel.endRound (c : Channel) : Channel :=
  let c := { c with max := match c.heldMax with | some v => some (maxSample c.max v) | none => c.max
                    min := match c.heldMin with | some v => some (minSample c.min v) | none => c.min
                    heldMax := none, heldMin := none }
  if c.n = 0 then c else { c with rounds := (truncQ (c.sum / c.n) :: c.rounds).take (2 ^ c.k) }

/-- The published words of a channel (R308, R309). -/
def Channel.words (c : Channel) (unit tick : Nat) (oldInst : Word) : Vector Word 8 :=
  let inst := if c.n = 0 then oldInst else orNone c.last
  let avg := if unit = 0x0B || c.rounds.isEmpty then 0x80000000
    else wordOf (truncQ ((c.rounds.foldl (· + ·) 0 : Int) / (c.rounds.length : Rat)))
  #v[inst, avg, orNone c.max, orNone c.min, BitVec.ofNat 32 c.count, BitVec.ofNat 32 tick,
     BitVec.ofNat 32 (c.k + boolBit (decide (0 < c.n)) 8 + boolBit (decide (2 ^ c.k ≤ c.rounds.length)) 9 + unit * 65536), c.seq]

/-- The next interval (R310, R313). -/
def Channel.newInterval (c : Channel) (seq : Word) : Channel := { c with max := none, min := none, count := 0, seq := seq }

def Channel.newRound (c : Channel) : Channel := { c with sum := 0, n := 0 }

def Tel.capturing (t : Tel) : Bool := t.streams.toList.any (fun o => o.any (·.capture))

/-- A capturing stream writes a record at this publication. -/
def Tel.streamDue (t : Tel) : Bool := t.streams.toList.any (fun o => o.any (fun x => x.capture && x.left ≤ 1))

/-- All blocks at one publication, stamped with the tick at the end of the round; a capture accepted before that end takes
effect, closes the interval and freezes them (R311, R313). -/
def State.publish (s : State) : State :=
  let t := s.tel
  let cap := !t.frozen && ((t.pending && t.pendingAt ≤ s.therm.roundTick) || t.streamDue)
  let seq := if cap then t.capSeq + 1 else t.capSeq
  let chans := Vector.ofFn (fun (i : Fin 96) =>
    let c := (t.chans.get i).endRound
    let c := if t.frozen then c else { c with block := c.words (unitCode i.val) s.therm.roundTick (c.block.get 0) }
    (if cap then c.newInterval seq else c).newRound)
  s.modTel (fun t => { t with chans := chans, frozen := t.frozen || cap, pending := t.pending && !cap, capSeq := seq
                              capTick := if cap then BitVec.ofNat 32 s.therm.roundTick else t.capTick, frozenAt := if cap then s.now else t.frozenAt })

/-! ### Streams (R315, R316) -/

def maskChans (m : BitVec 96) : List (Fin 96) := (List.finRange 96).filter (fun i => m.getLsbD i.val)

/-- One record (R316). -/
def State.streamRecord (s : State) (x : Stream) (captured : Bool) : List Byte :=
  let cs := maskChans x.mask
  le32 x.seq.toNat ++ le32 s.therm.roundTick ++ le16 cs.length ++
  [BitVec.ofNat 8 x.fields.toNat, BitVec.ofNat 8 (boolBit captured 0 + boolBit x.lost 1)] ++ le32 s.tel.capSeq.toNat ++
  cs.flatMap (fun i => (List.finRange 5).flatMap (fun f =>
    if x.fields.getLsbD f.val then le32 ((s.tel.chans.get i).block.get ⟨f.val, by omega⟩).toNat else []))

/-- A stream at a publication: its record every `period` rounds, dropped and counted where it does not fit. -/
def State.streamStep (s : State) (captured : Bool) (c : HostChan) : State :=
  match s.tel.streams.get c with
  | none => s
  | some x =>
    if 1 < x.left then s.modTel (fun t => { t with streams := vput t.streams c (some { x with left := x.left - 1 }) })
    else
      let rec_ := s.streamRecord x (x.capture && captured)
      match s.ringPut (mbxBase c + 0x2000) 8176 rec_ with
      | some s =>
        (s.modTel (fun t => { t with streams := vput t.streams c (some { x with left := x.period, seq := x.seq + 1, lost := false }) })).setHdb (4 * c.val + 2)
      | none => s.modTel (fun t => { t with streams := vput t.streams c (some { x with left := x.period, seq := x.seq + 1, lost := true })
                                            dropped := t.dropped + 1 })

/-- TELEMETRY_PUBLISH (R311). The round value of channel 53 is P_SYS for the next decisions (R148). A capturing stream ends
the freeze once its record is written. -/
def execTelemetryPublish (s : State) : Out :=
  if !s.hubUp then .next s
  else
    let s := s.modTel (fun t => s.roundSamples.foldl (fun t x => t.sample true x.1 x.2) t)
    let c := s.tel.chans.get 53
    let s := if c.n = 0 then s else s.modHub (fun h => { h with pSys := truncQ (c.sum / c.n) / 100 })
    let was := s.tel.frozen
    let byStream := s.tel.streamDue && !was
    let s := s.publish
    let s := (List.finRange 3).foldl (fun s c => s.streamStep (!was && s.tel.frozen) c) s
    .next (if byStream then s.modTel (fun t => { t with frozen := false }) else s)

/-! ### Capture and reads (R312, R313) -/

/-- TEL_FREEZE_TIMEOUT. -/
def execTelFreezeTimeout (s : State) : Out :=
  if s.hubUp && s.tel.frozen && s.passed s.tel.frozenAt (msTicks (s.cfg.get 14 1).toNat) then .next (s.modTel (fun t => { t with frozen := false }))
  else .next s

def ifaceIx (i : Iface) : Fin 3 := match i with | .spi => 0 | .i2c => 1 | .uart => 2

/-- The block's words as its first word is read (R312). -/
def State.latchBlock (s : State) (i : Iface) (c : Fin 96) : State :=
  s.modTel (fun t => { t with latch := vput t.latch (ifaceIx i) (some (c.val, (t.chans.get c).block.toList)) })

/-- TEL_BLOCK_READ. -/
def execTelBlockRead (i : Iface) (c : Fin 96) (s : State) : Out := if s.hostUp then .next (s.latchBlock i c) else .next s

def State.capture (s : State) : State :=
  if s.tel.pending || s.tel.frozen || s.tel.capturing then s.modTel (fun t => { t with ignored := true })
  else s.modTel (fun t => { t with pending := true, pendingAt := s.now })

def State.releaseTel (s : State) : State := s.modTel (fun t => { t with frozen := false })

/-- CAPTURE. -/
def execCapture (s : State) : Out := if s.hostUp then .next s.capture else .next s

/-- RELEASE. -/
def execRelease (s : State) : Out := if s.hostUp then .next s.releaseTel else .next s

end Sys2Proof.Machine
end

