-- ==== Sys2Proof/Machine/Timers.lean ====
section
/-! DEFINITION. The timer unit and the watchdog (chapter 16). -/

namespace Sys2Proof.Machine

/-! ### Control fields (R374) -/

def Tmr.en (t : Tmr) : Bool := t.ctl.getLsbD 0
def Tmr.prescale (t : Tmr) : Nat := (t.ctl.toNat / 2) % 16
def Tmr.linked (t : Tmr) : Bool := t.ctl.getLsbD 5
def Tmr.setEn (t : Tmr) (b : Bool) : Tmr := { t with ctl := (t.ctl &&& ~~~1#32) ||| (if b then 1 else 0) }

/-- SELF, PART and EVT of compare k, or of the overflow for k = 4. -/
def Tmr.action (t : Tmr) (k : Nat) : Nat × Nat × Bool :=
  if k = 4 then (t.ctl.toNat / 64 % 4, t.ctl.toNat / 256 % 4, t.ctl.getLsbD 10)
  else
    let f := t.ctl.toNat / 2 ^ (11 + 5 * k) % 32
    (f % 4, f / 4 % 4, f / 16 == 1)

def TmrAct.none : TmrAct := { reset := false, stop := false, start := false }

/-- A code of R368 joins what waits for a counter. -/
def TmrAct.add (a : TmrAct) (code : Nat) : TmrAct :=
  if code = 1 then { a with reset := true } else if code = 2 then { a with stop := true }
  else if code = 3 then { a with start := true } else a

/-! ### One clock edge (R366-R368) -/

/-- A counter after one edge: its new value, whether the count became another, and whether it wrapped. -/
structure Counted where
  t : Tmr
  changed : Bool
  wrapped : Bool
  deriving DecidableEq, Repr

/-- Pending actions apply: a reset with whatever else arrives, a stop before a start; else the count advances. -/
def Tmr.count (t : Tmr) : Counted :=
  let a := t.act
  let run := t.en && !a.stop
  let t1 := { t.setEn (!a.stop && (t.en || a.start)) with act := TmrAct.none }
  if a.reset then { t := { t1 with cnt := 0, presc := 0 }, changed := t.cnt != 0, wrapped := false }
  else if !run then { t := if t.en then t1 else { t1 with presc := 0 }, changed := false, wrapped := false }
  else if t.presc + 1 < 2 ^ t.prescale then { t := { t1 with presc := t.presc + 1 }, changed := false, wrapped := false }
  else { t := { t1 with cnt := t.cnt + 1, presc := 0 }, changed := true, wrapped := t.cnt == BitVec.allOnes 32 }

/-- What has matched: compares 0 to 3, then the overflow (4). -/
def matchesOf (changed : Bool) (eq : Fin 4 → Bool) (ovf : Bool) : List Nat :=
  (if changed then ((List.finRange 4).filter eq).map (·.val) else []) ++ (if ovf then [4] else [])

def Tmr.status (t : Tmr) (ks : List Nat) : Tmr := { t with stat := ks.foldl (fun s k => s ||| (1#5 <<< k)) t.stat }

def selfAct (t : Tmr) (a : TmrAct) (ks : List Nat) : TmrAct := ks.foldl (fun a k => a.add (t.action k).1) a
def partAct (t : Tmr) (a : TmrAct) (ks : List Nat) : TmrAct := ks.foldl (fun a k => a.add (t.action k).2.1) a
def eventsOf (t : Tmr) (ks : List Nat) : List Nat := ks.filter (fun k => (t.action k).2.2)

/-- Both counters of a pair after one edge, and the events each raises. -/
structure PairEdge where
  a : Tmr
  b : Tmr
  ka : List Nat
  kb : List Nat
  evA : List Nat
  evB : List Nat
  deriving DecidableEq, Repr

/-- Two counters of their own. -/
def pairApart (a b : Tmr) : PairEdge :=
  let x := a.count
  let y := b.count
  let ka := matchesOf x.changed (fun k => x.t.cnt == a.cmp.get k) x.wrapped
  let kb := matchesOf y.changed (fun k => y.t.cnt == b.cmp.get k) y.wrapped
  { a := { x.t.status ka with act := partAct b (selfAct a TmrAct.none ka) kb }
    b := { y.t.status kb with act := partAct a (selfAct b TmrAct.none kb) ka }
    ka := ka, kb := kb, evA := eventsOf a ka, evB := eventsOf b kb }

/-- A linked pair (R367): the even counter governs; the odd one's wrap is the pair's overflow. -/
def pairLinked (a b : Tmr) : PairEdge :=
  let x := a.count
  let reset := a.act.reset
  let hi : Word := if reset then 0 else if x.wrapped then b.cnt + 1 else b.cnt
  let changed := x.changed || hi != b.cnt
  let over_ := x.wrapped && b.cnt == BitVec.allOnes 32
  let ks := matchesOf changed (fun k => x.t.cnt == a.cmp.get k && hi == b.cmp.get k) false
  let acts := ks ++ (if over_ then [4] else [])
  let a' := { x.t.status (ks ++ (if x.wrapped then [4] else [])) with act := selfAct a TmrAct.none acts }
  let b' := { ({ b with cnt := hi } : Tmr).status (if over_ then [4] else []) with act := TmrAct.none }
  { a := a', b := b', ka := acts, kb := [], evA := eventsOf a acts, evB := [] }

def pairEdge (a b : Tmr) : PairEdge := if a.linked then pairLinked a b else pairApart a b

def evenOf (c : Fin 16) : Fin 16 := ⟨c.val / 2 * 2, by omega⟩
def oddOf (c : Fin 16) : Fin 16 := ⟨c.val / 2 * 2 + 1, by omega⟩

def TimerUnit.pair (u : TimerUnit) (p : Fin 8) : PairEdge :=
  pairEdge (u.tmr.get ⟨2 * p.val, by omega⟩) (u.tmr.get ⟨2 * p.val + 1, by omega⟩)

/-- One hub-peripheral clock edge of the whole unit. -/
def TimerUnit.edge (u : TimerUnit) : TimerUnit :=
  let r : Vector PairEdge 8 := Vector.ofFn (fun p => u.pair p)
  let tmr : Vector Tmr 16 := Vector.ofFn (fun c =>
    let x := r.get ⟨c.val / 2, by omega⟩
    if c.val % 2 = 0 then x.a else x.b)
  let evs := (List.finRange 8).flatMap (fun p =>
    let x := r.get p
    x.evA.map (fun k => (2 * p.val, k)) ++ x.evB.map (fun k => (2 * p.val + 1, k)))
  { u with tmr := tmr, evts := evs.reverse ++ u.evts }

/-! ### Several edges -/

def runEdges : Nat → TimerUnit → TimerUnit
  | 0, u => u
  | n + 1, u => runEdges n u.edge

def Tmr.noAct (t : Tmr) : Bool := !t.act.reset && !t.act.stop && !t.act.start

/-- Counts that n edges add. -/
def Tmr.advance (t : Tmr) (n : Nat) : Nat := if t.en then (t.presc + n) / 2 ^ t.prescale else 0

/-- No compare is reached and nothing wraps in the next n counts above v, of a counter of 2^w counts. -/
def clear (v n w : Nat) (cmps : List Nat) : Bool := v + n < 2 ^ w && cmps.all (fun c => c ≤ v || v + n < c)

def pairQuiet (a b : Tmr) (n : Nat) : Bool :=
  a.noAct && b.noAct &&
  (if a.linked then
     clear (a.cnt.toNat + 2 ^ 32 * b.cnt.toNat) (a.advance n) 64 ((List.finRange 4).map (fun k => (a.cmp.get k).toNat + 2 ^ 32 * (b.cmp.get k).toNat)) &&
     a.cnt.toNat + a.advance n < 2 ^ 32
   else
     clear a.cnt.toNat (a.advance n) 32 (a.cmp.toList.map (·.toNat)) && clear b.cnt.toNat (b.advance n) 32 (b.cmp.toList.map (·.toNat)))

/-- The counter n edges later where nothing happens on the way. -/
def Tmr.jump (t : Tmr) (n : Nat) : Tmr :=
  if t.en then { t with cnt := t.cnt + BitVec.ofNat 32 (t.advance n), presc := (t.presc + n) % 2 ^ t.prescale } else { t with presc := 0 }

/-- n edges; stretches in which no compare, wrap or action falls are taken in one. -/
def TimerUnit.run (u : TimerUnit) (n : Nat) : TimerUnit :=
  if (List.finRange 8).all (fun p => pairQuiet (u.tmr.get ⟨2 * p.val, by omega⟩) (u.tmr.get ⟨2 * p.val + 1, by omega⟩) n) then
    { u with tmr := Vector.ofFn (fun c =>
        let t := u.tmr.get c
        if c.val % 2 = 1 && (u.tmr.get (evenOf c)).linked then t else t.jump n) }
  else runEdges n u

def State.modTimers (s : State) (f : TimerUnit → TimerUnit) : State := { s with timers := f s.timers }

/-- The hub peripheral runs. -/
def State.clocked (s : State) : Bool :=
  match s.hub.hub with
  | .running | .booted _ _ => true
  | _ => false

/-- The rest of the present tick's edges. -/
def State.finishTick (s : State) : State :=
  if s.clocked then s.modTimers (fun u => u.run (1000 - s.time.edges)) else s

/-- The counter has matched or overflowed in the next edge. -/
def TimerUnit.fires (u : TimerUnit) (c : Fin 16) (k : Nat) : Bool :=
  let x := u.pair ⟨c.val / 2, by omega⟩
  if c.val % 2 = 0 then x.ka.contains k else x.kb.contains k

def State.oneEdge (s : State) : State :=
  { s.modTimers TimerUnit.edge with time := { s.time with edges := s.time.edges + 1 } }

/-- TIMER_COMPARE_MATCH (R368): the edge on which the count becomes the compare value. -/
def execTimerCompareMatch (c : Fin 16) (k : Fin 4) (s : State) : Out :=
  if s.clocked && s.time.edges < 1000 && s.timers.fires c k.val then .next s.oneEdge else .next s

/-- TIMER_OVERFLOW (R367, R368). -/
def execTimerOverflow (c : Fin 16) (s : State) : Out :=
  if s.clocked && s.time.edges < 1000 && s.timers.fires c 4 then .next s.oneEdge else .next s

/-! ### Capture (R220, R369) -/

/-- Every source of the mask is copied on one edge. -/
def State.tmrCapture (s : State) (mask : Word) : State :=
  let picked := fun (c : Fin 16) =>
    mask.getLsbD c.val || ((s.timers.tmr.get (evenOf c)).linked && (mask.getLsbD (evenOf c).val || mask.getLsbD (oddOf c).val))
  let s := s.modTimers (fun u => { u with
    tmr := Vector.ofFn (fun c => let t := u.tmr.get c; if picked c then { t with cap := t.cnt } else t)
    capSeq := u.capSeq + 1, capTick := s.tickWord, capSub := BitVec.ofNat 8 s.subTick
    fleetCap := if mask.getLsbD 17 then BitVec.ofNat 64 s.fleetUs else u.fleetCap })
  if mask.getLsbD 16 then
    { s with gauge := { s.gauge with capSum := s.gauge.sum, capTick := BitVec.ofNat 32 s.gauge.lastTick } }
  else s

/-- TMR_CAPTURE. -/
def execTmrCapture (v : Word) (s : State) : Out := if s.hostUp then .next (s.tmrCapture v) else .next s

/-! ### Firmware writes (R374, R377) -/

/-- LINK reads 0 on odd counters; bit 31 is reserved. -/
def ctlWritten (c : Fin 16) (v : Word) : Word :=
  if c.val % 2 = 1 then v &&& 0x7FFFFFDF else v &&& 0x7FFFFFFF

def State.modTmr (s : State) (c : Fin 16) (f : Tmr → Tmr) : State := s.modTimers (fun u => { u with tmr := vmod u.tmr c f })
def State.modWdg (s : State) (f : Wdg → Wdg) : State := { s with wdg := f s.wdg }

/-! ### The watchdog (R376-R379) -/

/-- A window runs. -/
def Wdg.runs (w : Wdg) : Bool := w.elapsed.isSome

/-- The window has come to its end. -/
def Wdg.ended (w : Wdg) : Bool := match w.elapsed with | some e => decide (msTicks w.window.toNat ≤ e) | none => false

/-- WDG_CHECKIN. -/
def execWdgCheckin (t : Fin 16) (s : State) : Out :=
  if s.wdg.runs && !s.wdg.ended then
    .next (s.modWdg (fun w =>
      let bit : Half := 1#16 <<< t.val
      if w.seen.getLsbD t.val then { w with double := w.double ||| bit, doubleTally := bvSatInc w.doubleTally }
      else { w with seen := w.seen ||| bit }))
  else .next s

def Wdg.key (w : Wdg) (v : Half) : Wdg :=
  if v = 0xA5C3 then { w with armed := true }
  else if v = 0x3C5A ∧ w.armed then
    if w.lineup &&& ~~~w.seen = 0 then
      { w with armed := false, elapsed := some 0, window := w.nextWindow, seen := 0, double := 0 }
    else { w with armed := false, keyRefused := bvSatInc w.keyRefused }
  else { w with armed := false, badKey := bvSatInc w.badKey }

/-- WDG_KEY: a key on the count that ends the window is judged after the expiry. -/
def execWdgKey (v : Half) (s : State) : Out :=
  if s.wdg.runs && !s.wdg.ended then .next (s.modWdg (·.key v)) else .next s

/-- WDG_LOCK. -/
def execWdgLock (v : Word) (s : State) : Out :=
  if s.wdg.runs && v.getLsbD 0 then .next (s.modWdg (fun w => { w with locked := true })) else .next s

/-- WATCHDOG_EXPIRY: the four values go to retained SRAM and the hub is reset with cause 6. -/
def execWatchdogExpiry (s : State) : Out :=
  if s.wdg.ended then
    let s := s.modWdg (fun w => { w with
      lastMissing := w.lineup &&& ~~~w.seen, lastDouble := w.double, lastWindow := w.window, lastTick := s.tickWord
      rstCount := bvSatInc w.rstCount, expired := true })
    let s := { s with update := if s.update.window then { s.update with wdgSpoiled := true } else s.update }
    .next (s.hubReset 6)
  else .next s

end Sys2Proof.Machine
end

