-- ==== Sys2Proof/Machine/HostIf.lean ====
section
/-! DEFINITION. The host interfaces (chapter 14): the register map as it is read and written, grants and violations, the
frames of SPI, I2C and the debug UART, doorbells. -/

namespace Sys2Proof.Machine

/-- The channel of an interface (R319). -/
def ifaceChan (i : Iface) : HostChan := ifaceIx i

/-! ### Status registers (R338) -/

/-- HUB_PENDING: values that wait for a cold boot, a lane start or a pair closing. -/
def State.pendingMask (s : State) : Nat :=
  (List.range 15).foldl (fun a f => a + boolBit (s.cfg.pending.any (fun e =>
    e.fn == f && (settingInfo e.fn e.idx).any (fun i => i.takes != .nextAttach))) f) 0
def State.stoppedMask (s : State) : Nat := (List.finRange 15).foldl (fun a f => a + boolBit (s.cfg.stoppedBy.get f).isSome f.val) 0

def Handicap.active (h : Handicap) : Bool := h.unlocked && h.ctrl != 0

/-- HUB_STATUS. -/
def State.hubStatus (s : State) : Nat :=
  (match s.aon.mode with | some m => modeCode m | none => 0) + boolBit s.charge.present 3 + boolBit s.cfg.supplement 4 +
  boolBit s.fcst.locked 5 + boolBit s.hdrmLow 6 + boolBit s.aon.pgood 7 + 256 * chgCode s.charge.phase + boolBit s.suspended 11 +
  4096 * s.stack.position.toNat + boolBit s.aon.strapFault 14 + boolBit s.hnd.active 15 + boolBit s.trunk.isCaptain 16 +
  boolBit s.trunk.unrost 17 + boolBit s.trunk.dupId 18 + boolBit (s.pendingMask != 0) 19 + boolBit s.hub.warmBoot 20

/-- The fields marked A. -/
def State.alertFields (s : State) : Word := BitVec.ofNat 32 s.hubStatus &&& 0x000FC80F

/-- ALERT is set when a field marked A has changed since the last decision (R338). -/
def State.checkAlert (s : State) : State :=
  if s.alertFields = s.host.lastStatus then s
  else ({ s with host := { s.host with lastStatus := s.alertFields } }).alert

/-! ### Reading (R325-R327, R338) -/

def ringBitNo : RingBit → Nat
  | .post => 0 | .urgent => 1 | .cancel => 2 | .resync => 3

/-- DB_PEND. -/
def HostIf.dbPend (h : HostIf) : Word := h.rings.foldl (fun (a : Word) r => a ||| (1#32 <<< (4 * r.chan.val + ringBitNo r.bit))) 0

def slotCode : SlotState → Nat
  | .idle => 0 | .queued => 1 | .running => 2 | .cancelling => 3 | .resyncing => 4

/-- A word of a channel block. -/
def State.mbxWord (s : State) (c : Fin 8) (off : Nat) : Nat :=
  let m := s.host.mbx.get c
  if off = 0 then m.ackSeq.toNat + 65536 * m.ackCode.toNat
  else if off = 4 then m.uackSeq.toNat + 65536 * m.uackCode.toNat
  else if off = 8 then slotCode m.st + boolBit m.ubusy 3 + boolBit m.overrun 8 +
    boolBit (s.host.rings.any (fun r => r.chan.val == c.val && r.held)) 9 + 65536 * m.lastSeq.toNat
  else if off = 12 then m.taken.toNat
  else if off = 16 then m.completed.toNat + 65536 * m.overruns.toNat + 16777216 * m.duplicates.toNat
  else if off = 20 then 0x10000 + 0x4000 * c.val
  else 0

def State.statusWord (s : State) (a : Nat) : Nat :=
  let v := s.fwVersion
  if a = 0 then 0x00B07200
  else if a = 4 then 0x0204
  else if a = 8 then (v.get 0).toNat * 65536 + (v.get 1).toNat * 256 + (v.get 2).toNat
  else if a = 0xC then s.otp.unit.toNat
  else if a = 0x10 then s.otp.unit.toNat / 2 ^ 32
  else if a = 0x14 then s.hubStatus
  else if a = 0x18 then s.pendingMask
  else if a = 0x1C then s.stoppedMask
  else if a = 0x20 then s.hub.boots.toNat + 65536 * (s.hub.cause % 16)
  else if a = 0x24 then s.now
  else 0

def Viol.word (v : Viol) (a : Nat) : Nat :=
  if a = 0x2000 then v.addr.toNat
  else if a = 0x2004 then boolBit v.valid 0 + 2 * v.iface.toNat + 8 * v.kind.toNat + boolBit v.write 5
  else if a = 0x2008 then v.tick.toNat
  else if a = 0x200C then v.count.toNat
  else 0

/-- The watchdog mirror (R381). -/
def State.wdgWord (s : State) (a : Nat) : Nat :=
  let w := s.wdg
  if a = 0x3000 then w.window.toNat + boolBit w.locked 12 + boolBit s.aon.xtalLost 13
  else if a = 0x3004 then w.lineup.toNat
  else if a = 0x3008 then w.seen.toNat + 65536 * w.double.toNat
  else if a = 0x300C then w.window.toNat - w.elapsed.getD 0 / 100
  else if a = 0x3010 then w.rstCount.toNat + 65536 * w.doubleTally.toNat
  else if a = 0x3014 then w.lastMissing.toNat + 65536 * w.lastDouble.toNat
  else if a = 0x3018 then w.lastTick.toNat
  else if a = 0x301C then w.keyRefused.toNat + 65536 * w.badKey.toNat
  else 0

/-- RUN (R374): an odd counter of a linked pair counts with the even one. -/
def TimerUnit.counting (u : TimerUnit) (c : Fin 16) : Bool :=
  if (u.tmr.get (evenOf c)).linked then (u.tmr.get (evenOf c)).en else (u.tmr.get c).en

/-- The timer unit and the coulomb counter (R220, R374). -/
def State.timerWord (s : State) (a : Nat) : Nat :=
  let u := s.timers
  let o := a - 0x4000
  if o < 0x200 then
    let c : Fin 16 := ⟨o / 32 % 16, Nat.mod_lt _ (by decide)⟩
    let t := u.tmr.get c
    let k := o % 32
    if k = 0 then t.cnt.toNat
    else if k = 4 then t.ctl.toNat
    else if k = 8 then (t.cmp.get 0).toNat
    else if k = 12 then (t.cmp.get 1).toNat
    else if k = 16 then (t.cmp.get 2).toNat
    else if k = 20 then (t.cmp.get 3).toNat
    else if k = 24 then t.cap.toNat
    else t.stat.toNat + boolBit (u.counting c) 5
  else if o = 0x204 then u.capSeq.toNat
  else if o = 0x208 then u.capTick.toNat
  else if o = 0x20C then u.capSub.toNat
  else if o = 0x300 then s.fleetUs
  else if o = 0x304 then s.fleetUs / 2 ^ 32
  else if o = 0x308 then u.fleetCap.toNat
  else if o = 0x30C then u.fleetCap.toNat / 2 ^ 32
  else if o = 0x310 then boolBit s.time.fleetSet 0 + boolBit s.time.fleetLocked 1 + 65536 * min 65535 s.time.fleetSteps
  else if o = 0x400 then s.gauge.sum.toNat
  else if o = 0x404 then s.gauge.sum.toNat / 2 ^ 32
  else if o = 0x408 then s.gauge.capSum.toNat
  else if o = 0x40C then s.gauge.capSum.toNat / 2 ^ 32
  else if o = 0x410 then s.gauge.capTick.toNat
  else 0

/-- Handicap registers (R434), by number from 0x5000. -/
def Handicap.word (h : Handicap) (r : Nat) : Nat :=
  if r = 0 then h.ctrl.toNat + boolBit h.unlocked 8 + boolBit h.active 9
  else if r = 1 then h.jitter.toNat
  else if r = 2 then h.backpressure.toNat
  else if r = 3 then h.pdPorts.toNat + 256 * h.pdMax.toNat
  else if r = 4 then h.seed.toNat
  else if r = 5 then h.delayed.toNat
  else if r = 6 then h.pdDelayed.toNat
  else 0

def State.telWord (s : State) (i : Iface) (o : Nat) : Nat :=
  let t := s.tel
  if o < 0xC00 then
    match t.latch.get (ifaceIx i) with
    | some (b, l) => if b = o / 32 then ((l[o % 32 / 4]?).getD 0).toNat else 0
    | none => 0
  else if o = 0xC04 then boolBit t.frozen 0 + boolBit t.pending 1 + boolBit t.ignored 2
  else if o = 0xC08 then t.capTick.toNat
  else if o = 0xC0C then t.capSeq.toNat
  else 0

/-- A word of a roster entry (R279). -/
def RosterEntry.word (e : RosterEntry) (k : Nat) : Nat :=
  match k with
  | 0 => e.nodeId.toNat + 65536 * e.state + 16777216 * e.flags.toNat
  | 1 => e.unit.toNat
  | 2 => e.unit.toNat / 2 ^ 32
  | 3 => e.hops.toNat + 65536 * e.fw.toNat
  | 4 => e.feedCap.toNat + 65536 * e.drawReq.toNat
  | 5 => e.feedNow.toNat + 65536 * e.drawNow.toNat
  | 6 => e.vTap.toNat + 65536 * e.grant.toNat
  | 7 => e.session.toNat + 256 * e.prio.toNat + 65536 * e.mode.toNat + 16777216 * e.soc.toNat
  | 8 => e.seenUs
  | 9 => e.seenUs / 2 ^ 32
  | 10 => e.upd.toNat
  | _ => 0

def State.rosterWord (s : State) (o : Nat) : Nat :=
  if s.trunk.isCaptain then
    match s.trunk.roster.find? (fun e => e.slot == o / 64) with
    | some e => e.word (o % 64 / 4)
    | none => if o % 64 = 0x1C then 0xFF else 0
  else 0

/-- A word of a session entry (R283). -/
def Session.word (x : Session) (k : Nat) : Nat :=
  match k with
  | 0 => x.nodeId.toNat + 65536 * x.state + 16777216 * x.prio.toNat
  | 1 => x.grant.toNat + 65536 * x.request.toNat
  | 2 => x.openedLo.toNat
  | 3 => x.leaseLo.toNat
  | 4 => x.used.toNat + 65536 * x.id.toNat
  | 5 => x.renewals.toNat
  | _ => 0

def State.sessionWord (s : State) (o : Nat) : Nat :=
  if s.trunk.isCaptain then ((s.trunk.sessions.find? (fun e => e.index == o / 32)).map (fun e => e.word (o % 32 / 4))).getD 0 else 0

/-- The word at a readable address. -/
def State.hostWord (s : State) (i : Iface) (a : Nat) : Word :=
  BitVec.ofNat 32 (
    if a < 0x1000 then s.statusWord a
    else if a < 0x1200 then s.mbxWord ⟨(a - 0x1000) / 64 % 8, Nat.mod_lt _ (by decide)⟩ (a % 64)
    else if a = 0x1204 then s.host.dbPend.toNat
    else if a = 0x1208 then s.host.dbMask.toNat
    else if a = 0x120C then s.host.hdbOut.toNat
    else if a = 0x1210 then s.host.hdbMask.toNat
    else if a < 0x2000 then 0
    else if a < 0x3000 then s.host.viol.word a
    else if a < 0x4000 then s.wdgWord a
    else if a < 0x5000 then s.timerWord a
    else if a < 0x6000 then s.hnd.word ((a - 0x5000) / 4)
    else if a < 0x30000 then u32 (s.memRead a 4) 0
    else if a < 0x81000 then s.telWord i (a - 0x80000)
    else if a < 0x98000 then s.rosterWord (a - 0x90000)
    else s.sessionWord (a - 0xA0000))

/-! ### Grants (R325, R326, R337) -/

/-- Doorbell bits that an interface owns: its nibble, and in HDB_OUT and HDB_MASK nibble 6 for SPI and I2C. -/
def ownBits (i : Iface) (a : Nat) : Word :=
  (15#32 <<< (4 * (ifaceChan i).val)) ||| (if (a = 0x120C ∨ a = 0x1210) ∧ i ≠ .uart then 0x0F000000 else 0)

def kindGrant : BitVec 2 := 0
def kindUnmapped : BitVec 2 := 1
def kindReadOnly : BitVec 2 := 2
def kindMisaligned : BitVec 2 := 3

/-- Why an access is a violation, if it is one. A write carries its value, of which the doorbells judge the bits. A 1 written to
a read-only bit beside a writable field of the same register is ignored and is no violation (R3 leaves it open; DESIGN CHOICE, log
entry 128). -/
def State.refuses (s : State) (i : Iface) (a : Nat) (write : Option Word) : Option (BitVec 2) :=
  let ro := if write.isSome then some kindReadOnly else none
  let own := (a - 0x10000) / 0x4000 = (ifaceChan i).val
  if a % 4 ≠ 0 then some kindMisaligned
  else if a < 0x1200 then ro
  else if a < 0x1300 then
    match write with
    | none => none
    | some v =>
      if a = 0x1200 ∨ a = 0x1208 ∨ a = 0x120C ∨ a = 0x1210 then (if v &&& ~~~(ownBits i a) = 0 then none else some kindGrant)
      else some kindReadOnly
  else if a < 0x2000 then some kindUnmapped
  else if a < 0x3000 then (if a = 0x2010 then none else ro)
  else if a < 0x4000 then ro
  else if a < 0x5000 then (if a = 0x4200 then none else ro)
  else if a < 0x6000 then (if s.hnd.unlocked && a < 0x5014 then none else ro)
  else if a < 0x10000 then some kindUnmapped
  else if a < 0x30000 then
    if own then none
    else if 0x28000 ≤ a ∧ a < 0x2C000 ∧ i ≠ .uart then (if a = 0x28004 then none else ro)
    else some kindGrant
  else if a < 0x50000 then some kindGrant
  else if a < 0x80000 then some kindUnmapped
  else if a < 0x81000 then (if a = 0x80C00 ∨ a = 0x80C04 then none else ro)
  else if a < 0x90000 then some kindUnmapped
  else if a < 0x98000 then ro
  else if a < 0xA0000 then some kindUnmapped
  else if a < 0xA0C80 then ro
  else some kindUnmapped

/-- A refused access is counted; the first since a clear is captured (R337). -/
def State.violate (s : State) (i : Iface) (a : Nat) (write : Bool) (kind : BitVec 2) : State :=
  let v := s.host.viol
  let v := { v with count := bvSatInc v.count }
  let v := if v.valid then v else
    { v with addr := BitVec.ofNat 32 a, valid := true, iface := BitVec.ofNat 2 (ifaceIx i).val, kind := kind, write := write, tick := s.tickWord }
  { s with host := { s.host with viol := v } }

/-! ### Doorbells (R326, R330-R333) -/

def State.ringMasked (s : State) (c : HostChan) (b : RingBit) : Bool := s.host.dbMask.getLsbD (4 * c.val + ringBitNo b)

/-- A ring is latched with the tick in which it is accepted. -/
def State.latchRing (s : State) (c : HostChan) (b : RingBit) : State :=
  let r : Ring := { chan := c, bit := b, tick := s.now, held := s.ringMasked c b }
  { s with host := { s.host with rings := s.host.rings ++ [r] } }

/-- A CANCEL or RESYNC of this tick is latched on the channel: it resolves before a POST (R333). -/
def State.clearing (s : State) (c : HostChan) : Bool :=
  s.host.rings.any (fun r => r.chan == c && (r.bit == .cancel || r.bit == .resync) && r.tick == s.now && !r.held)

def State.latched (s : State) (c : HostChan) (b : RingBit) : Bool := s.host.rings.any (fun r => r.chan == c && r.bit == b)

/-- A POST finds the slot idle and queues, or finds it occupied and is ignored, unless a CANCEL or RESYNC of the same
tick may free it (R332, R333). -/
def State.ringPost (s : State) (c : HostChan) : State :=
  if (s.mbx c).st = .idle then (s.latchRing c .post).modChan c (fun m => { m with st := .queued })
  else if s.clearing c then s.latchRing c .post
  else s.overrun c

def State.ringUrgent (s : State) (c : HostChan) : State :=
  if (s.mbx c).ubusy then s.overrun c
  else (s.latchRing c .urgent).modChan c (fun m => { m with ubusy := true })

def State.ringClear (s : State) (c : HostChan) (b : RingBit) : State := if s.latched c b then s else s.latchRing c b

def State.ring (s : State) (c : HostChan) (b : RingBit) : State :=
  match b with
  | .post => s.ringPost c
  | .urgent => s.ringUrgent c
  | .cancel => s.ringClear c .cancel
  | .resync => s.ringClear c .resync

/-- A write of DB_IN. -/
def State.writeDbIn (s : State) (i : Iface) (v : Word) : State :=
  let c := ifaceChan i
  [RingBit.resync, RingBit.cancel, RingBit.urgent, RingBit.post].foldl (fun s b =>
    if v.getLsbD (4 * c.val + ringBitNo b) then s.ring c b else s) s

/-- A write of DB_MASK: a ring whose mask bit is cleared takes this tick as its stamp (R333). -/
def State.writeDbMask (s : State) (i : Iface) (v : Word) : State :=
  let own := ownBits i 0x1208
  let h := { s.host with dbMask := (s.host.dbMask &&& ~~~own) ||| (v &&& own) }
  let rings := h.rings.map (fun (r : Ring) =>
    let m := h.dbMask.getLsbD (4 * r.chan.val + ringBitNo r.bit)
    if m then { r with held := true } else if r.held then { r with held := false, tick := s.now } else r)
  { s with host := { h with rings := rings } }

def State.writeHdbOut (s : State) (i : Iface) (v : Word) : State :=
  { s with host := { s.host with hdbOut := s.host.hdbOut &&& ~~~(v &&& ownBits i 0x120C) } }

def State.writeHdbMask (s : State) (i : Iface) (v : Word) : State :=
  let own := ownBits i 0x1210
  { s with host := { s.host with hdbMask := (s.host.hdbMask &&& ~~~own) ||| (v &&& own) } }

/-- VIOL_CLEAR (R337): COUNT is kept. -/
def State.clearViol (s : State) : State := { s with host := { s.host with viol := { Viol.zero with count := s.host.viol.count } } }

/-- A write of a handicap register waits for the next tick boundary (R437). Until then a read gives the old value, since R3 and
R437 do not say whether the read-back waits too (DESIGN CHOICE, log entry 129). -/
def State.queueHnd (s : State) (r : Nat) (v : Word) : State := { s with hnd := { s.hnd with queue := s.hnd.queue ++ [(r, v)] } }

/-! ### Writing -/

/-- A granted write of one word. Reserved offsets of a private region keep what its host writes, like the rest of the region,
which R325 makes its own (R4 would read them as 0; DESIGN CHOICE, log entry 130). -/
def State.applyWord (s : State) (i : Iface) (a : Nat) (v : Word) : State :=
  if a = 0x1200 then s.writeDbIn i v
  else if a = 0x1208 then s.writeDbMask i v
  else if a = 0x120C then s.writeHdbOut i v
  else if a = 0x1210 then s.writeHdbMask i v
  else if a = 0x2010 then (if v.getLsbD 0 then s.clearViol else s)
  else if a = 0x4200 then s.tmrCapture v
  else if a < 0x6000 then s.queueHnd ((a - 0x5000) / 4) v
  else if a < 0x30000 then s.memWrite a (le32 v.toNat)
  else if a = 0x80C00 then
    let s := if v.getLsbD 0 then s.capture else s
    if v.getLsbD 1 then s.releaseTel else s
  else if a = 0x80C04 then (if v.getLsbD 2 then s.modTel (fun t => { t with ignored := false }) else s)
  else s

/-- One word written by an interface, or a violation. -/
def State.hostWrite (s : State) (i : Iface) (a : Nat) (v : Word) : State :=
  match s.refuses i a (some v) with
  | some k => s.violate i a true k
  | none => s.applyWord i a v

/-- What reading a word changes: OVERRUN is cleared (R327). -/
def State.readEffect (s : State) (a : Nat) : State :=
  if 0x1000 ≤ a ∧ a < 0x1200 ∧ a % 64 = 8 then
    s.modMbx ⟨(a - 0x1000) / 64 % 8, Nat.mod_lt _ (by decide)⟩ (fun m => { m with overrun := false })
  else s

/-- A word of a burst that may be read: a telemetry block is latched as the burst enters it (R312). -/
def State.burstWord (s : State) (i : Iface) (first : Bool) (a : Nat) : Word × State :=
  let s := if 0x80000 ≤ a ∧ a < 0x80C00 ∧ (first ∨ a % 32 = 0) then
      s.latchBlock i ⟨(a - 0x80000) / 32 % 96, Nat.mod_lt _ (by decide)⟩ else s
  (s.hostWord i a, s.readEffect a)

/-- `n` words from an address, all of them readable. -/
def State.burst (s : State) (i : Iface) (a : Nat) (first : Bool) : Nat → List Byte × State
  | 0 => ([], s)
  | n + 1 =>
    let w := s.burstWord i first a
    let r := w.2.burst i (a + 4) false n
    (le32 w.1.toNat ++ r.1, r.2)

def State.setOut (s : State) (i : Iface) (b : List Byte) : State := { s with host := { s.host with out := vput s.host.out (ifaceIx i) b } }

/-! ### SPI and UART frames (R320, R321, R324) -/

/-- The first refused word of a frame. -/
def State.frameRefusal (s : State) (i : Iface) (a : Nat) (writes : List (Option Word)) : Option (Nat × BitVec 2) :=
  writes.zipIdx.findSome? (fun x => (s.refuses i (a + 4 * x.2) x.1).map (fun k => (a + 4 * x.2, k)))

def dataWords (b : List Byte) (n : Nat) : List Word := (List.range n).map (fun k => BitVec.ofNat 32 (u32 b (4 * k)))

/-- The answer to a read: filler, status, data, CRC over the data. -/
def readAnswer (status : Byte) (d : List Byte) : List Byte := [0xFF, status] ++ d ++ [crc8 d]

/-- Whether a frame has its CRC byte, by its command byte. A frame with an invalid command byte has none of its own; it
is answered once a shortest frame has come (DESIGN CHOICE, log entry 60). -/
def frameLength (b : List Byte) : Nat := if u8 b 0 / 64 = 2 then 6 + 4 * (u8 b 0 % 64 + 1) else 6

/-- A whole frame. -/
def State.hostFrame (s : State) (i : Iface) (b : List Byte) : State :=
  let op := u8 b 0 / 64
  let n := u8 b 0 % 64 + 1
  let a := beNat ((b.drop 1).take 4)
  let len := frameLength b
  let good := crc8 (b.take (len - 1)) = (b[len - 1]?).getD 0
  let zeros : List Byte := List.replicate (4 * n) 0
  if op = 0 ∨ op = 3 then s.setOut i [0xFF, 0xE3]
  else if op = 1 then
    if !good then s.setOut i (readAnswer 0xE1 zeros)
    else
      match s.frameRefusal i a (List.replicate n none) with
      | some (x, k) => (s.violate i x false k).setOut i (readAnswer 0xE2 zeros)
      | none =>
        let r := s.burst i a true n
        r.2.setOut i (readAnswer 0xA0 r.1)
  else if !good then s.setOut i [0xFF, 0xE1]
  else
    let ws := dataWords (b.drop 5) n
    match s.frameRefusal i a (ws.map some) with
    | some (x, k) => (s.violate i x true k).setOut i [0xFF, 0xE2]
    | none => (ws.zipIdx.foldl (fun s x => s.applyWord i (a + 4 * x.2) x.1) s).setOut i [0xFF, 0xA0]

/-- SPI_FRAME: the bytes from the fall of SPI_CS_N to its rise. -/
def execSpiFrame (bytes : List Byte) (s : State) : Out :=
  if !s.hostUp then .next s
  else if bytes.length < frameLength bytes then
    .next (({ s with host := { s.host with spiDiscards := s.host.spiDiscards + 1 } }).setOut .spi [])
  else .next (s.hostFrame .spi bytes)

/-- UART_FRAME: a sync byte and a whole frame; bytes that are no frame yet wait for the rest or for the gap. -/
def execUartFrame (bytes : List Byte) (s : State) : Out :=
  match bytes with
  | b :: r => if s.hostUp && b == 0x5A && frameLength r ≤ r.length then .next (s.hostFrame .uart r) else .next s
  | [] => .next s

/-- UART_FRAME_GAP. -/
def execUartFrameGap (s : State) : Out :=
  if s.hostUp then .next { s with host := { s.host with uartDiscards := s.host.uartDiscards + 1 } } else .next s

/-! ### I2C (R46, R323) -/

def i2cAddress (x : Band) : BitVec 7 := match x with | .d => 0x3A | .c => 0x3B | .b => 0x3C | .a => 0x3D

/-- The data bytes of a write, word by word: the acknowledgements and the state. -/
def State.i2cWrite (s : State) (a : Nat) : Nat → List Byte → List Byte × State
  | 0, _ => ([], s)
  | _, [] => ([], s)
  | k + 1, d =>
    match s.refuses .i2c a (some 0) with
    | some r => (List.replicate d.length 1, s.violate .i2c a true r)
    | none =>
      if d.length < 4 then (List.replicate d.length 0, s)
      else
        let r := (s.hostWrite .i2c a (BitVec.ofNat 32 (u32 d 0))).i2cWrite (a + 4) k (d.drop 4)
        (List.replicate 4 0 ++ r.1, r.2)

/-- The words of a read; from a word that may not be read on, 0xFF. -/
def State.i2cRead (s : State) (a : Nat) (first : Bool) : Nat → List Byte × State
  | 0 => ([], s)
  | n + 1 =>
    match s.refuses .i2c a none with
    | some r => (List.replicate (4 * (n + 1)) 0xFF, s.violate .i2c a false r)
    | none =>
      let w := s.burstWord .i2c first a
      let r := w.2.i2cRead (a + 4) false n
      (le32 w.1.toNat ++ r.1, r.2)

/-- I2C may neither read nor write a location. -/
def State.i2cShut (s : State) (a : Nat) : Option (BitVec 2) :=
  match s.refuses .i2c a none, s.refuses .i2c a (some 0) with
  | some k, some _ => some k
  | _, _ => none

/-- I2C_TRANSFER: the answer is one acknowledgement (0) or refusal (1) for each written byte, then the bytes read. -/
def execI2cTransfer (x : I2cTransfer) (s : State) : Out :=
  if !s.hostUp || x.target != i2cAddress s.aon.straps.i2cAddr then .next s
  else if x.addr.length < 4 then .next (s.setOut .i2c (List.replicate x.addr.length 0))
  else
    let a := beNat (x.addr.take 4)
    match s.i2cShut a with
    | some k => .next ((s.violate .i2c a (x.readBytes == 0) k).setOut .i2c ([0, 0, 0, 1] ++ List.replicate x.data.length 1))
    | none =>
      let w := s.i2cWrite a x.data.length x.data
      let r := w.2.i2cRead a true ((x.readBytes + 3) / 4)
      .next (r.2.setOut .i2c ([0, 0, 0, 0] ++ w.1 ++ r.1.take x.readBytes))

/-! ### Rows of single registers -/

/-- POST. -/
def execPost (c : HostChan) (s : State) : Out := if s.hostUp then .next (s.ring c .post) else .next s

/-- URGENT. -/
def execUrgent (c : HostChan) (s : State) : Out := if s.hostUp then .next (s.ring c .urgent) else .next s

/-- CANCEL. -/
def execCancel (c : HostChan) (s : State) : Out := if s.hostUp then .next (s.ring c .cancel) else .next s

/-- RESYNC. -/
def execResync (c : HostChan) (s : State) : Out := if s.hostUp then .next (s.ring c .resync) else .next s

/-- DB_MASK_WRITE. -/
def execDbMaskWrite (i : Iface) (v : Word) (s : State) : Out := if s.hostUp then .next (s.hostWrite i 0x1208 v) else .next s

/-- HDB_OUT_CLEAR. -/
def execHdbOutClear (i : Iface) (v : Word) (s : State) : Out := if s.hostUp then .next (s.hostWrite i 0x120C v) else .next s

/-- HDB_MASK_WRITE. -/
def execHdbMaskWrite (i : Iface) (v : Word) (s : State) : Out := if s.hostUp then .next (s.hostWrite i 0x1210 v) else .next s

/-- OVERRUN_READ: a read of the word that holds OVERRUN; every interface may read every channel block. -/
def execOverrunRead (i : Iface) (c : Fin 8) (s : State) : Out :=
  if s.hostUp then .next (s.burstWord i true (0x1008 + 64 * c.val)).2 else .next s

/-- VIOL_CLEAR. -/
def execViolClear (s : State) : Out := if s.hostUp then .next s.clearViol else .next s

/-- REGISTER_WRITE: a host's word through its grant; the hub's own registers while their clock runs (R374, R377). -/
def execRegisterWrite (w : RegWrite) (s : State) : Out :=
  match w with
  | .host i a v => if s.hostUp then .next (s.hostWrite i a.toNat v) else .next s
  | .timerCtl c v => if s.clocked then .next (s.modTmr c (fun t => { t with ctl := ctlWritten c v })) else .next s
  | .timerCmp c k v => if s.clocked then .next (s.modTmr c (fun t => { t with cmp := vput t.cmp k v })) else .next s
  | .timerCnt c v => if s.clocked then .next (s.modTmr c (fun t => { t with cnt := v })) else .next s
  | .timerStat c v =>
    if s.clocked then .next (s.modTmr c (fun t => { t with stat := t.stat &&& ~~~(v.setWidth 5) })) else .next s
  | .wdgWindow ms =>
    if s.wdg.runs && !s.wdg.locked && 1 ≤ ms.toNat && ms.toNat ≤ 4000 then .next (s.modWdg (fun w => { w with nextWindow := ms })) else .next s
  | .wdgLineup m => if s.wdg.runs && !s.wdg.locked then .next (s.modWdg (fun w => { w with lineup := m })) else .next s

end Sys2Proof.Machine
end

