-- ==== Sys2Proof/Machine/Commands.lean ====
section
/-! DEFINITION. Mailbox commands (chapter 15), first part: system, configuration, lanes, charging, sources and ports, trunk and
forecast, telemetry and ledger; and CANCEL and RESYNC as a decision takes them. -/

namespace Sys2Proof.Machine

/-! ### CANCEL and RESYNC (R335, R336, R341) -/

/-- A queued ring is in the slot: the ring stood before this tick, or DB_MASK holds it. -/
def State.queuedBefore (s : State) (c : HostChan) (tick : Nat) : Bool :=
  s.host.rings.any (fun r => r.chan == c && r.bit == .post && (r.held || r.tick < tick))

/-- The command in the slot leaves it; a POST of the cancelling ring's own tick stays. -/
def State.dropPost (s : State) (c : HostChan) (tick : Nat) : State :=
  { s with host := { s.host with rings := s.host.rings.filter (fun r => !(r.chan == c && r.bit == .post && (r.held || r.tick < tick))) } }

/-- A running command stops before its point of no return: jobs not begun are dropped, a request it had made ends. -/
def State.giveUp (s : State) (c : HostChan) (r : Running) : State :=
  let s := s.dropJobs c
  if r.op = 0x0004 || r.op = 0x0005 then s.abortRequest else s

/-- CANCEL in the decision that takes it (R335). -/
def State.takeCancel (s : State) (c : HostChan) (tick : Nat) : State :=
  let m := s.mbx c
  match m.st with
  | .queued =>
    if s.queuedBefore c tick then
      let d := s.readDesc c .normal
      (s.dropPost c tick).answerNormal c d.1 d.2.seq tick rcCancelled []
    else s
  | .running =>
    match m.running with
    | some r =>
      if s.pastReturn c r then s
      else (s.giveUp c r).answerNormal c r.op r.desc.seq r.bell rcCancelled []
    | none => s
  | _ => s

/-- RESYNC in the decision that takes it (R336). -/
def State.takeResync (s : State) (c : HostChan) (tick : Nat) : State :=
  let m := s.mbx c
  let s := s.clearHdbNibble c
  let s := { s with tel := { s.tel with streams := vput s.tel.streams c none } }
  let s := s.modChan c (fun m => { m with lastSeq := 0xFFFF, lastOp := 0, lastCode := 0
                                          ackCode := 0, ackSeq := 0xFFFF, uackCode := 0, uackSeq := 0xFFFF })
  match m.st with
  | .running =>
    match m.running with
    | some r =>
      if s.pastReturn c r then s.modChan c (fun m => { m with st := .resyncing })
      else ((s.giveUp c r).modChan c (fun m => { m with st := .idle, running := none })).setHdb (4 * c.val)
    | none => s.setHdb (4 * c.val)
  | .queued =>
    if s.queuedBefore c tick then ((s.dropPost c tick).modChan c (fun m => { m with st := .idle })).setHdb (4 * c.val)
    else s.setHdb (4 * c.val)
  | _ => s.setHdb (4 * c.val)


/-! ### Parameters -/

/-- Bytes i to j of a block are 0. -/
def zeroBytes (p : List Byte) (i j : Nat) : Bool := (List.range (j + 1 - i)).all (fun k => u8 p (i + k) == 0)

def laneOf (n : Nat) : Option Lane := if h : n < 4 then some ⟨n, h⟩ else none
def portOf (n : Nat) : Option Port := if h : n < 4 then some ⟨n, h⟩ else none
def srcOf (n : Nat) : Option Src := if h : n < 7 then some ⟨n, h⟩ else none

/-- What the recovery firmware serves (R397). -/
def recoveryServes (op : Nat) : Bool :=
  op == 0 || op == 1 || op == 0x204 || op == 0x303 || op == 0x401 || op == 0x501 || op == 0x600 || op == 0x702 || op == 0x703 ||
  (0x800 ≤ op && op ≤ 0x807)

/-- A command under the firmware that runs. -/
def State.serve (s : State) (op : Nat) (body : State → Res) : Res :=
  if s.hub.shelf = .recovery && !recoveryServes op then s.fail rcWrongState else body s

/-! ### System (R344) -/

/-- SYS_NOP. -/
def cmdNop (d : Desc) (s : State) : Res := s.okWith d.params

/-- SYS_RESET: the hub resets 1 ms later. -/
def cmdReset (d : Desc) (s : State) : Res :=
  if 1 < u8 d.params 0 || !zeroBytes d.params 1 3 then s.fail rcBadParam
  else (s.modHub (fun h => { h with resetAt := some (s.now + msTicks 1, u8 d.params 0 == 0) })).ok

/-- SAFE_ENTER. -/
def cmdSafeEnter (s : State) : Res := (s.setSafe .safeEnter .aon 0 0).ok

/-- SAFE_CLEAR (R24): the mode is chosen afresh by the decision. -/
def cmdSafeClear (s : State) : Res :=
  if !s.aon.safeLatch then s.ok
  else if s.safeBlocked then s.fail rcWrongState
  else (s.modAon (fun a => { a with safeLatch := false })).ok

/-- The command waits for the ledger record just created; where the queue had no room for it, it is answered at once. -/
def State.awaitRecord (s : State) (c : HostChan) (before : Nat) : Res :=
  match s.ledger.queue.getLast? with
  | some r =>
    if before ≤ r.acc then
      .run false (s.modChan c (fun m => { m with running := m.running.map (fun (x : Running) => { x with waits := some r.acc }) }))
    else s.ok
  | none => s.ok

/-- SHIP_ENTER (R22, R72, R76). -/
def cmdShipEnter (c : HostChan) (s : State) : Res :=
  if s.pathStopped || !s.shipAllowed || s.aon.request.isSome then s.fail rcWrongState
  else
    let next := s.ledger.next
    ((s.pathRecord 2 0 false).shipStart s.shipDelay false).awaitRecord c next

/-- DORMANT_ENTER (R22, R70, R76, R258). -/
def cmdDormantEnter (c : HostChan) (s : State) : Res :=
  if s.pathStopped || !s.dormantAllowed || s.aon.request.isSome then s.fail rcWrongState
  else
    let next := s.ledger.next
    ((s.pathRecord 0 0 false).dormantStart s.gauge.vBat false).awaitRecord c next

/-! ### Configuration transactions (R345-R352) -/

def Cfg.stop (c : Cfg) (fn : Nat) : Option HostChan := (c.stoppedBy.toList[fn]?).getD none

/-- A function mask: bits 14 to 0, not empty (R345). -/
def funcMask (p : List Byte) : Option (BitVec 15) :=
  if u32 p 0 = 0 || 2 ^ 15 ≤ u32 p 0 then none else some (BitVec.ofNat 15 (u32 p 0))

def State.modCfg (s : State) (f : Cfg → Cfg) : State := { s with cfg := f s.cfg }

def named (m : BitVec 15) : List Nat := (List.range 15).filter (fun f => m.getLsbD f)

/-- FUNC_STOP. -/
def cmdFuncStop (c : HostChan) (d : Desc) (s : State) : Res :=
  match funcMask d.params with
  | none => s.fail rcBadParam
  | some m =>
    if (named m).any (fun f => s.cfg.stop f != none && s.cfg.stop f != some c) then s.fail rcDenied
    else (s.modCfg (fun g => { g with stoppedBy := Vector.ofFn (fun f => if m.getLsbD f.val then some c else g.stoppedBy.get f) })).ok

/-- The first function of the mask that this channel has not stopped decides (R346). -/
def State.startCheck (s : State) (c : HostChan) (m : BitVec 15) : Option Nat :=
  (named m).findSome? (fun f => if s.cfg.stop f = some c then none else if s.cfg.stop f = none then some rcWrongState else some rcDenied)

/-- Functions run again: HUB_STOPPED bits clear, staged values go; a restart of PATH takes a code from the next two
samples and restarts the dormant delay (R76, R346, R351). -/
def State.restartFuncs (s : State) (m : BitVec 15) : State :=
  let s := s.modCfg (fun g => { g with stoppedBy := Vector.ofFn (fun f => if m.getLsbD f.val then none else g.stoppedBy.get f)
                                       staged := g.staged.filter (fun e => !m.getLsbD e.fn) })
  if m.getLsbD 1 then s.modHub (fun h => { h with vsel := [], dormSince := none }) else s

/-- FUNC_ABORT. -/
def cmdFuncAbort (c : HostChan) (d : Desc) (s : State) : Res :=
  match funcMask d.params with
  | none => s.fail rcBadParam
  | some m =>
    match s.startCheck c m with
    | some code => s.fail code
    | none => (s.restartFuncs m).ok

/-- The fault of one CFG_WRITE entry: return code and cause (R349). -/
def State.writeFault (s : State) (c : HostChan) (p : List Byte) (i : Nat) : Option (Nat × Nat) :=
  let o := 4 + 8 * i
  let fn := u8 p o
  let idx := u8 p (o + 1)
  if 14 < fn then some (rcBadParam, 1)
  else if s.cfg.stop fn = none then some (rcWrongState, 0)
  else if s.cfg.stop fn ≠ some c then some (rcDenied, 0)
  else
    match settingInfo fn idx with
    | none => some (rcBadParam, 2)
    | some si =>
      if si.elems ≤ u8 p (o + 2) then some (rcBadParam, 3)
      else if !codeAllowed fn idx (i32 p (o + 4)) then some (rcBadParam, 4)
      else if u8 p (o + 3) != 0 then some (rcBadParam, 5)
      else none

/-- The response that names a failing entry. -/
def entryFault (i cause : Nat) : List Byte := le16 i ++ [BitVec.ofNat 8 cause, 0]

def writeEntry (p : List Byte) (i : Nat) : CfgEntry :=
  { fn := u8 p (4 + 8 * i), idx := u8 p (5 + 8 * i), elem := u8 p (6 + 8 * i), val := i32 p (8 + 8 * i) }

/-- CFG_WRITE. A reserved byte of the header is reported as cause 5 of entry 0 (log entry 61). -/
def cmdCfgWrite (c : HostChan) (d : Desc) (s : State) : Res :=
  let p := d.params
  let k := u16 p 0
  if u16 p 2 ≠ 0 then .reply rcBadParam (entryFault 0 5) s
  else
    match (List.range k).findSome? (fun i => (s.writeFault c p i).map (fun r => (i, r))) with
    | some (i, code, cause) => .reply code (if code = rcBadParam then entryFault i cause else []) s
    | none => (s.modCfg (fun g => { g with staged := (List.range k).foldl (fun l i => putEntry (writeEntry p i) l) g.staged })).ok

/-- The fault of one CFG_READ entry (R350). -/
def readFault (p : List Byte) (i : Nat) : Option Nat :=
  let o := 4 + 4 * i
  if 14 < u8 p o then some 1
  else
    match settingInfo (u8 p o) (u8 p (o + 1)) with
    | none => some 2
    | some si => if si.elems ≤ u8 p (o + 2) then some 3 else if 3 < u8 p (o + 3) then some 4 else none

def State.readEntry (s : State) (p : List Byte) (i : Nat) : List Byte :=
  let o := 4 + 4 * i
  let fn := u8 p o
  let idx := u8 p (o + 1)
  let el := u8 p (o + 2)
  let v := match u8 p (o + 3) with
    | 0 => s.cfg.get fn idx el
    | 1 => s.cfg.stg fn idx el
    | 2 => s.cfg.pend fn idx el
    | _ => settingDefault fn idx
  slice p o 4 ++ sle 4 v

/-- CFG_READ. -/
def cmdCfgRead (d : Desc) (s : State) : Res :=
  let p := d.params
  let k := u16 p 0
  if u16 p 2 ≠ 0 then .reply rcBadParam (entryFault 0 5) s
  else
    match (List.range k).findSome? (fun i => (readFault p i).map (fun r => (i, r))) with
    | some (i, cause) => .reply rcBadParam (entryFault i cause) s
    | none => s.okWith ((List.range k).flatMap (fun i => s.readEntry p i))

/-- The set FUNC_START validates (R351). -/
def State.checkCtx (s : State) (m : BitVec 15) : CheckCtx :=
  { named := m, cfg := s.cfg, nIn := (List.finRange 4).map (fun n => (s.lane n).nIn) }

/-- A staged value differs from the catalogue. -/
def State.stagedNew (s : State) (m : BitVec 15) : Bool :=
  s.cfg.staged.any (fun e => m.getLsbD e.fn && e.val != s.cfg.pend e.fn e.idx e.elem)

/-- FUNC_START: validation, then the catalogue write where something changes (R351). -/
def cmdFuncStart (c : HostChan) (d : Desc) (s : State) : Res :=
  match funcMask d.params with
  | none => s.fail rcBadParam
  | some m =>
    match s.startCheck c m with
    | some code => s.fail code
    | none =>
      match validate (s.checkCtx m) with
      | some (fn, idx, el) =>
        .reply rcValidation [BitVec.ofNat 8 fn, BitVec.ofNat 8 idx, BitVec.ofNat 8 el, 0] (s.restartFuncs m)
      | none =>
        if !s.stagedNew m then (s.restartFuncs m).ok
        else if s.therm.flashShut then s.fail rcBusy
        else .run false (s.addJob (.catalogue c (s.catRecord s.fwVersion m)))

/-- A PORT_ROLE that no longer allows the present power role causes error recovery; the new role applies after it (R192). -/
def State.roleCheck (s : State) (m : BitVec 15) : State :=
  (List.finRange 4).foldl (fun s p =>
    let fn := 6 + p.val
    let role := s.cfg.pend fn 4
    let src := (s.port p).attach == .source
    let snk := (s.port p).attach == .sink || (s.port p).attach == .frsWatch
    if m.getLsbD fn && role != s.portGet p 4 && ((role = 0 && src) || (role = 1 && snk)) then s.errorRecovery p 3 else s) s

/-- What a port does on settings that have changed (R192): new capabilities of a source, a new choice of a sink, the end of
FRS watch. -/
def State.portApplied (s : State) (has : Nat → Nat → Bool) (p : Port) : State :=
  let fn := 6 + p.val
  let q := s.port p
  let s := if (has fn 8 || has fn 9 || has fn 10) && q.attach == .source && q.feeding then s.sendCaps p else s
  let s := if (has fn 6 || has fn 7) && q.attach == .sink then
      let t := s.requestBest p
      match (t.port p).lastReq, q.lastReq with
      | some (pos, v, i), some (pos', v', i') => if pos = pos' && v = v' && i = i' then s else t
      | _, _ => t
    else s
  if has fn 11 && !s.portOn p 11 then s.watchEnd p else s

/-- Values that wait for a port's next attach are the ones its next attach is prepared by: an unattached port takes them at
once (R163; DEDUCED, log entry 137). -/
def State.restApplied (s : State) : State :=
  (List.finRange 4).foldl (fun s p =>
    if (s.port p).attach = .unattached then
      let s := { s with cfg := s.cfg.release (6 + p.val) .nextAttach }
      s.modPort p (fun q => { q with cc := s.ccRest p, tryWait := false })
    else s) s

/-- A changed ACIN_MODE waits for ACIN's next pair closing; ACIN has to qualify anew, so that its far node goes to another
source or its pair opens (R158). -/
def State.acinTurned (s : State) (m : BitVec 15) : State :=
  if m.getLsbD 10 && s.cfg.pend 10 4 != s.cfg.get 10 4 then
    s.modConn acin (fun k => { k with qualified := false, known := false })
  else s

/-- The catalogue record is written: values that wait are pending, the others apply from the next decision (R351). -/
def State.startDone (s : State) (c : HostChan) (r : CatRec) : State :=
  let m := match (s.mbx c).running with | some x => (funcMask x.desc.params).getD 0 | none => 0
  let s := { s with flash := s.flash.putCat r }
  let s := s.modCfg (fun g => { g with pending := g.waiting r.entries, applying := g.changes r.entries })
  let s := s.record 0x0101 ([0] ++ [BitVec.ofNat 8 (((named m).head?).getD 0), 3, 3] ++ le32 r.seq)
  ((((s.restartFuncs m).roleCheck m).restApplied).acinTurned m).finish c rcOk []

/-- Values go into force in the decision after REPLY (R110, R190, R253, R290, R318, R351). -/
def State.applySettings (s : State) : State :=
  let es := s.cfg.applying
  if es.isEmpty then s
  else
    let has := fun (fn idx : Nat) => es.any (fun e => e.fn == fn && e.idx == idx)
    let tmode := (List.finRange 4).filter (fun p => has (6 + p.val) 17 && s.portOn p 17)
    let lane := fun (e : CfgEntry) => decide (2 ≤ e.fn ∧ e.fn ≤ 5)
    let s := s.modCfg (fun g => { g with inForce := inForceWith g.inForce (es.filter (fun e => !lane e)), applying := [] })
    let s := (List.finRange 4).foldl (fun s n => s.sendSet n s.effTick (es.filter (fun e => e.fn == 2 + n.val))) s
    let s := if has 1 3 && !s.dormantHeld then s.modHub (fun h => { h with sysFinal := s.selSysv }) else s
    let s := tmode.foldl (fun s p =>
      if (s.port p).tmode && !s.portOn p 17 then
        ((s.modPort p (fun q => { q with wait := .exitReply })).pdSend p (.exitMode (s.modeSvid p))).modeEnd p
      else s) s
    let s := (List.finRange 4).foldl (fun s p => s.portApplied has p) s
    let s := if es.any (fun e => e.fn == 11) then s.trunkApplied else s
    s.modTel (fun t => { t with chans := Vector.ofFn (fun i =>
      let k := t.chans.get i
      if es.any (fun e => e.fn == 14 && e.idx == 0 && e.elem == i.val) then { k with k := (s.cfg.get 14 0 i.val).toNat, rounds := [] } else k) })

/-! ### Lanes and phases (R129, R353, R354) -/

/-- The lane a command names: reserved bytes, range, fitted. -/
def State.namedLane (s : State) (d : Desc) : Except Nat Lane :=
  match laneOf (u8 d.params 0) with
  | none => .error rcBadParam
  | some n => if !zeroBytes d.params 1 3 then .error rcBadParam else if !s.cfg.laneFitted n then .error rcNotPresent else .ok n

/-- LANE_STOP: host hold, a controlled stop over 1 ms, the end of a feed. -/
def cmdLaneStop (d : Desc) (s : State) : Res :=
  match s.namedLane d with
  | .error code => s.fail code
  | .ok n =>
    let n := s.cfg.leader n
    if (s.node n).hold then s.ok
    else
      let s : State := match (s.node n).feeding with
        | some p => if (s.port p).attach = .frsWatch then s.watchEnd p
            else (s.feedEnd p false).modPort p (fun q => { q with contract := .zero, transition := false })
        | none => s
      let s := if (s.lane n).active then s.sendNode n s.effTick (.stopRamp (stopRate (s.lane n))) id else s
      (s.modNode n (fun k => { k with hold := true })).ok

/-- LANE_START: only a lane that a third stage fault has taken out of service begins its count anew (R95). -/
def cmdLaneStart (d : Desc) (s : State) : Res :=
  match s.namedLane d with
  | .error code => s.fail code
  | .ok n =>
    let l := s.lane n
    if l.latched || l.shut || !l.dieOk || !l.tslOk || l.unresponsive then s.fail rcWrongState
    else
      let s := s.modNode (s.cfg.leader n) (fun k => { k with hold := false })
      (s.modLane n (fun l => { l with outOfService := false, faults := if l.outOfService then l.faults.take 1 else l.faults })).ok

def regionless (r : Role) : Nat := match r with
  | .drawHold => 0 | .drawAlloc => 1 | .feed => 2 | .batSupplement => 3 | .batDiode => 4

def dirCode : Dir → Nat
  | .draw => 0 | .feed => 1 | .charge => 2 | .supplement => 3

/-- Direction while running: a SUPPLEMENT battery lane charges or supplements by the sign of its current (R17). -/
def State.laneDir (s : State) (n : Lane) : Nat :=
  let l := s.lane n
  if l.order.role = .batSupplement then (if l.loop.iCmd < 0 then 2 else 3) else dirCode l.order.dir

/-- LANE_STATUS byte 0. A lane in the bias wait of a start carries no pulse yet: R353 has no code for it, and the model gives
it 0, so that it counts as stopped for PHASE_RETURN (DESIGN CHOICE, log entry 127). -/
def State.laneStateCode (s : State) (n : Lane) : Nat :=
  let l := s.lane n
  if l.unresponsive then 7
  else if l.latched then 6
  else if l.shut || !l.dieOk || !l.tslOk then 5
  else if l.outOfService || l.nIn = 0 then 4
  else if (s.node (s.cfg.leader n)).hold then 3
  else match l.run with
    | .standby => 1
    | .running | .ramping => 2
    | .stopped | .bias => 0

def phStateCode : PhState → Nat
  | .field => 0 | .warm => 1 | .cold => 2 | .out => 3

/-- The 16 bytes of LANE_STATUS. -/
def State.laneBlock (s : State) (n : Lane) : List Byte :=
  let l := s.lane n
  let b := fun (x : Nat) => BitVec.ofNat 8 x
  [b (s.laneStateCode n), b (if l.active then s.laneDir n else 0), b (regionless l.order.role),
   b (boolBit (l.filling s.now) 0 + boolBit l.field.skipping 1 + boolBit l.field.inReg 2 +
      boolBit (decide (2 ≤ s.stack.size) && !l.stackLocked && !(s.stack.position == 0 && s.inStack n)) 3 + boolBit (l.shedInhibited s.now) 4 + boolBit l.field.shed.isSome 5)] ++
  l.phases.toList.map (fun p => b (phStateCode p.st)) ++
  (List.finRange 4).map (fun p => b (kindCode ((s.keep.out.get n).get p))) ++
  [b l.field.rot.val, b l.nField, b l.nIn, 0]

/-- LANE_STATUS. -/
def cmdLaneStatus (d : Desc) (s : State) : Res :=
  match s.namedLane d with
  | .error code => s.fail code
  | .ok n => s.okWith (s.laneBlock n)

/-- The out mask of the lanes is written and the command waits for it (R234, R354). -/
def State.awaitOut (s : State) (c : HostChan) : Res := .run false (s.addJob (.outMask c (s.learnedRec 3 0 (outBody s.keep))))

def State.setOutKind (s : State) (n : Lane) (p : Pos) (k : Option PhaseKind) : State :=
  { s with keep := { s.keep with out := vmod s.keep.out n (fun v => vput v p k) } }

/-- PHASE_RETURN: the mask is cleared and the learned trims are invalid; the phases stay out until the next lane start takes
the mask (R129). -/
def cmdPhaseReturn (c : HostChan) (d : Desc) (s : State) : Res :=
  let m := u8 d.params 1
  match laneOf (u8 d.params 0) with
  | none => s.fail rcBadParam
  | some n =>
    let ps := (List.finRange 4).filter (fun (p : Pos) => m.testBit p.val)
    if m = 0 || 16 ≤ m || !zeroBytes d.params 2 3 then s.fail rcBadParam
    else if s.laneStateCode n != 0 && !(s.laneStateCode n == 3 && !(s.lane n).active) then
      s.fail rcWrongState
    else if ps.any (fun p => !s.phaseFit n p) then s.fail rcNotPresent
    else if ps.any (fun p => ((s.keep.out.get n).get p).isNone) then s.fail rcBadParam
    else
      let s := ps.foldl (fun s p => s.setOutKind n p none) s
      let s := { s with keep := { s.keep with trims := vput s.keep.trims n none, trimBad := vput s.keep.trimBad n true } }
      (s.record 0x0206 [BitVec.ofNat 8 n.val, BitVec.ofNat 8 m, 0]).awaitOut c

/-- PHASE_RETIRE: shed first where it is on the field of a running lane, out at once elsewhere. -/
def cmdPhaseRetire (c : HostChan) (d : Desc) (s : State) : Res :=
  if h : u8 d.params 0 < 16 then
    let k : PhaseNo := ⟨u8 d.params 0, h⟩
    let n := phaseLane k
    let p := phasePos k
    let l := s.lane n
    if !zeroBytes d.params 1 3 then s.fail rcBadParam
    else if !s.phaseFit n p || ((s.keep.out.get n).get p).isSome then s.fail rcWrongState
    else if ((List.finRange 4).filter (fun q => s.phaseFit n q && ((s.keep.out.get n).get q).isNone)).length ≤ 1 then s.fail rcDenied
    else
      let s := s.setOutKind n p (some .retired)
      let s := if l.active && (l.phases.get p).st = .field then s.modLane n (fun l => { l with field := { l.field with retireNext := l.field.retireNext ++ [p] } })
        else s.modLane n (fun l => { l with phases := vmod l.phases p (fun x => { x.toMid with st := .out, kind := some .retired }) })
      (s.record 0x0206 [BitVec.ofNat 8 n.val, BitVec.ofNat 8 (2 ^ p.val), 1]).awaitOut c
  else s.fail rcBadParam

/-! ### Charging (R210, R355) -/

/-- CHG_SET_CURRENT. -/
def cmdChgSetCurrent (d : Desc) (s : State) : Res :=
  let i : Amp := (u16 d.params 0 : Rat) / 20
  if s.ichg < i || !zeroBytes d.params 2 3 then s.fail rcBadParam
  else ((s.modCharge (fun c => { c with iHost := i })).chargeSetpoint).ok

/-- CHG_HOLD. -/
def cmdChgHold (s : State) : Res := if s.cycling then (s.setCause 5).ok else s.fail rcWrongState

/-- CHG_RESTART. -/
def cmdChgRestart (s : State) : Res :=
  if !s.modeIs .supply || !s.charge.present || !s.cfg.on 0 0 then s.fail rcWrongState
  else ((s.clearCause 5).clearLatched.startCycle).ok

/-- The 24 bytes of CHG_STATUS. -/
def State.chargeBlock (s : State) : List Byte :=
  let c := s.charge
  let low := ((List.range 16).find? (fun i => c.causes.getLsbD i)).map (· + 1)
  let counted : Nat := match s.cfg.battLane with | some n => (s.lane n).backstop.counted | none => 0
  [BitVec.ofNat 8 (chgCode c.phase), BitVec.ofNat 8 (low.getD 0)] ++ le16 c.causes.toNat ++
  [BitVec.ofNat 8 (winCode c.window), BitVec.ofNat 8 (boolBit c.restartUsed 0 + boolBit c.present 1 + boolBit c.thermal 2), 0, 0] ++
  secs c.fastS ++ secs c.fastBudgetS ++ le32 counted ++ qle 2 c.iHost (1 / 20) ++ qle 2 c.iSet (1 / 100)

/-- CHG_STATUS. -/
def cmdChgStatus (s : State) : Res := s.okWith s.chargeBlock

/-! ### Sources and ports (R356, R357) -/

/-- SRC_UNLOCK. -/
def cmdSrcUnlock (d : Desc) (s : State) : Res :=
  match srcOf (u8 d.params 0) with
  | none => s.fail rcBadParam
  | some c =>
    if !zeroBytes d.params 1 3 then s.fail rcBadParam
    else if !s.cfg.connFit c then s.fail rcNotPresent
    else if !(s.conn c).lockedOut then s.fail rcWrongState
    else (s.modConn c (fun k => { k with lockedOut := false, known := k.qualified, trips := [], lastTrip := none })).ok

def attachCode : Attach → Nat
  | .unattached => 0 | .sink => 1 | .source => 2 | .audio => 3 | .unsupported => 4 | .recovery => 5 | .frsWatch => 6

def contractCode : ContractKind → Nat
  | .none => 0 | .fixed => 1 | .pps => 2 | .avs => 3

def bcCode : Bc12 → Nat
  | .none => 0 | .sdp => 1 | .cdp => 2 | .dcp => 3

/-- The 24 bytes of PORT_STATUS. Default power is 5 V at the current of R168 while attached as sink. -/
def State.portBlock (s : State) (p : Port) : List Byte :=
  let q := s.port p
  let k := s.conn (portSrc p)
  let none_ := q.contract.kind == .none || q.softened
  let v : Volt := if none_ then (if q.attach = .sink || q.feeding then 5 else 0) else q.contract.v
  let i : Amp := if none_ then (if q.attach = .sink then defaultCurrent q else 0) else q.contract.i
  [BitVec.ofNat 8 (attachCode q.attach), boolByte q.dfp,
   BitVec.ofNat 8 (boolBit q.cc2 0 + boolBit q.vconn 1 + boolBit q.epr 2 + boolBit q.rev2 3 + boolBit q.cable5 4 + boolBit q.tmode 5 +
     boolBit k.lockedOut 6 + boolBit q.transition 7),
   q.mux.setWidth 8, BitVec.ofNat 8 (if none_ then 0 else contractCode q.contract.kind), BitVec.ofNat 8 (if none_ then 0 else q.contract.pos)] ++
  recV v ++ recI i ++ [BitVec.ofNat 8 (bcCode q.bc12), q.lastSwapStep] ++ recI (s.iSrc (portSrc p)) ++ recI (k.iLearn.getD 0) ++
  le16 q.hrSince ++ le16 q.srSince ++ [0, 0, 0, 0]

/-- PORT_STATUS. -/
def cmdPortStatus (d : Desc) (s : State) : Res :=
  match portOf (u8 d.params 0) with
  | none => s.fail rcBadParam
  | some p =>
    if !zeroBytes d.params 1 3 then s.fail rcBadParam
    else if !s.cfg.connFit (portSrc p) then s.fail rcNotPresent
    else s.okWith (s.portBlock p)

/-- A request the partner must answer is under way. -/
def State.portFree (s : State) (p : Port) : Bool :=
  let q := s.port p
  q.swap.isNone && !q.transition && q.wait == .idle && !q.hrActive

/-- PORT_ACTION (R357). A request is sent only while no other exchange is under way (log entry 62). -/
def cmdPortAction (d : Desc) (s : State) : Res :=
  match portOf (u8 d.params 0) with
  | none => s.fail rcBadParam
  | some p =>
    let q := s.port p
    let act := u8 d.params 1
    let role := q.attach == .sink || q.attach == .source
    let contract := role && q.contract.kind != .none && !q.softened
    let ready := contract && !s.portStopped p && s.portFree p
    if act = 0 || 8 < act || !zeroBytes d.params 2 3 then s.fail rcBadParam
    else if act = 1 then
      let toSource := q.attach != .source
      if !ready then s.fail rcWrongState
      else if s.portGet p 12 = 2 || (toSource && s.portGet p 12 = 0) then s.fail rcDenied
      else if toSource && !s.canFeed p then s.fail rcWrongState
      else .run true ((s.modPort p (fun q => { q with wait := .swapReply })).pdSend p .prSwap)
    else if act = 2 then
      if !ready then s.fail rcWrongState
      else if s.portGet p 13 = 1 then s.fail rcDenied
      else .run true ((s.modPort p (fun q => { q with wait := .drReply })).pdSend p .drSwap)
    else if act = 3 then
      if !ready || (!q.vconn && !(s.pdie (portDie p)).vconnSupply) then s.fail rcWrongState
      else if s.portGet p 14 = 1 then s.fail rcDenied
      else .run true ((s.modPort p (fun q => { q with wait := .vconnReply })).pdSend p .vconnSwap)
    else if act = 4 then
      if !contract || q.swap.isSome then s.fail rcWrongState else .run true (s.softReset p)
    else if act = 5 then
      if !role then s.fail rcWrongState else (s.hardReset p 3).ok
    else if act = 6 then
      if q.attach = .unattached || q.attach = .recovery then s.fail rcWrongState else (s.errorRecovery p 3).ok
    else if act = 7 then
      if !ready then s.fail rcWrongState
      else if q.attach = .source then (if s.canFeed p then .run true (s.sendCaps p) else s.fail rcWrongState)
      else
        let t := s.requestBest p
        match (t.port p).wait with
        | .request .. => .run true t
        | _ => s.fail rcWrongState
    else if !q.tmode then s.fail rcWrongState
    else .run true ((s.modPort p (fun q => { q with wait := .exitReply })).pdSend p (.exitMode (s.modeSvid p)))

/-! ### Trunk and forecast (R358, R359) -/

/-- TRK_SEND: one MESSAGE frame. -/
def cmdTrkSend (d : Desc) (s : State) : Res :=
  let p := d.params
  let dst := u16 p 0
  if 4096 ≤ dst || dst = 0 || dst = s.trunk.nodeId.toNat then s.fail rcBadParam
  else if s.upPorts.isEmpty then s.fail rcNotPresent
  else if s.upPorts.all (fun t => 16 ≤ (s.link t).queue.length) then s.fail rcBusy
  else
    let seq := s.trunk.seq
    let free := s.upPorts.filter (fun t => (s.link t).queue.length < 16)
    (s.originate free 9 (BitVec.ofNat 12 dst) (p.drop 4)).okWith (le16 seq.toNat ++ [0, 0])

/-- The trunk lane draws. -/
def State.trunkDrawing (s : State) : Bool :=
  match s.cfg.trunkLane with
  | some n => (s.lane n).active && (s.lane n).order.dir == .draw && (s.node n).selected.isSome
  | none => false

/-- The 24 bytes of TRK_STATUS. -/
def State.trunkBlock (s : State) : List Byte :=
  let t := s.trunk
  le16 t.nodeId.toNat ++ le16 ((t.captain.map (fun k => k.node.toNat)).getD 0) ++
  [BitVec.ofNat 8 (boolBit (s.link 0).up 0 + boolBit (s.link 1).up 1 + boolBit t.isCaptain 2 + boolBit s.time.fleetLocked 3 +
     boolBit (t.session != 0xFF) 4 + boolBit t.unrost 5 + boolBit t.feedingTrunk 6 + boolBit s.trunkDrawing 7), t.session] ++
  qle 2 t.pBase 1 ++ le64 t.leaseEnd ++ le32 t.fleetEpoch.toNat ++ le16 t.hopsBeacon.toNat ++ [0, 0]

/-- TRK_STATUS. -/
def cmdTrkStatus (s : State) : Res := s.okWith s.trunkBlock

/-- FCST_STATUS. -/
def cmdFcstStatus (s : State) : Res :=
  let f := s.fcst
  s.okWith ([BitVec.ofNat 8 (boolBit f.locked 0 + boolBit (s.cfg.on 12 0) 1), f.lastSeq] ++ le16 f.lastN ++ le32 f.handed.toNat ++
    le32 f.discarded.toNat ++ le32 f.steps.toNat ++ le32 f.revokedSent.toNat ++ le32 f.hdrmBlocks.toNat)

/-! ### Telemetry and ledger (R360, R361) -/

/-- TEL_SUBSCRIBE: the first record comes at the first publication after REPLY. -/
def cmdTelSubscribe (c : HostChan) (d : Desc) (s : State) : Res :=
  let p := d.params
  let mask : BitVec 96 := BitVec.ofNat 96 (leAt p 8 12)
  let cap := u8 p 4 == 1
  if mask = 0 || u8 p 1 = 0 || 32 ≤ u8 p 1 || u16 p 2 = 0 || 1000 < u16 p 2 || 2 ≤ u8 p 4 || !zeroBytes p 5 7 || 2 < u8 p 0 then s.fail rcBadParam
  else if u8 p 0 != c.val then s.fail rcDenied
  else if cap && (List.finRange 3).any (fun k => k != c && (s.tel.streams.get k).any (·.capture)) then s.fail rcDenied
  else
    let x : Stream := { mask := mask, fields := BitVec.ofNat 5 (u8 p 1), period := u16 p 2, capture := cap, left := 1, seq := 0, lost := false }
    let s := s.memWrite (mbxBase c + 0x2000) (le64 0)
    (s.modTel (fun t => { t with streams := vput t.streams c (some x) })).ok

/-- TEL_UNSUBSCRIBE. -/
def cmdTelUnsubscribe (c : HostChan) (s : State) : Res :=
  if (s.tel.streams.get c).isSome then (s.modTel (fun t => { t with streams := vput t.streams c none })).ok else s.fail rcWrongState

/-- A record in its 32 bytes (R387). -/
def ledgerBytes (r : LedgerRec) : List Byte :=
  let b := le32 r.acc ++ le64 r.fleetUs ++ le16 r.type.toNat ++ [r.mode, r.flags] ++ padTo 12 r.payload
  b ++ le32 (crc32c b).toNat

/-- LEDGER_INFO; records refused after the last number count as queued (R388). -/
def cmdLedgerInfo (s : State) : Res :=
  if s.therm.flashShut then s.fail rcBusy
  else
    let accs := s.flash.ledger.map (·.acc)
    let newest := accs.foldl max 0
    let oldest := accs.foldl min newest
    s.okWith (le32 oldest ++ le32 newest ++ le32 accs.length ++ le32 (s.ledger.queue.length + s.ledger.refused))

/-- LEDGER_READ. -/
def cmdLedgerRead (d : Desc) (s : State) : Res :=
  let first := u32 d.params 0
  let m := u16 d.params 4
  let newest := (s.flash.ledger.map (·.acc)).foldl max 0
  if m = 0 || 95 < m || u16 d.params 6 ≠ 0 then s.fail rcBadParam
  else if s.therm.flashShut then s.fail rcBusy
  else if s.flash.ledger.isEmpty || newest < first then s.fail rcNotPresent
  else
    let rs := (s.flash.ledger.reverse.filter (fun r => first ≤ r.acc)).take m
    s.okWith (le32 ((rs.head?.map (·.acc)).getD 0) ++ le16 rs.length ++ [0, 0] ++ rs.flatMap ledgerBytes)

/-! ### The commands as a decision takes them -/

/-- SYS_NOP. -/
def execSysNop (c : HostChan) (slot : Slot) (d : Desc) (s : State) : Out :=
  .next (s.takeCmd c slot 0x0000 d s.now (fun s => s.serve 0x0000 (cmdNop d)))

/-- SYS_RESET. -/
def execSysReset (c : HostChan) (slot : Slot) (d : Desc) (s : State) : Out :=
  .next (s.takeCmd c slot 0x0001 d s.now (fun s => s.serve 0x0001 (cmdReset d)))

/-- SAFE_ENTER. -/
def execSafeEnter (c : HostChan) (slot : Slot) (d : Desc) (s : State) : Out :=
  .next (s.takeCmd c slot 0x0002 d s.now (fun s => s.serve 0x0002 (cmdSafeEnter)))

/-- SAFE_CLEAR. -/
def execSafeClear (c : HostChan) (slot : Slot) (d : Desc) (s : State) : Out :=
  .next (s.takeCmd c slot 0x0003 d s.now (fun s => s.serve 0x0003 (cmdSafeClear)))

/-- SHIP_ENTER. -/
def execShipEnter (c : HostChan) (slot : Slot) (d : Desc) (s : State) : Out :=
  .next (s.takeCmd c slot 0x0004 d s.now (fun s => s.serve 0x0004 (cmdShipEnter c)))

/-- DORMANT_ENTER. -/
def execDormantEnter (c : HostChan) (slot : Slot) (d : Desc) (s : State) : Out :=
  .next (s.takeCmd c slot 0x0005 d s.now (fun s => s.serve 0x0005 (cmdDormantEnter c)))

/-- FUNC_STOP. -/
def execFuncStop (c : HostChan) (slot : Slot) (d : Desc) (s : State) : Out :=
  .next (s.takeCmd c slot 0x0100 d s.now (fun s => s.serve 0x0100 (cmdFuncStop c d)))

/-- CFG_WRITE. -/
def execCfgWrite (c : HostChan) (slot : Slot) (d : Desc) (s : State) : Out :=
  .next (s.takeCmd c slot 0x0101 d s.now (fun s => s.serve 0x0101 (cmdCfgWrite c d)))

/-- CFG_READ. -/
def execCfgRead (c : HostChan) (slot : Slot) (d : Desc) (s : State) : Out :=
  .next (s.takeCmd c slot 0x0102 d s.now (fun s => s.serve 0x0102 (cmdCfgRead d)))

/-- FUNC_START. -/
def execFuncStart (c : HostChan) (slot : Slot) (d : Desc) (s : State) : Out :=
  .next (s.takeCmd c slot 0x0103 d s.now (fun s => s.serve 0x0103 (cmdFuncStart c d)))

/-- FUNC_ABORT. -/
def execFuncAbort (c : HostChan) (slot : Slot) (d : Desc) (s : State) : Out :=
  .next (s.takeCmd c slot 0x0104 d s.now (fun s => s.serve 0x0104 (cmdFuncAbort c d)))

/-- LANE_STOP. -/
def execLaneStop (c : HostChan) (slot : Slot) (d : Desc) (s : State) : Out :=
  .next (s.takeCmd c slot 0x0200 d s.now (fun s => s.serve 0x0200 (cmdLaneStop d)))

/-- LANE_START. -/
def execLaneStart (c : HostChan) (slot : Slot) (d : Desc) (s : State) : Out :=
  .next (s.takeCmd c slot 0x0201 d s.now (fun s => s.serve 0x0201 (cmdLaneStart d)))

/-- PHASE_RETURN. -/
def execPhaseReturn (c : HostChan) (slot : Slot) (d : Desc) (s : State) : Out :=
  .next (s.takeCmd c slot 0x0202 d s.now (fun s => s.serve 0x0202 (cmdPhaseReturn c d)))

/-- PHASE_RETIRE. -/
def execPhaseRetire (c : HostChan) (slot : Slot) (d : Desc) (s : State) : Out :=
  .next (s.takeCmd c slot 0x0203 d s.now (fun s => s.serve 0x0203 (cmdPhaseRetire c d)))

/-- LANE_STATUS. -/
def execLaneStatus (c : HostChan) (slot : Slot) (d : Desc) (s : State) : Out :=
  .next (s.takeCmd c slot 0x0204 d s.now (fun s => s.serve 0x0204 (cmdLaneStatus d)))

/-- CHG_SET_CURRENT. -/
def execChgSetCurrent (c : HostChan) (slot : Slot) (d : Desc) (s : State) : Out :=
  .next (s.takeCmd c slot 0x0300 d s.now (fun s => s.serve 0x0300 (cmdChgSetCurrent d)))

/-- CHG_HOLD. -/
def execChgHold (c : HostChan) (slot : Slot) (d : Desc) (s : State) : Out :=
  .next (s.takeCmd c slot 0x0301 d s.now (fun s => s.serve 0x0301 (cmdChgHold)))

/-- CHG_RESTART. -/
def execChgRestart (c : HostChan) (slot : Slot) (d : Desc) (s : State) : Out :=
  .next (s.takeCmd c slot 0x0302 d s.now (fun s => s.serve 0x0302 (cmdChgRestart)))

/-- CHG_STATUS. -/
def execChgStatus (c : HostChan) (slot : Slot) (d : Desc) (s : State) : Out :=
  .next (s.takeCmd c slot 0x0303 d s.now (fun s => s.serve 0x0303 (cmdChgStatus)))

/-- SRC_UNLOCK. -/
def execSrcUnlock (c : HostChan) (slot : Slot) (d : Desc) (s : State) : Out :=
  .next (s.takeCmd c slot 0x0400 d s.now (fun s => s.serve 0x0400 (cmdSrcUnlock d)))

/-- PORT_STATUS. -/
def execPortStatus (c : HostChan) (slot : Slot) (d : Desc) (s : State) : Out :=
  .next (s.takeCmd c slot 0x0401 d s.now (fun s => s.serve 0x0401 (cmdPortStatus d)))

/-- PORT_ACTION. -/
def execPortAction (c : HostChan) (slot : Slot) (d : Desc) (s : State) : Out :=
  .next (s.takeCmd c slot 0x0402 d s.now (fun s => s.serve 0x0402 (cmdPortAction d)))

/-- TRK_SEND. -/
def execTrkSend (c : HostChan) (slot : Slot) (d : Desc) (s : State) : Out :=
  .next (s.takeCmd c slot 0x0500 d s.now (fun s => s.serve 0x0500 (cmdTrkSend d)))

/-- TRK_STATUS. -/
def execTrkStatus (c : HostChan) (slot : Slot) (d : Desc) (s : State) : Out :=
  .next (s.takeCmd c slot 0x0501 d s.now (fun s => s.serve 0x0501 (cmdTrkStatus)))

/-- FCST_STATUS. -/
def execFcstStatus (c : HostChan) (slot : Slot) (d : Desc) (s : State) : Out :=
  .next (s.takeCmd c slot 0x0600 d s.now (fun s => s.serve 0x0600 (cmdFcstStatus)))

/-- TEL_SUBSCRIBE. -/
def execTelSubscribe (c : HostChan) (slot : Slot) (d : Desc) (s : State) : Out :=
  .next (s.takeCmd c slot 0x0700 d s.now (fun s => s.serve 0x0700 (cmdTelSubscribe c d)))

/-- TEL_UNSUBSCRIBE. -/
def execTelUnsubscribe (c : HostChan) (slot : Slot) (d : Desc) (s : State) : Out :=
  .next (s.takeCmd c slot 0x0701 d s.now (fun s => s.serve 0x0701 (cmdTelUnsubscribe c)))

/-- LEDGER_INFO. -/
def execLedgerInfo (c : HostChan) (slot : Slot) (d : Desc) (s : State) : Out :=
  .next (s.takeCmd c slot 0x0702 d s.now (fun s => s.serve 0x0702 (cmdLedgerInfo)))

/-- LEDGER_READ. -/
def execLedgerRead (c : HostChan) (slot : Slot) (d : Desc) (s : State) : Out :=
  .next (s.takeCmd c slot 0x0703 d s.now (fun s => s.serve 0x0703 (cmdLedgerRead d)))

end Sys2Proof.Machine
end

