-- ==== Sys2Proof/Machine/Updates.lean ====
section
/-! DEFINITION. Mailbox commands (chapter 15), second part: update, thermal, handicap, diagnostics; the dispatch by opcode, and the
handicap registers (chapter 19). -/

namespace Sys2Proof.Machine

/-! ### Update (R362, R401-R407) -/

/-- A job whose end runs the command's effect. -/
def State.updJob (s : State) (c : HostChan) (op : Half) : Res := .run false (s.addJob (.update c op))

/-- UPD_OPEN: the checks of R401 in their order. -/
def cmdUpdOpen (c : HostChan) (d : Desc) (s : State) : Res :=
  if s.update.isOpen || s.update.storing then s.fail rcWrongState
  else
    match s.manCheck d.params with
    | some (code, _) => s.fail code
    | none => if s.therm.flashShut || !s.flash.stagingErased then s.fail rcBusy else s.updJob c 0x0800

/-- UPD_BLOCK. -/
def cmdUpdBlock (c : HostChan) (d : Desc) (s : State) : Res :=
  let u := s.update
  let i := u32 d.params 0
  if !u.isOpen then s.fail rcNoSession
  else if u.relayed || u.st != .receiving then s.fail rcWrongState
  else if manBlocks u.manifest ≤ i then s.fail rcBadParam
  else if (u.held i).any (fun b => b.2.1 != BitVec.ofNat 32 (u32 d.params 4)) then s.fail rcDenied
  else if s.therm.flashShut then s.fail rcBusy
  else s.updJob c 0x0801

/-- UPD_SEAL, step 1. -/
def cmdUpdSeal (c : HostChan) (s : State) : Res :=
  let u := s.update
  if !u.isOpen then s.fail rcNoSession
  else if u.relayed || u.st != .receiving || !u.allHeld then s.fail rcWrongState
  else if !u.buildDone || s.therm.flashShut then s.fail rcBusy
  else s.updJob c 0x0802

def Update.sealedState (u : Update) : Bool := u.st == .sealedUp || u.st == .armed

/-- UPD_KICKOFF. -/
def cmdUpdKickoff (c : HostChan) (d : Desc) (s : State) : Res :=
  if !s.update.isOpen then s.fail rcNoSession
  else if !s.update.sealedState then s.fail rcWrongState
  else if u64 d.params 0 < s.fleetUs + 1000000 || 2 ≤ u8 d.params 8 || !zeroBytes d.params 9 11 then s.fail rcBadParam
  else s.updJob c 0x0803

/-- UPD_RELAY. -/
def cmdUpdRelay (d : Desc) (s : State) : Res :=
  if !s.update.isOpen then s.fail rcNoSession
  else if 2 ≤ u8 d.params 0 || !zeroBytes d.params 1 3 then s.fail rcBadParam
  else if !s.update.sealedState || !s.trkOn then s.fail rcWrongState
  else if s.upPorts.isEmpty then s.fail rcNotPresent
  else if u8 d.params 0 = 0 then (s.modTrunk (fun t => { t with relay := false, relayLeft := [], resend := [] })).ok
  else
    let n := (s.update.stream.length + 255) / 256
    (s.modTrunk (fun t => { t with relay := true, relayLeft := List.range n, relayPass := 1, resend := [], ackStates := [] })).ok

/-- UPD_CONFIRM: with HOST_CONFIRM clear the end of the window confirms, and the command changes nothing (log entry 63). -/
def cmdUpdConfirm (c : HostChan) (s : State) : Res :=
  let u := s.update
  if u.st != .active || !u.window || u.spoiled || u.wdgSpoiled then s.fail rcWrongState
  else if !manHostConfirm u.manifest then s.ok
  else s.updJob c 0x0805

/-- UPD_ABORT: it also ends the report of a rejected package. -/
def cmdUpdAbort (c : HostChan) (s : State) : Res :=
  if s.update.st = .idle then s.fail rcNoSession
  else if s.update.st = .active then s.fail rcWrongState
  else s.updJob c 0x0806

/-- The 24 bytes of UPD_STATUS. -/
def State.updBlock (s : State) : List Byte :=
  let u := s.update
  [BitVec.ofNat 8 (updCode u.st), BitVec.ofNat 8 u.reason, 0, 0] ++ le32 u.tag.toNat ++ le32 u.contiguous ++ le64 (u.kickoff.getD 0) ++
  (manVersion u.manifest).toList ++ [0]

/-- UPD_STATUS. -/
def cmdUpdStatus (s : State) : Res := s.okWith s.updBlock

/-- A record programmed at its stream offset, then checked (R402, R403): a range programmed before keeps its cleared
bits; a record that fails its CRC a second time is erased with its sectors. -/
def State.storeBlock (s : State) (p : List Byte) : Nat × State :=
  let i := u32 p 0
  let old := (s.update.partials.find? (fun b => b.1 == i)).map (·.2)
  let now := match old with
    | some o => List.zipWith (fun (x y : Byte) => x &&& y) o p
    | none => p
  if (s.update.held i).isSome then (rcOk, s)
  else if blockOk i now then
    let s := s.modUpd (fun u => { u with blocks := u.blocks ++ [(i, BitVec.ofNat 32 (u32 now 4), slice now 8 4096)]
                                         partials := u.partials.filter (fun b => b.1 != i) })
    (rcOk, s.journal 2 i (u32 now 4))
  else
    match old with
    | none => (rcCrcFail, s.modUpd (fun u => { u with partials := u.partials ++ [(i, now)] }))
    | some _ => (rcCrcFail, s.modUpd (fun u => u.eraseRecord i))

/-- The end of an update command's flash work. A seal that passes goes on to the shelf header (R402). -/
def State.updDone (s : State) (c : HostChan) (op : Nat) : State :=
  let p := match (s.mbx c).running with | some r => r.desc.params | none => []
  if op = 0x0800 then ((s.modUpd (fun u => { Update.zero with target := u.target })).openSession p (manTag p)).finish c rcOk (le32 (manTag p).toNat ++ le32 (manBlocks p))
  else if op = 0x0801 then
    let r := s.storeBlock p
    r.2.finish c r.1 []
  else if op = 0x0802 then
    match s.sealReason p with
    | some r => (s.rejectSession r).finish c (if r = 7 then rcSignature else rcValidation) []
    | none => (s.modChan c (fun m => { m with running := m.running.map (fun r => { r with pastNoReturn := true }) })).addJob (.header c p)
  else if op = 0x0803 then
    let s := s.setKickoff (u64 p 0)
    let s := s.modTrunk (fun t => { t with kickoffBroadcast := u8 p 8 == 1, due := { t.due with kickoff := s.now } })
    s.finish c rcOk []
  else if op = 0x0805 then s.confirmUpdate.finish c rcOk []
  else ((s.updRecord 8 14 s.updVersion).closeSession 14).finish c rcOk []

/-! ### Thermal, handicap, diagnostics (R300, R363, R364, R433, R437) -/

/-- THERM_RELEASE. -/
def cmdThermRelease (d : Desc) (s : State) : Res :=
  match s.namedLane d with
  | .error code => s.fail code
  | .ok n =>
    let l := s.lane n
    if !l.latched then s.fail rcBadParam
    else if 130 ≤ l.tempDie || s.releaseAt (.tsl n) ≤ l.tempTsl then s.fail rcWrongState
    else (s.modLane n (fun l => { l with latched := false })).ok

/-- The 20 bytes from 0x5000 to 0x5013. -/
def Handicap.bytes (h : Handicap) : List Byte := (List.range 5).flatMap (fun r => le32 (h.word r))

/-- Record 0x0A01. -/
def State.hndRecord (s : State) (event : Byte) : State :=
  s.record 0x0A01 ([event, 0, 0, 0] ++ le32 s.hnd.seed.toNat ++ le32 (crc32c s.hnd.bytes).toNat)

/-- HND_UNLOCK. -/
def cmdHndUnlock (d : Desc) (s : State) : Res :=
  if !s.aon.straps.testen then s.fail rcDenied
  else if u32 d.params 0 ≠ 0x48440724 then s.fail rcBadParam
  else (({ s with hnd := { s.hnd with unlocked := true } }).hndRecord 1).ok

/-- Every RW field at its reset value, locked; the counts stay (R433, R434). -/
def Handicap.lock (h : Handicap) : Handicap := { Handicap.zero with delayed := h.delayed, pdDelayed := h.pdDelayed }

/-- HND_LOCK: a record where the registers were unlocked. -/
def cmdHndLock (s : State) : Res :=
  let was := s.hnd.unlocked
  let s := { s with hnd := s.hnd.lock }
  (if was then s.hndRecord 2 else s).ok

def counters (l : List Nat) : List Byte := padTo 32 (l.flatMap (fun n => le32 (sat32 n)))

/-- DIAG_READ: the counters, cleared where asked. -/
def cmdDiagRead (d : Desc) (s : State) : Res :=
  let sel := u8 d.params 0
  let clr := u8 d.params 2 == 1
  if 2 < sel || 2 ≤ u8 d.params 2 || u8 d.params 3 != 0 then s.fail rcBadParam
  else if sel = 0 then
    match laneOf (u8 d.params 1) with
    | none => s.fail rcBadParam
    | some n =>
      if !s.cfg.laneFitted n then s.fail rcNotPresent
      else
        let x := (s.lane n).diag
        let s' := if clr then s.modLane n (fun l => { l with diag := LaneDie.zero.diag }) else s
        s'.okWith (counters [x.late, x.shedAborts, x.currentLimits, x.truncations, x.skipEntries, x.stageFaults, x.syncLosses])
  else if sel = 1 then
    if h : u8 d.params 1 < 2 then
      let m : PortDie := ⟨u8 d.params 1, h⟩
      let x := s.pdie m
      let s' := if clr then s.modPd m (fun d => { d with late := 0, softResets := 0, pdCrc := 0, trips := 0, badTa := 0, badTb := 0, dropped := 0 }) else s
      s'.okWith (counters [x.late, x.softResets, x.pdCrc, x.trips, x.badTa, x.badTb, x.dropped])
    else s.fail rcBadParam
  else if u8 d.params 1 ≠ 0 then s.fail rcBadParam
  else
    let f := s.fcst
    let l := [f.crcErr, f.verErr, f.lenErr, f.intErr, f.lateFrames, s.host.spiDiscards, s.host.uartDiscards, s.tel.dropped]
    let s' := if clr then
        { s with fcst := { f with crcErr := 0, verErr := 0, lenErr := 0, intErr := 0, lateFrames := 0 }
                 host := { s.host with spiDiscards := 0, uartDiscards := 0 }, tel := { s.tel with dropped := 0 } }
      else s
    s'.okWith (counters l)

/-! ### Rows -/

/-- UPD_OPEN. -/
def execUpdOpen (c : HostChan) (slot : Slot) (d : Desc) (s : State) : Out :=
  .next (s.takeCmd c slot 0x0800 d s.now (fun s => s.serve 0x0800 (cmdUpdOpen c d)))

/-- UPD_BLOCK. -/
def execUpdBlock (c : HostChan) (slot : Slot) (d : Desc) (s : State) : Out :=
  .next (s.takeCmd c slot 0x0801 d s.now (fun s => s.serve 0x0801 (cmdUpdBlock c d)))

/-- UPD_SEAL. -/
def execUpdSeal (c : HostChan) (slot : Slot) (d : Desc) (s : State) : Out :=
  .next (s.takeCmd c slot 0x0802 d s.now (fun s => s.serve 0x0802 (cmdUpdSeal c)))

/-- UPD_KICKOFF. -/
def execUpdKickoff (c : HostChan) (slot : Slot) (d : Desc) (s : State) : Out :=
  .next (s.takeCmd c slot 0x0803 d s.now (fun s => s.serve 0x0803 (cmdUpdKickoff c d)))

/-- UPD_RELAY. -/
def execUpdRelay (c : HostChan) (slot : Slot) (d : Desc) (s : State) : Out :=
  .next (s.takeCmd c slot 0x0804 d s.now (fun s => s.serve 0x0804 (cmdUpdRelay d)))

/-- UPD_CONFIRM. -/
def execUpdConfirm (c : HostChan) (slot : Slot) (d : Desc) (s : State) : Out :=
  .next (s.takeCmd c slot 0x0805 d s.now (fun s => s.serve 0x0805 (cmdUpdConfirm c)))

/-- UPD_ABORT. -/
def execUpdAbort (c : HostChan) (slot : Slot) (d : Desc) (s : State) : Out :=
  .next (s.takeCmd c slot 0x0806 d s.now (fun s => s.serve 0x0806 (cmdUpdAbort c)))

/-- UPD_STATUS. -/
def execUpdStatus (c : HostChan) (slot : Slot) (d : Desc) (s : State) : Out :=
  .next (s.takeCmd c slot 0x0807 d s.now (fun s => s.serve 0x0807 (cmdUpdStatus)))

/-- THERM_RELEASE. -/
def execThermRelease (c : HostChan) (slot : Slot) (d : Desc) (s : State) : Out :=
  .next (s.takeCmd c slot 0x0900 d s.now (fun s => s.serve 0x0900 (cmdThermRelease d)))

/-- HND_UNLOCK. -/
def execHndUnlock (c : HostChan) (slot : Slot) (d : Desc) (s : State) : Out :=
  .next (s.takeCmd c slot 0x0A00 d s.now (fun s => s.serve 0x0A00 (cmdHndUnlock d)))

/-- HND_LOCK. -/
def execHndLock (c : HostChan) (slot : Slot) (d : Desc) (s : State) : Out :=
  .next (s.takeCmd c slot 0x0A01 d s.now (fun s => s.serve 0x0A01 (cmdHndLock)))

/-- DIAG_READ. -/
def execDiagRead (c : HostChan) (slot : Slot) (d : Desc) (s : State) : Out :=
  .next (s.takeCmd c slot 0x0A02 d s.now (fun s => s.serve 0x0A02 (cmdDiagRead d)))

/-- The body of an opcode. -/
def cmdOf (op : Nat) (c : HostChan) (d : Desc) (s : State) : Res :=
  match op with
  | 0x0000 => cmdNop d s
  | 0x0001 => cmdReset d s
  | 0x0002 => cmdSafeEnter s
  | 0x0003 => cmdSafeClear s
  | 0x0004 => cmdShipEnter c s
  | 0x0005 => cmdDormantEnter c s
  | 0x0100 => cmdFuncStop c d s
  | 0x0101 => cmdCfgWrite c d s
  | 0x0102 => cmdCfgRead d s
  | 0x0103 => cmdFuncStart c d s
  | 0x0104 => cmdFuncAbort c d s
  | 0x0200 => cmdLaneStop d s
  | 0x0201 => cmdLaneStart d s
  | 0x0202 => cmdPhaseReturn c d s
  | 0x0203 => cmdPhaseRetire c d s
  | 0x0204 => cmdLaneStatus d s
  | 0x0300 => cmdChgSetCurrent d s
  | 0x0301 => cmdChgHold s
  | 0x0302 => cmdChgRestart s
  | 0x0303 => cmdChgStatus s
  | 0x0400 => cmdSrcUnlock d s
  | 0x0401 => cmdPortStatus d s
  | 0x0402 => cmdPortAction d s
  | 0x0500 => cmdTrkSend d s
  | 0x0501 => cmdTrkStatus s
  | 0x0600 => cmdFcstStatus s
  | 0x0700 => cmdTelSubscribe c d s
  | 0x0701 => cmdTelUnsubscribe c s
  | 0x0702 => cmdLedgerInfo s
  | 0x0703 => cmdLedgerRead d s
  | 0x0800 => cmdUpdOpen c d s
  | 0x0801 => cmdUpdBlock c d s
  | 0x0802 => cmdUpdSeal c s
  | 0x0803 => cmdUpdKickoff c d s
  | 0x0804 => cmdUpdRelay d s
  | 0x0805 => cmdUpdConfirm c s
  | 0x0806 => cmdUpdAbort c s
  | 0x0807 => cmdUpdStatus s
  | 0x0900 => cmdThermRelease d s
  | 0x0A00 => cmdHndUnlock d s
  | 0x0A01 => cmdHndLock s
  | 0x0A02 => cmdDiagRead d s
  | _ => s.fail rcBadOpcode

/-- A descriptor taken from a private region (R330). -/
def State.takeSlot (s : State) (c : HostChan) (slot : Slot) (bell : Nat) : State :=
  let x := s.readDesc c slot
  s.takeCmd c slot x.1 x.2 bell (fun s => s.serve x.1.toNat (cmdOf x.1.toNat c x.2))

/-! ### Handicap registers (R433, R434, R437) -/

/-- HND_REGISTER_WRITE. -/
def execHndRegisterWrite (i : Iface) (r : Fin 7) (v : Word) (s : State) : Out :=
  if s.hostUp then .next (s.hostWrite i (0x5000 + 4 * r.val) v) else .next s

/-- A register takes its written value; reserved bits stay 0 and read-only bits their values. -/
def Handicap.write (h : Handicap) (r : Nat) (v : Word) : Handicap :=
  if r = 0 then { h with ctrl := v.setWidth 5, cycle := 0 }
  else if r = 1 then { h with jitter := v }
  else if r = 2 then { h with backpressure := v.setWidth 24 }
  else if r = 3 then { h with pdPorts := v.setWidth 4, pdMax := (v >>> 8).setWidth 8 }
  else if r = 4 then { h with seed := v }
  else h

/-- Writes take effect at the tick boundary (R437). -/
def Handicap.boundary (h : Handicap) : Handicap :=
  let n := h.queue.foldl (fun (a : Handicap) x => a.write x.1 x.2) h
  { n with queue := [], changed := h.changed || n.ctrl != h.ctrl || n.jitter != h.jitter || n.backpressure != h.backpressure ||
      n.pdPorts != h.pdPorts || n.pdMax != h.pdMax || n.seed != h.seed }

def Handicap.forceDiv (h : Handicap) : Nat := if h.unlocked then h.ctrl.toNat / 8 else 0

/-- Division of the hub core clock: the deeper of the thermal state and FORCE_DIV (R294, R434). -/
def State.hubDivision (s : State) : Nat :=
  let f := match s.hnd.forceDiv with
    | 1 => 2
    | 2 => 4
    | 3 => (match s.hnd.cycle with | 0 => 1 | 1 => 2 | _ => 4)
    | _ => 1
  max s.therm.hubDiv f

/-- HANDICAP_DIV_CYCLE: the next of the divisions 1, 2, 4, every 100 ms. -/
def execHandicapDivCycle (s : State) : Out :=
  if s.hubUp && s.hnd.forceDiv == 3 then .next { s with hnd := { s.hnd with cycle := (s.hnd.cycle + 1) % 3 } } else .next s

end Sys2Proof.Machine
end

