-- ==== Sys2Proof/Machine/FlashRows.lean ====
section
/-! DEFINITION. The flash die's operations (R382-R389) and the update's own events (R402, R403, R406, R407). -/

namespace Sys2Proof.Machine

/-! ### The end of an operation -/

/-- Records that stay in a wrapped ledger once the sector after the writer's is erased (R388). -/
def ledgerKeep (slot : Nat) : Nat := 8190 * 128 + (if slot % 128 = 0 then 128 else slot % 128)

/-- A ledger record is written: it leaves the queue, and the command that waits for it is answered (R344, R389). -/
def State.ledgerDone (s : State) (r : LedgerRec) : State :=
  let s := { s with flash := s.flash.putLedger r, ledger := { s.ledger with queue := s.ledger.queue.drop 1 } }
  (List.finRange 3).foldl (fun s c =>
    match (s.mbx c).running with
    | some x => if x.waits = some r.acc then s.finish c rcOk [] else s
    | none => s) s

/-- A learned-state record joins the region in use (R232). -/
def Flash.putLearned (f : Flash) (r : LearnedRec) : Flash := { f with learned := vmod f.learned f.learnedActive (r :: ·) }

/-- What a foreground job leaves (R383). -/
def State.jobDone (s : State) (j : FlashJob) : State :=
  match j with
  | .catalogue c r => s.startDone c r
  | .migrate r => ({ s with flash := s.flash.putCat r }).record 0x0101 ([1, 0, BitVec.ofNat 8 (((newestCat s.flash).map (fun (x : CatRec) => x.format)).getD 0), 3] ++ le32 r.seq)
  | .ledger r => s.ledgerDone r
  | .learned r => { s with flash := s.flash.putLearned r }
  | .outMask c r => ({ s with flash := s.flash.putLearned r }).finish c rcOk []
  | .update c op => s.updDone c op.toNat
  | .header c sig => (s.sealSession sig).finish c rcOk []

/-- What a background job leaves. -/
def State.backgroundDone (s : State) (b : BgJob) : State :=
  match b with
  | .ledgerErase => { s with flash := { s.flash with ledgerErased := true, ledger := s.flash.ledger.take (ledgerKeep s.flash.ledgerSlot) } }
  | .sector k => (s.builtSector k).sealRelayed
  | .staging => { s with flash := { s.flash with stagingErased := true, journal := [] } }

/-- The next foreground job; none starts in shutdown (R297). -/
def State.kickFlash (s : State) : State := if s.therm.flashShut then s else { s with flash := s.flash.kick }

/-- FLASH_OPERATION_COMPLETE (R382, R383): the foreground operation, else the background one. -/
def execFlashOperationComplete (s : State) : Out :=
  if !s.hubUp then .next s
  else
    match s.flash.busy with
    | some j =>
      let s := { s with flash := { s.flash with busy := none } }
      .next (s.jobDone j).kickFlash
    | none =>
      match s.flash.background with
      | some b =>
        let s := { s with flash := { s.flash with background := none } }
        .next (s.backgroundDone b).kickFlash
      | none => .next s

/-! ### Starts -/

/-- A ledger record waits to be written or is being written. -/
def Flash.ledgerBusy (f : Flash) : Bool := (f.queue ++ f.busy.toList).any (fun j => match j with | .ledger _ => true | _ => false)

/-- LEDGER_WRITE: the oldest record of the queue; the writer enters a sector once the one after it is erased (R388). -/
def execLedgerWrite (s : State) : Out :=
  match s.ledger.queue with
  | r :: _ =>
    if s.hubUp && !s.flash.ledgerBusy && (s.flash.ledgerErased || s.flash.ledgerSlot % 128 != 0) then .next (s.addJob (.ledger r)) else .next s
  | [] => .next s

/-- Background work starts while the die is idle and not shut down (R383). -/
def State.startBackground (s : State) (b : BgJob) : State :=
  if s.hubUp && s.flash.busy.isNone && s.flash.background.isNone && !s.therm.flashShut then
    { s with flash := { s.flash with background := some b } }
  else s

/-- LEDGER_SECTOR_ERASE. -/
def execLedgerSectorErase (s : State) : Out := if s.flash.ledgerErased then .next s else .next (s.startBackground .ledgerErase)

/-- SHELF_SECTOR_BUILD: a target sector whose source is held. -/
def execShelfSectorBuild (sector : Fin 512) (s : State) : Out :=
  let u := s.update
  if u.st == .receiving && !u.manifest.isEmpty && decide (sector.val < manSectors u.manifest) && !u.built.contains sector.val &&
    (s.sectorSource sector.val).isSome then .next (s.startBackground (.sector sector.val))
  else .next s

/-- STAGING_ERASE: the staging region of a closed or rejected session; its sectors are erased as one job (log entry 64). -/
def execStagingErase (s : State) : Out :=
  if !s.flash.stagingErased && (s.update.st == .idle || s.update.st == .rejected) then .next (s.startBackground .staging) else .next s

/-! ### Kick-off and the health window (R406, R407) -/

/-- Why a kick-off that has been reached is missed. -/
def State.kickMiss (s : State) (t : Nat) : Option Nat :=
  if t + 1000000 < s.fleetUs then some 10
  else if !s.update.sealedState then some 9
  else if !s.modeIs .battery && !s.modeIs .supply then some 12
  else if s.trkOn && !s.fleetHeld then some 11
  else none

/-- KICKOFF_TIME_REACHED. -/
def execKickoffTimeReached (s : State) : Out :=
  match s.update.kickoff with
  | none => .next s
  | some t =>
    if !s.hubUp || s.fleetUs < t || s.update.kickDone || s.update.st == .active || s.update.st == .rejected then .next s
    else
      match s.kickMiss t with
      | some r => .next ((s.modUpd (fun u => { u with reason := r, kickDone := true })).updRecord 9 r s.updVersion)
      | none =>
        let n := s.nextActSeq
        let s := s.modShelf s.update.target (fun h => { h with armed := true, actSeq := if h.armed then h.actSeq else n, trial := true })
        let s := s.modUpd (fun u => { u with st := .active, reason := 0, kickDone := true, window := true, spoiled := false, wdgSpoiled := false })
        .next (((s.journal 7 s.update.tag.toNat t).updRecord 5 0 s.updVersion).hubReset 9)

/-- HEALTH_WINDOW_END. -/
def execHealthWindowEnd (s : State) : Out :=
  let u := s.update
  match u.kickoff with
  | none => .next s
  | some t =>
    if !s.hubUp || u.st != .active || !u.window || s.fleetUs < t + 120000000 then .next s
    else if !manHostConfirm u.manifest && !u.spoiled && !u.wdgSpoiled then .next s.confirmUpdate
    else .next ((s.retireShelf u.target 13).hubReset 10)

end Sys2Proof.Machine
end

