-- ==== Sys2Proof/Machine/Segment.lean ====
section
/-! DEFINITION. The segment link: line code and turn-around (R259, R262). -/

namespace Sys2Proof.Machine

/-- The bits of a byte, least significant first (R259). -/
def lsbFirst (b : Byte) : List Bool := (List.finRange 8).map (fun i => b.getLsbD i.val)

/-- Preamble, start delimiter and frame bytes, in the order of transmission. -/
def lineBits (frame : List Byte) : List Bool := (List.replicate 4 0x55 ++ [0xD5] ++ frame).flatMap lsbFirst

/-- A bit as its two half-bits of 50 ns: a 1 rises at mid-bit, a 0 falls. -/
def manchester (b : Bool) : List Bool := [!b, b]

/-- TXD of a port while it sends a frame, in half-bits of 50 ns, DE high: at least 200 ns of idle line before the first bit, and
the end delimiter, 200 ns high without a mid-bit transition (R259). -/
def lineCode (frame : List Byte) : List Bool :=
  List.replicate 4 true ++ (lineBits frame).flatMap manchester ++ List.replicate 4 true

/-- A receiver needs 16 preamble bits before the start delimiter (R259). -/
def preambleOk (bits : Nat) : Bool := 16 ≤ bits

/-- The lower end of a segment (R262, R266): by node ID, and by unit ID where both ends have one ID; before a HELLO of the
neighbour, TA is the lower end. -/
def State.lowerEnd (s : State) (t : TrunkPort) : Bool :=
  match (s.link t).neighbour with
  | some (id, unit) => if id = s.trunk.nodeId then decide (s.myUnit.toNat < unit.toNat) else decide (s.trunk.nodeId.toNat < id.toNat)
  | none => t = 0

/-- Whether an end may start a frame (R262): in the reply window, or in a window of its own once the line is free. -/
def State.mayStart (s : State) (t : TrunkPort) (g : SegmentGap) : Bool :=
  let phase := (g.ns - 10000) % 8000
  (g.received && 2000 ≤ g.ns && g.ns < 6000) ||
  (10000 ≤ g.ns && (if s.lowerEnd t then phase < 2000 else 4000 ≤ phase && phase < 6000))

end Sys2Proof.Machine
end

