-- ==== Sys2Proof/Machine/TrunkRows.lean ====
section
/-! DEFINITION. The commands of the Dvor trunk (chapter 11). -/

namespace Sys2Proof.Machine

/-! ### Pass pairs (R256) -/

def liveSide (v : Volt) : Bool := 20 ≤ v && v ≤ 62
def deadSide (v : Volt) : Bool := v < 9 / 2

/-- PASS_PAIR_JOIN: join, energise, or a mismatch that waits a second. A pair that a protection opened is tried again 1 s
after the trip (R155; DEDUCED, log entry 140). -/
def execPassPairJoin (t : TrunkPort) (conn bus : Volt) (s : State) : Out :=
  let c := trunkSrc t
  let k := s.conn c
  if (s.pdie 1).up && s.cfg.connFit c && !k.lockedOut && k.lastTrip.isNone && !s.standsIn t && k.pair == .opened && k.retryAt == 0 then
    let energise := (liveSide conn && deadSide bus) || (deadSide conn && liveSide bus)
    if energise || (liveSide conn && liveSide bus && rabs (conn - bus) ≤ 2) then
      .next ((s.closePair c).modConn c (fun k => { k with v := conn, energising := energise }))
    else if 9 / 2 < conn && 9 / 2 < bus && 2 < rabs (conn - bus) then
      .next (s.modConn c (fun k => { k with retryAt := s.now + secTicks 1 }))
    else .next s
  else .next s

/-- ENERGISE_TIMEOUT: the pair opens, and is tried again 10 s later; the third failure in a row is recorded. -/
def execEnergiseTimeout (t : TrunkPort) (s : State) : Out :=
  let c := trunkSrc t
  if (s.conn c).pair = .closing && (s.conn c).energising then
    let s := s.modConn c (fun k => { k with pair := .opened, slew := 0, energising := false, joinFails := k.joinFails + 1, retryAt := s.now + secTicks 10 })
    if (s.conn c).joinFails = 3 then
      .next (s.record 0x0503 ([1, BitVec.ofNat 8 t.val] ++ le16 (((s.link t).neighbour.map (·.1.toNat)).getD 0)))
    else .next s
  else .next s

/-- JOIN_RETRY: the interval has passed and the pair may be tried again. -/
def execJoinRetry (t : TrunkPort) (s : State) : Out :=
  let c := trunkSrc t
  let k := s.conn c
  if k.pair = .opened && k.retryAt != 0 && k.retryAt ≤ s.now then .next (s.modConn c (fun k => { k with retryAt := 0 })) else .next s

/-! ### Frames (R259-R268) -/

/-- A member consumes broadcasts and frames addressed to itself (R267). -/
def State.addressed (s : State) (f : TrunkFrame) : Bool := f.dst == 0xFFF || f.dst == s.trunk.nodeId

/-- TRUNK_FRAME_RECEIVED (R263, R267): an invalid frame is counted; a valid one keeps the link up, is repeated and, where
it is this member's, handed to the hub as a trunk-class event. A HELLO is the port's own. -/
def execTrunkFrameReceived (t : TrunkPort) (x : FrameStart) (bytes : List Byte) (s : State) : Out :=
  if !(s.pdie 1).up then .next s
  else
    match (if preambleOk x.preamble then parseFrame bytes else none) with
    | none => .next (s.modPd 1 (fun d =>
        if t = 0 then { d with badTa := satInc 32 d.badTa } else { d with badTb := satInc 32 d.badTb }))
    | some f =>
      let s := s.modLink t (fun l => { l with lastRx := s.now })
      let s := s.repeatFrame t f
      let a : TrunkArrival := { port := t, sfdNs := x.sfdNs }
      if f.type = 1 && f.dst = 0 then .next (s.takeHello a f)
      else if s.addressed f && 2 ≤ f.type.toNat && f.type.toNat ≤ 10 then
        .next (s.stamp .trunk .trunk t.val (.trunkFrame a f))
      else .next s

def execHelloReceived (a : TrunkArrival) (f : TrunkFrame) (s : State) : Out :=
  if (s.pdie 1).up && f.type = 1 then .next (s.takeHello a f) else .next s

/-- A frame that port die 1 consumes for the hub: it waits as a trunk-class event for the next decision (R10, R461), the
first one while the hub is absent (R421). -/
def State.consume (s : State) (type : Byte) (a : TrunkArrival) (f : TrunkFrame) : State :=
  if (s.pdie 1).up && f.type = type && s.addressed f then s.stamp .trunk .trunk a.port.val (.trunkFrame a f) else s

/-- BEACON_RECEIVED (R269). -/
def execBeaconReceived (a : TrunkArrival) (f : TrunkFrame) (s : State) : Out := .next (s.consume 2 a f)

/-- BULLETIN_RECEIVED (R284). -/
def execBulletinReceived (x : TrunkRx) (s : State) : Out := .next (s.consume 3 x.arrival x.frame)

/-- REPORT_RECEIVED (R280). -/
def execReportReceived (x : TrunkRx) (s : State) : Out := .next (s.consume 4 x.arrival x.frame)

/-- GRANT_RECEIVED (R282). -/
def execGrantReceived (x : TrunkRx) (s : State) : Out := .next (s.consume 5 x.arrival x.frame)

/-- CLAIM_RECEIVED (R272). -/
def execClaimReceived (x : TrunkRx) (s : State) : Out := .next (s.consume 6 x.arrival x.frame)

/-- UPDATE_FRAME_RECEIVED (R404). -/
def execUpdateFrameReceived (x : TrunkRx) (s : State) : Out := .next (s.consume 7 x.arrival x.frame)

/-- UPDATE_ACK_RECEIVED (R287). -/
def execUpdateAckReceived (x : TrunkRx) (s : State) : Out := .next (s.consume 8 x.arrival x.frame)

/-- MESSAGE_RECEIVED (R329). -/
def execMessageReceived (x : TrunkRx) (s : State) : Out := .next (s.consume 9 x.arrival x.frame)

/-- KICKOFF_RECEIVED (R404). -/
def execKickoffReceived (x : TrunkRx) (s : State) : Out := .next (s.consume 10 x.arrival x.frame)

/-- LINK_DOWN (R265). -/
def execLinkDown (t : TrunkPort) (s : State) : Out :=
  let l := s.link t
  if l.up && s.passed l.lastRx (msTicks 300) then
    .next ((s.modLink t (fun l => { l with up := false, neighbour := none })).stamp .trunk .trunk t.val (.linkDown t))
  else .next s

/-- HELLO_SEND (R264, R265): every 100 ms, every second one with REPLY_REQ. -/
def execHelloSend (t : TrunkPort) (s : State) : Out :=
  if (s.pdie 1).up && (s.link t).helloDue ≤ s.now then
    let s := s.takeNodeId
    let req := (s.link t).reqNext
    let s := s.originate [t] 1 0 (s.helloPayload t req none)
    .next (s.modLink t (fun l => { l with reqNext := !req, helloDue := s.now + msTicks 100 }))
  else .next s

/-- Fields that a frame takes at its start delimiter: TURN, T_ORIGIN and CORR (R265, R269). -/
def State.atDelimiter (s : State) (f : TrunkFrame) (residenceNs : Nat) : TrunkFrame :=
  if f.type = 1 && u16 f.payload 12 != 0xFFFF then { f with payload := f.payload.take 16 ++ le32 residenceNs ++ f.payload.drop 20 }
  else if f.type = 2 then
    if f.hops = 0 then
      let us := s.fleetUs
      { f with payload := le64 us ++ sle 4 (s.time.fleetNs - 1000 * us).floor ++ f.payload.drop 12 }
    else { f with payload := addCorr f.payload residenceNs }
  else f

/-- TRUNK_QUEUE_SEND (R262, R268): the first frame of the highest priority, in a window of this end. -/
def execTrunkQueueSend (t : TrunkPort) (x : SendMoment) (s : State) : Out :=
  let q := (s.link t).queue
  let i := q.findIdx (fun f => frameRank f.type == bestRank q)
  match q[i]? with
  | none => .next s
  | some f =>
    if !(s.pdie 1).up || !s.mayStart t x.gap then .next s
    else
      let f := s.atDelimiter f x.residenceNs
      let ask := f.type = 1 && f.hops = 0 && (u8 f.payload 10).testBit 0
      let s := s.modLink t (fun l => { l with
        queue := q.eraseIdx i ++ l.backlog.take 1, backlog := l.backlog.drop 1, out := frameBytes f
        asked := if ask then ((f.seq, s.localNs) :: l.asked).take 8 else l.asked })
      .next s

/-! ### The captain (R269-R274) -/

/-- BEACON_SEND (R269). -/
def execBeaconSend (s : State) : Out :=
  if s.hubUp && s.trunk.isCaptain && s.trunk.due.beacon ≤ s.now then .next s.sendBeacon else .next s

/-- BULLETIN_SEND (R281, R282, R284). -/
def execBulletinSend (s : State) : Out :=
  if s.hubUp && s.trunk.isCaptain && s.trunk.due.bulletin ≤ s.now then .next s.sendBulletin else .next s

/-- REPORT_SEND (R278); the captain's own goes to its roster. -/
def execReportSend (s : State) : Out :=
  match s.trunk.due.report, s.trunk.captain with
  | some t, some c =>
    if s.hubUp && s.trkOn && t ≤ s.now then
      let s := s.modDue (fun d => { d with report := none })
      if s.trunk.isCaptain then .next (s.takeReport (s.newFrame 4 s.trunk.nodeId s.reportPayload))
      else .next (s.originate s.upPorts 4 c.node s.reportPayload)
    else .next s
  | _, _ => .next s

/-- UNROSTERED_GRANT_SEND (R280). -/
def execUnrosteredGrantSend (s : State) : Out :=
  if s.hubUp && s.trunk.isCaptain && s.trunk.due.unrostered ≤ s.now then
    let s := s.modDue (fun d => { d with unrostered := s.now + secTicks 1 })
    let l := s.trunk.unrostered.filter (fun x => !s.passed x.2.1 (secTicks 2))
    let s := s.modTrunk (fun t => { t with unrostered := l })
    .next (l.foldl (fun s x => s.sendGrant x.1 (grantPayload s.trunk.epoch 0 2 0xFF s.fleetUs s.fleetUs x.2.2)) s)
  else .next s

/-- A trunk link has been up for 150 ms without a BEACON (R272). -/
def State.noBeacon (s : State) : Bool :=
  s.trunk.captain.isNone && s.passed s.hub.firstTick lossTicks &&
  s.upPorts.any (fun t => s.passed (s.link t).upAt lossTicks) && s.trunk.lastBeacon.all (fun t => s.passed t lossTicks) &&
  s.trunk.betterClaim.all (fun t => s.passed t lossTicks)

/-- CLAIM_SEND (R272). -/
def execClaimSend (s : State) : Out :=
  if s.hubUp && !s.trunk.isCaptain && s.mayClaim then
    let s := if s.noBeacon then s.startClaim else s
    if s.trunk.claiming.isSome && s.trunk.due.claim ≤ s.now then
      let k := s.myKey
      let s := s.modDue (fun d => { d with claim := s.now + msTicks 50 })
      .next (s.originate s.upPorts 6 0xFFF (le64 s.myUnit.toNat ++ [boolByte k.always, 0] ++ le16 k.cf ++
        le32 (if s.time.fleetSet then s.trunk.fleetEpoch.toNat else 0)))
    else .next s
  else .next s

/-- CAPTAIN_ELECTED (R272). -/
def execCaptainElected (s : State) : Out :=
  match s.trunk.claiming with
  | some t => if s.hubUp && s.mayClaim && s.passed t (msTicks 400) then .next s.electCaptain else .next s
  | none => .next s

/-- CAPTAIN_LOST (R273). -/
def execCaptainLost (s : State) : Out :=
  match s.trunk.lastBeacon with
  | some t =>
    if s.hubUp && !s.trunk.isCaptain && s.passed t lossTicks then
      let s := s.modTrunk (fun x => { x with captain := none, lastBeacon := none })
      .next (if s.mayClaim then s.startClaim else s)
    else .next s
  | none => .next s

/-- CAPTAIN_STEP_DOWN (R274): an AUTO captain with C_F at 0 W for 10 s. -/
def execCaptainStepDown (s : State) : Out :=
  match s.trunk.capZeroSince with
  | some t =>
    if s.hubUp && s.trunk.isCaptain && s.cfg.get 11 3 = 0 && s.feedCap = 0 && s.passed t (secTicks 10) then
      .next (s.stepDown 1 s.trunk.nodeId)
    else .next s
  | none => .next s

/-! ### The grant layer (R276-R282) -/

/-- GRANT_EFFECTIVE (R282). -/
def execGrantEffective (s : State) : Out :=
  match s.trunk.pendingGrant with
  | some (g, t) => if s.hubUp && t ≤ s.fleetUs then .next (s.modTrunk (fun x => { x with pBase := g, pendingGrant := none })) else .next s
  | none => .next s

/-- LEASE_END (R282). -/
def execLeaseEnd (s : State) : Out :=
  if s.hubUp && s.trunk.session != 0xFF && s.trunk.leaseEnd ≤ s.fleetUs then
    .next (s.modTrunk (fun t => { t with pBase := 5, session := 0xFF, leaseEnd := 0, pendingGrant := none }))
  else .next s

/-- ROSTER_ENTRY_STALE (R280): stale after 2 s, freed after 4 s. -/
def execRosterEntryStale (slot : Fin 512) (s : State) : Out :=
  match s.trunk.roster.find? (fun e => e.slot == slot.val) with
  | some e =>
    if !s.hubUp then .next s
    else if e.seenUs + 4000000 ≤ s.fleetUs then
      let ros := s.trunk.roster.filter (fun x => x.slot != slot.val)
      let ses := s.trunk.sessions.filter (fun x => x.nodeId != e.nodeId)
      .next (s.modTrunk (fun t => { t with roster := ros, sessions := ses }))
    else if e.seenUs + 2000000 ≤ s.fleetUs then
      .next (s.modTrunk (fun t => { t with roster := insertSlot { e with state := 3 } t.roster }))
    else .next s
  | none => .next s

/-- TRUNK_FEED_START (R276): C_F has held for 10 s when the command comes. -/
def execTrunkFeedStart (s : State) : Out :=
  match s.cfg.trunkLane with
  | some n =>
    if s.hubUp && s.trkOn && 0 < s.cfg.get 11 9 && s.modeIs .supply && !s.nonTrunk.isEmpty && !s.trunk.feedingTrunk &&
       s.cfg.q 11 10 10 ≤ s.feedCap && s.laneFit n then
      let s := s.modTrunk (fun t => { t with feedingTrunk := true })
      .next (if (s.node n).selected.isSome then s.changeTo n none else s)
    else .next s
  | none => .next s

/-- TRUNK_FEED_STOP (R276): the lane ramps down before it takes another direction (R17). -/
def execTrunkFeedStop (s : State) : Out :=
  match s.cfg.trunkLane with
  | some _ =>
    if s.hubUp && s.trunk.feedingTrunk && (s.nonTrunk.isEmpty || (s.feedCap : Rat) < s.cfg.q 11 10 10 / 2) then
      .next (s.modTrunk (fun t => { t with feedingTrunk := false }))
    else .next s
  | none => .next s

/-- TRUNK_BUS_QUALIFIED (R277). -/
def execTrunkBusQualified (v : Volt) (s : State) : Out :=
  match s.trunkIx with
  | some c =>
    if s.cfg.q 11 6 (1 / 10) + 1 ≤ v && v ≤ 63 && (s.pdie 1).up && !s.trunk.busQualified then
      .next ((s.modTrunk (fun t => { t with busQualified := true })).stamp .presence (.port 1) c.val (.qualified c false))
    else .next s
  | none => .next s

def State.droopAt (s : State) (v : Volt) : Rat := droopF v (s.cfg.q 11 5 (1 / 10)) (s.cfg.q 11 6 (1 / 10))

/-- DROOP_ONSET (R277). -/
def execDroopOnset (v : Volt) (s : State) : Out :=
  match s.cfg.trunkLane with
  | some n =>
    if s.droopAt v < 1 && !(s.lane n).droopLaw && (s.lane n).up then
      .next ((s.modLane n (fun l => { l with droopLaw := true })).stamp .trunk (.lane n) n.val .droopOnset)
    else .next s
  | none => .next s

/-- DROOP_CLEAR (R277). -/
def execDroopClear (v : Volt) (s : State) : Out :=
  match s.cfg.trunkLane with
  | some n =>
    if s.droopAt v = 1 && (s.lane n).droopLaw && (s.lane n).up then
      .next ((s.modLane n (fun l => { l with droopLaw := false })).stamp .trunk (.lane n) n.val .droopClear)
    else .next s
  | none => .next s

/-! ### The update relay (R286, R287) -/

/-- One fragment of the stream. -/
def State.sendFragment (s : State) (i : Nat) : State :=
  let st := s.update.stream
  let s := s.modDue (fun d => { d with fragment := s.now + msTicks 2 })
  s.originate s.upPorts 7 0xFFF (le32 s.update.tag.toNat ++ le32 (256 * i) ++ le32 st.length ++ le32 0 ++ slice st (256 * i) 256)

/-- UPDATE_FRAGMENT_SEND: fragments in offset order, at most one every 2 ms; passes over what is named missing, until
every storing member reports verified or ready, or 10 passes. -/
def execUpdateFragmentSend (s : State) : Out :=
  if s.hubUp && s.trunk.relay && s.trunk.due.fragment ≤ s.now then
    match s.trunk.relayLeft with
    | i :: r => .next ((s.modTrunk (fun t => { t with relayLeft := r })).sendFragment i)
    | [] =>
      let storing := s.trunk.ackStates.filter (fun x => x.2 != 3)
      if 10 ≤ s.trunk.relayPass || (!storing.isEmpty && storing.all (fun x => x.2 == 1 || x.2 == 2)) then
        .next (s.modTrunk (fun t => { t with relay := false, resend := [] }))
      else
        match s.trunk.resend with
        | i :: r => .next ((s.modTrunk (fun t => { t with relayLeft := r, resend := [], relayPass := t.relayPass + 1 })).sendFragment i)
        | [] => .next s
  else .next s

/-- UPDATE_ACK_SEND. -/
def execUpdateAckSend (s : State) : Out :=
  let u := s.update
  if s.hubUp && u.relayed && (u.storing || u.st == .rejected) && s.trunk.due.ack ≤ s.now then
    let s := s.modDue (fun d => { d with ack := s.now + secTicks 1 })
    .next (s.originate s.upPorts 8 u.origin s.ackPayload)
  else .next s

/-- KICKOFF_SEND. -/
def execKickoffSend (s : State) : Out :=
  match s.update.kickoff with
  | some t =>
    if s.hubUp && s.trunk.kickoffBroadcast && s.fleetUs < t && s.trunk.due.kickoff ≤ s.now then
      let s := s.modDue (fun d => { d with kickoff := s.now + secTicks 1 })
      .next (s.originate s.upPorts 10 0xFFF (le32 s.update.tag.toNat ++ le64 t))
    else .next s
  | none => .next s

end Sys2Proof.Machine
end

