-- ==== Sys2Proof/Machine/Events.lean ====
section
/-! DEFINITION. The events of a decision in the order of R13, R425, R432 and R461, and what the hub does with each. -/

namespace Sys2Proof.Machine

/-! ### Order -/

def classRank : EvClass → Nat
  | .protection => 0 | .presence => 1 | .pd => 2 | .thermal => 3 | .charge => 4 | .trunk => 5 | .host => 6

def sourceRank : EvSource → Nat
  | .aon => 0 | .hubPeripheral => 1 | .lane n => 2 + n.val | .port m => 6 + m.val | .housekeeping => 8 | .forecast => 9
  | .trunk => 10 | .stack p => 11 + p

/-- Class, then tick, then source, then item (R13, R432). -/
def evBefore (a b : Event) : Bool :=
  if classRank a.cls ≠ classRank b.cls then classRank a.cls < classRank b.cls
  else if a.tick ≠ b.tick then ixBefore a.tick b.tick
  else if sourceRank a.src ≠ sourceRank b.src then sourceRank a.src < sourceRank b.src
  else a.item < b.item

/-- Insertion behind every event that is not after `e`: events alike in all four stay in the order of their stamps. -/
def insertEvent (e : Event) : List Event → List Event
  | [] => [e]
  | x :: r => if evBefore e x then e :: x :: r else x :: insertEvent e r

def sortEvents (l : List Event) : List Event := l.foldl (fun a e => insertEvent e a) []

/-! ### Records and snapshots -/

/-- The state that a snapshot copies besides telemetry (R391). -/
def State.retainedNow (s : State) : Retained :=
  { aon := s.aon, ledger := s.ledger, keep := s.keep, isCaptain := s.trunk.isCaptain, captain := s.trunk.captain
    fleetEpoch := s.trunk.fleetEpoch, beaconNo := s.trunk.beaconNo }

/-- A snapshot of the black box (R391): cause 1 SAFE, 2 watchdog; the newest 256 positions stay. -/
def State.snapshot (s : State) (cause : Nat) : State :=
  let seq := match s.flash.blackBox with | b :: _ => b.seq + 1 | [] => 0
  let b : BlackBox := { seq := seq, fleetUs := s.fleetUs, tick := s.now, cause := cause, acc := s.ledger.next - 1
                        blocks := s.tel.chans.toList.map (fun (c : Channel) => c.block), retained := s.retainedNow }
  { s with flash := { s.flash with blackBox := (b :: s.flash.blackBox).take 256 } }

/-- Steps of 97.66 mA: 400 A / 4,096 (R390). -/
def qLane (a : Amp) : List Byte := qle 2 a (25 / 256)

def protCode : Protection → Nat
  | .overVoltage => 1 | .reverse => 2 | .overCurrent => 3 | .short => 4

/-- An event of R245 has fallen: words already sent may be lowered. -/
def State.lower (s : State) : State := s.modFcst (fun f => { f with lowered := true })

/-! ### Trips (R155, R181) -/

/-- The protocol's part of a trip; a locked-out port keeps its contract and offers no power. -/
def State.tripConsequence (s : State) (c : Src) (p : Protection) : State :=
  match srcPort c with
  | none => s
  | some q =>
    if (s.conn c).lockedOut then s.feedEnd q true
    else
      let strong := p == .overCurrent || p == .short
      match (s.port q).attach with
      | .sink => if strong then s.softReset q else s.hardReset q 2
      | .source => if strong then s.errorRecovery q 2 else s.hardReset q 2
      | .frsWatch => if strong then s.softReset q else s.hardReset q 2
      | _ => s

/-- A trip event in the decision that uses it (R154, R155): one record 0x0401, which names the protection that fired first;
the change on the far node ends, the consequence follows. -/
def State.useTrip (s : State) (c : Src) (p : Protection) (v : Volt) (i : Amp) (first lockout : Bool) : State :=
  let s := s.lower
  if first then
    let s := s.record 0x0401 ([BitVec.ofNat 8 c.val, BitVec.ofNat 8 (protCode p), boolByte lockout, 0] ++ recV v ++ recI i)
    ((s.modConn c (fun k => { k with known := false })).changeLost c).tripConsequence c p
  else s

/-! ### A housekeeping round (R292) -/

/-- Triggers of R21 as the round measured them: SYS above 110% while a lane truncates, the battery node, the pair's
current with both gates off. -/
def State.safeFlags (s : State) (r : RoundInfo) : State :=
  let over_ := s.lanes.toList.any (·.truncating) && decide (5 ≤ s.hub.sysTarget ∧ 11 / 10 * s.hub.sysTarget < r.vsys)
  let high := s.cfg.battLane.isSome && decide (s.safeOv < s.gauge.vBat)
  let pair := s.aon.batfet == .off && decide (r.pairW ≠ 0)
  s.modAon (fun a => { a with present := #v[over_, high, pair] })

/-- Automatic dormant entry counts from the first round below DORM_ENTRY_I (R70, R76). -/
def State.dormRound (s : State) : State :=
  let low := s.modeIs .battery && !s.pathStopped && !s.validSource && decide (-s.gauge.iMeas < s.cfg.q 1 10 (5 / 1000))
  s.modHub (fun h => { h with dormSince := if low then some (h.dormSince.getD s.now) else none })

/-- The readings of one round, taken together (R81, R144, R148, R205, R222, R230, R292, R295). Charging is the master's
alone (R424). -/
def State.useRound (s : State) : State :=
  match s.therm.info with
  | none => s
  | some r =>
    let s := s.countRound.readBatid r.batid
    let t := s.throttle
    let s := if t.2 then t.1.lower else t.1
    let s := s.ntcRound
    let s := if s.ntcValid then s.windowRound else s
    let s := s.safeFlags r
    let s := if s.stack.position = 0 then s.chargeRound.dormRound else s
    let s := s.correctDemand (if s.charge.present then s.charge.iReq - s.gauge.iMeas else 0)
    let s := (List.finRange 4).foldl (fun s n => match (s.node n).selected with
      | some c => s.correctSource n (s.conn c).i
      | none => s) s
    s.modAon (fun a => { a with chargeMirror := some s.charge })

/-! ### Each event -/

/-- FRS watch has seen VBUS fall: the lane is admitted toward 5.0 V at 30.0 V/ms (R186). -/
def State.useFrsVbus (s : State) (p : Port) : State :=
  if (s.port p).attach = .frsWatch then
    (s.modPort p (fun q => { q with attach := .source, cc := .rp, feeding := true, feedTarget := 5, feedReady := false
                                    contract := .zero })).swapStep p 0x13
  else s

/-! ### What the hub learns of its connectors (R13, R136, R461) -/

/-- A connector has become a source, or a locked-out one that offers none (R155). A pass pair's is the trunk bus. -/
def State.useQualified (s : State) (c : Src) (locked : Bool) : State :=
  if 5 ≤ c.val then s.modTrunk (fun t => { t with busKnown := true }) else s.modConn c (fun k => { k with known := !locked })

/-- A connector has ceased to be a source: words already sent may be lowered (R245). -/
def State.useLost (s : State) (c : Src) : State :=
  (if 5 ≤ c.val then s.modTrunk (fun t => { t with busKnown := false }) else s.modConn c (fun k => { k with known := false })).lower

/-- A port die has opened what it served (R297). -/
def State.usePortDown (s : State) (m : PortDie) : State :=
  let s := (List.finRange 7).foldl (fun s c =>
    if c.val < 5 && dieOfSrc c = m then s.modConn c (fun k => { k with known := k.known && k.qualified }) else s) s
  s.lower

/-- An attach (R162, R178, R189): an unsupported partner is recorded, a cable with VCONN is asked for its identity, the mux
follows. -/
def State.useAttach (s : State) (p : Port) : State :=
  let s := s.modPort p (fun q => { q with seen := true })
  let q := s.port p
  let s := if q.attach = .unsupported then s.record 0x0406 [BitVec.ofNat 8 p.val, 1] else s
  let s := if q.attach = .source && q.vconn then s.pdSend p (.discoverIdentity .sop1) else s
  s.sendMux p

/-- The result of a BC 1.2 detection; a contract has made it void (R169). -/
def State.useBc (s : State) (p : Port) (r : Bc12) : State :=
  (s.modPort p (fun q => { q with bcRunning := false, bc12 := if q.contract.kind = .none then r else q.bc12 })).sendMux p

/-- What the hub does with one event of its class. Events that name no action are consumed. -/
def State.useEvent (s : State) (e : Event) : State :=
  match e.kind with
  | .stageFault third =>
    match e.src with
    | .lane n => if third then s.lower.record 0x0203 [BitVec.ofNat 8 n.val, BitVec.ofNat 8 (s.lane n).faults.length] else s
    | _ => s
  | .phaseOut k kind mean iPh ratio16 nIn headroom =>
    let n := phaseLane k
    let j := phasePos k
    let s := s.record 0x0204 ([BitVec.ofNat 8 (16 * n.val + j.val), BitVec.ofNat 8 (kindCode (some kind))] ++ qLane mean ++ qLane iPh ++
      [BitVec.ofNat 8 ratio16, BitVec.ofNat 8 (nIn + boolBit headroom 7)])
    let s := (s.setOutKind n j (some kind)).saveOut.lower
    if nIn = 0 then s.record 0x0205 [BitVec.ofNat 8 n.val] else s
  | .stackUnlocked =>
    match e.src with
    | .lane n => s.record 0x0207 [BitVec.ofNat 8 n.val, 0]
    | _ => s
  | .inRegulation =>
    match e.src with
    | .lane n =>
      if s.hub.batRestart && s.battDie n then
        let s := s.modHub (fun h => { h with batRestart := false })
        s.diodeOpen.modAon (fun a => { a with diodeOn := false })
      else s
    | _ => s
  | .trip c p v i first lockout => s.useTrip c p v i first lockout
  | .vconnLimit p => s.record 0x0406 [BitVec.ofNat 8 p.val, 2]
  | .dieShutdown | .brokenSensor => match e.src with | .port m => s.usePortDown m | _ => s.lower
  | .safeSet t value tick =>
    let s := s.record 0x0003 ([BitVec.ofNat 8 (safeCode t), BitVec.ofNat 8 e.item, 0, 0] ++ sle 4 value ++ le32 tick)
    s.lower.snapshot 1
  | .xtalLost => s.setSafe .hubOther .aon 0 0
  | .attach p => s.useAttach p
  | .detach p => (s.modConn (portSrc p) (fun k => { k with known := false })).sendMux p
  | .qualified c locked => s.useQualified c locked
  | .unqualified c => s.useLost c
  | .pairClosed c =>
    (List.finRange 4).foldl (fun s n => match (s.node n).change with
      | some (x, .closing) => if x = c then s.modNode n (fun k => { k with change := none }) else s
      | _ => s) s
  | .sourceLost c _ => (s.changeLost c).useLost c
  | .removal d vbat iMeas => s.removeBattery d vbat iMeas
  | .wakeN => s.abortRequest
  | .pdMessage p m => (s.pdPolicy p m).offerSink p
  | .pdTimer p t => s.onTimer p t
  | .modeEntry p => if !(s.port p).tmode && s.modeAllowed p then s.modeEnter p else s
  | .feedReached p => s.onFeedReached p
  | .discharged p => s.onDischarged p
  | .bcDone p r => s.useBc p r
  | .frsVbus p => s.useFrsVbus p
  | .thermalRound => s.useRound
  | .gaugeSample i v => s.useGauge e.tick i v
  | .backstop => (s.setCause 10).chargeSetpoint
  | .trunkFrame a f => s.takeFrame e.tick a f
  | .droopOnset => s.lower
  | .currentLimit _ => s.lower
  | .truncation | .step | .skipEntry | .skipExit | .shedStart | .shedEnd | .shedAbort | .droopTrip | .syncLoss
  | .sag _ | .farNodeLost | .laneStopped | .frsSignal _ | .linkUp _ | .linkDown _ | .droopClear | .stackEvent _ => s

/-- Sources that the decision's events have lost, with whether a transition was interrupted (R157, R390). -/
def lostSources (l : List Event) : List (Src × Bool) :=
  l.filterMap (fun e => match e.kind with | .sourceLost c cut => some (c, cut) | _ => none)

end Sys2Proof.Machine
end

