-- ==== Sys2Proof/Machine/Orders.lean ====
section
/-! DEFINITION. What a decision orders: the SYS target in force, the aim of each far node's lane and the frames that
bring it there, the ideal-diode policy, PGOOD (R17, R18, R57, R60-R68, R79-R84, R142, R148, R175-R177, R204, R276, R299). -/

namespace Sys2Proof.Machine

/-! ### What the hub takes a lane to be doing -/

/-- A lane as the hub takes it: off, standing by, running, or on its way to a stop. -/
inductive Belief where
  | off | stand | run | stopping
  deriving DecidableEq, Repr

def beliefOf : LaneRun → Belief
  | .stopped => .off
  | .bias | .running => .run
  | .standby => .stand
  | .ramping => .stopping

def beliefAfter : LaneGo → Option Belief
  | .keep => none
  | .start | .join => some .run
  | .standby => some .stand
  | .stopRamp _ | .stopNow => some .stopping

/-- The lane's report of zero current stands in an event that no decision has used (R17, R103). -/
def State.stopUnused (s : State) (n : Lane) : Bool :=
  s.events.any (fun e => e.kind == .laneStopped && e.src == .lane n)

/-- The last frame on its way decides; else what the die's state frame shows. A stop is over with the decision that uses its
report. -/
def State.belief (s : State) (n : Lane) : Belief :=
  let l := s.lane n
  ((l.frames.filterMap (fun (f : LaneFrame) => beliefAfter f.go)).getLast?).getD
    (if l.run = .stopped && s.stopUnused n then .stopping else beliefOf l.run)

/-- The order a die has, or will have once its frames have taken effect. -/
def State.knownOrder (s : State) (n : Lane) : LaneOrder :=
  let l := s.lane n
  ((l.frames.map (fun (f : LaneFrame) => f.order)).getLast?).getD l.order

/-! ### The SYS target (R57, R61, R65, R66, R299) -/

/-- The battery lane carries SYS with the drawing lanes (SUPPLEMENT). -/
def State.batCarries (s : State) : Bool :=
  s.cfg.supplement && s.charge.present && (match s.cfg.battLane with | some n => s.laneFit n | none => false)

/-- SYS rides on the battery through the pair: DIODE, or a SUPPLEMENT battery lane out of service (R299). -/
def State.diodeForm (s : State) : Bool := s.charge.present && !s.batCarries

/-- Final value of the SYS target. -/
def State.sysAim (s : State) : Volt :=
  if s.diodeForm && s.modeIs .supply && !s.dormantHeld then s.diodeAim s.gauge.vBat
  else s.hub.sysFinal

/-- A lane holds SYS. -/
def State.sysHeld (s : State) : Bool :=
  (List.finRange 4).any (fun n => s.belief n == .run && (match (s.knownOrder n).role with
    | .drawHold | .batSupplement => true | _ => false))

/-- The target in force moves at SYS_SLEW; a downward move pauses while SYS stands 1% above it. Without a lane that
holds SYS it stands at the measured SYS, where a start begins (R100). -/
def State.moveTarget (s : State) : State :=
  if !s.sysHeld || s.hub.batRestart then s.modHub (fun h => { h with sysTarget := h.sysAvg })
  else
    let aim := s.sysAim
    let t := s.hub.sysTarget
    if aim < t && 101 / 100 * t < s.hub.sysAvg then s
    else s.modHub (fun h => { h with sysTarget := slewTo t aim (s.cfg.q 1 4 (1 / 1000)) })

/-- Droop threshold (R249). -/
def State.droopThreshold (s : State) : Volt :=
  if s.diodeForm then s.sysFloor else s.hub.sysTarget * (1 - s.cfg.q 12 3 (1 / 200))

/-! ### Orders -/

/-- The values every order carries; raised currents move at 10 A/ms (R148, R201; for ceilings without a rate of their own
DESIGN CHOICE, log entry 125). -/
def State.baseOrder (s : State) (n : Lane) : LaneOrder :=
  let o := s.lastOrder n
  { o with
    iSlew := 10, sysTarget := s.hub.sysTarget, droop := s.droopThreshold, iDis := s.batIdis, stepPending := false, trim := 0, kL := 1
    pBase := s.trunk.pBase, vKnee := s.cfg.q 11 5 (1 / 10), vFloor := s.cfg.q 11 6 (1 / 10)
    vFnl := s.cfg.q 11 7 (1 / 10), vFfl := s.cfg.q 11 8 (1 / 10) }

def State.sysSlew (s : State) : Rat := s.cfg.q 1 4 (1 / 10)

/-- Source limit, sag limit and loss threshold of the selected source (R143-R145, R156). -/
def State.drawLimits (s : State) (n : Lane) (c : Src) (o : LaneOrder) : LaneOrder :=
  { o with iSrc := max 0 (s.iSrc c + (s.node n).srcTrim), vSagEff := s.vSagEff c, vLost := s.vLost c }

/-- Feed ceiling (R174): the contract's operating current plus 10%, else the Rp current; in FRS watch the named current. -/
def State.feedCeil (s : State) (p : Port) : Amp :=
  let q := s.port p
  if q.attach = .frsWatch then q.frsAmp
  else if q.contract.kind = .none then s.rpCurrent p else 11 / 10 * q.contract.i

/-- The drawing far nodes that would hold SYS, lowest first. -/
def State.holders (s : State) : List Lane :=
  if s.batCarries then [] else (s.drawing.filter (fun x => decide (0 < (s.nodes.get x.1).allocW))).map (·.1)

/-- R84's last rule: with a LOADLINE below 0.2% only the lowest of several holds the node. -/
def State.onlyLowest (s : State) : Bool :=
  2 ≤ s.holders.length && s.holders.any (fun n => decide (s.cfg.get (2 + n.val) 19 < 2))

/-- Order of a lane that draws from a selected source. -/
def State.drawOrder (s : State) (n : Lane) (c : Src) : LaneOrder :=
  let o := s.drawLimits n c (s.baseOrder n)
  let hs := s.holders
  let allocates := s.batCarries || (s.onlyLowest && hs.head? != some n)
  { o with dir := .draw, role := if allocates then .drawAlloc else .drawHold, target := s.sysAim, slew := s.sysSlew
           alloc := s.allocA n, shared := 2 ≤ hs.length && !allocates }

/-- Order of a lane that drains its far node into SYS at its lane ceiling (R177). -/
def State.drainOrder (s : State) (n : Lane) : LaneOrder :=
  let c := s.nodeCeil n
  { s.baseOrder n with dir := .draw, role := .drawAlloc, target := s.sysAim, slew := s.sysSlew, alloc := c, iSrc := c
                       vSagEff := 0, vLost := 0, shared := false }

/-- Order of a lane that feeds a port, or waits in FRS watch (R175, R176, R185, R186). -/
def State.feedOrder (s : State) (n : Lane) (p : Port) : LaneOrder :=
  let q := s.port p
  let fast := q.swap.any (·.fast)
  { s.baseOrder n with dir := .feed, role := .feed, target := q.feedTarget, slew := if fast then 30 else 20
                       feedCeil := s.feedCeil p, warm := true, shared := false }

/-- Order of a lane that feeds the trunk (R276). -/
def State.trunkFeedOrder (s : State) (n : Lane) : LaneOrder :=
  let o := s.baseOrder n
  { o with dir := .feed, role := .feed, target := o.vFnl, slew := s.sysSlew, cFeed := s.feedCap
           feedCeil := ratio s.feedCap s.tapV, shared := false }

/-- Order of the battery lane (R80, R200-R202, R204); a restart under the ideal diode holds the measured SYS (R20). -/
def State.battOrder (s : State) (n : Lane) : LaneOrder :=
  let c := s.charge
  let o := s.baseOrder n
  let o := { o with iSet := if c.iSet = 0 then 0 else max 0 (c.iSet + c.iTrim), cvTarget := c.cvTarget + c.vTrim, slew := s.sysSlew, shared := false }
  if s.cfg.supplement then
    { o with dir := .supplement, role := .batSupplement, target := if s.hub.batRestart then s.hub.sysAvg else s.sysAim }
  else { o with dir := .charge, role := .batDiode, target := o.cvTarget }

/-! ### Aims -/

/-- What policy wants of a far node's lane: stopped (over 1 ms, or at once), standing by, running, or left to a change
of source that is under way. -/
inductive Aim where
  | off (ramp : Bool)
  | stand (o : LaneOrder)
  | run (o : LaneOrder)
  | leave
  deriving DecidableEq, Repr

/-- The last steps of a SHIP or DORMANT sequence are on their way: no lane is steered (R70, R72). -/
def State.winding (s : State) : Bool :=
  match s.aon.request with
  | some r => (match r.stage with | .ramping | .handed | .pairOpen => true | .wait | .moving => false)
  | none => false

def State.aimBattery (s : State) (n : Lane) : Aim :=
  let runs := s.modeIs .battery || s.modeIs .supply
  if !s.charge.present || !s.laneFit n || !runs then .off false
  else if s.cfg.supplement then .run (s.battOrder n)
  else if !s.modeIs .supply then .off true
  else if 0 < s.charge.iSet then .run (s.battOrder n) else .stand (s.battOrder n)

def State.aimSource (s : State) (n : Lane) : Aim :=
  let k := s.node n
  match k.selected with
  | none => .off false
  | some c =>
    if !s.modeIs .supply then .off false
    else if k.change.isSome || !s.heldCandidate c then .stand (s.drawOrder n c)
    else if k.allocW = 0 then .stand (s.drawOrder n c) else .run (s.drawOrder n c)

def State.aimPort (s : State) (n : Lane) : Aim :=
  let k := s.node n
  match k.feeding with
  | some p =>
    let o := s.feedOrder n p
    if (s.port p).attach = .frsWatch then .stand o
    else if (s.conn (portSrc p)).pair = .closed then .run o else .off false
  | none => if k.drain then .run (s.drainOrder n) else if k.change.isSome then .leave else s.aimSource n

def State.aimTrunk (s : State) (n : Lane) : Aim :=
  if s.trunk.feedingTrunk then .run (s.trunkFeedOrder n) else s.aimSource n

/-- No mode can hold SYS (R23). -/
def State.noMode (s : State) : Bool := !s.aon.safeLatch && !s.validSource && !s.charge.present

def State.aimOf (s : State) (n : Lane) : Aim :=
  if s.aon.safeLatch || s.stack.masterless.isSome || s.noMode then .off false
  else
    match s.cfg.farKind n with
    | .unused => .off false
    | .battery => s.aimBattery n
    | .port => if s.laneFit n then s.aimPort n else .off false
    | .trunk => if s.laneFit n then s.aimTrunk n else .off false

/-! ### Frames -/

/-- Every lane of the gang knows the order already, with its own factor and trim. -/
def State.knows (s : State) (n : Lane) (o : LaneOrder) : Bool :=
  (s.node n).sent == some o && (s.cfg.gang n).all (fun m =>
    (s.knownOrder m).kL == s.therm.kL.get m && (s.knownOrder m).trim == s.hub.trims.get m)

/-- An order whose values have changed is sent without a change of the lane's run. -/
def State.sendKeep (s : State) (n : Lane) (eff : Nat) (force : Bool) (o : LaneOrder) : State :=
  if force || !s.knows n o then s.sendNode n eff .keep (fun _ => o) else s

/-- A stopped or steered lane on the headroom line still gets the droop threshold (R79). -/
def State.sendDroop (s : State) (n : Lane) (eff : Nat) (force : Bool) : State :=
  if force || (s.cfg.gang n).any (fun m => (s.lane m).onLine) then
    s.sendKeep n eff force { s.lastOrder n with sysTarget := s.hub.sysTarget, droop := s.droopThreshold, stepPending := false }
  else s

/-- A stop: at once, or over 1 ms (R103). -/
def State.sendStop (s : State) (n : Lane) (eff : Nat) (ramp : Bool) : State :=
  s.sendNode n eff (if ramp then .stopRamp (stopRate (s.lane n)) else .stopNow) id

/-- A change between draw and feed stops the lane first (R17); only the battery lane turns without a stop. -/
def State.turns (s : State) (n : Lane) (o : LaneOrder) : Bool :=
  s.cfg.farKind n != .battery && o.dir != (s.knownOrder n).dir

/-- A turn stops the lane and opens the connector switches of its far node (R17); FRS watch keeps its pair (R185), and a trunk
far node has none (R54). -/
def State.stopTurn (s : State) (n : Lane) (eff : Nat) (slowly : Bool) : State :=
  let s := s.sendStop n eff slowly
  if (s.node n).feeding.any (fun p => (s.port p).attach == .frsWatch) then s
  else (s.nodeConns n).foldl (fun s c => if c.val < 5 && !s.staysOpen c && s.pairSent c != some false then
    s.sendPort (dieOfSrc c) eff (.openPair c) else s) s

def State.steer (s : State) (n : Lane) (eff : Nat) (force : Bool) (a : Aim) : State :=
  let slowly := s.cfg.farKind n == .trunk
  match a, s.belief n with
  | .leave, _ => s.sendDroop n eff force
  | .off _, .off => s.sendDroop n eff force
  | .off ramp, .run => s.sendStop n eff ramp
  | .off _, .stand => s.sendStop n eff false
  | _, .stopping => s.sendDroop n eff force
  | .stand o, .off => s.sendNode n eff .standby (fun _ => o)
  | .stand o, .stand => if s.turns n o then s.stopTurn n eff false else s.sendKeep n eff force o
  | .stand o, .run => if s.turns n o then s.stopTurn n eff slowly else s.sendNode n eff .standby (fun _ => o)
  | .run o, .off => s.sendNode n eff .start (fun _ => o)
  | .run o, .stand => if s.turns n o then s.stopTurn n eff false else s.sendNode n eff .join (fun _ => o)
  | .run o, .run => if s.turns n o then s.stopTurn n eff slowly else s.sendKeep n eff force o

/-- The battery lane starts under an ideal diode that is on: its target stands at the measured SYS until it regulates
(R20, R71, R299). -/
def State.noteRestart (s : State) : State :=
  match s.cfg.battLane with
  | some n =>
    let starts := s.cfg.supplement && s.belief n != .run && s.belief n != .stopping && (match s.aimOf n with | .run _ => true | _ => false)
    if starts && s.aon.diodeOn then s.modHub (fun h => { h with batRestart := true })
    else if !s.laneFit n then s.modHub (fun h => { h with batRestart := false }) else s
  | none => s

def State.orders (s : State) (force : Bool) : State :=
  let s := s.noteRestart
  if s.winding then s
  else (List.finRange 4).foldl (fun s n => if s.cfg.leader n = n then s.steer n s.effTick force (s.aimOf n) else s) s

/-! ### Share trims (R84) -/

/-- A trim moves by at most 0.05% of the target in force and stays within 2% of it. -/
def trimNext (target trim step : Volt) : Volt :=
  let d := target * (5 / 10000)
  let m := target * (2 / 100)
  clampR (-m) m (trim + clampR (-d) d step)

/-- Trims of gang members and of lanes that hold SYS together; a lone lane has none. -/
def State.moveTrims (s : State) : State :=
  let hs := s.holders
  s.modHub (fun h => { h with trims := Vector.ofFn (fun (n : Lane) =>
    let ld := s.cfg.leader n
    let joint := 2 ≤ (s.cfg.gang n).length || (2 ≤ hs.length && !s.onlyLowest && hs.contains ld)
    let l := s.lane n
    if joint && s.belief ld == .run then trimNext l.loop.target (h.trims.get n) (Config.trimStep (s.node ld).allocW l.powerAtSys l.loop.sys)
    else 0) })

/-! ### The ideal diode (R20, R60, R61, R68, R70, R299, R422) -/

/-- The state policy wants of the control; none leaves it. -/
def State.diodeWant (s : State) : Option Bool :=
  if s.stack.masterless.isSome then some true
  else if !(s.modeIs .battery || s.modeIs .supply) || s.winding then none
  else if !s.charge.present then (if s.modeIs .supply then some false else none)
  else if !s.cfg.supplement then some (!(s.hub.diodePending && s.modeIs .supply))
  else
    match s.cfg.battLane with
    | some n =>
      let idle := s.belief n == .off || s.belief n == .stopping
      some (!s.laneFit n || s.hub.batRestart || ((s.aon.diodeOn || s.aon.batfet != .off) && idle))
    | none => some true

def State.diodePolicy (s : State) : State :=
  match s.diodeWant with
  | some true => s.modAon (fun a => { a with diodeOn := true })
  | some false =>
    let s := if s.aon.batfet = .off then s else s.diodeOpen
    s.modAon (fun a => { a with diodeOn := false })
  | none => s

/-! ### PGOOD (R67) -/

/-- SYS as the last round measured it lies where R67 wants it; the first round after the first decision must have ended. -/
def State.pgSys (s : State) : Bool :=
  s.hub.firstRound < s.therm.round &&
  (if s.diodeForm && s.modeIs .battery then decide (s.sysFloor ≤ s.hub.sysAvg)
   else decide (rabs (s.hub.sysAvg - s.hub.sysTarget) ≤ s.hub.sysTarget * s.cfg.q 1 8 (1 / 100)))

/-- A held SHIP request keeps PGOOD low (R72); a dormant sequence drives it low with its power-down only (R70). -/
def State.pgHeld (s : State) : Bool :=
  match s.aon.request with | some r => !r.dormant | none => false

def State.pgoodPolicy (s : State) : State :=
  let on := (s.modeIs .battery || s.modeIs .supply) && !s.noMode && !s.aon.safeLatch && !s.pgHeld && s.pgSys &&
    decide (s.cfg.q 1 9 10 ≤ s.fcst.pSus)
  (s.modAon (fun a => { a with pgood := on })).modHub (fun h => { h with pgoodOnce := h.pgoodOnce || on })

end Sys2Proof.Machine
end

