-- ==== Sys2Proof/Machine/Stack.lean ====
section
/-! DEFINITION. Stacks (R422-R427): the frames of a master and of a member, and what each does with the other's. -/

namespace Sys2Proof.Machine

def State.modStack (s : State) (f : Stack → Stack) : State := { s with stack := f s.stack }

/-- Position 0 of a stack of 2 to 4 devices (R422). -/
def State.isMaster (s : State) : Bool := s.stack.position == 0 && 2 ≤ s.stack.size

/-- A position of 1 or more: policy belongs to the master (R424). -/
def State.isMember (s : State) : Bool := s.stack.position != 0

def bandPair (p : Straps) : Byte := BitVec.ofNat 8 (bandCode p.stackId0 + 4 * bandCode p.stackId1)

/-- Record 0x0006 with the bands of this boot and of the one before, the cause, the master's stack size as given and the
device's own (R390). -/
def State.stackRecord (s : State) (cause masterSize : Nat) : State :=
  let old := s.aon.prevStraps.getD s.aon.straps
  s.record 0x0006 [BitVec.ofNat 8 (bandCode s.aon.straps.i2cAddr), bandPair s.aon.straps, BitVec.ofNat 8 (bandCode old.i2cAddr), bandPair old,
    BitVec.ofNat 8 cause, BitVec.ofNat 8 masterSize, BitVec.ofNat 8 s.cfg.stackSize]

/-- The device becomes a masterless member (R422): its lanes stop, its input pairs open. -/
def State.becomeMasterless (s : State) (cause masterSize : Nat) : State :=
  if s.stack.masterless = some cause then s
  else (s.modStack (fun k => { k with masterless := some cause })).stackRecord cause masterSize

/-! ### The master (R424-R426) -/

def wireEvent (i : Fin 7) : EvClass :=
  match i with | 0 => .protection | 1 => .presence | 2 => .pd | 3 => .thermal | 4 => .charge | 5 => .trunk | 6 => .host

/-- STACK_STATE_FRAME: each event is stamped in its own class with the stack link as its source; positions at or above the
master's size are ignored. -/
def State.takeState (s : State) (f : StackStateFrame) : State :=
  if h : f.position < 4 then
    let p : Fin 4 := ⟨f.position, h⟩
    if f.position = 0 || s.stack.size ≤ f.position then s
    else
      let s := s.modStack (fun k => { k with members := vput k.members p { present := true, lastSeen := s.now, lost := false, frame := some f } })
      f.events.foldl (fun s e => s.stamp (wireEvent e.cls) (.stack f.position) e.item (.stackEvent e)) s
  else s

def execStackStateFrame (f : StackStateFrame) (s : State) : Out :=
  if s.hubUp && s.isMaster && s.stack.masterless.isNone then .next (s.takeState f) else .next s

/-- STACK_MEMBER_LOST (R426): 50 ticks without a state frame. -/
def execStackMemberLost (p : Fin 4) (s : State) : Out :=
  let m := s.stack.members.get p
  if s.hubUp && s.isMaster && m.present && !m.lost && s.passed m.lastSeen 50 then
    let s := s.record 0x0005 ([BitVec.ofNat 8 (8 + p.val), 0, 0, 0] ++ le32 s.tickWord.toNat)
    .next (s.lower.modStack (fun k => { k with members := vput k.members p { m with lost := true } }))
  else .next s

/-- One lane of a control frame: the master's own order for the lane of the same number. -/
def State.controlLane (s : State) (n : Lane) : StackLane :=
  let o := s.lastOrder n
  { run := s.belief n == .run, dir := o.dir, role := o.role, targetV := o.target, allocA := o.alloc, floor := o.floor }

def modeFin (m : Option Mode) : Fin 6 :=
  match m with
  | some .ship | none => 0
  | some .dormant => 1 | some .battery => 2 | some .supply => 3 | some .limp => 4 | some .safe => 5

/-- The control frame of one member (R423, R424): the pairs it closes are those of its candidates, its share of I_SET is
one part in S. -/
def State.controlFrame (s : State) (p : Fin 4) : StackControl :=
  let m := s.stack.members.get p
  { seq := s.now, position := p.val, size := s.stack.size, fsw0 := s.stack.fsw0, mode := modeFin s.aon.mode
    lanes := Vector.ofFn (fun n => s.controlLane n)
    pairs := match m.frame with | some f => f.candidates | none => Vector.replicate 7 false
    iSet := s.charge.iSet / s.stack.size, masterUnit := s.otp.unit }

/-- In every decision the master sends each member a control frame (R424). -/
def State.sendControls (s : State) : State :=
  if s.isMaster && s.stack.masterless.isNone then
    let s := s.modStack (fun k => { k with fsw0 := (s.cfg.get 2 0).toNat })
    let l := ((List.finRange 4).filter (fun (p : Fin 4) => p != 0 && p.val < s.stack.size)).map (fun p => s.controlFrame p)
    s.modStack (fun k => { k with out := l })
  else s

/-! ### The member (R422-R425, R427) -/

/-- A member's state frame: lane currents, candidacy, thermal factors and the events of the tick (R424). -/
def State.stateFrame (s : State) : StackStateFrame :=
  let evs := s.events.filter (fun e => e.tick == s.now)
  { position := s.stack.position.toNat, laneA := Vector.ofFn (fun n => (s.lane n).loop.iLane)
    candidates := Vector.ofFn (fun c => s.heldCandidate c), kL := s.therm.kL
    events := evs.map (fun e => { cls := ⟨classRank e.cls, by cases e.cls <;> decide⟩, item := e.item }) }

def State.returnState (s : State) : State :=
  if s.isMember then
    let f := s.stateFrame
    s.modStack (fun k => { k with stateOut := some f })
  else s

/-- What a control frame does on reception (R422, R423): a member of the frame's stack joins it. -/
def State.takeControl (s : State) (f : StackControl) : State :=
  if f.position != s.stack.position.toNat then s
  else
    let differs := f.size != s.cfg.stackSize && !s.stack.sizeRecorded
    let s := if differs then (s.stackRecord 6 f.size).modStack (fun k => { k with sizeRecorded := true }) else s
    let s := s.modStack (fun k => { k with size := f.size, fsw0 := f.fsw0, lastControl := some s.now })
    if f.size ≤ f.position then s.becomeMasterless 3 f.size
    else s.modStack (fun k => { k with masterless := none, control := k.control ++ [(s.now, f)] })

/-- STACK_CONTROL_FRAME: on a master, the frame of another one with a lower unit ID makes it masterless; a lone master
ignores the link. -/
def execStackControlFrame (f : StackControl) (s : State) : Out :=
  if !s.hubUp then .next s
  else if s.isMember then .next (s.takeControl f)
  else if s.isMaster && f.masterUnit.toNat < s.otp.unit.toNat then .next (s.becomeMasterless 5 f.size)
  else .next s

/-- MASTER_LOST (R427): 50 ticks without a control frame; the dies run the hold and the keeper defaults. -/
def execMasterLost (s : State) : Out :=
  match s.stack.lastControl with
  | some t =>
    if s.hubUp && s.isMember && !s.stack.masterLost && s.passed t 50 then
      let s := s.record 0x0005 ([8, 0, 0, 0] ++ le32 s.tickWord.toNat)
      .next (s.limpDies.modStack (fun k => { k with masterLost := true, control := [] }))
    else .next s
  | none => .next s

/-- MASTERLESS_TIMEOUT (R422): no master frame within 200 ms of the first decision. -/
def execMasterlessTimeout (s : State) : Out :=
  if s.hubUp && s.isMember && s.stack.masterless.isNone && s.stack.lastControl.isNone && s.passed s.hub.firstTick (msTicks 200) then
    .next (s.becomeMasterless 4 0)
  else .next s

/-- The order a member gives a lane (R424): the frame's direction, role, target, allocation and floor over its own limits. -/
def State.memberOrder (s : State) (n : Lane) (x : StackLane) : LaneOrder :=
  let o := match (s.node n).selected with | some c => s.drawLimits n c (s.baseOrder n) | none => s.baseOrder n
  { o with dir := x.dir, role := x.role, target := x.targetV, alloc := x.allocA, floor := x.floor, slew := s.sysSlew
           iSet := s.charge.iSet, cvTarget := s.charge.cvTarget, shared := x.role == .drawHold }

/-- The battery's lane runs only in charge or supplement, in a battery role; any other lane only in draw or feed (R16). -/
def dirFits (far : FarKind) (d : Dir) (r : Role) : Bool :=
  let bat := d == .charge || d == .supplement
  let batRole := r == .batSupplement || r == .batDiode
  if far == .battery then bat && batRole else !bat && !batRole

/-- A frame for the pair is on its way to the port die. -/
def State.pairAsked (s : State) (c : Src) : Bool :=
  (s.pdie (dieOfSrc c)).frames.any (fun f => f.cmd == .openPair c || f.cmd == .closePair c)

/-- Pair commands of a frame: on each far node the lowest candidate that is named has its pair closed, the others are
open (R18, R424). -/
def State.memberPairs (s : State) (eff : Nat) (pairs : Vector Bool 7) (n : Lane) : State :=
  let want := ((s.nodeConns n).filter (fun c => pairs.get c && s.heldCandidate c)).head?
  let s := s.modNode n (fun k => { k with selected := want })
  let others := (s.nodeConns n).filter (fun c => c.val < 5 && some c != want && (s.conn c).pair != .opened)
  let s := (others.filter (fun c => !s.pairAsked c)).foldl (fun s c => s.sendPort (dieOfSrc c) eff (.openPair c)) s
  match want with
  | some c => if c.val < 5 && others.isEmpty && (s.conn c).pair == .opened && !s.pairAsked c then s.sendPort (dieOfSrc c) eff (.closePair c) else s
  | none => s

/-- A control frame is applied before any event of the decision is resolved; its frames take effect two ticks after its
stamp (R424, R425). The first one after a loss of the master ends the hold (R427). -/
def State.applyControl (s : State) (stamp : Nat) (f : StackControl) : State :=
  let force := s.stack.masterLost
  let eff := stamp + 2
  let mode : Option Mode := match f.mode with
    | 2 => some .battery
    | 3 => some .supply
    | _ => s.aon.mode
  let s := s.modStack (fun k => { k with masterLost := false })
  let s := if s.aon.safeLatch then s.setMode (some .safe) 0 else s.setMode mode 0
  let s := (s.modCharge (fun c => { c with iSet := f.iSet })).modHub (fun h => { h with sysTarget := (f.lanes.get 0).targetV })
  (List.finRange 4).foldl (fun s n =>
    if s.cfg.leader n = n then
      let s := s.memberPairs eff f.pairs n
      let x := f.lanes.get n
      let ready := s.laneFit n && !s.aon.safeLatch && dirFits (s.cfg.farKind n) x.dir x.role
      let o := s.memberOrder n x
      let idle := match (s.node n).selected with | some c => (s.conn c).pair == .closed | none => s.cfg.farKind n == .battery
      s.steer n eff force (if !ready then .off false else if x.run && idle then .run o else if idle then .stand o else .off false)
    else s) s

/-- The frames stamped before this tick, in the order of their stamps and the master's sequence (R425). -/
def State.applyControls (s : State) (m : Nat) : State :=
  let due := s.stack.control.filter (fun x => ixBefore x.1 m)
  let s := s.modStack (fun k => { k with control := k.control.filter (fun x => !ixBefore x.1 m) })
  let before := fun (a b : Nat × StackControl) => ixBefore a.1 b.1 || (a.1 == b.1 && a.2.seq < b.2.seq)
  let rec insert (e : Nat × StackControl) : List (Nat × StackControl) → List (Nat × StackControl)
    | [] => [e]
    | x :: r => if before e x then e :: x :: r else x :: insert e r
  (due.foldl (fun a e => insert e a) []).foldl (fun s x => s.applyControl x.1 x.2) s

/-- A masterless device opens every input pair (R422). -/
def State.masterlessPairs (s : State) : State :=
  if s.stack.masterless.isSome then
    (List.finRange 7).foldl (fun s c =>
      if c.val < 5 && (s.conn c).pair != .opened && !s.pairAsked c && !(srcPort c).any (fun p => (s.port p).feeding) then
        s.sendPort (dieOfSrc c) s.effTick (.openPair c)
      else s) s
  else s

end Sys2Proof.Machine
end

