-- ==== Sys2Proof/Machine/Decision.lean ====
section
/-! DEFINITION. The decision at the end of a tick and the first decision after a boot (R7, R13, R14, R23, R63, R137, R414). -/

namespace Sys2Proof.Machine

/-! ### Late dies (R13, R14) -/

/-- Lag of each die in ticks: a late one grows, the others stand at 0. -/
def State.noteLate (s : State) (late : List Die) : State :=
  { s with
    lanes := Vector.ofFn (fun n => let l := s.lane n; { l with lag := if late.contains (.lane n) && !l.unresponsive then l.lag + 1 else 0 })
    portDies := Vector.ofFn (fun m => let d := s.pdie m; { d with lag := if late.contains (.port m) && !d.unresponsive then d.lag + 1 else 0 }) }

/-- A die that has not closed its tick holds the decision back. -/
def State.waitsFor (s : State) : Bool := s.lanes.toList.any (fun l => 0 < l.lag) || s.portDies.toList.any (fun d => 0 < d.lag)

/-! ### The tick itself -/

def satAdd32 (w : Word) (n : Nat) : Word := BitVec.ofNat 32 (min 0xFFFFFFFF (w.toNat + n))

/-- Transfers and policy messages that the generator has delayed in this tick (R434, log entry 7): none where the largest
delay, the stall or the share set is 0. -/
def State.perturb (s : State) : State :=
  let h := s.hnd
  if !h.unlocked then s
  else
    let bp (k w : Nat) : Nat := (h.backpressure.extractLsb' k w).toNat
    let jitter := h.ctrl.getLsbD 0 && h.jitter != 0
    let stall := h.ctrl.getLsbD 1 && bp 0 8 != 0 && bp 8 8 != 0 && bp 16 8 != 0
    let d := if jitter || stall then Config.handicapDelays s.now else 0
    let p := if h.ctrl.getLsbD 2 && h.pdPorts != 0 && h.pdMax != 0 then Config.handicapPdDelays s.now else 0
    { s with hnd := { h with delayed := satAdd32 h.delayed d, pdDelayed := satAdd32 h.pdDelayed p } }

/-- The strobe corrects the copy of the tick index in every die that runs (R12). -/
def State.strobe (s : State) : State :=
  { s with
    lanes := s.lanes.map (fun (l : LaneDie) => if l.up then { l with tick := s.tickWord } else l)
    portDies := s.portDies.map (fun (d : PortDieSt) => if d.up then { d with tick := s.tickWord } else d) }

/-- The tick ends: the rest of its counter edges run, the index and fleet time move on with the strobe, the watchdog counts,
register writes of the handicap apply (R12, R270, R365, R376, R437). -/
def State.endTick (s : State) : State :=
  let s := s.finishTick.perturb
  let t := s.time
  let s := { s with time := { t with tick := t.tick + 1, edges := 0, fleetNs := t.fleetNs + 10000 * t.fleetRate } }
  let s := { s with wdg := { s.wdg with elapsed := s.wdg.elapsed.map (· + 1) } }.strobe
  if s.hubUp then { s with hnd := s.hnd.boundary } else s

/-! ### VSEL (R43, R63, R65) -/

/-- A code seen on two consecutive samples of ticks before this decision's is accepted, unless PATH is stopped; the target
moves to its SYSV (R63, R76). Without a code the target is SYSV0 (log entry 32). -/
def State.acceptVsel (s : State) (m : Nat) : State :=
  let h := s.hub
  let s := match h.vsel.filter (fun x => ixBefore x.1 m) with
    | a :: b :: _ =>
      if a.2 == b.2 && h.vselCode != some a.2 && !s.pathStopped then
        let s := s.modHub (fun h => { h with vselCode := some a.2 })
        if s.dormantHeld then s else s.modHub (fun h => { h with sysFinal := s.selSysv })
      else s
    | _ => s
  if s.hub.sysFinal = 0 then s.modHub (fun h => { h with sysFinal := s.selSysv }) else s

/-- The sample at the start of this tick, stamped with it; none while VIO is absent (R43, R63). -/
def State.sampleVsel (s : State) (v : Fin 8) : State :=
  if s.aon.vio then s.modHub (fun h => { h with vsel := ((s.now, v) :: h.vsel).take 64 }) else s

/-! ### Mode (R22, R23, R198, R209) -/

/-- The mode of a decision (R22, R23). A source ends a held request; the SAFE latch ends a dormant one, which R22 does not
admit from SAFE. -/
def State.chooseMode (s : State) : State :=
  let s := if s.validSource || (s.aon.safeLatch && s.dormantWaits) then s.abortRequest else s
  if s.aon.safeLatch then s.setMode (some .safe) 0
  else if s.validSource then s.setMode (some .supply) 0
  else if s.charge.present then s.setMode (some .battery) 0
  else s

/-- What entering and leaving SUPPLY means for charging. -/
def State.chargeMode (s : State) : State :=
  let was := s.hub.lastMode == some .supply
  let is_ := s.modeIs .supply
  let s := if was && !is_ then s.endCycle.clearLatched else if is_ && !was then s.startCycle else s
  let s := if s.cycling && !s.cfg.on 0 0 then s.endCycle else s
  s.modHub (fun h => { h with lastMode := s.aon.mode })

/-- A connector that is a candidate again after a detach clears a latched suspension, and a new cycle starts (R155, R209). -/
def State.reattached (s : State) : State :=
  (List.finRange 7).foldl (fun s c =>
    if (s.conn c).detached && s.heldCandidate c then
      let latched := [6, 7, 8, 9, 10, 11].any s.hasCause
      let s := s.modConn c (fun k => { k with detached := false })
      if latched then s.clearLatched.startCycle else s
    else s) s

/-! ### Sources (R137, R140-R142, R157, R165, R175, R185) -/

def State.leaders (s : State) : List Lane := (List.finRange 4).filter (fun n => s.cfg.leader n == n)

/-- Feeds and watches give way to candidates; watches and feeds begin. A feed whose pair stands open has it closed, a swap's
once the lane that drew has stopped (R17, R175, R182). -/
def State.feedPolicy (s : State) : State :=
  let s := s.leaders.foldl (fun s n => match s.bestOf n (s.nodeCandidates n) with
    | some c => if (s.node n).feeding.isSome then s.preempt n c else s
    | none => s) s
  let s := (List.finRange 4).foldl (fun s p =>
    if s.frsArmed p then s.watchBegin p
    else if (s.port p).attach == .frsWatch && (s.port p).swap.isNone && !s.frsHolds p then s.watchEnd p else s) s
  (List.finRange 4).foldl (fun s p =>
    let q := s.port p
    if !q.seen || q.hrActive || s.noMode then s
    else if q.feeding then (if q.frsSignal then s else s.feedClose p)
    else if q.attach == .source && q.swap.isNone && !q.disch && s.canFeed p then s.startFeed p else s) s

/-- Selection on every far node, and the steps of a change under way. In a dead-battery start only the far node of the
first valid source is taken (R69). -/
def State.selectAll (s : State) (only : Option Lane) : State :=
  s.leaders.foldl (fun s n =>
    if only.isSome && only != some n then s
    else
      match s.cfg.farKind n with
      | .port => (s.selectNode n).changeStep n
      | .trunk => if s.trunk.feedingTrunk then s else (s.selectNode n).changeStep n
      | .battery | .unused => s) s

/-- A trunk feed ends with its last non-trunk source, outside SUPPLY, and where TRK_EN or TRK_FEED_MAX forbids it (R276,
R290). -/
def State.trunkFeedHolds (s : State) : State :=
  let source := s.nodes.toList.any (fun k => k.selected.any (fun c => decide (c.val < 5) && s.heldCandidate c))
  if s.trunk.feedingTrunk && !(source && s.modeIs .supply && s.trkOn && decide (0 < s.cfg.get 11 9)) then
    s.modTrunk (fun t => { t with feedingTrunk := false })
  else s

/-- Record 0x0402 of a lost source with what its far node has selected instead. -/
def State.recordLost (s : State) (x : Src × Bool) : State :=
  let new := match s.cfg.nodeOf x.1 with
    | some n => (match (s.node n).selected with | some c => c.val | none => 0xFF)
    | none => 0xFF
  s.record 0x0402 [BitVec.ofNat 8 x.1.val, BitVec.ofNat 8 new, boolByte x.2]

/-- A transition ends 5 ms after its PS_RDY: the old voltage no longer counts (R170). -/
def State.endTransitions (s : State) : State :=
  (List.finRange 4).foldl (fun s p =>
    let q := s.port p
    if q.transEnd != 0 && q.transEnd ≤ s.now then
      (s.modPort p (fun q => { q with transEnd := 0, transition := if q.attach == .sink then false else q.transition })).modConn
        (portSrc p) (fun k => { k with vOld := none })
    else s) s

/-- The charge current never exceeds what the sources leave (R150). -/
def State.capCharge (s : State) : State :=
  let cap := s.iInCap
  s.modCharge (fun c => { c with iSet := min c.iSet cap })

def State.sourcePolicy (s : State) (only : Option Lane) (lost : List (Src × Bool)) : State :=
  let s := s.endTransitions
  let s := if s.aon.safeLatch || s.winding then s else s.feedPolicy.trunkFeedHolds.selectAll only
  (lost.foldl (fun s x => s.recordLost x) s).allocate.capCharge

/-! ### Host rings (R333) -/

def bitRank : RingBit → Nat
  | .resync => 0 | .cancel => 1 | .urgent => 2 | .post => 3

def ringBefore (a b : Ring) : Bool :=
  if a.tick ≠ b.tick then ixBefore a.tick b.tick
  else if a.chan ≠ b.chan then a.chan.val < b.chan.val
  else bitRank a.bit < bitRank b.bit

def insertRing (e : Ring) : List Ring → List Ring
  | [] => [e]
  | x :: r => if ringBefore e x then e :: x :: r else x :: insertRing e r

/-- One ring, taken off the doorbell and served. -/
def State.useRing (s : State) (r : Ring) : State :=
  if s.host.rings.contains r then
    let s := { s with host := { s.host with rings := s.host.rings.filter (· != r) } }
    match r.bit with
    | .resync => s.takeResync r.chan r.tick
    | .cancel => s.takeCancel r.chan r.tick
    | .urgent => s.takeSlot r.chan .urgent r.tick
    | .post => s.takeSlot r.chan .normal r.tick
  else s

def State.useRings (s : State) (m : Nat) : State :=
  let due := s.host.rings.filter (fun r => !r.held && ixBefore r.tick m)
  (due.foldl (fun a r => insertRing r a) []).foldl (fun s r => s.useRing r) s

/-! ### Upkeep -/

/-- A dead-battery Rd is let go once PGOOD has been released and the port does not carry SYS (R166). -/
def State.releaseRd (s : State) : State :=
  (List.finRange 4).foldl (fun s p =>
    let carries := s.nodes.toList.any (fun k => k.selected == some (portSrc p))
    if (s.port p).deadRd && s.hub.pgoodOnce && !carries then s.modPort p (fun q => { q with deadRd := false }) else s) s

/-- Interval of an absent VIO (R43). -/
def State.vioRecord (s : State) : State :=
  match s.aon.vioUs with
  | some us => (s.record 0x0007 (le64 us)).modAon (fun a => { a with vioUs := none })
  | none => s

/-- Changed settings of the handicap (R437). -/
def State.hndChanged (s : State) : State :=
  if s.hnd.changed then
    let s := s.hndRecord 3
    { s with hnd := { s.hnd with changed := false } }
  else s

/-- A captain under AUTO with no feed capacity counts toward stepping down (R274). -/
def State.captainWatch (s : State) : State :=
  let zero := s.trunk.isCaptain && s.cfg.get 11 3 == 0 && s.feedCap == 0
  s.modTrunk (fun t => { t with capZeroSince := if zero then some (t.capZeroSince.getD s.now) else none })

/-- What the always-on domain holds for the hub: STAT patterns, the SYS target (R60, R214). -/
def State.mirror (s : State) : State :=
  let p := s.statPatterns
  s.modAon (fun a => { a with stat0 := p.1, stat1 := p.2, sysTarget := s.hub.sysTarget })

/-- A reset that SYS_RESET has asked for (R344, R408). -/
def State.dueReset (s : State) : State :=
  match s.hub.resetAt with
  | some (t, warm) => if t ≤ s.now then s.hubReset (if warm then 4 else 5) else s
  | none => s

def State.upkeep (s : State) : State :=
  let s := s.releaseRd.ccRefresh
  s.copySlots.vioRecord.hndChanged.captainWatch.mirror.checkAlert

/-! ### The decision -/

/-- Events stamped before tick m, in their order, and the state without them (R13). -/
def State.takeEvents (s : State) (m : Nat) : State × List Event :=
  let due := s.events.filter (fun e => ixBefore e.tick m)
  ({ s with events := s.events.filter (fun e => !ixBefore e.tick m) }, sortEvents due)

/-- Allowances with their events, and the P_base they were computed with (R243-R247). -/
def State.allowances (s : State) (m : Nat) : State :=
  let low := s.fcst.lowered || s.trunk.pBase < s.fcst.pBaseSeen
  (s.fcstDecide m low).modFcst (fun f => { f with lowered := false, pBaseSeen := s.trunk.pBase })

/-- Policy that belongs to a lone device or a master (R424). -/
def State.policy (s : State) (m : Nat) (force : Bool) (only : Option Lane) (lost : List (Src × Bool)) : State :=
  let s := (s.acceptVsel m).chooseMode.chargeMode.reattached
  let s := s.sourcePolicy only lost
  s.moveTarget.moveTrims.diodePolicy.orders force

/-- The mode of a member before its master's first control frame, and of a masterless device, follows R23; with the latch
set a member is in SAFE whatever its master sends. -/
def State.memberMode (s : State) : State :=
  if s.stack.masterless.isSome || s.stack.lastControl.isNone then s.chooseMode
  else if s.aon.safeLatch then s.setMode (some .safe) 0 else s

/-- The decision D(m) (R13, R23, R137): settings, control frames, events in order, host commands, then modes, sources, orders
and allowances. `force` sends a frame to every lane (R421). -/
def State.decide (s : State) (m : Nat) (force : Bool) (only : Option Lane) : State :=
  let s := (if s.isMember then s.applyControls m else s).applySettings
  let s := s.modAon (fun a => { a with softAbandoned := false })
  let x := s.takeEvents m
  let s := x.2.foldl (fun s e => s.useEvent e) x.1
  let s := s.useRings m
  let lost := lostSources x.2
  let s := if s.stack.masterless.isSome then
      (lost.foldl (fun s x => s.recordLost x) s.memberMode).masterlessPairs.diodePolicy.orders force
    else if s.isMember then (lost.foldl (fun s x => s.recordLost x) s.memberMode).endTransitions
    else s.policy m force only lost
  let s := (s.allowances m).pgoodPolicy.sendControls.returnState.upkeep
  s.dueReset

/-- Every decision that is due, oldest first, each on the events before its own tick: late dies have delayed the earlier
ones, and none is left out (R13). A reset ends the series. -/
def State.decideDue (s : State) : State :=
  let first := min s.hub.nextDecision s.now
  let s := (List.range (s.now + 1 - first)).foldl (fun s k => if s.hubUp then s.decide (first + k) false none else s) s
  s.modHub (fun h => { h with nextDecision := s.now + 1 })

/-- DECISION_TICK: the end of tick m, with the sample of VSEL taken at its start. A hub that is held or halted only lets the
tick pass, one that boots takes the sample too; a late die holds the decisions back (R13, R63). -/
def execDecisionTick (vsel : Fin 8) (late : List Die) (s : State) : Out :=
  match s.hub.hub with
  | .off => .next s
  | .held _ _ | .halted => .next s.endTick
  | .booted _ _ => .next (s.sampleVsel vsel).endTick
  | .running =>
    let s := (s.sampleVsel vsel).noteLate late
    .next (if s.waitsFor then s else s.decideDue).endTick

/-! ### The first decision after a boot (R25, R213, R235, R302, R380, R394, R414, R421) -/

/-- Records of events that fell while the hub was off, in their order. -/
def State.writeDeferred (s : State) : State :=
  let l := s.ledger.deferred
  l.foldl (fun s x => s.createRecord x.1 x.2 true) { s with ledger := { s.ledger with deferred := [] } }

/-- Record 0x0004 of a watchdog expiry, with its snapshot (R379, R391). -/
def State.wdgRecord (s : State) : State :=
  if s.wdg.expired then
    let w := s.wdg
    let s := s.record 0x0004 (le16 w.lastMissing.toNat ++ le16 w.lastDouble.toNat ++ le16 w.lastWindow.toNat ++ le16 w.rstCount.toNat ++ le32 w.lastTick.toNat)
    { s.snapshot 2 with wdg := { w with expired := false } }
  else s

def shelfCode : ShelfId → Nat
  | .a => 0 | .b => 1 | .recovery => 2

/-- Record 0x0001. -/
def State.bootRecord (s : State) (cause : Nat) (warm : Bool) : State :=
  s.record 0x0001 ([BitVec.ofNat 8 cause, boolByte warm] ++ s.fwVersion.toList ++ [BitVec.ofNat 8 (shelfCode s.hub.shelf)] ++ le16 s.hub.boots.toNat)

/-- Straps of a cold boot: a fault, a change, a position the stack does not hold (R48, R422). -/
def State.strapRecords (s : State) : State :=
  let fault := strapFaultOf s.aon.straps
  let s := if fault then s.stackRecord 1 0 else s
  let s := if s.aon.prevStraps.any (· != s.aon.straps) then s.stackRecord 2 0 else s
  if s.stack.size ≤ s.stack.position.toNat then s.becomeMasterless 3 0
  else if fault then s.modStack (fun k => { k with masterless := some 1 }) else s

/-- The interval of LIMP counts in full into the running timer (R213). -/
def State.countLimp (s : State) : State :=
  match s.aon.limpFrom with
  | some t =>
    let sec : Rat := ((s.now - t : Nat) : Rat) / 100000
    let s := if s.suspended then s
      else match s.charge.phase with
        | .trickle => s.modCharge (fun c => { c with trickleS := c.trickleS + sec, realS := c.realS + sec })
        | .precharge => s.modCharge (fun c => { c with preS := c.preS + sec, realS := c.realS + sec })
        | .cc | .cv => s.modCharge (fun c => { c with fastS := c.fastS + sec, realS := c.realS + sec })
        | .idle | .terminated => s
    s.modAon (fun a => { a with limpFrom := none })
  | none => s

/-- Battery presence: as retained SRAM holds it, else by the NTCs (R206, R413). -/
def State.bootPresence (s : State) (vbat : Volt) : State :=
  if s.charge.present || !s.ntcValid || s.cfg.battLane.isNone then s
  else (s.modCharge (fun c => { c with present := true })).presenceAnchor vbat

/-- The line-up of R380, written and locked. -/
def State.bootWdg (s : State) : State :=
  { s with wdg := { s.wdg with window := 500, nextWindow := 500, lineup := if 2 ≤ s.stack.size then 0x07FF else 0x03FF, locked := true } }

/-- A request that was held: a dormant one starts again where it is still allowed, else it is aborted (R70, R73). -/
def State.bootRequest (s : State) : State :=
  match s.aon.request with
  | some r =>
    if !r.dormant then s
    else
      if s.charge.present && !s.validSource && !s.aon.safeLatch && !s.trunkSession then s.dormantStart s.gauge.vBat r.automatic
      else s.abortRequest
  | none => s

/-- A catalogue of an older format is written anew (R394). -/
def State.bootMigrate (s : State) : State :=
  match newestCat s.flash with
  | some r => if r.format < 3 then s.addJob (.migrate (s.catRecord s.fwVersion 0)) else s
  | none => s

/-- In a dead-battery start, the far node of the first valid source in index order (R69). Every boot with cause 0 is one: a
pack that supplies the device starts it in SHIP (R413). -/
def State.deadStart (s : State) (cause : Nat) : Option Lane :=
  if cause = 0 then
    match (List.finRange 7).find? (fun c => s.heldCandidate c) with
    | some c => s.cfg.nodeOf c
    | none => none
  else none

/-- The SYS target in force as the hub reads it from a lane that holds SYS, which has completed its move in LIMP (R65, R421);
without one the value that the always-on domain kept, else the measured SYS. -/
def State.readTarget (s : State) (sys : Volt) : Volt :=
  match (List.finRange 4).find? (fun n => (s.lane n).active && (match (s.lane n).order.role with
    | .drawHold | .batSupplement => true | _ => false)) with
  | some n => (s.lane n).loop.target
  | none => if 0 < s.aon.sysTarget then s.aon.sysTarget else sys

/-- What the port dies report of their connectors in phase 4 of the boot (R414, R421). -/
def State.readSources (s : State) : State :=
  { s with
    conns := s.conns.map (fun (k : Conn) => { k with known := k.qualified && !k.lockedOut })
    ports := s.ports.map (fun (q : PortSt) => { q with seen := q.attach != .unattached })
    trunk := { s.trunk with busKnown := s.trunk.busQualified } }

/-- What the first decision does before it decides. -/
def State.firstWork (s : State) (cause : Nat) (warm : Bool) (vbat sys : Volt) : State :=
  let s := s.modHub (fun h => { h with hub := .running, firstTick := s.now, firstRound := s.therm.round, sysAvg := sys
                                       batRestart := false, sysTarget := s.readTarget sys, nextDecision := s.now })
  let s := { s with gauge := { s.gauge with vBat := vbat } }.readSources
  let s := (s.writeDeferred.wdgRecord).bootRecord cause warm
  let s := if warm then s else s.strapRecords
  let s := if cause = 0 then s.record 0x0305 [] else s
  let s := if warm then s else s.bootMigrate
  let s := if s.hub.shelf = .recovery then s.setSafe .hubOther .aon 0 0 else s
  let s := (s.copySlots.fcstUnlock.bootPresence vbat).countLimp
  let s := (List.finRange 4).foldl (fun s p => (s.resumePort p).sendMux p) s
  let s := s.bootWdg.resumeCaptain.bootRequest.dueTrims
  let s := s.modHub (fun h => { h with diodePending := s.charge.present && !s.cfg.supplement && !s.aon.diodeOn })
  let s := (List.finRange 2).foldl (fun s m => s.sendPort m s.effTick .nothing) s
  s.alert

/-- FIRST_DECISION: phases 1 to 4 of R414 are done; the mode is chosen afresh. -/
def execFirstDecision (vsel : Fin 8) (vbat sys : Volt) (s : State) : Out :=
  match s.hub.hub with
  | .booted cause warm =>
    let s := (s.firstWork cause warm vbat sys).sampleVsel vsel
    let s := s.decide s.now true (s.deadStart cause)
    let s := { s with host := { s.host with lastStatus := s.alertFields } }
    .next (s.modHub (fun h => { h with nextDecision := s.now + 1 })).endTick
  | _ => .next s

end Sys2Proof.Machine
end

