-- ==== Sys2Proof/Machine/Dispatch.lean ====
section
/-! DEFINITION. One arm per command: the effect of a command on everything but the queue. -/

namespace Sys2Proof.Machine

def exec (i : Instr) (s : State) : Host.Outcome State Fault Refusal :=
  match i with
  | .powerOn pins fromPack => Sys2Proof.Machine.execPowerOn pins fromPack s
  | .packConnect ftHigh => Sys2Proof.Machine.execPackConnect s ftHigh
  | .vpwrLoss vaonLost => Sys2Proof.Machine.execVpwrLoss vaonLost s
  | .railOverload r => Sys2Proof.Machine.execRailOverload r s
  | .vioLost => Sys2Proof.Machine.execVioLost s
  | .vioReturn intervalUs => Sys2Proof.Machine.execVioReturn intervalUs s
  | .xtalLost => Sys2Proof.Machine.execXtalLost s
  | .xtalRestored => Sys2Proof.Machine.execXtalRestored s
  | .decisionTick vsel late => Sys2Proof.Machine.execDecisionTick vsel late s
  | .swapHoldExpiry node challenger => Sys2Proof.Machine.execSwapHoldExpiry node challenger s
  | .dieFrameApply d => Sys2Proof.Machine.execDieFrameApply d s
  | .dieUnresponsive d => Sys2Proof.Machine.execDieUnresponsive d s
  | .safeLatchSet t => Sys2Proof.Machine.execSafeLatchSet t s
  | .sysOvershootSafe n sys => Sys2Proof.Machine.execSysOvershootSafe n sys s
  | .batteryOvSafe n vbat => Sys2Proof.Machine.execBatteryOvSafe n vbat s
  | .batfetCurrentSafe n => Sys2Proof.Machine.execBatfetCurrentSafe n s
  | .wakeNShipWake w => Sys2Proof.Machine.execWakeNShipWake w s
  | .connectorWake c v w => Sys2Proof.Machine.execConnectorWake c v w s
  | .dormantExit why w => Sys2Proof.Machine.execDormantExit why w s
  | .spuriousWake => Sys2Proof.Machine.execSpuriousWake s
  | .dormantAutoEntry vbat => Sys2Proof.Machine.execDormantAutoEntry vbat s
  | .dormantSequenceContinue sys => Sys2Proof.Machine.execDormantSequenceContinue sys s
  | .dormantPowerDown => Sys2Proof.Machine.execDormantPowerDown s
  | .shipDelayExpiry => Sys2Proof.Machine.execShipDelayExpiry s
  | .shipBatfetOpen => Sys2Proof.Machine.execShipBatfetOpen s
  | .shipFetOpen => Sys2Proof.Machine.execShipFetOpen s
  | .idealDiodeClose sys vbat => Sys2Proof.Machine.execIdealDiodeClose sys vbat s
  | .idealDiodeOpen sys vbat shuntA => Sys2Proof.Machine.execIdealDiodeOpen sys vbat shuntA s
  | .softConnectTimeout sys vbat => Sys2Proof.Machine.execSoftConnectTimeout sys vbat s
  | .softConnectComplete sys vbat => Sys2Proof.Machine.execSoftConnectComplete sys vbat s
  | .limpBackstopClose sys vbat => Sys2Proof.Machine.execLimpBackstopClose sys vbat s
  | .diodeControlEnable sys vbat => Sys2Proof.Machine.execDiodeControlEnable sys vbat s
  | .lanePeriodBoundary n m => Sys2Proof.Machine.execLanePeriodBoundary n m s
  | .balanceTrimUpdate n => Sys2Proof.Machine.execBalanceTrimUpdate n s
  | .peakLimitTrip k n => Sys2Proof.Machine.execPeakLimitTrip k n s
  | .currentLimitEvent k => Sys2Proof.Machine.execCurrentLimitEvent k s
  | .negCurrentLimit k x => Sys2Proof.Machine.execNegCurrentLimit k x s
  | .stageFault n => Sys2Proof.Machine.execStageFault n s
  | .truncation n v => Sys2Proof.Machine.execTruncation n v s
  | .truncationRelease n v => Sys2Proof.Machine.execTruncationRelease n v s
  | .skipEntry n => Sys2Proof.Machine.execSkipEntry n s
  | .skipExitComparator n v => Sys2Proof.Machine.execSkipExitComparator n v s
  | .skipExit n => Sys2Proof.Machine.execSkipExit n s
  | .laneFirstPulses n node offsets refs => Sys2Proof.Machine.execLaneFirstPulses n node offsets refs s
  | .inRegulation n => Sys2Proof.Machine.execInRegulation n s
  | .laneStopComplete n => Sys2Proof.Machine.execLaneStopComplete n s
  | .warmRefresh k offset ref => Sys2Proof.Machine.execWarmRefresh k offset ref s
  | .coldAdmissionComplete k offset => Sys2Proof.Machine.execColdAdmissionComplete k offset s
  | .shedBegin n => Sys2Proof.Machine.execShedBegin n s
  | .shedEnd n => Sys2Proof.Machine.execShedEnd n s
  | .shedInhibitExpiry n => Sys2Proof.Machine.execShedInhibitExpiry n s
  | .benchGoCold n => Sys2Proof.Machine.execBenchGoCold n s
  | .fillPeriodEnd n => Sys2Proof.Machine.execFillPeriodEnd n s
  | .trimSave n => Sys2Proof.Machine.execTrimSave n s
  | .phaseOut k kind => Sys2Proof.Machine.execPhaseOut k kind s
  | .headroomHoldRelease n => Sys2Proof.Machine.execHeadroomHoldRelease n s
  | .stackSyncEdge errPs => Sys2Proof.Machine.execStackSyncEdge errPs s
  | .stackSyncLocked n => Sys2Proof.Machine.execStackSyncLocked n s
  | .syncLoss => Sys2Proof.Machine.execSyncLoss s
  | .acinQualified v => Sys2Proof.Machine.execAcinQualified v s
  | .pairClosed c conn vinl => Sys2Proof.Machine.execPairClosed c conn vinl s
  | .farNodeDrainDone n vinl => Sys2Proof.Machine.execFarNodeDrainDone n vinl s
  | .drainTimeout n => Sys2Proof.Machine.execDrainTimeout n s
  | .sagLimitLearned c iMean => Sys2Proof.Machine.execSagLimitLearned c iMean s
  | .sagProbe c => Sys2Proof.Machine.execSagProbe c s
  | .panelTrack activeHalf p => Sys2Proof.Machine.execPanelTrack activeHalf p s
  | .panelScan powers => Sys2Proof.Machine.execPanelScan powers s
  | .protectionTrip c p v x => Sys2Proof.Machine.execProtectionTrip c p v x s
  | .requalifyAfterTrip c => Sys2Proof.Machine.execRequalifyAfterTrip c s
  | .lockoutEndLowVoltage c v => Sys2Proof.Machine.execLockoutEndLowVoltage c v s
  | .sourceLost c v => Sys2Proof.Machine.execSourceLost c v s
  | .farNodeLost n v => Sys2Proof.Machine.execFarNodeLost n v s
  | .ccAttach p seen => Sys2Proof.Machine.execCcAttach p seen s
  | .sinkDetach p x => Sys2Proof.Machine.execSinkDetach p x s
  | .sourceDetach p => Sys2Proof.Machine.execSourceDetach p s
  | .drpToggle p => Sys2Proof.Machine.execDrpToggle p s
  | .trySnkTimeout p => Sys2Proof.Machine.execTrySnkTimeout p s
  | .errorRecoveryEnd p => Sys2Proof.Machine.execErrorRecoveryEnd p s
  | .bc12DetectionDone p r => Sys2Proof.Machine.execBc12DetectionDone p r s
  | .pdMessageReceived p m => Sys2Proof.Machine.execPdMessageReceived p m s
  | .sourceCapabilitiesReceived p m => Sys2Proof.Machine.execSourceCapabilitiesReceived p m s
  | .requestReceived p h v n => Sys2Proof.Machine.execRequestReceived p h v n s
  | .voltageTransitionAccept p => Sys2Proof.Machine.execVoltageTransitionAccept p s
  | .vendorModeEntry p => Sys2Proof.Machine.execVendorModeEntry p s
  | .pdResponseTimeout x => Sys2Proof.Machine.execPdResponseTimeout x s
  | .sinkWaitCapTimeout p => Sys2Proof.Machine.execSinkWaitCapTimeout p s
  | .noResponseTimeout p => Sys2Proof.Machine.execNoResponseTimeout p s
  | .sourceCapResend p => Sys2Proof.Machine.execSourceCapResend p s
  | .ppsRequestRepeat p => Sys2Proof.Machine.execPpsRequestRepeat p s
  | .eprKeepalive p => Sys2Proof.Machine.execEprKeepalive p s
  | .eprEntryTimeout p => Sys2Proof.Machine.execEprEntryTimeout p s
  | .cableDiscoverRetry p => Sys2Proof.Machine.execCableDiscoverRetry p s
  | .vconnLimit p n => Sys2Proof.Machine.execVconnLimit p n s
  | .sourceTransitionStart p => Sys2Proof.Machine.execSourceTransitionStart p s
  | .feedTargetReached p v => Sys2Proof.Machine.execFeedTargetReached p v s
  | .vbusDischargeDone p v => Sys2Proof.Machine.execVbusDischargeDone p v s
  | .hardResetReceived p => Sys2Proof.Machine.execHardResetReceived p s
  | .sourceRecover p => Sys2Proof.Machine.execSourceRecover p s
  | .frsSignalDetected p => Sys2Proof.Machine.execFrsSignalDetected p s
  | .frsVbusFall p v => Sys2Proof.Machine.execFrsVbusFall p v s
  | .frsSignalEnd p => Sys2Proof.Machine.execFrsSignalEnd p s
  | .housekeepingSlot x v => Sys2Proof.Machine.execHousekeepingSlot x v s
  | .housekeepingRound r => Sys2Proof.Machine.execHousekeepingRound r s
  | .shutdownRelease d => Sys2Proof.Machine.execShutdownRelease d s
  | .shutdownSlotWrite => Sys2Proof.Machine.execShutdownSlotWrite s
  | .chargePhaseAdvance a vbat iMeas => Sys2Proof.Machine.execChargePhaseAdvance a vbat iMeas s
  | .preTimerExpiry => Sys2Proof.Machine.execPreTimerExpiry s
  | .fastTimerExpiry => Sys2Proof.Machine.execFastTimerExpiry s
  | .thermalRestart => Sys2Proof.Machine.execThermalRestart s
  | .backstopInterval n meanCharge => Sys2Proof.Machine.execBackstopInterval n meanCharge s
  | .backstopTrip n => Sys2Proof.Machine.execBackstopTrip n s
  | .backstopReset n => Sys2Proof.Machine.execBackstopReset n s
  | .batOvSuspend vbat => Sys2Proof.Machine.execBatOvSuspend vbat s
  | .presenceQualified vbat => Sys2Proof.Machine.execPresenceQualified vbat s
  | .removalIndication d vbat iMeas => Sys2Proof.Machine.execRemovalIndication d vbat iMeas s
  | .statPatternTimer => Sys2Proof.Machine.execStatPatternTimer s
  | .gaugeSample g => Sys2Proof.Machine.execGaugeSample g s
  | .restAnchor vbat => Sys2Proof.Machine.execRestAnchor vbat s
  | .gaugeRecordPeriodic => Sys2Proof.Machine.execGaugeRecordPeriodic s
  | .learnedStateCompaction => Sys2Proof.Machine.execLearnedStateCompaction s
  | .forecastFrameStart n => Sys2Proof.Machine.execForecastFrameStart n s
  | .forecastFrameHandover f => Sys2Proof.Machine.execForecastFrameHandover f s
  | .blockStart => Sys2Proof.Machine.execBlockStart s
  | .forecastUnlock => Sys2Proof.Machine.execForecastUnlock s
  | .prepositionAction n a => Sys2Proof.Machine.execPrepositionAction n a s
  | .biasHoldExpiry => Sys2Proof.Machine.execBiasHoldExpiry s
  | .sysDroopTrip n v => Sys2Proof.Machine.execSysDroopTrip n v s
  | .hdrmDroopRelease n v => Sys2Proof.Machine.execHdrmDroopRelease n v s
  | .passPairJoin t conn bus => Sys2Proof.Machine.execPassPairJoin t conn bus s
  | .energiseTimeout t => Sys2Proof.Machine.execEnergiseTimeout t s
  | .joinRetry t => Sys2Proof.Machine.execJoinRetry t s
  | .trunkFrameReceived t x bytes => Sys2Proof.Machine.execTrunkFrameReceived t x bytes s
  | .helloReceived a f => Sys2Proof.Machine.execHelloReceived a f s
  | .beaconReceived a f => Sys2Proof.Machine.execBeaconReceived a f s
  | .bulletinReceived x => Sys2Proof.Machine.execBulletinReceived x s
  | .reportReceived x => Sys2Proof.Machine.execReportReceived x s
  | .grantReceived x => Sys2Proof.Machine.execGrantReceived x s
  | .claimReceived x => Sys2Proof.Machine.execClaimReceived x s
  | .updateFrameReceived x => Sys2Proof.Machine.execUpdateFrameReceived x s
  | .updateAckReceived x => Sys2Proof.Machine.execUpdateAckReceived x s
  | .kickoffReceived x => Sys2Proof.Machine.execKickoffReceived x s
  | .messageReceived x => Sys2Proof.Machine.execMessageReceived x s
  | .helloSend t => Sys2Proof.Machine.execHelloSend t s
  | .beaconSend => Sys2Proof.Machine.execBeaconSend s
  | .bulletinSend => Sys2Proof.Machine.execBulletinSend s
  | .reportSend => Sys2Proof.Machine.execReportSend s
  | .unrosteredGrantSend => Sys2Proof.Machine.execUnrosteredGrantSend s
  | .claimSend => Sys2Proof.Machine.execClaimSend s
  | .captainElected => Sys2Proof.Machine.execCaptainElected s
  | .captainLost => Sys2Proof.Machine.execCaptainLost s
  | .captainStepDown => Sys2Proof.Machine.execCaptainStepDown s
  | .linkDown t => Sys2Proof.Machine.execLinkDown t s
  | .grantEffective => Sys2Proof.Machine.execGrantEffective s
  | .leaseEnd => Sys2Proof.Machine.execLeaseEnd s
  | .rosterEntryStale slot => Sys2Proof.Machine.execRosterEntryStale slot s
  | .trunkFeedStart => Sys2Proof.Machine.execTrunkFeedStart s
  | .trunkFeedStop => Sys2Proof.Machine.execTrunkFeedStop s
  | .trunkBusQualified v => Sys2Proof.Machine.execTrunkBusQualified v s
  | .droopOnset v => Sys2Proof.Machine.execDroopOnset v s
  | .droopClear v => Sys2Proof.Machine.execDroopClear v s
  | .updateFragmentSend => Sys2Proof.Machine.execUpdateFragmentSend s
  | .updateAckSend => Sys2Proof.Machine.execUpdateAckSend s
  | .kickoffSend => Sys2Proof.Machine.execKickoffSend s
  | .telemetryPublish => Sys2Proof.Machine.execTelemetryPublish s
  | .telFreezeTimeout => Sys2Proof.Machine.execTelFreezeTimeout s
  | .telBlockRead n c => Sys2Proof.Machine.execTelBlockRead n c s
  | .capture => Sys2Proof.Machine.execCapture s
  | .release => Sys2Proof.Machine.execRelease s
  | .spiFrame bytes => Sys2Proof.Machine.execSpiFrame bytes s
  | .i2cTransfer x => Sys2Proof.Machine.execI2cTransfer x s
  | .uartFrame bytes => Sys2Proof.Machine.execUartFrame bytes s
  | .post c => Sys2Proof.Machine.execPost c s
  | .urgent c => Sys2Proof.Machine.execUrgent c s
  | .cancel c => Sys2Proof.Machine.execCancel c s
  | .resync c => Sys2Proof.Machine.execResync c s
  | .dbMaskWrite n v => Sys2Proof.Machine.execDbMaskWrite n v s
  | .hdbOutClear n v => Sys2Proof.Machine.execHdbOutClear n v s
  | .hdbMaskWrite n v => Sys2Proof.Machine.execHdbMaskWrite n v s
  | .overrunRead n c => Sys2Proof.Machine.execOverrunRead n c s
  | .violClear => Sys2Proof.Machine.execViolClear s
  | .registerWrite w => Sys2Proof.Machine.execRegisterWrite w s
  | .sysNop c slot d => Sys2Proof.Machine.execSysNop c slot d s
  | .sysReset c slot d => Sys2Proof.Machine.execSysReset c slot d s
  | .safeEnter c slot d => Sys2Proof.Machine.execSafeEnter c slot d s
  | .safeClear c slot d => Sys2Proof.Machine.execSafeClear c slot d s
  | .shipEnter c slot d => Sys2Proof.Machine.execShipEnter c slot d s
  | .dormantEnter c slot d => Sys2Proof.Machine.execDormantEnter c slot d s
  | .funcStop c slot d => Sys2Proof.Machine.execFuncStop c slot d s
  | .cfgWrite c slot d => Sys2Proof.Machine.execCfgWrite c slot d s
  | .cfgRead c slot d => Sys2Proof.Machine.execCfgRead c slot d s
  | .funcStart c slot d => Sys2Proof.Machine.execFuncStart c slot d s
  | .funcAbort c slot d => Sys2Proof.Machine.execFuncAbort c slot d s
  | .laneStop c slot d => Sys2Proof.Machine.execLaneStop c slot d s
  | .laneStart c slot d => Sys2Proof.Machine.execLaneStart c slot d s
  | .phaseReturn c slot d => Sys2Proof.Machine.execPhaseReturn c slot d s
  | .phaseRetire c slot d => Sys2Proof.Machine.execPhaseRetire c slot d s
  | .laneStatus c slot d => Sys2Proof.Machine.execLaneStatus c slot d s
  | .chgSetCurrent c slot d => Sys2Proof.Machine.execChgSetCurrent c slot d s
  | .chgHold c slot d => Sys2Proof.Machine.execChgHold c slot d s
  | .chgRestart c slot d => Sys2Proof.Machine.execChgRestart c slot d s
  | .chgStatus c slot d => Sys2Proof.Machine.execChgStatus c slot d s
  | .srcUnlock c slot d => Sys2Proof.Machine.execSrcUnlock c slot d s
  | .portStatus c slot d => Sys2Proof.Machine.execPortStatus c slot d s
  | .portAction c slot d => Sys2Proof.Machine.execPortAction c slot d s
  | .trkSend c slot d => Sys2Proof.Machine.execTrkSend c slot d s
  | .trkStatus c slot d => Sys2Proof.Machine.execTrkStatus c slot d s
  | .fcstStatus c slot d => Sys2Proof.Machine.execFcstStatus c slot d s
  | .telSubscribe c slot d => Sys2Proof.Machine.execTelSubscribe c slot d s
  | .telUnsubscribe c slot d => Sys2Proof.Machine.execTelUnsubscribe c slot d s
  | .ledgerInfo c slot d => Sys2Proof.Machine.execLedgerInfo c slot d s
  | .ledgerRead c slot d => Sys2Proof.Machine.execLedgerRead c slot d s
  | .updOpen c slot d => Sys2Proof.Machine.execUpdOpen c slot d s
  | .updBlock c slot d => Sys2Proof.Machine.execUpdBlock c slot d s
  | .updSeal c slot d => Sys2Proof.Machine.execUpdSeal c slot d s
  | .updKickoff c slot d => Sys2Proof.Machine.execUpdKickoff c slot d s
  | .updRelay c slot d => Sys2Proof.Machine.execUpdRelay c slot d s
  | .updConfirm c slot d => Sys2Proof.Machine.execUpdConfirm c slot d s
  | .updAbort c slot d => Sys2Proof.Machine.execUpdAbort c slot d s
  | .updStatus c slot d => Sys2Proof.Machine.execUpdStatus c slot d s
  | .thermRelease c slot d => Sys2Proof.Machine.execThermRelease c slot d s
  | .hndUnlock c slot d => Sys2Proof.Machine.execHndUnlock c slot d s
  | .hndLock c slot d => Sys2Proof.Machine.execHndLock c slot d s
  | .diagRead c slot d => Sys2Proof.Machine.execDiagRead c slot d s
  | .hndRegisterWrite n r v => Sys2Proof.Machine.execHndRegisterWrite n r v s
  | .handicapDivCycle => Sys2Proof.Machine.execHandicapDivCycle s
  | .tmrCapture v => Sys2Proof.Machine.execTmrCapture v s
  | .timerCompareMatch c k => Sys2Proof.Machine.execTimerCompareMatch c k s
  | .timerOverflow c => Sys2Proof.Machine.execTimerOverflow c s
  | .wdgCheckin t => Sys2Proof.Machine.execWdgCheckin t s
  | .wdgKey v => Sys2Proof.Machine.execWdgKey v s
  | .wdgLock v => Sys2Proof.Machine.execWdgLock v s
  | .watchdogExpiry => Sys2Proof.Machine.execWatchdogExpiry s
  | .resetNAssert x => Sys2Proof.Machine.execResetNAssert x s
  | .hubLockup => Sys2Proof.Machine.execHubLockup s
  | .hubHaltDetected d => Sys2Proof.Machine.execHubHaltDetected d s
  | .flashHoldRelease => Sys2Proof.Machine.execFlashHoldRelease s
  | .coldBoot pins => Sys2Proof.Machine.execColdBoot pins s
  | .warmBoot crcOk => Sys2Proof.Machine.execWarmBoot crcOk s
  | .firstDecision vsel vbat sys => Sys2Proof.Machine.execFirstDecision vsel vbat sys s
  | .keeperHoldExpiry d => Sys2Proof.Machine.execKeeperHoldExpiry d s
  | .stackControlFrame f => Sys2Proof.Machine.execStackControlFrame f s
  | .stackStateFrame f => Sys2Proof.Machine.execStackStateFrame f s
  | .stackMemberLost p => Sys2Proof.Machine.execStackMemberLost p s
  | .masterLost => Sys2Proof.Machine.execMasterLost s
  | .masterlessTimeout => Sys2Proof.Machine.execMasterlessTimeout s
  | .flashOperationComplete => Sys2Proof.Machine.execFlashOperationComplete s
  | .ledgerWrite => Sys2Proof.Machine.execLedgerWrite s
  | .ledgerSectorErase => Sys2Proof.Machine.execLedgerSectorErase s
  | .shelfSectorBuild sector => Sys2Proof.Machine.execShelfSectorBuild sector s
  | .stagingErase => Sys2Proof.Machine.execStagingErase s
  | .kickoffTimeReached => Sys2Proof.Machine.execKickoffTimeReached s
  | .healthWindowEnd => Sys2Proof.Machine.execHealthWindowEnd s
  | .wakeNLow => Sys2Proof.Machine.execWakeNLow s
  | .sinkVbusQualified p v => Sys2Proof.Machine.execSinkVbusQualified p v s
  | .railRecovered r => Sys2Proof.Machine.execRailRecovered r s
  | .uartFrameGap => Sys2Proof.Machine.execUartFrameGap s
  | .trunkQueueSend t x => Sys2Proof.Machine.execTrunkQueueSend t x s
  | .psTransitionTimeout p x => Sys2Proof.Machine.execPsTransitionTimeout p x s
  | .eprKeepaliveWatchExpiry p => Sys2Proof.Machine.execEprKeepaliveWatchExpiry p s

end Sys2Proof.Machine
end

