-- ==== Sys2Proof/Safety.lean ====
section
/-! DEFINITION. The terms in which claims speak of a step: what a command leaves alone, when a host channel takes and answers
a command, the invariant every step keeps. -/

namespace Sys2Proof.Machine

/-- Everything but lane die `n` and the queue of stamped events is as before. -/
def OnlyLane (n : Lane) (s t : State) : Prop :=
  t = { s with lanes := t.lanes, events := t.events } ∧ ∀ m, m ≠ n → t.lane m = s.lane m

/-- A frame to the port die, with the effective tick of this decision, sends a PD message on the port (R6, R161). -/
def Sends (p : Port) (m : PdMsg) (s t : State) : Prop :=
  ({ eff := s.effTick, cmd := .send p m } : PortFrame) ∈ (t.pdie (dieOfSrc (portSrc p))).frames

/-- The normal slot of a channel takes a command: the hub runs its firmware, the slot is free or holds this ring, the command
is no duplicate and passes the checks of R331 (R330, R334). -/
def State.takes (s : State) (c : HostChan) (op : Half) (d : Desc) : Prop :=
  s.hubUp = true ∧ s.hub.shelf ≠ .recovery ∧ ((s.mbx c).st = .idle ∨ (s.mbx c).st = .queued) ∧
  ¬ ((s.mbx c).lastSeq = d.seq ∧ (s.mbx c).lastOp = op) ∧ precheck op.toNat .normal d = none

/-- The channel's normal slot has answered: MBX_ACK, STATE and REPLY (R330). -/
def Answered (u : State) (c : HostChan) (d : Desc) (code : Nat) : Prop :=
  (u.mbx c).st = .idle ∧ (u.mbx c).ackCode = BitVec.ofNat 16 code ∧ (u.mbx c).ackSeq = d.seq ∧ u.host.hdbOut.getLsbD (4 * c.val) = true

/-- The channel's normal slot still runs the command (R340). -/
def RunsOn (u : State) (c : HostChan) (op : Half) : Prop :=
  (u.mbx c).st = .running ∧ ∃ r, (u.mbx c).running = some r ∧ r.op = op

/-- The invariant of every step: the cells of the host's memory stand in canonical form, and the ledger's queue holds at most
its 64 records (R389). -/
def State.Inv (s : State) : Prop := Memory.wf s.host.mem ∧ s.ledger.queue.length ≤ 64

end Sys2Proof.Machine
end

