-- ==== Sys2Proof/Certificates/Slice0/Obligations.lean ====
section
/-! DEFINITION. The statements for the provers. Each is over all states (or all that meet the hypotheses written in it) and all
operands; a clause that ends in "answers the state itself" says when a command whose own condition does not hold changes
nothing (log entry 4). Where a clause rests on a choice of the model, its docstring names the log entry. -/

open Sys2Proof Sys2Proof.Machine

/-- For every command c, queue rest and state s: the step of s with c in front of the rest is exec of c on s with the rest. On
an empty queue the step answers the state itself. The queue and the idle step are the model's choice: log entries 1 and 3. -/
def Obligations.StepRunsTheFrontCommand : Prop :=
  (∀ (c : Instr) (rest : List Instr) (s : State), step { s with pending := c :: rest } = exec c { s with pending := rest }) ∧
  (∀ s : State, s.pending = [] → step s = .next s)

/-- For every command and every state, whatever its operands, exec answers a next state. (What the next state holds is stated
command by command below. A command whose own condition does not hold leaves the state alone: log entry 4.) Log entry 4. -/
def Obligations.EveryCommandAnswersANextState : Prop :=
  ∀ (c : Instr) (s : State), ∃ t, exec c s = .next t

/-- For every state that meets State.Inv (the host memory stands in canonical form; the ledger queue holds at most 64 records,
R389) a step that answers a next state answers one that meets it. For every command, the queue of waiting commands and the
unit identity in one-time-programmable memory (R264) are as before. Rules: R264, R325, R389. -/
def Obligations.EveryStepKeepsTheInvariant : Prop :=
  (∀ s t : State, s.Inv → step s = .next t → t.Inv) ∧
  (∀ (c : Instr) (s t : State), s.Inv → exec c s = .next t → t.pending = s.pending ∧ t.otp.unit = s.otp.unit)

/-- For every state that meets the invariant and whose SAFE latch is set, and every command: the latch is still set afterwards,
or the command is SAFE_CLEAR, loss of VPWR with the always-on domain, or a decision (which takes mailbox commands,
SAFE_CLEAR among them). No reset, boot, wake, thermal or trunk event clears it. Rules: R21, R24, R411. -/
def Obligations.TheSafeLatchStaysSet : Prop :=
  ∀ (i : Instr) (s t : State), s.Inv → s.aon.safeLatch = true → exec i s = .next t →
    t.aon.safeLatch = true ∨ (∃ c l d, i = .safeClear c l d) ∨ i = .vpwrLoss true ∨ (∃ v l, i = .decisionTick v l) ∨ (∃ v b y, i = .firstDecision v b y)

/-- If a command changes the tick index it is a decision, a wake from SHIP or DORMANT, or loss of VPWR. A DORMANT exit either
leaves it or advances it by the slept interval in ticks of 10 us. Rules: R6, R373. That the index starts again at 0 on every
loss of VPWR is the model's choice: log entry 94. -/
def Obligations.FewCommandsMoveTheTick : Prop :=
  (∀ (i : Instr) (s t : State), s.Inv → exec i s = .next t → t.time.tick ≠ s.time.tick →
    (∃ x, i = .vpwrLoss x) ∨ (∃ v l, i = .decisionTick v l) ∨ (∃ v b y, i = .firstDecision v b y) ∨ (∃ w, i = .wakeNShipWake w) ∨
    (∃ c v w, i = .connectorWake c v w) ∨ (∃ y w, i = .dormantExit y w)) ∧
  (∀ (s t : State) (y : DormantExit) (w : WakeInfo), exec (.dormantExit y w) s = .next t →
    t.time.tick = s.time.tick ∨ t.time.tick = s.time.tick + w.intervalUs / 10)

/-- A decision tick while the hub is held, halted or booting advances the tick, corrects the dies' copies of the index and
changes nothing else named; a booting hub takes the VSEL sample too. A running hub samples VSEL, advances the tick by one
and the sub-tick position returns to 0; with one lane die late, that die's lag grows by one, every other lane's lag is 0 and
no event is used. With all dies in time it makes every decision that is due and ends the tick; where only this tick's is due
it is that one decision. The first decision after a boot advances the tick too, and the next one is due in the next tick.
VSEL is sampled only with VIO up; a code seen in the two newest samples stamped before the decision's tick is accepted unless
PATH is stopped; PATH stopped or two samples that differ leave the accepted code. With no ship or dormant request the mode is
SAFE with the latch set, else SUPPLY with a valid source, else BATTERY with the battery present, else as before. Rules: R7,
R12-R14, R23, R62-R64, R414. -/
def Obligations.DecisionsEndTheTick : Prop :=
  (∀ (v : Fin 8) (l : List Die) (s : State), (s.hub.hub = .halted ∨ (∃ c w, s.hub.hub = .held c w) ∨ (∃ c w, s.hub.hub = .booted c w)) →
    ∃ u, exec (.decisionTick v l) s = .next u ∧ u.time.tick = s.time.tick + 1 ∧ u.time.edges = 0 ∧
      u.hub = (match s.hub.hub with | .booted _ _ => (s.sampleVsel v).hub | _ => s.hub) ∧
      (∀ n, u.lane n = { s.lane n with tick := if (s.lane n).up then u.tickWord else (s.lane n).tick }) ∧
      (∀ m, u.pdie m = { s.pdie m with tick := if (s.pdie m).up then u.tickWord else (s.pdie m).tick }) ∧
      u.conns = s.conns ∧ u.aon = s.aon ∧ u.events = s.events) ∧
  (∀ (v : Fin 8) (n : Lane) (s : State), s.Inv → s.hub.hub = .running → (s.lane n).unresponsive = false →
    ∃ u, exec (.decisionTick v [.lane n]) s = .next u ∧ u.time.tick = s.time.tick + 1 ∧ (u.lane n).lag = (s.lane n).lag + 1 ∧
      (∀ m, m ≠ n → u.lane m = { s.lane m with lag := 0, tick := if (s.lane m).up then u.tickWord else (s.lane m).tick }) ∧
      u.events = s.events ∧ u.host = s.host) ∧
  (∀ (v : Fin 8) (s : State), s.Inv → s.hub.hub = .running →
    ∃ u, exec (.decisionTick v []) s = .next u ∧ u = ((s.sampleVsel v).noteLate []).decideDue.endTick ∧ u.time.tick = s.time.tick + 1 ∧
      u.time.edges = 0 ∧ u.Inv ∧
      (s.hub.nextDecision = s.now →
        u = ((((s.sampleVsel v).noteLate []).decide s.now false none).modHub (fun h => { h with nextDecision := s.now + 1 })).endTick)) ∧
  (∀ (v : Fin 8) (b y : Volt) (c : Nat) (w : Bool) (s : State), s.Inv → s.hub.hub = .booted c w →
    ∃ u, exec (.firstDecision v b y) s = .next u ∧ u.time.tick = s.time.tick + 1 ∧ u.time.edges = 0 ∧ u.hub.nextDecision = u.time.tick ∧ u.Inv) ∧
  (∀ (v : Fin 8) (s : State),
    (s.aon.vio = true → s.sampleVsel v = { s with hub := { s.hub with vsel := ((s.now, v) :: s.hub.vsel).take 64 } }) ∧
    (s.aon.vio = false → s.sampleVsel v = s)) ∧
  (∀ (m a b : Nat) (v w : Fin 8) (r : List (Nat × Fin 8)) (s : State), s.hub.vsel.filter (fun x => ixBefore x.1 m) = (a, v) :: (b, w) :: r →
    (s.acceptVsel m).hub.vselCode = if v = w ∧ s.pathStopped = false then some v else s.hub.vselCode) ∧
  (∀ s : State, s.aon.request = none →
    s.chooseMode.aon = { s.aon with mode := if s.aon.safeLatch then some .safe else if s.validSource then some .supply
      else if s.charge.present then some .battery else s.aon.mode } ∧ s.chooseMode.lanes = s.lanes)

/-- Each command named in a clause leaves every part of the state as it was but the one the clause names. Lane and phase events:
one lane die and the queue of stamped events. Watchdog writes: the watchdog. Timer edges: the timers and the sub-tick
position. Ideal-diode, STAT and crystal events: the always-on domain. Doorbells, violation clear and frame gap: the host
interface. Capture, release, freeze end and block reads: telemetry. Forecast frame start and block start: the forecast.
Grants that take effect, lease end and feed stop: the trunk. DRP toggle: one port. Expiries of PD timers: the queue of
stamped events. PD repeats: one port and PD output. Discharge: one port and the queue of stamped events. Requalification, lockout end and sag probe: one connector. Panel tracking: the hub record. Ledger and background
jobs: the flash. The handicap cycle: the handicap unit. Rules: Frames of R93-R101, R112-R121, R146, R154, R167, R208, R214,
R241, R274-R276, R313, R333, R366, R377, R388, R435. -/
def Obligations.CommandsTouchOnlyTheirPart : Prop :=
  ((∀ (n : Lane) (v : Volt) (i : Amp) (c : Instr) (s t : State),
     c ∈ ([.stageFault n, .truncation n v, .truncationRelease n v, .sysDroopTrip n v, .hdrmDroopRelease n v, .skipEntry n, .skipExit n, .skipExitComparator n v,
       .shedBegin n, .shedEnd n, .shedInhibitExpiry n, .fillPeriodEnd n, .headroomHoldRelease n, .benchGoCold n, .balanceTrimUpdate n, .farNodeLost n v,
       .stackSyncLocked n, .backstopInterval n i, .backstopTrip n, .backstopReset n] : List Instr) → exec c s = .next t → OnlyLane n s t) ∧
   (∀ (n : Lane) (v : Volt) (o : Vector Amp 4) (r : Vector Volt 4) (s t : State), exec (.laneFirstPulses n v o r) s = .next t → OnlyLane n s t) ∧
   (∀ (k : PhaseNo) (i j : Amp) (r : Rat) (v : Volt) (x : PhaseKind) (c : Instr) (s t : State),
     c ∈ ([.peakLimitTrip k i, .currentLimitEvent k, .negCurrentLimit k ⟨r, i, j⟩, .warmRefresh k i v, .coldAdmissionComplete k i, .phaseOut k x] : List Instr) →
     exec c s = .next t → OnlyLane (phaseLane k) s t) ∧
   (∀ (i : Fin 16) (v : Word) (c : Instr) (s t : State),
     c ∈ ([.wdgCheckin i, .wdgKey (BitVec.ofNat 16 v.toNat), .wdgLock v] : List Instr) → exec c s = .next t → t = { s with wdg := t.wdg }) ∧
   (∀ (c : Fin 16) (k : Fin 4) (i : Instr) (s t : State),
     i ∈ ([.timerCompareMatch c k, .timerOverflow c] : List Instr) → exec i s = .next t → t = { s with timers := t.timers, time := t.time }) ∧
   (∀ (a b c : Rat) (i : Instr) (s t : State),
     i ∈ ([.idealDiodeClose a b, .idealDiodeOpen a b c, .softConnectComplete a b, .limpBackstopClose a b, .statPatternTimer, .xtalRestored] : List Instr) →
     exec i s = .next t → t = { s with aon := t.aon })) ∧
  ((∀ (c : HostChan) (r : Instr) (s t : State),
     r ∈ ([.post c, .urgent c, .cancel c, .resync c, .violClear, .uartFrameGap] : List Instr) →
     exec r s = .next t → t = { s with host := t.host }) ∧
   (∀ (i : Iface) (c : Fin 96) (r : Instr) (s t : State),
     r ∈ ([.capture, .release, .telFreezeTimeout, .telBlockRead i c] : List Instr) → exec r s = .next t → t = { s with tel := t.tel }) ∧
   (∀ (n : Fin 16) (r : Instr) (s t : State), r ∈ ([.forecastFrameStart n, .blockStart] : List Instr) → exec r s = .next t → t = { s with fcst := t.fcst }) ∧
   (∀ (r : Instr) (s t : State), r ∈ ([.grantEffective, .leaseEnd, .trunkFeedStop] : List Instr) →
     exec r s = .next t → t = { s with trunk := t.trunk }) ∧
   (∀ (p : Port) (s t : State), exec (.drpToggle p) s = .next t → t = { s with ports := t.ports } ∧ ∀ q, q ≠ p → t.port q = s.port q) ∧
   (∀ (p : Port) (x : PsTimer) (r : Instr) (s t : State), r ∈ ([.eprEntryTimeout p, .cableDiscoverRetry p, .sinkWaitCapTimeout p, .noResponseTimeout p, .sourceCapResend p,
       .sourceTransitionStart p, .psTransitionTimeout p x, .eprKeepaliveWatchExpiry p] : List Instr) → exec r s = .next t → t = { s with events := t.events }) ∧
   (∀ (p : Port) (r : Instr) (s t : State), r ∈ ([.ppsRequestRepeat p, .eprKeepalive p] : List Instr) → exec r s = .next t →
     t = { s with ports := t.ports, pdOut := t.pdOut } ∧ ∀ q, q ≠ p → t.port q = s.port q) ∧
   (∀ (p : Port) (v : Volt) (s t : State), exec (.vbusDischargeDone p v) s = .next t →
     t = { s with ports := t.ports, events := t.events } ∧ ∀ q, q ≠ p → t.port q = s.port q) ∧
   (∀ (c : Src) (v : Volt) (r : Instr) (s t : State), r ∈ ([.requalifyAfterTrip c, .lockoutEndLowVoltage c v, .sagProbe c] : List Instr) → exec r s = .next t →
     t = { s with conns := t.conns } ∧ ∀ d, d ≠ c → t.conn d = s.conn d) ∧
   (∀ (b : Bool) (p : Watt) (w : Vector Watt 9) (r : Instr) (s t : State), r ∈ ([.panelTrack b p, .panelScan w] : List Instr) → exec r s = .next t →
     t = { s with hub := t.hub }) ∧
   (∀ (k : Fin 512) (r : Instr) (s t : State), r ∈ ([.ledgerWrite, .ledgerSectorErase, .stagingErase, .shelfSectorBuild k] : List Instr) → exec r s = .next t →
     t = { s with flash := t.flash }) ∧
   (∀ s t : State, exec .handicapDivCycle s = .next t → t = { s with hnd := t.hnd }))

/-- State.reset meets the invariant; its queue and event list are empty, the tick is 0, VPWR is absent, the latch is
clear, PGOOD is not driven, no mode is held, the hub is off, every lane and port die is down, every pair is open, every port presents Rd and is
unattached. Rules: R39, R411. Values the spec does not give are the model's: log entry 14. -/
def Obligations.ResetLeavesTheBlockUnpowered : Prop :=
  State.reset.Inv ∧ State.reset.pending = [] ∧ State.reset.events = [] ∧ State.reset.time.tick = 0 ∧ State.reset.aon.vpwr = false ∧
  State.reset.aon.safeLatch = false ∧ State.reset.aon.pgood = true ∧ State.reset.aon.mode = none ∧ State.reset.hub.hub = .off ∧
  (∀ n, (State.reset.lane n).up = false ∧ (State.reset.lane n).run = .stopped) ∧ (∀ m, (State.reset.pdie m).up = false) ∧
  (∀ c, (State.reset.conn c).pair = .opened) ∧ (∀ p, (State.reset.port p).cc = .rd ∧ (State.reset.port p).attach = .unattached)

/-- Power-on from a connector with FT low clears PGOOD, holds the hub for a cold boot with cause 0, presents dead-battery Rd on
every port and, unless a rail is held down, starts every power die with the tick index; from the pack, or with a pack
connection, FT low, it enters SHIP and touches neither hub nor lanes. Loss of VPWR with VAON clears the volatile state and
keeps flash and fuses; with VAON kept, the latch and retained SRAM stay. An overloaded rail resets every power die and opens
every pair; the last rail to recover starts the dies while the hub has power. Loss of the crystal stamps a protection event;
its return clears only that flag. Rules: R33, R36, R38, R166, R411, R455, R456. Log entries 89 and 94 for what is kept. -/
def Obligations.SupplyAndRailCommandsAct : Prop :=
  ((∀ (pins : BootPins) (s : State), s.aon.vpwr = false → pins.ftHigh = false →
     ∃ t, exec (.powerOn pins false) s = .next t ∧ t.aon.vpwr = true ∧ t.aon.vaon = true ∧ t.aon.pgood = false ∧ t.hub.hub = .held 0 false ∧
       (∀ p, (t.port p).deadRd = true) ∧ t.flash = s.flash ∧
       (s.railsUp = true → (∀ n, t.lane n = { s.lane n with up := true, tick := s.tickWord }) ∧
         (∀ m, t.pdie m = { s.pdie m with up := true, tick := s.tickWord }))) ∧
   (∀ (pins : BootPins) (s : State), s.aon.vpwr = false → pins.ftHigh = false →
     ∃ t, exec (.powerOn pins true) s = .next t ∧ t.aon.vpwr = true ∧ t.aon.mode = some .ship ∧ t.hub = s.hub ∧ t.lanes = s.lanes) ∧
   (∀ s : State, s.aon.vpwr = false →
     ∃ t, exec (.packConnect false) s = .next t ∧ t.aon.vpwr = true ∧ t.aon.mode = some .ship ∧ t.hub = s.hub ∧ t.lanes = s.lanes) ∧
   (∀ s : State, s.aon.vpwr = true →
     ∃ t, exec (.vpwrLoss true) s = .next t ∧ t.aon = Aon.zero ∧ t.hub = HubSt.zero ∧ t.lanes = State.reset.lanes ∧
       t.conns = State.reset.conns ∧ t.host = HostIf.zero ∧ t.ledger = Ledger.zero ∧ t.flash.ledger = s.flash.ledger ∧
       t.flash.cat = s.flash.cat ∧ t.otp = s.otp ∧ t.pending = s.pending) ∧
   (∀ s : State, s.aon.vpwr = true →
     ∃ t, exec (.vpwrLoss false) s = .next t ∧ t.aon.vpwr = false ∧ t.aon.mode = none ∧ t.aon.safeLatch = s.aon.safeLatch ∧
       t.hub.hub = .off ∧ t.keep = s.keep ∧ t.cfg = s.landSettings.cfg ∧ t.gauge.qRem = s.gauge.qRem ∧ t.flash.cat = s.flash.cat ∧ t.otp = s.otp)) ∧
  ((∀ (r : Rail) (s : State), s.hub.hub ≠ .off →
     ∃ t, exec (.railOverload r) s = .next t ∧ t.aon.railDown.get (railIx r) = true ∧
       (∀ n, (t.lane n).up = false ∧ (t.lane n).run = .stopped ∧ (t.lane n).got = false) ∧ (∀ m, (t.pdie m).up = false) ∧
       (∀ c, (t.conn c).pair = .opened) ∧ (∀ p, (t.port p).cc = .rd ∧ (t.port p).attach = .unattached) ∧ t.hub = s.hub) ∧
   (∀ (r : Rail) (s : State), s.aon.railDown.get (railIx r) = true → (∀ x, railIx r ≠ x → s.aon.railDown.get x = false) →
     ∃ t, exec (.railRecovered r) s = .next t ∧ (∀ x, t.aon.railDown.get x = false) ∧ t.hub = s.hub ∧
       (∀ n, (t.lane n).up = ((s.lane n).up || s.hub.hub != .off)) ∧ (∀ m, (t.pdie m).up = ((s.pdie m).up || s.hub.hub != .off))) ∧
   (∀ s : State, s.aon.vaon = true → s.aon.xtalLost = false →
     ∃ t, exec .xtalLost s = .next t ∧ t.aon.xtalLost = true ∧ t.aon.safeLatch = s.aon.safeLatch ∧
       t.events = s.events ++ [{ cls := .protection, tick := s.now, sub := BitVec.ofNat 8 s.subTick, src := .aon, item := 0, kind := .xtalLost }]) ∧
   (∀ s : State, ∃ t, exec .xtalRestored s = .next t ∧ t.aon = { s.aon with xtalLost := false } ∧ t.hub = s.hub ∧ t.lanes = s.lanes))

/-- For every unpowered state: power-on with an FT pin reading high, from a connector or from the pack, enters the factory test
state; the hub is off, no lane die and no port die runs, and no mode is entered. Rules: R50. -/
def Obligations.FactoryTestStartsNothing : Prop :=
  (∀ (pins : BootPins) (fromPack : Bool) (s : State), s.aon.vpwr = false → pins.ftHigh = true →
    ∃ t, exec (.powerOn pins fromPack) s = .next t ∧ t.aon.factoryTest = true ∧ t.hub.hub = .off ∧ t.aon.mode = none ∧
      (∀ n, (t.lane n).up = false) ∧ (∀ m, (t.pdie m).up = false)) ∧
  (∀ s : State, s.aon.vpwr = false →
    ∃ t, exec (.packConnect true) s = .next t ∧ t.aon.factoryTest = true ∧ t.hub.hub = .off ∧ t.aon.mode = none ∧
      (∀ n, (t.lane n).up = false) ∧ (∀ m, (t.pdie m).up = false))

/-- With VAON up and the latch clear, each of: a hub or die trigger, SYS above 110% of the lane's target in force (at least 5 V)
while it truncates, whatever its role, the battery node above CELLS x (VREG + 0.1 V) at its lane die, and current through an
open BATFET pair, sets the latch, drops PGOOD, stops every lane, clears every far node's selection and allocation, opens ACIN
and every port that drives no Fast Role Swap signal, and turns SUPPLY, BATTERY or LIMP into SAFE. With the latch already set
the same trigger is noted as present (a command trigger is not), the latch stays and nothing else changes. Rules: R21, R24,
R57. -/
def Obligations.SafeTriggersSetTheLatch : Prop :=
  let safe := fun (s t : State) => t.aon.safeLatch = true ∧ t.aon.pgood = false ∧ (∀ n, (t.lane n).run = .stopped) ∧
    (∀ n, (t.node n).selected = none ∧ (t.node n).allocW = 0) ∧ (t.conn acin).pair = .opened ∧
    (∀ p, (t.port p).frsSignal = false → (t.conn (portSrc p)).pair = .opened) ∧
    ((s.modeIs .battery || s.modeIs .supply || s.modeIs .limp) = true → t.aon.mode = some .safe)
  let noted := fun (x : SafeTrigger) (s : State) => { s with aon := { s.aon with present := markPresent x s.aon.present } }
  (∀ (x : SafeTrigger) (s : State), s.aon.vaon = true →
    ∃ t, exec (.safeLatchSet x) s = .next t ∧ if s.aon.safeLatch = false then safe s t else t = noted x s) ∧
  (∀ (n : Lane) (tgt v : Volt) (s : State), s.aon.vaon = true → (s.lane n).up = true → (s.lane n).truncating = true →
    tgt = (if (s.lane n).order.role = .batDiode ∨ (s.lane n).order.role = .feed then (s.lane n).order.sysTarget else (s.lane n).loop.target) →
    5 ≤ tgt → 11 / 10 * tgt < v →
    ∃ t, exec (.sysOvershootSafe n v) s = .next t ∧ if s.aon.safeLatch = false then safe s t else t = noted .sysOvershoot s) ∧
  (∀ (n : Lane) (v : Volt) (s : State), s.aon.vaon = true → (s.lane n).up = true → s.battDie n = true → s.cells * (s.vreg + 1 / 10) < v →
    ∃ t, exec (.batteryOvSafe n v) s = .next t ∧ if s.aon.safeLatch = false then safe s t else t = noted .batteryOv s) ∧
  (∀ (i : Amp) (s : State), s.aon.vaon = true → s.aon.batfet = .off → i ≠ 0 →
    ∃ t, exec (.batfetCurrentSafe i) s = .next t ∧ if s.aon.safeLatch = false then safe s t else t = noted .batfetCurrent s)

/-- With FT low: from SHIP, WAKE_N or a connector above 4.0 V closes the ship FET, enables the ideal diode, starts every power die
unless a rail is held down, holds the hub for a cold boot with cause 1 and carries the tick by the interval slept; from
DORMANT the same with cause 2, also on a discharge beyond the exit current. With FT high every wake enters the factory test
state with the hub off. WAKE_N low while the hub has power is noted and stamps a presence event. 2 s after the first decision
of a connector wake, with no valid source and WAKE_N not seen low, the connector note is cleared; after a wake from SHIP that
may ship again an automatic ship request stands with a delay of 0 s. Rules: R50, R71, R72, R75, R373, R409, R412. -/
def Obligations.WakesStartTheHub : Prop :=
  let woken := fun (cause : Nat) (w : WakeInfo) (s t : State) => t.time.tick = s.time.tick + w.intervalUs / 10 ∧
    (w.pins.ftHigh = false → t.hub.hub = .held cause false ∧ t.aon.shipFet = true ∧ t.aon.diodeOn = true ∧
      (s.railsUp = true → (∀ n, (t.lane n).up = true) ∧ ∀ m, (t.pdie m).up = true)) ∧
    (w.pins.ftHigh = true → t.hub.hub = .off ∧ t.aon.factoryTest = true)
  (∀ (w : WakeInfo) (s : State), s.asleep .ship = true →
    ∃ t, exec (.wakeNShipWake w) s = .next t ∧ woken 1 w s t ∧ t.aon.wakeNSeen = true) ∧
  (∀ (c : Src) (v : Volt) (w : WakeInfo) (s : State), s.asleep .ship = true → 4 < v →
    ∃ t, exec (.connectorWake c v w) s = .next t ∧ woken 1 w s t ∧ t.aon.wakeConn = some c) ∧
  (∀ (c : Src) (v : Volt) (w : WakeInfo) (s : State), s.asleep .dormant = true → 4 < v →
    ∃ t, exec (.connectorWake c v w) s = .next t ∧ woken 2 w s t ∧ t.aon.wakeConn = some c) ∧
  (∀ (w : WakeInfo) (s : State), s.asleep .dormant = true →
    ∃ t, exec (.dormantExit .wakeN w) s = .next t ∧ woken 2 w s t) ∧
  (∀ (i : Amp) (w : WakeInfo) (s : State), s.asleep .dormant = true → s.cfg.q 1 12 (1 / 2) < -i →
    ∃ t, exec (.dormantExit (.discharge i) w) s = .next t ∧ woken 2 w s t) ∧
  (∀ s : State, s.aon.vaon = true → s.hub.hub ≠ .off →
    ∃ t, exec .wakeNLow s = .next t ∧ t.aon.wakeNSeen = true ∧
      t.events = s.events ++ [{ cls := .presence, tick := s.now, sub := BitVec.ofNat 8 s.subTick, src := .aon, item := 0, kind := .wakeN }]) ∧
  (∀ (c : Src) (s : State), s.hubUp = true → s.aon.wakeConn = some c → s.passed s.hub.firstTick 200000 = true → s.validSource = false →
    s.aon.wakeNSeen = false →
    ∃ t, exec .spuriousWake s = .next t ∧ t.aon.wakeConn = none ∧
      t.aon.request = (if s.hub.cause = 1 ∧ s.shipAllowed = true then
        some { dormant := false, automatic := true, deadline := s.now, stage := .wait } else s.aon.request))

/-- After the dormant delay with entry allowed, an automatic dormant request stands; SUPPLEMENT moves the SYS target to V_BAT -
0.1 V first, DIODE goes on at once. With SYS within 1% of its final target the diode control is enabled and every lane of the
battery node gets a controlled stop at the next effective tick. With the battery lanes stopped, DORMANT still allowed and the
latch clear, the device powers down in DORMANT with every lane stopped and every pair open. After SHIP_DELAY every lane gets
a controlled stop and every switch an open frame, and the last steps are handed over; 1 ms later BATFET opens, 1.1 ms after
the hand-over the ship FET opens, the mode is SHIP and the hub is off; the SAFE latch is not touched. Rules: R22, R70, R72,
R74. The mode stays BATTERY or SAFE until the ship FET opens: log entry 88. -/
def Obligations.DormantAndShipSequences : Prop :=
  (∀ (v : Volt) (k : Nat) (s : State), s.hubUp = true → s.hub.dormSince = some k → 0 < (s.cfg.get 1 11).toNat →
    s.passed k (secTicks (60 * (s.cfg.get 1 11).toNat)) = true → s.dormantAllowed = true → s.pathStopped = false → s.aon.request = none →
    ∃ t, exec (.dormantAutoEntry v) s = .next t ∧
      t.aon.request = some { dormant := true, automatic := true, deadline := s.now, stage := if s.cfg.supplement then .moving else .ramping } ∧
      t.hub.sysFinal = (if s.cfg.supplement then v - 1 / 10 else s.hub.sysFinal)) ∧
  (∀ (v : Volt) (r : Request) (s : State), s.hubUp = true → s.aon.request = some r → r.dormant = true → r.stage = .moving →
    rabs (v - s.hub.sysFinal) ≤ s.hub.sysFinal / 100 →
    ∃ t, exec (.dormantSequenceContinue v) s = .next t ∧ t.aon.diodeOn = true ∧ t.aon.request = some { r with stage := .ramping } ∧
      ∀ n m, s.cfg.battLane = some n → m ∈ s.cfg.gang n → ∃ f ∈ (t.lane m).frames, f.eff = s.effTick ∧ ∃ a, f.go = .stopRamp a) ∧
  (∀ (r : Request) (s : State), s.hubUp = true → s.aon.request = some r → r.dormant = true → r.stage = .ramping → s.dormantAllowed = true →
    s.aon.safeLatch = false → (∀ n, s.cfg.battLane = some n → ∀ m ∈ s.cfg.gang n, (s.lane m).active = false) →
    ∃ t, exec .dormantPowerDown s = .next t ∧ t.aon.mode = some .dormant ∧ t.hub.hub = .off ∧ t.aon.request = none ∧
      (∀ n, (t.lane n).up = false ∧ (t.lane n).run = .stopped) ∧ (∀ c, (t.conn c).pair = .opened)) ∧
  (∀ (r : Request) (s : State), s.hubUp = true → s.aon.request = some r → r.dormant = false → r.stage = .wait → r.deadline ≤ s.now →
    ∃ t, exec .shipDelayExpiry s = .next t ∧ t.aon.request = some { r with stage := .handed, deadline := s.now } ∧ t.aon.mode = s.aon.mode ∧
      (∀ n, ∃ f ∈ (t.lane n).frames, f.eff = s.effTick ∧ ∃ a, f.go = .stopRamp a) ∧
      (∀ c, ∃ f ∈ (t.pdie (dieOfSrc c)).frames, f.eff = s.effTick ∧ f.cmd = .openPair c)) ∧
  (∀ (r : Request) (s : State), s.aon.request = some r → r.dormant = false → r.stage = .handed → r.deadline + 100 ≤ s.now →
    ∃ t, exec .shipBatfetOpen s = .next t ∧ t.aon.batfet = .off ∧ t.aon.diodeOn = false ∧ t.aon.request = some { r with stage := .pairOpen } ∧
      t.aon.shipFet = s.aon.shipFet) ∧
  (∀ (r : Request) (s : State), s.aon.request = some r → r.dormant = false → r.stage = .pairOpen → r.deadline + 110 ≤ s.now →
    ∃ t, exec .shipFetOpen s = .next t ∧ t.aon.shipFet = false ∧ t.aon.mode = some .ship ∧ t.hub.hub = .off ∧ t.aon.request = none ∧
      t.aon.safeLatch = s.aon.safeLatch)

/-- With the control working, the pair open and no soft-connect abandoned: a battery 20 mV to 2 V above SYS closes the pair at
once; more than 2 V starts the linear soft-connect at SOFT_SLEW. SYS more than 10 mV above the battery, or more than 1 A
into the battery beside the lane current, opens it. A soft-connect 100 ms old with 2 V or more across it is abandoned; below
2 V it completes. The LIMP backstop closes the pair below 90% of the SYS target. With the battery present in DIODE and SYS
within 1% of the target, the higher of SYSV_sel and V_BAT + DIODE_LIFT up to 60 V, the control is enabled. Rules: R20,
R57-R61. With the hub off the always-on domain times the 100 ms by itself: log entry 4. -/
def Obligations.IdealDiodeSwitchesTheBatfetPair : Prop :=
  let closed := fun (sys vbat : Volt) (s : State) => s.modAon (fun a => { a with
    batfet := if vbat - sys ≤ 2 then .on else .linear, softFrom := if vbat - sys ≤ 2 then none else some s.now
    softRate := if vbat - sys ≤ 2 then 0 else s.cfg.q 1 6 (1 / 2) })
  (∀ (sys vbat : Volt) (s : State), s.diodeRule = .normal → s.aon.batfet = .off → s.aon.softAbandoned = false → 2 / 100 < vbat - sys →
    exec (.idealDiodeClose sys vbat) s = .next (closed sys vbat s)) ∧
  (∀ (sys vbat : Volt) (i : Amp) (s : State), s.aon.batfet ≠ .off → s.diodeRule ≠ .disabled → (vbat + 1 / 100 < sys ∨ 1 < i + s.battLaneI) →
    exec (.idealDiodeOpen sys vbat i) s = .next (s.modAon (fun a => { a with batfet := .off, softFrom := none, softRate := 0 }))) ∧
  (∀ (sys vbat : Volt) (k : Nat) (s : State), s.aon.batfet = .linear → s.aon.softFrom = some k → (k + 10000 ≤ s.now ∨ s.hub.hub = .off) →
    2 ≤ vbat - sys →
    ∃ t, exec (.softConnectTimeout sys vbat) s = .next t ∧
      t.aon = { s.aon with batfet := .off, softFrom := none, softRate := 0, softAbandoned := true } ∧ t.lanes = s.lanes ∧ t.hub = s.hub) ∧
  (∀ (sys vbat : Volt) (s : State), s.aon.batfet = .linear → vbat - sys < 2 →
    exec (.softConnectComplete sys vbat) s = .next (s.modAon (fun a => { a with batfet := .on, softFrom := none, softRate := 0 }))) ∧
  (∀ (sys vbat : Volt) (s : State), s.diodeRule = .backstop → s.aon.batfet = .off → s.aon.softAbandoned = false →
    sys < 9 / 10 * s.aon.sysTarget → 2 / 100 < vbat - sys →
    exec (.limpBackstopClose sys vbat) s = .next (closed sys vbat s)) ∧
  (∀ (sys vbat : Volt) (s : State), s.hubUp = true → s.hub.diodePending = true → s.charge.present = true → s.cfg.supplement = false →
    rabs (sys - min 60 (max s.hub.sysFinal (vbat + s.cfg.q 1 5 (1 / 10)))) ≤ min 60 (max s.hub.sysFinal (vbat + s.cfg.q 1 5 (1 / 10))) / 100 →
    ∃ t, exec (.diodeControlEnable sys vbat) s = .next t ∧ t.aon = { s.aon with diodeOn := true } ∧ t.hub = { s.hub with diodePending := false })

/-- For every channel, descriptor and state in which the channel takes the command: SHIP_ENTER or DORMANT_ENTER while entry is
not allowed (or PATH is stopped) answers 0x0005 and changes nothing outside the host interface; SAFE_CLEAR while the latch
is set and a trigger is present answers 0x0005, the latch stays set and nothing else changes. Rules: R24. -/
def Obligations.RefusedModeCommandsChangeNothing : Prop :=
  (∀ (c : HostChan) (d : Desc) (s : State), s.takes c 0x0004 d → (s.pathStopped = true ∨ s.shipAllowed = false) →
    ∃ u, exec (.shipEnter c .normal d) s = .next u ∧ Answered u c d 5 ∧ u = { s with host := u.host }) ∧
  (∀ (c : HostChan) (d : Desc) (s : State), s.takes c 0x0005 d → (s.pathStopped = true ∨ s.dormantAllowed = false) →
    ∃ u, exec (.dormantEnter c .normal d) s = .next u ∧ Answered u c d 5 ∧ u = { s with host := u.host }) ∧
  (∀ (c : HostChan) (d : Desc) (s : State), s.takes c 0x0003 d → s.aon.safeLatch = true → s.safeBlocked = true →
    ∃ u, exec (.safeClear c .normal d) s = .next u ∧ Answered u c d 5 ∧ u.aon.safeLatch = true ∧ u = { s with host := u.host })

/-- The 7-bit address of band D is 0x3A, of C 0x3B, of B 0x3C, of A 0x3D. An I2C transfer whose address is not the one the
straps select leaves the whole state unchanged. Rules: R46. -/
def Obligations.StrapBandsSelectTheAddress : Prop :=
  i2cAddress .d = 0x3A ∧ i2cAddress .c = 0x3B ∧ i2cAddress .b = 0x3C ∧ i2cAddress .a = 0x3D ∧
  (∀ (x : I2cTransfer) (s : State), x.target ≠ i2cAddress s.aon.straps.i2cAddr → exec (.i2cTransfer x) s = .next s)

/-- A storing phase on the field whose current reaches the peak comparator's step of IPK_LIM freewheels and the note that the
limit ended it is set; below it nothing changes. After 32 such periods the lane stamps a current-limit event and goes on
running. A field phase that freewheels, or whose storing interval ends by its peak command, goes to mid where its current
toward the load has come to the negative limit (0 in skip, before regulation and under truncation) and freewheels above it.
A warm phase is refreshed after 32 periods, its sense check noted. A cold one under admission that passes its sense check is
refreshed and then waits warm, or for the next boundary; one that fails stays cold with its fault noted. A noted fault puts
the phase out with its kind. Each touches one lane die only. Rules: R78, R85, R93, R94, R112-R114, R124-R127. -/
def Obligations.LimitsAndBenchActOnOnePhase : Prop :=
  ((∀ (k : PhaseNo) (i : Amp) (s : State), ((s.lane (phaseLane k)).phases.get (phasePos k)).st = .field →
     ((s.lane (phaseLane k)).phases.get (phasePos k)).drive = .storing → peakDac (s.ipk (phaseLane k)) ≤ rabs i →
     ∃ t, exec (.peakLimitTrip k i) s = .next t ∧ OnlyLane (phaseLane k) s t ∧
       (t.lane (phaseLane k)).phases.get (phasePos k) =
         { (s.lane (phaseLane k)).phases.get (phasePos k) with drive := .freewheel, ipkEnded := true }) ∧
   (∀ (k : PhaseNo) (s : State), 32 ≤ ((s.lane (phaseLane k)).phases.get (phasePos k)).ipkRun →
     ∃ t, exec (.currentLimitEvent k) s = .next t ∧ OnlyLane (phaseLane k) s t ∧
       (t.lane (phaseLane k)).phases.get (phasePos k) = { (s.lane (phaseLane k)).phases.get (phasePos k) with ipkRun := 0 } ∧
       (t.lane (phaseLane k)).run = (s.lane (phaseLane k)).run ∧
       t.events = s.events ++ [{ cls := .protection, tick := s.now, sub := BitVec.ofNat 8 s.subTick, src := .lane (phaseLane k), item := k.val, kind := .currentLimit k }]) ∧
   (∀ (k : PhaseNo) (ns : Rat) (top i : Amp) (p : Phase) (s : State), (s.lane (phaseLane k)).phases.get (phasePos k) = p → p.st = .field →
     (p.drive = .freewheel ∨ (p.drive = .storing ∧ s.intervalEnds (phaseLane k) p ns (rabs top) = true)) →
     ∃ t, exec (.negCurrentLimit k ⟨ns, top, i⟩) s = .next t ∧ OnlyLane (phaseLane k) s t ∧
       (t.lane (phaseLane k)).phases.get (phasePos k) = { p with drive :=
         if (if p.fwd then i else -i) ≤ (if (s.lane (phaseLane k)).field.skipping = true ∨ (s.lane (phaseLane k)).field.inReg = false ∨
           (s.lane (phaseLane k)).truncating = true then 0 else s.ineg (phaseLane k)) then .mid else .freewheel }) ∧
   (∀ (k : PhaseNo) (i : Amp) (s : State), rabs i < peakDac (s.ipk (phaseLane k)) → exec (.peakLimitTrip k i) s = .next s)) ∧
  ((∀ (k : PhaseNo) (off : Amp) (ref : Volt) (p : Phase) (s : State), (s.lane (phaseLane k)).phases.get (phasePos k) = p →
     (s.lane (phaseLane k)).psen = true → p.st = .warm → 32 ≤ p.sinceAdmit →
     ∃ t, exec (.warmRefresh k off ref) s = .next t ∧ OnlyLane (phaseLane k) s t ∧
       (t.lane (phaseLane k)).phases.get (phasePos k) = { p with drive := .refresh, sinceAdmit := 0, faultDue := if p.faultDue.isSome then p.faultDue else s.senseCheck (phaseLane k) off (some ref) }) ∧
   (∀ (k : PhaseNo) (off : Amp) (p : Phase) (s : State), (s.lane (phaseLane k)).phases.get (phasePos k) = p →
     (s.lane (phaseLane k)).active = true → p.st = .cold → p.admitting = true → s.senseCheck (phaseLane k) off none = none →
     ∃ t q, exec (.coldAdmissionComplete k off) s = .next t ∧ OnlyLane (phaseLane k) s t ∧
       (t.lane (phaseLane k)).phases.get (phasePos k) = q ∧ q.st = (if p.toWarm then .warm else .cold) ∧ q.admitNext = !p.toWarm ∧
         q.admitting = false ∧ q.drive = .refresh) ∧
   (∀ (k : PhaseNo) (off : Amp) (x : PhaseKind) (p : Phase) (s : State), (s.lane (phaseLane k)).phases.get (phasePos k) = p →
     (s.lane (phaseLane k)).active = true → p.st = .cold → p.admitting = true → s.senseCheck (phaseLane k) off none = some x →
     ∃ t q, exec (.coldAdmissionComplete k off) s = .next t ∧ OnlyLane (phaseLane k) s t ∧
       (t.lane (phaseLane k)).phases.get (phasePos k) = q ∧ q.st = .cold ∧ q.faultDue = p.faultDue.or (some x) ∧ q.admitNext = false ∧
         q.drive = .mid) ∧
   (∀ (k : PhaseNo) (x : PhaseKind) (s : State), (s.lane (phaseLane k)).up = true →
     ((s.lane (phaseLane k)).phases.get (phasePos k)).st ≠ .out → ((s.lane (phaseLane k)).phases.get (phasePos k)).faultDue = some x →
     ∃ t, exec (.phaseOut k x) s = .next t ∧ OnlyLane (phaseLane k) s t ∧
       ((t.lane (phaseLane k)).phases.get (phasePos k)).st = .out ∧ ((t.lane (phaseLane k)).phases.get (phasePos k)).kind = some x))

/-- In a lane that runs or ramps, a retirement that waits starts a shed of its phase; otherwise a shed starts at the last field
phase in rotation order when neither the fill period, the inhibit nor N_floor stands against it and the hold times have
passed. While the field fills and no retirement waits nothing is shed. After 8 periods the shed ends: the phase is out if
retired, else cold or warm as the bench. The inhibit, the fill period and the headroom hold end as timed; the bench goes cold
after COLD_HOLD unless it is to be kept warm, and field phases stay as they are. Rules: R115-R122, R127, R129. -/
def Obligations.LaneFieldSheds : Prop :=
  (∀ (n : Lane) (p : Pos) (r : List Pos) (s : State), (s.lane n).active = true → (s.lane n).field.shed = none → (s.lane n).field.retireNext = p :: r →
    ∃ t, exec (.shedBegin n) s = .next t ∧ OnlyLane n s t ∧ (t.lane n).field.shed = some (p, 0, true) ∧ (t.lane n).field.retireNext = r) ∧
  (∀ (n : Lane) (p : Pos) (s : State), (s.lane n).active = true → (s.lane n).field.shed = none → (s.lane n).field.retireNext = [] →
    (s.lane n).filling s.now = false → (s.lane n).shedInhibited s.now = false → s.nFloor n (s.lane n) < (s.lane n).nField →
    s.laneQ n 29 1 * s.fsw n ≤ (s.lane n).field.shedHold → s.laneQ n 29 1 * s.fsw n ≤ (s.lane n).field.sinceShed →
    ((s.lane n).inOrder (fun x => x.st == .field)).getLast? = some p →
    ∃ t, exec (.shedBegin n) s = .next t ∧ OnlyLane n s t ∧ (t.lane n).field.shed = some (p, 0, false) ∧ (t.lane n).field.shedHold = 0) ∧
  (∀ (n : Lane) (s : State), (s.lane n).field.retireNext = [] → (s.lane n).filling s.now = true → exec (.shedBegin n) s = .next s) ∧
  (∀ (n : Lane) (p : Pos) (m : Nat) (r : Bool) (s : State), (s.lane n).field.shed = some (p, m, r) → 8 ≤ m →
    ∃ t, exec (.shedEnd n) s = .next t ∧ OnlyLane n s t ∧ (t.lane n).field.shed = none ∧ (t.lane n).field.sinceShed = 0 ∧
      ((t.lane n).phases.get p).st = (if r then .out else if (s.lane n).field.benchCold then .cold else .warm) ∧
      ∀ q, q ≠ p → (t.lane n).phases.get q = (s.lane n).phases.get q) ∧
  (∀ (n : Lane) (k : Nat) (s : State), (s.lane n).field.shedInhibit = some k → k ≤ s.now →
    ∃ t, exec (.shedInhibitExpiry n) s = .next t ∧ OnlyLane n s t ∧ t.lane n = { s.lane n with field := { (s.lane n).field with shedInhibit := none } }) ∧
  (∀ (n : Lane) (k : Nat) (s : State), (s.lane n).field.fillFrom = some k → k + 10000 ≤ s.now →
    ∃ t, exec (.fillPeriodEnd n) s = .next t ∧ OnlyLane n s t ∧ t.lane n = { s.lane n with field := { (s.lane n).field with fillFrom := none } }) ∧
  (∀ (n : Lane) (s : State), (s.lane n).field.headroomHold = true → 16 ≤ (s.lane n).field.ceilOkRun →
    ∃ t, exec (.headroomHoldRelease n) s = .next t ∧ OnlyLane n s t ∧
      t.lane n = { s.lane n with field := { (s.lane n).field with headroomHold := false } }) ∧
  (∀ (n : Lane) (s : State), (s.lane n).active = true → s.laneQ n 31 10 * s.fsw n ≤ (s.lane n).field.coldHold → s.keepWarm n (s.lane n) = false →
    ∃ t, exec (.benchGoCold n) s = .next t ∧ OnlyLane n s t ∧ (t.lane n).field.benchCold = true ∧
      (∀ p, ((s.lane n).phases.get p).st = .field → ((t.lane n).phases.get p) = (s.lane n).phases.get p) ∧
      (∀ p, ((s.lane n).phases.get p).st = .warm → ((s.lane n).phases.get p).admitNext = false → ((t.lane n).phases.get p).st = .cold))

/-- A stage fault stops the lane and is stamped, and the third within 1 s puts the lane out of service. Truncation above TRUNC
stops storing in a lane that delivers, and releases below the hysteresis. The droop comparator sets and, 0.5% above,
releases the drooping flag. Skip is entered after 16 periods and left by comparator (all field phases store, unless a
truncating lane delivers, warm phases are admitted, sheds inhibited 50 ms), by pulse count, by SKIP_EN off or by a hub
command. In regulation after 16 periods the flag and the trim clock are set. Rules: R95-R101, R247, R249. -/
def Obligations.LaneFaultsSkipAndRegulation : Prop :=
  ((∀ (n : Lane) (s : State), (s.lane n).up = true →
     ∃ t, exec (.stageFault n) s = .next t ∧ OnlyLane n s t ∧ (t.lane n).run = .stopped ∧ (t.lane n).psen = false ∧
       (t.lane n).loop.iCmd = 0 ∧ s.now ∈ (t.lane n).faults ∧
       (t.lane n).outOfService = ((s.lane n).outOfService || decide (2 ≤ ((s.lane n).faults.filter (fun k => s.now < k + 100000)).length)) ∧
       t.events = s.events ++ [{ cls := .protection, tick := s.now, sub := BitVec.ofNat 8 s.subTick, src := .lane n, item := n.val, kind := .stageFault (!(s.lane n).outOfService && (t.lane n).outOfService) }]) ∧
   (∀ (n : Lane) (v : Volt) (s : State), (s.lane n).active = true → (s.lane n).truncating = false →
     (s.lane n).watched * (1 + s.laneQ n 21 (1 / 1000)) < v →
     ∃ t, exec (.truncation n v) s = .next t ∧ OnlyLane n s t ∧ (t.lane n).truncating = true ∧
       ((s.lane n).delivers = true → ∀ p, ((t.lane n).phases.get p).drive ≠ .storing) ∧
       (t.lane n).loop = (s.lane n).loop) ∧
   (∀ (n : Lane) (v : Volt) (s : State), (s.lane n).truncating = true →
     v < (s.lane n).watched * (1 + s.laneQ n 21 (1 / 1000) - s.laneQ n 22 (1 / 1000)) →
     ∃ t, exec (.truncationRelease n v) s = .next t ∧ OnlyLane n s t ∧ t.lane n = { s.lane n with truncating := false }) ∧
   (∀ (n : Lane) (v : Volt) (s : State), (s.lane n).up = true → (s.lane n).shut = false → (s.lane n).onLine = true →
     (s.lane n).drooping = false → v < (s.lane n).order.droop →
     ∃ t, exec (.sysDroopTrip n v) s = .next t ∧ OnlyLane n s t ∧ t.lane n = { s.lane n with drooping := true }) ∧
   (∀ (n : Lane) (v : Volt) (s : State), (s.lane n).drooping = true →
     (s.lane n).order.droop + (s.lane n).order.sysTarget * (5 / 1000) < v →
     ∃ t, exec (.hdrmDroopRelease n v) s = .next t ∧ OnlyLane n s t ∧ t.lane n = { s.lane n with drooping := false })) ∧
  ((∀ (n : Lane) (s : State), (s.lane n).run = .running → (s.lane n).field.skipping = false → s.skipReady n (s.lane n) = true →
     16 ≤ (s.lane n).field.skipRun →
     ∃ t, exec (.skipEntry n) s = .next t ∧ OnlyLane n s t ∧ (t.lane n).field.skipping = true ∧
       (t.lane n).diag.skipEntries = satInc 32 (s.lane n).diag.skipEntries ∧ (t.lane n).loop = (s.lane n).loop) ∧
   (∀ (n : Lane) (v : Volt) (s : State), (s.lane n).field.skipping = true → v < (s.lane n).watched * (1 - s.laneQ n 25 (1 / 400)) →
     ∃ t, exec (.skipExitComparator n v) s = .next t ∧ OnlyLane n s t ∧ (t.lane n).field.skipping = false ∧
       (t.lane n).loop = { (s.lane n).loop with integ := 2 * s.laneQ n 24 (1 / 4) } ∧
       (¬ ((s.lane n).truncating = true ∧ (s.lane n).delivers = true) →
         ∀ p, ((s.lane n).phases.get p).st = .field → ((t.lane n).phases.get p).drive = .storing) ∧
       (∀ p, ((s.lane n).phases.get p).st = .warm → ((t.lane n).phases.get p).admitNext = true) ∧
       (t.lane n).field.shedInhibit = some (s.now + 5000)) ∧
   (∀ (n : Lane) (s : State), (s.lane n).field.skipping = true →
     (12 < ((s.lane n).field.pulses.filter id).length ∨ (s.lane n).field.skipExitDue = true ∨ s.cfg.get (s.laneFn n) 23 = 0) →
     ∃ t, exec (.skipExit n) s = .next t ∧ OnlyLane n s t ∧ (t.lane n).field.skipping = false ∧ (t.lane n).loop = (s.lane n).loop ∧
       t.events = s.events ++ [{ cls := .protection, tick := s.now, sub := BitVec.ofNat 8 s.subTick, src := .lane n, item := n.val, kind := .skipExit }]) ∧
   (∀ (n : Lane) (s : State), (s.lane n).run = .running → (s.lane n).field.inReg = false → 16 ≤ (s.lane n).field.regRun →
     ∃ t, exec (.inRegulation n) s = .next t ∧ t.lane n = { s.lane n with field := { (s.lane n).field with inReg := true } } ∧
       (∀ m, m ≠ n → t.lane m = s.lane m) ∧ t.keep = { s.keep with trimSince := vput s.keep.trimSince n (some s.now) } ∧
       t = { s with lanes := t.lanes, keep := t.keep, events := t.events }))

/-- A biasing lane's first pulses start it at the measured node voltage with all its phases on the field. A ramp that has
reached 0 stops the lane, or leaves a feeding lane whose keeper hold is over in standby, and stamps it. A die applies its first
frame when its effective tick has come by its own copy of the tick: it leaves its keeper, notes the hub's frame and does what
the frame asks; with no frame nothing changes. Trims that moved by 0.1 A or more, either way, from the set saved last are saved
10 min after the last save in regulation. Rules: R6, R7, R12, R100, R103, R123, R418. With no set saved yet the comparison is
with FACTORY_TRIM, which is the model's choice (log entry 126). -/
def Obligations.LaneStartsStopsAndFrames : Prop :=
  (∀ (n : Lane) (v : Volt) (o : Vector Amp 4) (r : Vector Volt 4) (s : State), (s.lane n).run = .bias →
    ∃ t, exec (.laneFirstPulses n v o r) s = .next t ∧ OnlyLane n s t ∧ (t.lane n).run = .running ∧ (t.lane n).loop.target = v ∧
      (t.lane n).loop.cFloor = 0 ∧ (t.lane n).field.fillFrom = some s.now ∧ (t.lane n).field.hist = [] ∧
      (∀ p, ((s.lane n).phases.get p).st ≠ .out → ((t.lane n).phases.get p).st = .field)) ∧
  (∀ (n : Lane) (s : State), (s.lane n).run = .ramping → (s.lane n).loop.rampA = some 0 → (s.lane n).loop.iCmd = 0 →
    ∃ t, exec (.laneStopComplete n) s = .next t ∧
      (t.lane n).run = (if (s.lane n).keeper.any (·.expired) = true ∧ (s.lane n).order.role = .feed then .standby else .stopped) ∧
      ((t.lane n).run = .stopped → (t.lane n).psen = false) ∧ (t.lane n).loop.iCmd = 0 ∧ (∀ m, m ≠ n → t.lane m = s.lane m) ∧
      t.keep.trimSince.get n = none ∧
      t.events = s.events ++ [{ cls := .protection, tick := s.now, sub := BitVec.ofNat 8 s.subTick, src := .lane n, item := n.val, kind := .laneStopped }]) ∧
  (∀ (n : Lane) (f : LaneFrame) (r : List LaneFrame) (s : State), (s.lane n).frames = f :: r →
    ixReached f.eff (s.lane n).tick.toNat = true → (s.lane n).up = true →
    ∃ t, exec (.dieFrameApply (.lane n)) s = .next t ∧ (t.lane n).frames = r ∧ (t.lane n).keeper = none ∧ (t.lane n).got = true ∧
      (t.lane n).order = f.order ∧ (∀ m, m ≠ n → t.lane m = s.lane m) ∧ (f.go = .stopNow → (t.lane n).run = .stopped) ∧
      (t.lane n).newSet = (s.lane n).newSet ++ f.set) ∧
  (∀ (m : PortDie) (f : PortFrame) (r : List PortFrame) (s : State), (s.pdie m).frames = f :: r →
    ixReached f.eff (s.pdie m).tick.toNat = true → (s.pdie m).up = true →
    ∃ t, exec (.dieFrameApply (.port m)) s = .next t ∧ (t.pdie m).frames = r ∧ (t.pdie m).got = true ∧ (t.pdie m).keeper = none ∧
      (∀ (p : Port) (x : BitVec 2), f.cmd = .mux p x → t.port p = { s.port p with mux := x } ∧ t = { s with ports := t.ports, portDies := t.portDies }) ∧
      (∀ c, f.cmd = .openPair c → (t.conn c).pair = .opened) ∧
      (∀ c, f.cmd = .closePair c → s.mayClose c = true → (s.conn c).pair = .opened → (t.conn c).pair = .closing) ∧
      (∀ c, f.cmd = .closePair c → s.mayClose c = false → t.conns = s.conns) ∧
      (∀ p x, f.cmd = .send p x → t.pdOut = { port := p, msg := x } :: s.pdOut ∧ (t.port p).lastTx = some x)) ∧
  (∀ (d : Die) (s : State), (match d with | .lane n => (s.lane n).frames = [] | .port m => (s.pdie m).frames = []) →
    exec (.dieFrameApply d) s = .next s) ∧
  (∀ (n : Lane) (k : Nat) (s : State), s.keep.trimSince.get n = some k → (s.lane n).field.inReg = true → s.passed k 60000000 = true →
    (∃ p, 1 / 10 ≤ rabs (((s.lane n).phases.get p).trim -
      ((s.keep.trims.get n).getD (Vector.ofFn (fun p => s.cfg.q (2 + n.val) 34 (1 / 20) p.val))).get p)) →
    ∃ t, exec (.trimSave n) s = .next t ∧ t.keep.trims.get n = some ((s.lane n).phases.map (·.trim)) ∧
      t.keep.trimSince.get n = some s.now ∧ t.lanes = s.lanes ∧ t = { s with keep := t.keep, flash := t.flash })

/-- LANE_PERIOD_BOUNDARY touches its lane, the trim clocks, stamped events and telemetry; the limits and coefficients its frames
have brought go into force there (R110), a changed gain reloads the loops of the gang's other lanes, and lane die 0 of a stack
sends its sync pulse (R133): of another lane nothing else changes. An active lane takes the mean SYS and far-node voltage, as its
converters give them (R79), and counts the period; a stopped lane reports zero current with every leg at mid. A trim update
needs 64 periods: with no shed and no skip it changes only field phases and no trim leaves the bounds of 2 A; in a shed and in
skip the trims are frozen. Rules: R79, R82-R86, R90-R92, R110, R119, R122, R123, R133. -/
def Obligations.PeriodBoundaryTakesTheMeans : Prop :=
  (∀ (n : Lane) (m : PeriodSample) (s : State),
    ∃ t, exec (.lanePeriodBoundary n m) s = .next t ∧
      (∀ k, k ≠ n → ∃ a b, t.lane k = { s.lane k with stackLocked := a, loop := { (s.lane k).loop with reload := b } }) ∧
      (∀ k, k ≠ n → s.stack.size ≤ 1 → (∀ e ∈ (s.lane n).newSet, reloads e = false) → t.lane k = s.lane k) ∧
      t = { s with lanes := t.lanes, keep := t.keep, events := t.events, tel := t.tel, cfg := { s.cfg with inForce := t.cfg.inForce },
                   stack := { s.stack with syncPulses := t.stack.syncPulses } } ∧
      ((s.lane n).up = true → t.cfg.inForce = inForceWith s.cfg.inForce (s.lane n).newSet) ∧
      t.stack.syncPulses = s.stack.syncPulses +
        (if n = 0 ∧ 2 ≤ s.stack.size ∧ s.stack.position = 0 ∧ (s.lane 0).up = true then 1 else 0)) ∧
  (∀ (n : Lane) (m : PeriodSample) (s : State), (s.lane n).up = true → (s.lane n).active = true →
    ∃ t, exec (.lanePeriodBoundary n m) s = .next t ∧ (t.lane n).loop.sys = adcV m.sysAvg ∧ (t.lane n).loop.vinl = adcV m.vinlAvg ∧
      (t.lane n).field.periods = (s.lane n).field.periods + 1 ∧ (t.lane n).run = (s.lane n).run) ∧
  (∀ (n : Lane) (m : PeriodSample) (s : State), (s.lane n).up = true → (s.lane n).run = .stopped →
    ∃ t, exec (.lanePeriodBoundary n m) s = .next t ∧ (t.lane n).loop.iLane = 0 ∧ (∀ p, ((t.lane n).phases.get p).drive = .mid)) ∧
  (∀ (n : Lane) (s : State), (s.lane n).run = .running → 64 ≤ (s.lane n).field.sinceTrim → (s.lane n).field.shed = none →
    (s.lane n).field.skipping = false →
    ∃ t, exec (.balanceTrimUpdate n) s = .next t ∧ OnlyLane n s t ∧ (t.lane n).field.sinceTrim = 0 ∧
      (∀ p, ((s.lane n).phases.get p).st ≠ .field → (t.lane n).phases.get p = (s.lane n).phases.get p) ∧
      (∀ p, ((t.lane n).phases.get p).trim ≤ max 2 ((s.lane n).phases.get p).trim ∧
        min (-2) ((s.lane n).phases.get p).trim ≤ ((t.lane n).phases.get p).trim)) ∧
  (∀ (n : Lane) (s : State), (s.lane n).run = .running → 64 ≤ (s.lane n).field.sinceTrim →
    ((s.lane n).field.skipping = true ∨ (s.lane n).field.shed.isSome = true) →
    ∃ t, exec (.balanceTrimUpdate n) s = .next t ∧ OnlyLane n s t ∧ (t.lane n).phases = (s.lane n).phases ∧ (t.lane n).field.sinceTrim = 0)

/-- A following lane counts good sync edges, adjusts the period length it holds by at most 16 steps, locks after 64 and unlocks
on loss, the length kept; a lane that does not follow is untouched. A member takes a control frame addressed to its position with the stack's size, ignores
others; a master that sees a lower unit identity claim mastership stands back. A state frame updates one member's entry and stamps its
events with the stack link as their source. 50
ticks without a frame mark a member or the master lost (the lane dies then hold by keeper), 0.2 s from the first tick
without any control frame leave a member masterless. Rules: R134, R135, R421-R427. -/
def Obligations.StacksAndTheirTiming : Prop :=
  ((∀ (e : Int) (n : Lane) (s : State), s.follows n = true →
     ∃ t, exec (.stackSyncEdge e) s = .next t ∧ (t.lane n).syncRun = (if e.natAbs ≤ 1000 then (s.lane n).syncRun + 1 else 0) ∧
       -16 ≤ (t.lane n).periodAdj ∧ (t.lane n).periodAdj ≤ 16 ∧ (t.lane n).periodSteps = ((s.steps n : Int) + (t.lane n).periodAdj).toNat ∧
       (t.lane n).run = (s.lane n).run ∧ t = { s with lanes := t.lanes }) ∧
   (∀ (n : Lane) (s : State), s.follows n = true → 64 ≤ (s.lane n).syncRun →
     ∃ t, exec (.stackSyncLocked n) s = .next t ∧ OnlyLane n s t ∧ t.lane n = { s.lane n with stackLocked := true }) ∧
   (∀ (n : Lane) (s : State), s.follows n = true →
     ∃ t, exec .syncLoss s = .next t ∧ (t.lane n).stackLocked = false ∧ (t.lane n).syncRun = 0 ∧
       (t.lane n).periodSteps = (s.lane n).periodSteps ∧ (t.lane n).run = (s.lane n).run ∧ t = { s with lanes := t.lanes, events := t.events }) ∧
   (∀ (e : Int) (n : Lane) (s : State), s.follows n = false →
     (∃ t, exec (.stackSyncEdge e) s = .next t ∧ t.lane n = s.lane n) ∧ exec (.stackSyncLocked n) s = .next s ∧
     (∃ t, exec .syncLoss s = .next t ∧ t.lane n = s.lane n))) ∧
  ((∀ (f : StackControl) (s : State), s.hubUp = true → s.isMember = true → f.position = s.stack.position.toNat → f.position < f.size →
     ∃ u, exec (.stackControlFrame f) s = .next u ∧ u.stack.size = f.size ∧ u.stack.control = s.stack.control ++ [(s.now, f)] ∧ u.stack.lastControl = some s.now ∧
       u.stack.masterless = none ∧ u.stack.fsw0 = f.fsw0 ∧ u.lanes = s.lanes) ∧
   (∀ (f : StackControl) (s : State), s.hubUp = true → s.isMember = true → f.position = s.stack.position.toNat → f.size ≤ f.position →
     ∃ u, exec (.stackControlFrame f) s = .next u ∧ u.stack.masterless.isSome = true ∧ u.stack.control = s.stack.control ∧ u.lanes = s.lanes) ∧
   (∀ (f : StackControl) (s : State), s.hubUp = true → s.isMember = true → f.position ≠ s.stack.position.toNat → exec (.stackControlFrame f) s = .next s) ∧
   (∀ (f : StackControl) (s : State), s.hubUp = true → s.isMaster = true → f.masterUnit.toNat < s.otp.unit.toNat →
     ∃ u, exec (.stackControlFrame f) s = .next u ∧ u.stack.masterless = some 5 ∧ u.lanes = s.lanes) ∧
   (∀ (f : StackStateFrame) (p : Fin 4) (s : State), s.hubUp = true → s.isMaster = true → s.stack.masterless = none → f.position = p.val → 0 < p.val → p.val < s.stack.size →
     ∃ u, exec (.stackStateFrame f) s = .next u ∧ u.stack.members.get p = { present := true, lastSeen := s.now, lost := false, frame := some f } ∧
       (∀ q, q ≠ p → u.stack.members.get q = s.stack.members.get q) ∧ u.lanes = s.lanes ∧
       u.events = s.events ++ f.events.map (fun e => { cls := wireEvent e.cls, tick := s.now, sub := BitVec.ofNat 8 s.subTick, src := .stack f.position, item := e.item, kind := .stackEvent e })) ∧
   (∀ (p : Fin 4) (s : State), s.hubUp = true → s.isMaster = true → (s.stack.members.get p).present = true → (s.stack.members.get p).lost = false →
     (s.stack.members.get p).lastSeen + 50 ≤ s.now →
     ∃ u, exec (.stackMemberLost p) s = .next u ∧ (u.stack.members.get p).lost = true ∧ u.lanes = s.lanes) ∧
   (∀ (t : Nat) (s : State), s.hubUp = true → s.isMember = true → s.stack.lastControl = some t → s.stack.masterLost = false → t + 50 ≤ s.now →
     ∃ u, exec .masterLost s = .next u ∧ u.stack.masterLost = true ∧ u.stack.control = [] ∧
       (∀ n, s.aon.safeLatch = false → (s.lane n).up = true → (s.lane n).got = true → (s.lane n).keeper = none →
         (u.lane n).keeper = some { entry := s.now, expired := false })) ∧
   (∀ s : State, s.hubUp = true → s.isMember = true → s.stack.masterless = none → s.stack.lastControl = none → s.hub.firstTick + 20000 ≤ s.now →
     ∃ u, exec .masterlessTimeout s = .next u ∧ u.stack.masterless = some 4 ∧ u.lanes = s.lanes))

/-- ACIN inside its window becomes a qualified source and stamps the event; only that connector changes. A closing pair is closed
when its two sides have met (within 1%, or 2% where a pass pair energises), else nothing changes; a panel's pair starts the
tracking at 80% of VOC. The trip note lapses after 1 s; a lockout of ACIN or a trunk connector ends below 4 V. A sink port, ACIN
or the trunk bus below its loss threshold loses qualification and opens its input pair; above its range an open connector, or the
bus, loses qualification; between, nothing changes. A lane drawing below its loss level goes to standby, PSEN kept, current 0.
Rules: R136, R137, R142, R151, R154-R156, R256, R277, R461. -/
def Obligations.SourcesQualifyAndAreLost : Prop :=
  ((∀ (v : Volt) (s : State), (if s.panel then s.cfg.q 10 8 (1 / 2) else s.cfg.q 10 5 (1 / 2)) ≤ v → v ≤ s.cfg.q 10 6 (1 / 2) →
     (s.pdie 0).up = true → (s.pdie 0).shut = false → (s.conn acin).lastTrip = none →
     ∃ t, exec (.acinQualified v) s = .next t ∧ (t.conn acin).qualified = true ∧ (t.conn acin).v = v ∧
       (t.conn acin).vExp = (if (s.conn acin).pair = .opened then v else (s.conn acin).vExp) ∧
       t.events = s.events ++ [{ cls := .presence, tick := s.now, sub := BitVec.ofNat 8 s.subTick, src := .port 0, item := 4, kind := .qualified acin (s.conn acin).lockedOut }] ∧
       (∀ c, c ≠ acin → t.conn c = s.conn c) ∧ t.lanes = s.lanes ∧ t.nodes = s.nodes) ∧
   (∀ (c : Src) (conn vinl : Volt) (s : State), (s.conn c).pair = .closing →
     (if (s.conn c).energising = true then rabs (conn - vinl) ≤ max conn vinl / 50 else rabs (conn - vinl) ≤ conn / 100) →
     ∃ t, exec (.pairClosed c conn vinl) s = .next t ∧ (t.conn c).pair = .closed ∧ (t.conn c).v = conn ∧
       (∀ d, d ≠ c → t.conn d = s.conn d) ∧ t.lanes = s.lanes ∧
       t.events = s.events ++ [{ cls := if 5 ≤ c.val then .trunk else .presence, tick := s.now, sub := BitVec.ofNat 8 s.subTick, src := .port (dieOfSrc c), item := c.val, kind := .pairClosed c }] ∧
       (c = acin → s.panel = true → t.hub.panelVop = 8 / 10 * (s.conn acin).vExp ∧ t.hub.panelDir = -1) ∧ (c ≠ acin → t.hub = s.hub)) ∧
   (∀ (c : Src) (conn vinl : Volt) (s : State),
     (if (s.conn c).energising = true then max conn vinl / 50 < rabs (conn - vinl) else conn / 100 < rabs (conn - vinl)) →
     exec (.pairClosed c conn vinl) s = .next s) ∧
   (∀ (c : Src) (k : Nat) (s : State), (s.conn c).lastTrip = some k → s.passed k 100000 = true →
     ∃ t, exec (.requalifyAfterTrip c) s = .next t ∧ t = s.modConn c (fun k => { k with lastTrip := none })) ∧
   (∀ (c : Src) (v : Volt) (s : State), 4 ≤ c.val → v < 4 → (s.conn c).lockedOut = true →
     ∃ t, exec (.lockoutEndLowVoltage c v) s = .next t ∧ (t.conn c).lockedOut = false ∧ (t.conn c).trips = [] ∧
       (t.conn c).pair = (s.conn c).pair ∧ t = { s with conns := t.conns } ∧ (∀ d, d ≠ c → t.conn d = s.conn d)) ∧
   (∀ (c : Src) (v : Volt) (s : State), (c.val < 4 ∨ 4 ≤ v) → exec (.lockoutEndLowVoltage c v) s = .next s)) ∧
  ((∀ (p : Port) (v : Volt) (s : State), v < s.vLost (portSrc p) → (s.pdie (dieOfSrc (portSrc p))).up = true → (s.port p).attach = .sink →
     ((s.conn (portSrc p)).qualified = true ∨ (s.conn (portSrc p)).pair ≠ .opened ∨ (s.port p).hrActive = true) →
     ∃ t, exec (.sourceLost (portSrc p) v) s = .next t ∧ (t.conn (portSrc p)).pair = .opened ∧ (t.conn (portSrc p)).qualified = false ∧
       (t.port p).hrActive = false ∧ (t.port p).transition = false ∧ (t.port p).attach = .sink ∧
       ((s.port p).hrActive = true → (t.conn (portSrc p)).vExp = 5) ∧
       (∀ d, d ≠ portSrc p → t.conn d = s.conn d) ∧ t.lanes = s.lanes) ∧
   (∀ (v : Volt) (s : State), v < s.vLost acin → (s.pdie 0).up = true → ((s.conn acin).qualified = true ∨ (s.conn acin).pair ≠ .opened) →
     ∃ t, exec (.sourceLost acin v) s = .next t ∧ (t.conn acin).pair = .opened ∧ (t.conn acin).qualified = false ∧ (t.conn acin).v = v ∧
       (∀ d, d ≠ acin → t.conn d = s.conn d) ∧ t.lanes = s.lanes) ∧
   (∀ (k : TrunkPort) (v : Volt) (s : State), (v < s.vLost (trunkSrc k) ∨ 63 < v ∧ s.vLost (trunkSrc k) ≤ v) → (s.pdie 1).up = true →
     (s.trunkIx = none ∨ s.trunkIx = some (trunkSrc k)) → s.trunk.busQualified = true →
     ∃ t, exec (.sourceLost (trunkSrc k) v) s = .next t ∧ t.trunk.busQualified = false ∧ t.conns = s.conns ∧ t.lanes = s.lanes) ∧
   (∀ (c : Src) (v : Volt) (s : State), s.vLost c ≤ v → c.val < 5 → (s.pdie (dieOfSrc c)).up = true → (s.conn c).qualified = true →
     (s.conn c).pair = .opened → s.vTop c < v →
     ∃ t, exec (.sourceLost c v) s = .next t ∧ (t.conn c).qualified = false ∧ (t.conn c).v = v ∧ (∀ d, d ≠ c → t.conn d = s.conn d) ∧ t.lanes = s.lanes) ∧
   (∀ (c : Src) (v : Volt) (s : State), s.vLost c ≤ v → (if c.val < 5 then v ≤ s.vTop c else v ≤ 63) → exec (.sourceLost c v) s = .next s) ∧
   (∀ (n : Lane) (v : Volt) (s : State), (s.lane n).active = true → (s.lane n).order.dir = .draw → v < (s.lane n).order.vLost →
     ∃ t, exec (.farNodeLost n v) s = .next t ∧ OnlyLane n s t ∧ (t.lane n).run = .standby ∧ (t.lane n).psen = true ∧ (t.lane n).loop.iCmd = 0))

/-- A trip opens the pair, ends qualification and candidacy, stamps the event and the time, and locks the connector out on the
third trip within 60 s; other connectors, lanes and the hub are unchanged. A second protection that fires with it only stamps its
event. Over-voltage, reverse, over-current and short thresholds are as stated; a pass pair that is neutral has no reverse
threshold and counts both directions. A sag limit is 95% of the mean and probes upward by 5% each 10 s until it is past what
else limits the source. A panel perturbation reverses when power fell and stays within 55-95% of open-circuit voltage; a scan that
is due takes the best of nine points. Rules: R145-R147, R151-R155, R160, R257. -/
def Obligations.ProtectionAndSagLimits : Prop :=
  ((∀ (c : Src) (p : Protection) (v : Volt) (i mean : Amp) (s : State), (s.pdie (dieOfSrc c)).up = true → s.trips c p v i mean = true →
     (s.conn c).tripOpen = false →
     ∃ t, exec (.protectionTrip c p v ⟨i, mean⟩) s = .next t ∧ (t.conn c).pair = .opened ∧ (t.conn c).qualified = false ∧
       (t.conn c).lastTrip = some s.now ∧ (c.val < 5 → t.candidate c = false) ∧
       ((t.conn c).lockedOut = true ↔ (s.conn c).lockedOut = true ∨
         2 ≤ ((s.conn c).trips.filter (fun k => !s.passed k 6000000)).length) ∧
       (∃ b, t.events = s.events ++ [{ cls := .protection, tick := s.now, sub := BitVec.ofNat 8 s.subTick, src := .port (dieOfSrc c), item := c.val, kind := .trip c p v i true b }]) ∧
       (∀ d, d ≠ c → t.conn d = s.conn d) ∧ t.lanes = s.lanes ∧ t.hub = s.hub) ∧
   (∀ (c : Src) (p : Protection) (v : Volt) (i mean : Amp) (s : State), (s.pdie (dieOfSrc c)).up = true → s.trips c p v i mean = true →
     (s.conn c).tripOpen = true →
     ∃ t, exec (.protectionTrip c p v ⟨i, mean⟩) s = .next t ∧ t.conns = s.conns ∧ t.lanes = s.lanes ∧
       t.events = s.events ++ [{ cls := .protection, tick := s.now, sub := BitVec.ofNat 8 s.subTick, src := .port (dieOfSrc c), item := c.val, kind := .trip c p v i false false }]) ∧
   (∀ (c : Src) (v : Volt) (i mean : Amp) (s : State), (s.conn c).pair ≠ .opened → s.vOv c < v → s.trips c .overVoltage v i mean = true) ∧
   (∀ (v : Volt) (i mean : Amp) (s : State), (s.conn acin).pair = .closed →
     (s.trips acin .reverse v i mean = true ↔ i < -(1 / 2)) ∧ (s.trips acin .overCurrent v i mean = true ↔ 5 / 4 * s.iHard acin < i) ∧
     (s.trips acin .short v i mean = true ↔ 3 * s.iHard acin < i)) ∧
   (∀ (k : TrunkPort) (v : Volt) (i mean : Amp) (s : State), (s.conn (trunkSrc k)).pair = .closed → -1 ≤ mean → mean ≤ 1 →
     s.trips (trunkSrc k) .reverse v i mean = false ∧
     (s.trips (trunkSrc k) .overCurrent v i mean = true ↔ 5 / 4 * s.iHard (trunkSrc k) < rabs i) ∧
     (s.trips (trunkSrc k) .short v i mean = true ↔ 3 * s.iHard (trunkSrc k) < rabs i))) ∧
  ((∀ (c : Src) (n : Lane) (i : Amp) (k : Nat) (s : State), s.hubUp = true → c.val < 5 → (c = acin → s.panel = false) → s.cfg.nodeOf c = some n →
     (s.node n).selected = some c → (s.lane n).active = true → (s.lane n).loop.sagSince = some k → s.passed k 100000 = true →
     ∃ t, exec (.sagLimitLearned c i) s = .next t ∧ (t.conn c).iLearn = some (95 / 100 * i) ∧ (t.conn c).learnSince = s.now ∧
       t.events = s.events ++ [{ cls := .presence, tick := s.now, sub := BitVec.ofNat 8 s.subTick, src := .hubPeripheral, item := c.val, kind := .sag c }] ∧
       (∀ d, d ≠ c → t.conn d = s.conn d) ∧ t.lanes = s.lanes) ∧
   (∀ (c : Src) (i : Amp) (s : State), s.hubUp = true → (s.conn c).iLearn = some i → s.passed (s.conn c).learnSince 1000000 = true →
     ∃ t, exec (.sagProbe c) s = .next t ∧ t = s.modConn c (fun k => { k with
       iLearn := if s.iTerms c ≤ i + s.iTerms c * (5 / 100) then none else some (i + s.iTerms c * (5 / 100)), learnSince := s.now })) ∧
   (∀ (p : Watt) (s : State), s.hubUp = true → s.panelDraws = true →
     ∃ t, exec (.panelTrack true p) s = .next t ∧ t = { s with hub := t.hub } ∧ t.hub.panelMean = some p ∧ t.hub.panelLast = p ∧
       t.hub.panelDir = (if p < s.hub.panelLast then -s.hub.panelDir else s.hub.panelDir) ∧
       (0 ≤ s.hub.panelVoc → 55 / 100 * s.hub.panelVoc ≤ t.hub.panelVop ∧ t.hub.panelVop ≤ 95 / 100 * s.hub.panelVoc)) ∧
   (∀ (p : Watt) (s : State), s.hubUp = true → s.panelDraws = true →
     ∃ t, exec (.panelTrack false p) s = .next t ∧ t = { s with hub := { s.hub with panelMean := some p } }) ∧
   (∀ (w : Vector Watt 9) (s : State), s.hubUp = true → s.panelDraws = true →
     ((∃ k, s.hub.panelOnce = some k ∧ s.passed k 100000 = true) ∨
       ((s.cfg.get 10 11).toNat ≠ 0 ∧ s.hub.panelSeen = true ∧ s.passed s.hub.panelScanAt (6000000 * (s.cfg.get 10 11).toNat) = true)) →
     ∃ (t : State) (b : Fin 9), exec (.panelScan w) s = .next t ∧ t = { s with hub := t.hub } ∧
       (∀ j, w.get j ≤ w.get b) ∧ t.hub.panelVop = (95 / 100 - b.val * (5 / 100)) * s.hub.panelVoc ∧ t.hub.panelLast = w.get b ∧
       t.hub.panelMean = some (w.get b) ∧ t.hub.panelOnce = none ∧ t.hub.panelScanAt = s.now))

/-- After 500 ms the best challenger that still challenges replaces the selected source with a zero allocation. A draining node
at its target puts its lanes in standby, or stops them when no source follows; a node still draining after 10 ms loses its
selection and sends its lanes to standby without an allocation. No pair changes by these commands. Rules: R140-R142, R160, R177. -/
def Obligations.FarNodesChangeTheirSource : Prop :=
  (∀ (n : Lane) (inc ch : Src) (s : State), s.hubUp = true → (s.node n).selected = some inc → s.heldCandidate inc = true →
    s.bestOf n (((s.node n).challengers.filter (fun x => s.passed x.2 50000 && s.heldCandidate x.1 && s.challenges n x.1 inc)).map (·.1)) = some ch →
    ∃ t, exec (.swapHoldExpiry n ch) s = .next t ∧ (t.node n).selected = some ch ∧ (t.node n).allocW = 0 ∧ (t.node n).challengers = [] ∧
      (∀ m, m ≠ n → t.node m = s.node m) ∧ t.conns = s.conns) ∧
  (∀ (n : Lane) (c : Src) (v : Volt) (s : State), (s.node n).change = some (c, .draining) → v ≤ max ((s.conn c).v - 1 / 2) (9 / 2) →
    ∃ t, exec (.farNodeDrainDone n v) s = .next t ∧ (t.node n).change = some (c, .standby) ∧ (∀ m ∈ s.cfg.gang n, (t.lane m).run = .standby) ∧
      t.conns = s.conns) ∧
  (∀ (n : Lane) (v : Volt) (s : State), (∀ c, (s.node n).change ≠ some (c, .draining)) → (s.node n).drain = true → v ≤ 9 / 2 →
    ∃ t, exec (.farNodeDrainDone n v) s = .next t ∧ (t.node n).drain = false ∧ (∀ m ∈ s.cfg.gang n, (t.lane m).run = .stopped) ∧ t.conns = s.conns) ∧
  (∀ (n : Lane) (c : Src) (s : State), s.hubUp = true → (s.node n).change = some (c, .draining) → s.passed (s.node n).openedAt 1000 = true →
    ∃ t, exec (.drainTimeout n) s = .next t ∧ (t.node n).selected = none ∧ (t.node n).change = none ∧ t.conns = s.conns ∧
      (∀ m ∈ s.cfg.gang n, ∃ f ∈ (t.lane m).frames, f.go = .standby ∧ f.eff = s.effTick ∧ f.order.alloc = 0) ∧
      (∀ m, m ≠ n → t.node m = s.node m))

/-- Rp on an unattached Rd port makes it a sink with 5 V expected and no contract; Rd on an Rp port makes it a source unless
Try.SNK applies, and the try ends in source where the far node is free; Ra on both pins is audio where AUDIO_EN allows it, else,
like Rd and Rp together, unsupported. Detach returns the port to unattached and opens its pair; without Rp's absence it needs VBUS
below vSinkDisconnect, no swap and no Hard Reset of the last 1.3 s. DRP toggles only its port; Rp is presented only when the far
node is free and the keeper's hold is not over. Error recovery ends unattached with counts cleared. VBUS inside its window
qualifies the connector and stamps it; a BC 1.2 result and the expiry of the cable retry, at most 20 times, are stamped for the hub;
VCONN above 0.2 A is cut off. Rules: R162, R163, R165-R170, R178, R180, R189, R461. -/
def Obligations.PortsAttachRecoverAndQualify : Prop :=
  ((∀ (p : Port) (level : Rp) (cc2 : Bool) (s : State), (s.port p).attach = .unattached → (s.pdie (portDie p)).up = true → (s.port p).cc = .rd →
     ∃ t, exec (.ccAttach p (.rp level cc2)) s = .next t ∧ (t.port p).attach = .sink ∧ (t.port p).rpSeen = level ∧ (t.port p).cc2 = cc2 ∧
       (t.port p).contract = .zero ∧ (t.conn (portSrc p)).vExp = 5 ∧ (t.conn (portSrc p)).qualified = false ∧
       (∀ q, q ≠ p → (t.port q).attach = (s.port q).attach)) ∧
   (∀ (p : Port) (cc2 : Bool) (s : State), (s.port p).attach = .unattached → (s.pdie (portDie p)).up = true → (s.port p).cc = .rp →
     (s.port p).tryWait = false → ¬ (s.portGet p 4 = 2 ∧ s.portOn p 5 = true) →
     ∃ t, exec (.ccAttach p (.rd cc2)) s = .next t ∧ (t.port p).attach = .source ∧ (t.port p).dfp = true ∧
       (t.port p).vconn = (s.pdie (portDie p)).vconnSupply ∧ (∀ q, q ≠ p → (t.port q).attach = (s.port q).attach)) ∧
   (∀ (p : Port) (cc2 : Bool) (s : State), (s.port p).attach = .unattached → (s.pdie (portDie p)).up = true → (s.port p).cc = .rp →
     (s.port p).tryWait = false → s.portGet p 4 = 2 → s.portOn p 5 = true →
     ∃ t, exec (.ccAttach p (.rd cc2)) s = .next t ∧ t = s.modPort p (fun q => { q with cc := .rd, tryWait := true, cc2 := cc2 })) ∧
   (∀ (p : Port) (s : State), (s.port p).attach = .unattached → (s.pdie (portDie p)).up = true → (s.port p).cc = .rp →
     ∃ t, exec (.ccAttach p .raBoth) s = .next t ∧ (t.port p).attach = (if s.portOn p 16 = true then .audio else .unsupported) ∧
       (∀ q, q ≠ p → t.port q = s.port q)) ∧
   (∀ (p : Port) (s : State), (s.port p).attach = .unattached → (s.pdie (portDie p)).up = true →
     ∃ t, exec (.ccAttach p .both) s = .next t ∧ (t.port p).attach = .unsupported ∧ (∀ q, q ≠ p → t.port q = s.port q)) ∧
   (∀ (p : Port) (s : State), (s.port p).attach = .unattached → (s.port p).tryWait = true →
     ∃ t, exec (.trySnkTimeout p) s = .next t ∧ (s.nodeFree p = true → (t.port p).attach = .source) ∧
       (s.nodeFree p = false → t = s.modPort p (fun q => { q with cc := .rd, tryWait := false }))) ∧
   (∀ (p : Port) (rpAbsent : Bool) (v : Volt) (s : State),
     ((s.port p).attach = .sink ∨ (s.port p).attach = .frsWatch ∨ (s.port p).attach = .unsupported) →
     (rpAbsent = true ∨ (s.port p).swap = none ∧ v < 362 / 100 ∧ ∀ k, (s.port p).hrAt = some k → s.passed k 130000 = true) →
     ∃ t, exec (.sinkDetach p ⟨rpAbsent, v⟩) s = .next t ∧ (t.port p).attach = .unattached ∧ (t.port p).contract = .zero ∧
       (t.conn (portSrc p)).pair = .opened ∧ (t.conn (portSrc p)).qualified = false) ∧
   (∀ (p : Port) (v : Volt) (s : State), ((s.port p).swap.isSome = true ∨ 362 / 100 ≤ v) → exec (.sinkDetach p ⟨false, v⟩) s = .next s) ∧
   (∀ (p : Port) (s : State), ((s.port p).attach = .source ∨ (s.port p).attach = .audio ∨ (s.port p).attach = .unsupported) →
     ∃ t, exec (.sourceDetach p) s = .next t ∧ (t.port p).attach = .unattached ∧ (t.port p).feeding = false ∧
       (t.conn (portSrc p)).pair = .opened ∧ (t.conn (portSrc p)).qualified = false) ∧
   (∀ (p : Port) (s : State), (s.port p).attach = .unattached → s.portGet p 4 = 2 → (s.port p).tryWait = false → (s.pdie (portDie p)).up = true →
     ∃ t, exec (.drpToggle p) s = .next t ∧ (∀ q, q ≠ p → t.port q = s.port q) ∧ ((s.port p).cc = .rp → (t.port p).cc = .rd) ∧
       ((s.port p).cc ≠ .rp → (s.port p).deadRd = false → s.nodeFree p = true → (s.pdie (portDie p)).keeper.any (·.expired) = false → (t.port p).cc = .rp) ∧
       t = { s with ports := t.ports })) ∧
  ((∀ (p : Port) (s : State), (s.port p).attach = .recovery →
     ∃ t, exec (.errorRecoveryEnd p) s = .next t ∧ (t.port p).attach = .unattached ∧ (t.port p).contract = .zero ∧ (t.port p).hardResets = 0 ∧
       t = { s with ports := t.ports, cfg := s.cfg.release (6 + p.val) .nextAttach }) ∧
   (∀ (p : Port) (v : Volt) (u s : State), (s.port p).attach = .sink →
     u = (if (s.port p).hrActive = true then s.modConn (portSrc p) (fun k => { k with vExp := 5, vOld := none }) else s) →
     u.vLost (portSrc p) ≤ v → v ≤ u.vOv (portSrc p) →
     ((s.port p).hrActive = true → ∀ k, (s.port p).hrAt = some k → s.passed k 130000 = true) →
     (s.conn (portSrc p)).lastTrip = none →
     ∃ t, exec (.sinkVbusQualified p v) s = .next t ∧ (t.conn (portSrc p)).qualified = true ∧ (t.conn (portSrc p)).v = v ∧
       (t.conn (portSrc p)).vExp = (u.conn (portSrc p)).vExp ∧
       (t.port p).attach = .sink ∧ (t.port p).hrActive = false ∧ (∀ d, d ≠ portSrc p → t.conn d = s.conn d) ∧
       t.events = s.events ++ [{ cls := .presence, tick := s.now, sub := BitVec.ofNat 8 s.subTick, src := .port (portDie p), item := p.val, kind := .qualified (portSrc p) (s.conn (portSrc p)).lockedOut }]) ∧
   (∀ (p : Port) (r : Bc12) (s : State), (s.port p).bcRunning = true → s.hubUp = true →
     ∃ t, exec (.bc12DetectionDone p r) s = .next t ∧ t = { s with events := t.events } ∧
       t.events = s.events ++ [{ cls := .pd, tick := s.now, sub := BitVec.ofNat 8 s.subTick, src := .port (portDie p), item := p.val, kind := .bcDone p r }]) ∧
   (∀ (p : Port) (i : Amp) (s : State), (s.port p).vconn = true → 2 / 10 < i →
     ∃ t, exec (.vconnLimit p i) s = .next t ∧ (t.port p).vconn = false ∧ (t.port p).vconnTripped = true ∧ (t.port p).attach = (s.port p).attach ∧
       t.conns = s.conns ∧ (if (s.port p).vconnTripped = true then t.events = s.events else t.events = s.events ++
         [{ cls := .protection, tick := s.now, sub := BitVec.ofNat 8 s.subTick, src := .port (portDie p), item := p.val, kind := .vconnLimit p }])) ∧
   (∀ (p : Port) (s : State), s.answers p = true → (s.port p).attach = .source → (s.port p).vconn = true → (s.port p).cableKnown = false →
     (s.port p).cableTries < 20 →
     ∃ t, exec (.cableDiscoverRetry p) s = .next t ∧ t = { s with events := t.events } ∧
       t.events = s.events ++ [{ cls := .pd, tick := s.now, sub := BitVec.ofNat 8 s.subTick, src := .port (portDie p), item := p.val, kind := .pdTimer p .cableRetry }]) ∧
   (∀ (p : Port) (s : State), 20 ≤ (s.port p).cableTries → exec (.cableDiscoverRetry p) s = .next s))

/-- A message with a bad CRC is counted and nothing else; a good one is stamped for the hub, and while the hub is absent a source
answers EPR keep-alives and a Soft_Reset or Hard_Reset ends the contract. Source_Capabilities and a Request are stamped; PPS
requests repeat and EPR keep-alives are sent by the port die. The decision that uses the event acts: Source_Capabilities are
answered with a Request of the best-ranked object; Accept of a Request moves the expected voltage and waits for PS_RDY; a
feeding port accepts a Request within the object's limit and notes the transition, above it rejects and stays as it is; TMODE is
entered; capabilities are resent up to 50 times; the transition moves the lane's target at 20 V/ms; reaching the target the first
time sends Source_Capabilities; an EPR entry that times out is not retried. Discharge ends below 0.8 V.
Rules: R13, R161, R170-R175, R177, R179, R190, R191, R461. -/
def Obligations.PdMessagesAndSourcePorts : Prop :=
  (let pd := fun (p : Port) (k : EvKind) (s t : State) => t.events = s.events ++ [{ cls := .pd, tick := s.now, sub := BitVec.ofNat 8 s.subTick, src := .port (portDie p), item := p.val, kind := k }]
   (∀ (p : Port) (m : PdRx) (s : State), s.listens p = true → m.crcOk = false →
     ∃ t, exec (.pdMessageReceived p m) s = .next t ∧ t = s.modPd (portDie p) (fun d => { d with pdCrc := satInc 32 d.pdCrc })) ∧
   (∀ (p : Port) (m : PdRx) (s : State), s.listens p = true → m.crcOk = true → s.answers p = true →
     ∃ t, exec (.pdMessageReceived p m) s = .next t ∧ pd p (.pdMessage p m.msg) s t ∧ t = { s.heardFrom p m.rev2 with events := t.events }) ∧
   (∀ (p : Port) (m : PdRx) (s : State), s.listens p = true → m.crcOk = true → s.answers p = false →
     ∃ t, exec (.pdMessageReceived p m) s = .next t ∧ ((m.msg = .softReset ∨ m.msg = .hardReset) → (t.port p).contract = .zero) ∧
       (m.msg = .eprKeepAlive → (s.port p).attach = .source → t.pdOut = { port := p, msg := .eprKeepAliveAck } :: s.pdOut)) ∧
   (∀ (p : Port) (r : Bool) (c : SourceCaps) (s : State), s.listens p = true → s.answers p = true →
     ∃ t, exec (.sourceCapabilitiesReceived p ⟨r, c⟩) s = .next t ∧ pd p (.pdMessage p (.sourceCaps c)) s t ∧
       t = { s.heardFrom p r with events := t.events }) ∧
   (∀ (p : Port) (r : Bool) (k : Nat) (v : Volt) (i : Amp) (s : State), s.listens p = true → s.answers p = true →
     ∃ t, exec (.requestReceived p ⟨r, k⟩ v i) s = .next t ∧ pd p (.pdMessage p (.request k v i)) s t ∧
       t = { s.heardFrom p r with events := t.events }) ∧
   (∀ (p : Port) (v : Volt) (i : Amp) (k : Nat) (x : ContractKind) (s : State), s.answers p = true → (s.port p).wait = .request v i k x →
     v ≠ (s.conn (portSrc p)).vExp →
     ∃ t, exec (.voltageTransitionAccept p) s = .next t ∧ pd p (.pdMessage p .accept) s t ∧ t = { s.heardFrom p false with events := t.events }) ∧
   (∀ (p : Port) (s : State), s.answers p = true → ((s.port p).attach = .sink ∨ (s.port p).attach = .source) →
     (s.port p).contract.kind ≠ .none → (s.port p).tmode = false → s.modeAllowed p = true →
     ∃ t, exec (.vendorModeEntry p) s = .next t ∧ pd p (.modeEntry p) s t ∧ t = { s with events := t.events } ∧ ((s.modeEnter p).port p).tmode = true) ∧
   (∀ (p : Port) (k : Nat) (v : Volt) (i : Amp) (s : State), ((s.port p).attach = .sink ∨ (s.port p).attach = .frsWatch) →
     ((s.port p).contract.kind = .pps ∨ (s.port p).contract.kind = .avs) → (s.port p).lastReq = some (k, v, i) →
     ∃ t, exec (.ppsRequestRepeat p) s = .next t ∧ t.pdOut = { port := p, msg := .request k v i } :: s.pdOut ∧ t.conns = s.conns) ∧
   (∀ (p : Port) (s : State), ((s.port p).attach = .sink ∨ (s.port p).attach = .frsWatch) → (s.port p).epr = true →
     ∃ t, exec (.eprKeepalive p) s = .next t ∧ t.pdOut = { port := p, msg := .eprKeepAlive } :: s.pdOut ∧ t.conns = s.conns) ∧
   (∀ (p : Port) (s : State), s.answers p = true → (s.port p).wait = .eprEntry →
     ∃ t, exec (.eprEntryTimeout p) s = .next t ∧ pd p (.pdTimer p .eprEntry) s t ∧ t = { s with events := t.events } ∧
       s.onTimer p .eprEntry = s.modPort p (fun q => { q with wait := .idle, epr := false, eprTried := true })) ∧
   (∀ (p : Port) (s : State), s.answers p = true → (s.port p).attach = .source → (s.port p).wait = .caps → 0 < (s.port p).capsCount →
     (s.port p).capsCount < 50 →
     ∃ t, exec (.sourceCapResend p) s = .next t ∧ pd p (.pdTimer p .capResend) s t ∧ t = { s with events := t.events }) ∧
   (∀ (p : Port) (s : State), 50 ≤ (s.port p).capsCount → exec (.sourceCapResend p) s = .next s) ∧
   (∀ (p : Port) (s : State), s.answers p = true → (s.port p).feeding = true → (s.port p).transition = true → (s.port p).lastReq.isSome = true →
     ∃ t, exec (.sourceTransitionStart p) s = .next t ∧ pd p (.pdTimer p .srcTransition) s t ∧ t = { s with events := t.events }) ∧
   (∀ (p : Port) (v : Volt) (s : State), s.hubUp = true → (s.port p).feeding = true →
     rabs (v - (s.port p).feedTarget) ≤ 2 / 100 * (s.port p).feedTarget →
     ∃ t, exec (.feedTargetReached p v) s = .next t ∧ pd p (.feedReached p) s t ∧ t = { s with events := t.events }) ∧
   (∀ (p : Port) (v : Volt) (s : State), (s.port p).disch = true → v < 8 / 10 →
     ∃ t, exec (.vbusDischargeDone p v) s = .next t ∧ (t.port p) = { s.port p with disch := false } ∧ t = { s with ports := t.ports, events := t.events } ∧
       ((s.port p).swap = none → t.events = s.events))) ∧
  ((∀ (p : Port) (m : PdMsg) (e : Event) (s : State), e.kind = .pdMessage p m → s.useEvent e = (s.pdPolicy p m).offerSink p) ∧
   (∀ (p : Port) (x : PdTimer) (e : Event) (s : State), e.kind = .pdTimer p x → s.useEvent e = s.onTimer p x) ∧
   (∀ (p : Port) (c : SourceCaps) (b : Ranked) (s : State), ((s.port p).attach = .sink ∨ (s.port p).attach = .frsWatch) →
     bestRanked (rankObjects (s.snkVmax p) (min (s.cfg.q (6 + p.val) 1 (1 / 20))
       (cableTerm { s.port p with caps := some c, cable5 := (s.port p).cable5 || showsFiveAmp (s.snkVmax p) c.pdos })) (s.port p).rev2 c.pdos) = some b →
     let t := s.pdPolicy p (.sourceCaps c)
     Sends p (.request b.pos b.v b.i) s t ∧ (t.port p).caps = some c ∧ (t.port p).lastReq = some (b.pos, b.v, b.i) ∧
       (t.port p).wait = .request b.v b.i b.pos b.kind ∧ t.conns = s.conns ∧ t.lanes = s.lanes) ∧
   (∀ (p : Port) (v : Volt) (i : Amp) (k : Nat) (x : ContractKind) (s : State), (s.port p).wait = .request v i k x → v ≠ (s.conn (portSrc p)).vExp →
     let t := s.pdPolicy p .accept
     (t.conn (portSrc p)).vExp = v ∧ (t.conn (portSrc p)).vOld = some (s.conn (portSrc p)).vExp ∧ (t.port p).transition = true ∧ (t.port p).wait = .psRdy) ∧
   (∀ (p : Port) (k : Nat) (v : Volt) (i lim : Amp) (o : Pdo) (s : State), (s.port p).attach = .source → (s.port p).feeding = true →
     k ≠ 0 → (s.offers p)[k - 1]? = some o → pdoLimit o v = some lim →
     let t := s.pdPolicy p (.request k v i)
     (i ≤ lim → Sends p .accept s t ∧ (t.port p).transition = true ∧ (t.port p).lastReq = some (k, pdoVolt o v, i) ∧ (t.conn (portSrc p)).vExp = pdoVolt o v) ∧
     (lim < i → Sends p .reject s t ∧ t.port p = s.port p ∧ t.conns = s.conns)) ∧
   (∀ (p : Port) (s : State), (s.port p).attach = .source → (s.port p).wait = .caps → 0 < (s.port p).capsCount → (s.port p).capsCount < 50 →
     s.canFeed p = true →
     let t := s.onTimer p .capResend
     ∃ c, Sends p (.sourceCaps c) s t ∧ c.pdos = s.offers p ∧ (t.port p).capsCount = (s.port p).capsCount + 1) ∧
   (∀ (p : Port) (k : Nat) (v : Volt) (i : Amp) (n : Lane) (s : State), (s.port p).feeding = true → (s.port p).transition = true →
     (s.port p).lastReq = some (k, v, i) → s.portNode p = some n →
     let t := s.onTimer p .srcTransition
     ∃ o, t.port p = { s.port p with feedTarget := v, feedReady := false } ∧ (t.node n).sent = some o ∧ o.target = v ∧ o.slew = 20 ∧ t.conns = s.conns) ∧
   (∀ (p : Port) (s : State), (s.port p).feeding = true → (s.port p).swap = none → (s.port p).transition = false →
     (s.port p).contract.kind = .none → (s.port p).wait = .idle → s.canFeed p = true →
     let t := s.onFeedReached p
     ∃ c, Sends p (.sourceCaps c) s t ∧ (t.port p).feedReady = true ∧ (t.port p).wait = .caps))

/-- The expiry of a PD timer that runs is stamped for the hub: no capabilities, no response, an EPR watch, a transition or swap
without PS_RDY, a missing reply, a message sent three times without GoodCRC. In the decision that uses it, no capabilities, no
response, an unanswered soft reset, a PS transition timeout and an EPR watch send a Hard Reset while at most two were sent, else
start error recovery; an unanswered request sends a soft reset; a swap whose partner never sources, or never lets go, recovers. A
received Hard Reset is stamped; with the hub absent the port die clears the contract by itself, and in both cases the decision or
the die leaves the attach-time role without a count. A source resumes 5 V after 830 ms and not before, by itself while the hub is
absent. FRS signalling sends FR_Swap; VBUS below 4.72 V is stamped; the end of the signal opens the pair and discharges. Rules:
R179-R182, R184-R187, R191, R461. -/
def Obligations.PdTimeoutsAndHardResets : Prop :=
  (let fires := fun (p : Port) (k : EvKind) (c : Instr) (s : State) => ∃ t, exec c s = .next t ∧ t = { s with events := t.events } ∧
     t.events = s.events ++ [{ cls := .pd, tick := s.now, sub := BitVec.ofNat 8 s.subTick, src := .port (portDie p), item := p.val, kind := k }]
   let up := fun (p : Port) (s t : State) => (t.port p).hardResets = (s.port p).hardResets + 1 ∧ (t.port p).hrActive = true ∧
     (t.port p).contract = .zero ∧ Sends p .hardReset s t
   let out := fun (p : Port) (s t : State) => (t.port p).attach = .recovery ∧ (t.port p).cc = .openPin ∧ (t.port p).hardResets = 0 ∧
     (t.conn (portSrc p)).pair = .opened ∧ t.pdOut = s.pdOut
   let esc := fun (p : Port) (s t : State) => ((s.port p).hardResets ≤ 2 → up p s t) ∧ (2 < (s.port p).hardResets → out p s t)
   (∀ (p : Port) (s : State), s.answers p = true → (s.port p).attach = .sink → (s.port p).wait = .sourceCaps →
     fires p (.pdTimer p .waitCap) (.sinkWaitCapTimeout p) s ∧ esc p s (s.onTimer p .waitCap)) ∧
   (∀ (p : Port) (s : State), s.answers p = true → (s.port p).attach = .source → (s.port p).wait = .caps → (s.port p).capsCount ≠ 0 →
     fires p (.pdTimer p .noResponse) (.noResponseTimeout p) s ∧ esc p s (s.onTimer p .noResponse)) ∧
   (∀ (p : Port) (s : State), s.answers p = true → (s.port p).wait = .psRdy → (s.port p).swap = none →
     fires p (.pdTimer p (.transition .psTransition)) (.psTransitionTimeout p .psTransition) s ∧ esc p s (s.onTimer p (.transition .psTransition))) ∧
   (∀ (p : Port) (w : Swap) (x : PsTimer) (s : State), s.answers p = true → (s.port p).wait = .psRdy → (s.port p).swap = some w →
     x = (if w.toSource = true then .psSourceOff else .psSourceOn) →
     fires p (.pdTimer p (.transition x)) (.psTransitionTimeout p x) s ∧ out p s (s.onTimer p (.transition x))) ∧
   (∀ (p : Port) (s : State), s.answers p = true → (s.port p).attach = .source → (s.port p).epr = true →
     fires p (.pdTimer p .eprWatch) (.eprKeepaliveWatchExpiry p) s ∧ esc p s (s.onTimer p .eprWatch)) ∧
   (∀ (p : Port) (v : Volt) (i : Amp) (k : Nat) (x : ContractKind) (s : State), s.answers p = true → (s.port p).wait = .request v i k x →
     fires p (.pdTimer p .response) (.pdResponseTimeout ⟨p, false⟩) s ∧
       (let t := s.onTimer p .response; Sends p .softReset s t ∧ (t.port p).wait = .softReset)) ∧
   (∀ (p : Port) (s : State), s.answers p = true → (s.port p).wait = .softReset →
     fires p (.pdTimer p .response) (.pdResponseTimeout ⟨p, false⟩) s ∧ esc p s (s.onTimer p .response)) ∧
   (∀ (p : Port) (m : PdMsg) (s : State), (s.port p).lastTx = some m → (s.port p).retries < 2 →
     ∃ t, exec (.pdResponseTimeout ⟨p, true⟩) s = .next t ∧ t.pdOut = { port := p, msg := m } :: s.pdOut ∧
       (t.port p).retries = (s.port p).retries + 1 ∧ t.conns = s.conns ∧ t.events = s.events) ∧
   (∀ (p : Port) (m : PdMsg) (s : State), (s.port p).lastTx = some m → 2 ≤ (s.port p).retries → s.answers p = true → (s.port p).wait ≠ .caps →
     ((s.port p).attach = .sink ∨ (s.port p).attach = .source ∨ (s.port p).attach = .frsWatch) →
     ∃ t, exec (.pdResponseTimeout ⟨p, true⟩) s = .next t ∧ t.pdOut = s.pdOut ∧ (t.port p).lastTx = none ∧
       t.events = s.events ++ [{ cls := .pd, tick := s.now, sub := BitVec.ofNat 8 s.subTick, src := .port (portDie p), item := p.val, kind := .pdTimer p .unacked }])) ∧
  ((∀ (p : Port) (s : State), ((s.port p).attach = .sink ∨ (s.port p).attach = .source ∨ (s.port p).attach = .frsWatch) →
     ∃ t, exec (.hardResetReceived p) s = .next t ∧ t.pdOut = s.pdOut ∧
       (s.answers p = true → t = s.stamp .pd (.port (portDie p)) p.val (.pdMessage p .hardReset)) ∧
       (∀ u, (u = t ∧ s.answers p = false ∨ u = s.pdPolicy p .hardReset) →
         (u.port p).attach = (if (s.port p).attachRole = .source then .source else .sink) ∧
         (u.port p).contract = .zero ∧ (u.port p).hrActive = true ∧ (u.port p).hrAt = some s.now ∧
         (u.port p).hardResets = (s.port p).hardResets ∧ (u.conn (portSrc p)).qualified = false)) ∧
   (∀ (p : Port) (s : State), s.answers p = true → (s.port p).hrActive = true → (s.port p).attach = .source →
     (∀ k, (s.port p).hrAt = some k → s.passed k 83000 = true) →
     ∃ t, exec (.sourceRecover p) s = .next t ∧ t = s.stamp .pd (.port (portDie p)) p.val (.pdTimer p .srcRecover)) ∧
   (∀ (p : Port) (n : Lane) (s : State), (s.port p).hrActive = true → (s.port p).attach = .source → s.canFeed p = true → s.portNode p = some n →
     let t := s.onTimer p .srcRecover
     (t.port p).hrActive = false ∧ (t.port p).feeding = true ∧ (t.port p).feedTarget = 5 ∧ (t.node n).feeding = some p) ∧
   (∀ (p : Port) (n : Lane) (s : State), s.hubUp = false → (s.port p).hrActive = true → (s.port p).attach = .source →
     (∀ k, (s.port p).hrAt = some k → s.passed k 83000 = true) → s.canFeed p = true → s.portNode p = some n →
     ∃ t, exec (.sourceRecover p) s = .next t ∧ (t.port p).hrActive = false ∧ (t.port p).feeding = true ∧ (t.port p).feedTarget = 5 ∧
       (t.node n).feeding = some p) ∧
   (∀ (p : Port) (k : Nat) (s : State), (s.port p).hrAt = some k → s.passed k 83000 = false → exec (.sourceRecover p) s = .next s) ∧
   (∀ (p : Port) (s : State), (s.port p).attach = .frsWatch →
     ∃ t, exec (.frsSignalDetected p) s = .next t ∧ t.pdOut = { port := p, msg := .frSwap } :: s.pdOut ∧ (t.port p).wait = .frsReply ∧
       (t.port p).swap = some { fast := true, toSource := true, step := 0x12 } ∧ (t.port p).attach = .frsWatch ∧ t.conns = s.conns ∧
       t.events = s.events ++ [{ cls := .pd, tick := s.now, sub := BitVec.ofNat 8 s.subTick, src := .port (portDie p), item := p.val, kind := .frsSignal p }]) ∧
   (∀ (p : Port) (v : Volt) (s : State), (s.port p).attach = .frsWatch → v < 472 / 100 →
     ∃ t, exec (.frsVbusFall p v) s = .next t ∧ (t.conn (portSrc p)).v = v ∧ t.ports = s.ports ∧
       t.events = s.events ++ [{ cls := .pd, tick := s.now, sub := BitVec.ofNat 8 s.subTick, src := .port (portDie p), item := p.val, kind := .frsVbus p }]) ∧
   (∀ (p : Port) (s : State), (s.port p).frsSignal = true →
     ∃ t, exec (.frsSignalEnd p) s = .next t ∧ (t.port p).attach = (s.port p).attach ∧
       ((s.port p).feeding = true → (t.conn (portSrc p)).pair = .opened ∧ (t.port p).feeding = false ∧ (t.port p).disch = true) ∧
       (∀ w, (s.port p).swap = some w → w.fast = true → w.toSource = false → w.step = 0x13 →
         t.pdOut = { port := p, msg := .psRdy } :: s.pdOut ∧ (t.port p).swap = some { w with step := 0x14 })))

/-- A fitted, unlocked pass pair that no protection opened closes onto a bus within 2 V of its connector, or energises when one
side is below 4.5 V and the other within 20-62 V; a mismatch waits 1 s. A pair still energising at the timeout opens, counts and
waits 10 s, with a record at the third failure only. Feeding the trunk starts with a local source, leave to feed and enough
capacity, and the far node then gives up its source; it stops without them. The bus qualifies 1 V above V_FLOOR; a droop factor
below 1 starts the droop law of the trunk lane, a factor of 1 ends it, and both are stamped for the hub. The factor is below 1
under V_KNEE and 1 from V_KNEE on. Rules: R255-R257, R276-R279. The wait of 1 s after a mismatch follows R256, the one after a
trip log entry 140. -/
def Obligations.PassPairsAndTheTrunkBus : Prop :=
  (let free := fun (t : TrunkPort) (s : State) => (s.pdie 1).up = true ∧ s.cfg.connFit (trunkSrc t) = true ∧ (s.conn (trunkSrc t)).lockedOut = false ∧
     (s.conn (trunkSrc t)).lastTrip = none ∧ s.standsIn t = false ∧ (s.conn (trunkSrc t)).pair = .opened ∧ (s.conn (trunkSrc t)).retryAt = 0
   (∀ (t : TrunkPort) (v b : Volt) (s : State), free t s →
     ((20 ≤ v ∧ v ≤ 62 ∧ 20 ≤ b ∧ b ≤ 62 ∧ rabs (v - b) ≤ 2) ∨ (20 ≤ v ∧ v ≤ 62 ∧ b < 9 / 2) ∨ (v < 9 / 2 ∧ 20 ≤ b ∧ b ≤ 62)) →
     ∃ u, exec (.passPairJoin t v b) s = .next u ∧ (u.conn (trunkSrc t)).pair = .closing ∧ (u.conn (trunkSrc t)).v = v ∧
       (u.conn (trunkSrc t)).energising = decide (v < 9 / 2 ∨ b < 9 / 2) ∧ (∀ d, d ≠ trunkSrc t → u.conn d = s.conn d)) ∧
   (∀ (t : TrunkPort) (v b : Volt) (s : State), free t s → 9 / 2 < v → 9 / 2 < b → 2 < rabs (v - b) →
     ∃ u, exec (.passPairJoin t v b) s = .next u ∧ u = s.modConn (trunkSrc t) (fun k => { k with retryAt := s.now + 100000 })) ∧
   (∀ (t : TrunkPort) (s : State), (s.conn (trunkSrc t)).pair = .closing → (s.conn (trunkSrc t)).energising = true →
     ∃ u, exec (.energiseTimeout t) s = .next u ∧
       u.conn (trunkSrc t) = { s.conn (trunkSrc t) with pair := .opened, slew := 0, energising := false, joinFails := (s.conn (trunkSrc t)).joinFails + 1, retryAt := s.now + 1000000 } ∧
       ((s.conn (trunkSrc t)).joinFails ≠ 2 → u.ledger = s.ledger)) ∧
   (∀ (t : TrunkPort) (s : State), (s.conn (trunkSrc t)).pair = .opened → (s.conn (trunkSrc t)).retryAt ≠ 0 → (s.conn (trunkSrc t)).retryAt ≤ s.now →
     ∃ u, exec (.joinRetry t) s = .next u ∧ u = s.modConn (trunkSrc t) (fun k => { k with retryAt := 0 }))) ∧
  ((∀ (n : Lane) (s : State), s.hubUp = true → s.cfg.trunkLane = some n → s.trkOn = true → 0 < s.cfg.get 11 9 → s.modeIs .supply = true →
     s.nonTrunk.isEmpty = false → s.trunk.feedingTrunk = false → s.cfg.q 11 10 10 ≤ s.feedCap → s.laneFit n = true →
     ∃ u, exec .trunkFeedStart s = .next u ∧ u.trunk.feedingTrunk = true ∧
       ((s.node n).selected = none → u = s.modTrunk (fun t => { t with feedingTrunk := true })) ∧
       ((s.node n).selected.isSome = true → u = (s.modTrunk (fun t => { t with feedingTrunk := true })).changeTo n none)) ∧
   (∀ (n : Lane) (s : State), s.hubUp = true → s.cfg.trunkLane = some n → s.trunk.feedingTrunk = true →
     (s.nonTrunk = [] ∨ (s.feedCap : Rat) < s.cfg.q 11 10 10 / 2) →
     ∃ u, exec .trunkFeedStop s = .next u ∧ u = s.modTrunk (fun t => { t with feedingTrunk := false })) ∧
   (∀ (c : Src) (v : Volt) (s : State), s.trunkIx = some c → s.cfg.q 11 6 (1 / 10) + 1 ≤ v → v ≤ 63 → (s.pdie 1).up = true → s.trunk.busQualified = false →
     ∃ u, exec (.trunkBusQualified v) s = .next u ∧ u.trunk.busQualified = true ∧ u.conns = s.conns ∧
       u.events = s.events ++ [{ cls := .presence, tick := s.now, sub := BitVec.ofNat 8 s.subTick, src := .port 1, item := c.val, kind := .qualified c false }]) ∧
   (∀ (v : Volt) (s : State), (s.cfg.q 11 5 (1 / 10) ≤ v → s.droopAt v = 1) ∧
     (v < s.cfg.q 11 5 (1 / 10) → s.droopAt v < 1)) ∧
   (∀ (n : Lane) (v : Volt) (s : State), s.cfg.trunkLane = some n → s.droopAt v < 1 → (s.lane n).droopLaw = false → (s.lane n).up = true →
     ∃ u, exec (.droopOnset v) s = .next u ∧ OnlyLane n s u ∧ u.lane n = { s.lane n with droopLaw := true } ∧
       u.events = s.events ++ [{ cls := .trunk, tick := s.now, sub := BitVec.ofNat 8 s.subTick, src := .lane n, item := n.val, kind := .droopOnset }]) ∧
   (∀ (n : Lane) (v : Volt) (s : State), s.cfg.trunkLane = some n → s.droopAt v = 1 → (s.lane n).droopLaw = true → (s.lane n).up = true →
     ∃ u, exec (.droopClear v) s = .next u ∧ OnlyLane n s u ∧ u.lane n = { s.lane n with droopLaw := false } ∧
       u.events = s.events ++ [{ cls := .trunk, tick := s.now, sub := BitVec.ofNat 8 s.subTick, src := .lane n, item := n.val, kind := .droopClear }]))

/-- A frame with fewer than 16 preamble bits, or one that does not parse, is counted at its port. A valid one keeps the link up,
and one of types 2-10 addressed to this member or all is stamped for the hub. A HELLO brings the link up with its neighbour; one
of the same node ID from a lower unit takes a fixed ID away. 0.3 s without a frame takes the link down with an event, and before
that nothing changes. HELLO is sent each 0.1 s with the next sequence number. In a window of this end the first queued frame of
the highest priority leaves on the wire; outside the windows of R262, or with an empty queue, nothing changes. Rules: R259-R268. -/
def Obligations.TrunkFramesAndLinks : Prop :=
  (∀ (t : TrunkPort) (n m : Nat) (b : List Byte) (s : State), (s.pdie 1).up = true → (m < 16 ∨ parseFrame b = none) →
    ∃ u, exec (.trunkFrameReceived t ⟨n, m⟩ b) s = .next u ∧ u = s.modPd 1 (fun d => { d with badTa := if t = 0 then satInc 32 d.badTa else d.badTa, badTb := if t = 0 then d.badTb else satInc 32 d.badTb })) ∧
  (∀ (t : TrunkPort) (n m : Nat) (b : List Byte) (f : TrunkFrame) (s : State), (s.pdie 1).up = true → 16 ≤ m → parseFrame b = some f →
    (f.type ≠ 1 ∨ f.dst ≠ 0) →
    ∃ u, exec (.trunkFrameReceived t ⟨n, m⟩ b) s = .next u ∧ u.link t = { s.link t with lastRx := s.now } ∧ u.conns = s.conns ∧ u.lanes = s.lanes ∧
      u.events = s.events ++ if (f.dst = 0xFFF ∨ f.dst = s.trunk.nodeId) ∧ 2 ≤ f.type.toNat ∧ f.type.toNat ≤ 10 then
        [{ cls := .trunk, tick := s.now, sub := BitVec.ofNat 8 s.subTick, src := .trunk, item := t.val, kind := .trunkFrame { port := t, sfdNs := n } f }] else []) ∧
  (∀ (a : TrunkArrival) (f : TrunkFrame) (s : State), (s.pdie 1).up = true → f.type = 1 →
    ∃ u, exec (.helloReceived a f) s = .next u ∧ (u.link a.port).up = true ∧ (u.link a.port).lastRx = s.now ∧
      (u.link a.port).neighbour = some (f.src, BitVec.ofNat 64 (u64 f.payload 0)) ∧ (∀ t, t ≠ a.port → u.link t = s.link t) ∧
      (s.derived = false → f.src = s.trunk.nodeId → u64 f.payload 0 < s.otp.unit.toNat → u.trunk.dupId = true)) ∧
  (∀ (t : TrunkPort) (s : State), (s.link t).up = true → s.passed (s.link t).lastRx 30000 = true →
    ∃ u, exec (.linkDown t) s = .next u ∧ u.link t = { s.link t with up := false, neighbour := none } ∧ (∀ k, k ≠ t → u.link k = s.link k) ∧
      u.events = s.events ++ [{ cls := .trunk, tick := s.now, sub := BitVec.ofNat 8 s.subTick, src := .trunk, item := t.val, kind := .linkDown t }]) ∧
  (∀ (t : TrunkPort) (s : State), (s.link t).up = true → s.passed (s.link t).lastRx 30000 = false → exec (.linkDown t) s = .next s) ∧
  (∀ (t : TrunkPort) (s : State), (s.pdie 1).up = true → (s.link t).helloDue ≤ s.now →
    ∃ u f, exec (.helloSend t) s = .next u ∧ f ∈ (u.link t).queue ∧ ((s.link t).queue.length < 16 → (u.link t).queue = (s.link t).queue ++ [f]) ∧
      f.type = 1 ∧ f.dst = 0 ∧ f.src = s.takeNodeId.trunk.nodeId ∧ f.seq = s.trunk.seq ∧
      (u.link t).helloDue = s.now + 10000 ∧ (u.link t).reqNext = !(s.link t).reqNext ∧ u.trunk.seq = s.trunk.seq + 1) ∧
  (∀ (t : TrunkPort) (r : Nat) (g : SegmentGap) (s : State), (s.pdie 1).up = true → s.mayStart t g = true → (s.link t).queue ≠ [] →
    ∃ u f i, exec (.trunkQueueSend t ⟨r, g⟩) s = .next u ∧ (s.link t).queue[i]? = some f ∧
      (∀ x ∈ (s.link t).queue, frameRank f.type ≤ frameRank x.type) ∧
      (∀ j x, j < i → (s.link t).queue[j]? = some x → frameRank f.type < frameRank x.type) ∧
      (u.link t).queue = (s.link t).queue.eraseIdx i ++ (s.link t).backlog.take 1 ∧ (u.link t).out = frameBytes (s.atDelimiter f r) ∧
      (∀ k, k ≠ t → u.link k = s.link k)) ∧
  (∀ (t : TrunkPort) (r : Nat) (g : SegmentGap) (s : State), ((s.link t).queue = [] ∨ s.mayStart t g = false) →
    exec (.trunkQueueSend t ⟨r, g⟩) s = .next s)

/-- A BEACON or CLAIM for this member waits for the hub as a trunk event, and the decision that uses it acts on the frame: a first
beacon sets captain, epoch and beacon time, a captain ignores a worse key, a better claim ends the own claim. The captain beacons
each 50 ms; a member that may claim and hears no beacon starts to claim and claims each 50 ms; it is captain after 0.4 s; 150 ms
without a beacon loses the captain; 10 s of zero capacity under AUTO steps the captain down. Rules: R267-R274, R461. -/
def Obligations.CaptainsComeAndGo : Prop :=
  (let waits := fun (c : Instr) (a : TrunkArrival) (f : TrunkFrame) (s : State) => ∃ t, exec c s = .next t ∧ t = { s with events := t.events } ∧
     t.events = s.events ++ [{ cls := .trunk, tick := s.now, sub := BitVec.ofNat 8 s.subTick, src := .trunk, item := a.port.val, kind := .trunkFrame a f }]
   (∀ (a : TrunkArrival) (f : TrunkFrame) (s : State), (s.pdie 1).up = true → (f.dst = 0xFFF ∨ f.dst = s.trunk.nodeId) →
     (f.type = 2 → waits (.beaconReceived a f) a f s) ∧ (f.type = 6 → waits (.claimReceived ⟨a, f⟩) a f s)) ∧
   (∀ (a : TrunkArrival) (f : TrunkFrame) (e : Event) (s : State), e.kind = .trunkFrame a f → s.useEvent e = s.takeFrame e.tick a f)) ∧
  (∀ (k : Nat) (a : TrunkArrival) (f : TrunkFrame) (s : State), f.type = 2 → s.trunk.isCaptain = false → s.trunk.captain = none →
    let u := s.takeFrame k a f
    u.trunk.captain = some (keyOfBeacon f) ∧ u.trunk.lastBeacon = some s.now ∧
      u.trunk.fleetEpoch = BitVec.ofNat 32 (u32 f.payload 16) ∧ u.trunk.isCaptain = false ∧ u.lanes = s.lanes ∧ u.conns = s.conns) ∧
  (∀ (k : Nat) (a : TrunkArrival) (f : TrunkFrame) (c : CapKey) (s : State), f.type = 2 → s.trunk.isCaptain = true → s.trunk.captain = some c →
    (keyOfBeacon f).better c = false → s.takeFrame k a f = s) ∧
  (∀ (k : Nat) (a : TrunkArrival) (f : TrunkFrame) (s : State), f.type = 6 → (keyOfClaim f).better s.myKey = true →
    s.takeFrame k a f = s.modTrunk (fun t => { t with claiming := none, betterClaim := some s.now })) ∧
  (∀ (s : State), s.hubUp = true → s.trunk.isCaptain = true → s.trunk.due.beacon ≤ s.now →
    ∃ u f, exec .beaconSend s = .next u ∧ f.type = 2 ∧ f.dst = 0xFFF ∧ u.trunk.beaconNo = s.trunk.beaconNo + 1 ∧ u.trunk.due.beacon = s.now + 5000 ∧
      ∀ t, (s.link t).up = true → f ∈ (u.link t).queue ∧ ((s.link t).queue.length < 16 → (u.link t).queue = (s.link t).queue ++ [f])) ∧
  (∀ (s : State), s.hubUp = true → s.trunk.isCaptain = false → s.mayClaim = true →
    (s.noBeacon = true ∧ s.trunk.claiming = none ∨ s.trunk.claiming.isSome = true ∧ s.trunk.due.claim ≤ s.now) →
    ∃ u f, exec .claimSend s = .next u ∧ f.type = 6 ∧ f.dst = 0xFFF ∧ u.trunk.due.claim = s.now + 5000 ∧
      u.trunk.claiming = some (s.trunk.claiming.getD s.now) ∧
      ∀ t, (s.link t).up = true → f ∈ (u.link t).queue ∧ ((s.link t).queue.length < 16 → (u.link t).queue = (s.link t).queue ++ [f])) ∧
  (∀ (k : Nat) (s : State), s.hubUp = true → s.mayClaim = true → s.trunk.claiming = some k → s.passed k 40000 = true →
    ∃ u, exec .captainElected s = .next u ∧ u.trunk.isCaptain = true ∧ u.trunk.claiming = none ∧ u.trunk.captain = some s.myKey ∧
      u.trunk.due.bulletin = s.now + 25000) ∧
  (∀ (k : Nat) (s : State), s.hubUp = true → s.trunk.isCaptain = false → s.trunk.lastBeacon = some k → s.passed k 15000 = true →
    ∃ u, exec .captainLost s = .next u ∧ u.trunk.captain = none ∧ u.trunk.lastBeacon = none ∧ u.trunk.isCaptain = false ∧
      (s.mayClaim = true → u.trunk.claiming = some (s.trunk.claiming.getD s.now))) ∧
  (∀ (k : Nat) (s : State), s.hubUp = true → s.trunk.isCaptain = true → s.trunk.capZeroSince = some k → s.cfg.get 11 3 = 0 → s.feedCap = 0 →
    s.passed k 1000000 = true →
    ∃ u, exec .captainStepDown s = .next u ∧ u.trunk.isCaptain = false ∧ u.trunk.captain = none ∧ u.trunk.roster = [] ∧ u.trunk.sessions = [])

/-- A member's key is (class, C_F, node ID). ALWAYS beats AUTO in both directions; with equal class the higher C_F beats the
lower; with equal C_F the lower node ID beats the higher. With the trunk enabled: ALWAYS may claim, AUTO exactly while C_F
is above 0 W, NEVER never. Rules: R271 (read with R290: a disabled trunk claims nothing, log entry 95). -/
def Obligations.CaptainKeysRankAndClaim : Prop :=
  (∀ (a b : CapKey), a.always = true → b.always = false → a.better b = true ∧ b.better a = false) ∧
  (∀ (a b : CapKey), a.always = b.always → b.cf < a.cf → a.better b = true ∧ b.better a = false) ∧
  (∀ (a b : CapKey), a.always = b.always → a.cf = b.cf → a.node.toNat < b.node.toNat → a.better b = true ∧ b.better a = false) ∧
  (∀ s : State, s.trkOn = true → (s.cfg.get 11 3 = 1 → s.mayClaim = true) ∧ (s.cfg.get 11 3 = 0 → (s.mayClaim = true ↔ 0 < s.feedCap)) ∧
    (s.cfg.get 11 3 = 2 → s.mayClaim = false)) ∧
  (∀ s : State, s.myKey.always = (s.cfg.get 11 3 == 1) ∧ s.myKey.cf = s.feedCap ∧ s.myKey.node = s.trunk.nodeId)

/-- A BULLETIN, REPORT or GRANT for this member waits for the hub as a trunk event, and the decision that uses it acts on the
frame: the captain's bulletin schedules the report by node ID and flags differing constants; a report from an unrostered ID takes
the lowest free slot, and a renewed one of the same unit updates its entry; a grant for this unit raises the base power at its
effective time or lowers it at once, ends the session where it says so, and other units' grants are ignored. The captain sends
bulletins and, each second, the grants of unrostered members heard within 2 s; the member sends its report to the captain and the
captain puts its own in the roster; a due grant takes effect; a lease that ends returns to 5 W without session; an entry silent for
2 s is stale, after 4 s freed with its session. Rules: R274, R275, R278-R285, R461. -/
def Obligations.TheGrantLayer : Prop :=
  (∀ (a : TrunkArrival) (f : TrunkFrame) (s : State), (s.pdie 1).up = true → (f.dst = 0xFFF ∨ f.dst = s.trunk.nodeId) →
    let waits := fun (c : Instr) => ∃ t, exec c s = .next t ∧ t = { s with events := t.events } ∧
     t.events = s.events ++ [{ cls := .trunk, tick := s.now, sub := BitVec.ofNat 8 s.subTick, src := .trunk, item := a.port.val, kind := .trunkFrame a f }]
    (f.type = 3 → waits (.bulletinReceived ⟨a, f⟩)) ∧ (f.type = 4 → waits (.reportReceived ⟨a, f⟩)) ∧ (f.type = 5 → waits (.grantReceived ⟨a, f⟩))) ∧
  (∀ (n : Nat) (a : TrunkArrival) (f : TrunkFrame) (k : CapKey) (s : State), f.type = 3 → s.trunk.isCaptain = false → s.trunk.captain = some k → k.node = f.src →
    let u := s.takeFrame n a f
    u.trunk.due.report = some (s.now + 200 * (s.trunk.nodeId.toNat % 100)) ∧
      (u.trunk.constDiffer = true ↔ (u16 f.payload 32 : Int) ≠ s.cfg.get 11 5 * 10 ∨ (u16 f.payload 34 : Int) ≠ s.cfg.get 11 6 * 10) ∧
      u.trunk.pBase = s.trunk.pBase) ∧
  (∀ (n : Nat) (a : TrunkArrival) (f : TrunkFrame) (s : State), f.type = 4 → s.trunk.isCaptain = true →
    let u := s.takeFrame n a f
    (∀ i, s.freeSlot = some i → (∀ e ∈ s.trunk.roster, e.nodeId ≠ f.src) → rosterFrom (.blank i) f s.fleetUs ∈ u.trunk.roster ∧ u.lanes = s.lanes) ∧
    (∀ e, s.trunk.roster.find? (fun e => e.nodeId == f.src) = some e → e.unit = BitVec.ofNat 64 (u64 f.payload 0) →
      rosterFrom e f s.fleetUs ∈ u.trunk.roster ∧ u.lanes = s.lanes)) ∧
  (∀ (n : Nat) (a : TrunkArrival) (f : TrunkFrame) (s : State), f.type = 5 →
    let u := s.takeFrame n a f
    (u64 f.payload 24 = s.otp.unit.toNat → u8 f.payload 6 = 0 → s.trunk.dupId = false → s.trunk.pBase < (u16 f.payload 4 : Rat) → s.fleetUs < u64 f.payload 8 →
      u.trunk.pendingGrant = some ((u16 f.payload 4 : Rat), u64 f.payload 8) ∧ u.trunk.pBase = s.trunk.pBase ∧
      u.trunk.session = BitVec.ofNat 8 (u8 f.payload 7) ∧ u.trunk.leaseEnd = u64 f.payload 16) ∧
    (u64 f.payload 24 = s.otp.unit.toNat → u8 f.payload 6 = 0 → s.trunk.dupId = false → (u16 f.payload 4 : Rat) < s.trunk.pBase →
      u.trunk.pBase = (u16 f.payload 4 : Rat) ∧ u.trunk.pendingGrant = none) ∧
    (u64 f.payload 24 = s.otp.unit.toNat → (u8 f.payload 6 = 1 ∨ u8 f.payload 6 = 2) →
      u.trunk.pBase = 5 ∧ u.trunk.session = 0xFF ∧ u.trunk.pendingGrant = none) ∧
    (u64 f.payload 24 ≠ s.otp.unit.toNat → u = s)) ∧
  (∀ s : State, s.hubUp = true → s.trunk.isCaptain = true → s.trunk.due.bulletin ≤ s.now →
    ∃ u, exec .bulletinSend s = .next u ∧ u.trunk.epoch = s.trunk.epoch + 1 ∧ u.lanes = s.lanes ∧ u.conns = s.conns) ∧
  (∀ (k : Nat) (c : CapKey) (s : State), s.hubUp = true → s.trkOn = true → s.trunk.due.report = some k → s.trunk.captain = some c → k ≤ s.now →
    (s.trunk.isCaptain = false → ∃ u f, exec .reportSend s = .next u ∧ u.trunk.due.report = none ∧ f.type = 4 ∧ f.dst = c.node ∧
      ∀ t, (s.link t).up = true → f ∈ (u.link t).queue ∧ ((s.link t).queue.length < 16 → (u.link t).queue = (s.link t).queue ++ [f])) ∧
    (∀ i, s.trunk.isCaptain = true → s.freeSlot = some i → (∀ e ∈ s.trunk.roster, e.nodeId ≠ s.trunk.nodeId) →
      ∃ u e, exec .reportSend s = .next u ∧ u.trunk.due.report = none ∧ e ∈ u.trunk.roster ∧ e.slot = i ∧ e.nodeId = s.trunk.nodeId)) ∧
  (∀ s : State, s.hubUp = true → s.trunk.isCaptain = true → s.trunk.due.unrostered ≤ s.now →
    ∃ u, exec .unrosteredGrantSend s = .next u ∧ u.trunk.due.unrostered = s.now + 100000 ∧
      u.trunk.unrostered = s.trunk.unrostered.filter (fun x => !s.passed x.2.1 200000) ∧ u.lanes = s.lanes ∧ u.conns = s.conns) ∧
  (∀ (g : Watt) (k : Nat) (s : State), s.hubUp = true → s.trunk.pendingGrant = some (g, k) → k ≤ s.fleetUs →
    ∃ u, exec .grantEffective s = .next u ∧ u = s.modTrunk (fun t => { t with pBase := g, pendingGrant := none })) ∧
  (∀ s : State, s.hubUp = true → s.trunk.session ≠ 0xFF → s.trunk.leaseEnd ≤ s.fleetUs →
    ∃ u, exec .leaseEnd s = .next u ∧ u = s.modTrunk (fun t => { t with pBase := 5, session := 0xFF, leaseEnd := 0, pendingGrant := none })) ∧
  (∀ (i : Fin 512) (e : RosterEntry) (s : State), s.hubUp = true → s.trunk.roster.find? (fun e => e.slot == i.val) = some e →
    (e.seenUs + 4000000 ≤ s.fleetUs →
      ∃ u, exec (.rosterEntryStale i) s = .next u ∧ (∀ x ∈ u.trunk.roster, x.slot ≠ i.val) ∧ (∀ x ∈ u.trunk.sessions, x.nodeId ≠ e.nodeId)) ∧
    (e.seenUs + 2000000 ≤ s.fleetUs → s.fleetUs < e.seenUs + 4000000 →
      ∃ u, exec (.rosterEntryStale i) s = .next u ∧ { e with state := 3 } ∈ u.trunk.roster ∧ u.trunk.sessions = s.trunk.sessions))

/-- An UPDATE, UPDATE_ACK, MESSAGE or KICKOFF for this member waits for the hub as a trunk event, and the decision that uses it acts
on the frame: a message advances the inbox and rings its doorbell; an update frame of the wrong length, or with the flash die shut
down, is ignored, and a fragment of the session's tag is stored once; an acknowledgement of the own relay is noted; a kickoff of
another tag is ignored, of the own sealed tag it arms the shelf with the time. The relay sends its next fragment, and ends after
ten passes; a member that stores or has rejected a relayed package acknowledges to the origin each second, and the kickoff is
repeated before its time. Rules: R286, R287, R329, R403-R406, R461. -/
def Obligations.TrunkMessagesAndRelay : Prop :=
  (let sends := fun (u s : State) (f : TrunkFrame) => ∀ t, (s.link t).up = true →
     f ∈ (u.link t).queue ∧ ((s.link t).queue.length < 16 → (u.link t).queue = (s.link t).queue ++ [f])
   (∀ (a : TrunkArrival) (f : TrunkFrame) (s : State), (s.pdie 1).up = true → (f.dst = 0xFFF ∨ f.dst = s.trunk.nodeId) →
     let waits := fun (c : Instr) => ∃ t, exec c s = .next t ∧ t = { s with events := t.events } ∧
      t.events = s.events ++ [{ cls := .trunk, tick := s.now, sub := BitVec.ofNat 8 s.subTick, src := .trunk, item := a.port.val, kind := .trunkFrame a f }]
     (f.type = 7 → waits (.updateFrameReceived ⟨a, f⟩)) ∧ (f.type = 8 → waits (.updateAckReceived ⟨a, f⟩)) ∧ (f.type = 9 → waits (.messageReceived ⟨a, f⟩)) ∧
     (f.type = 10 → waits (.kickoffReceived ⟨a, f⟩))) ∧
   (∀ (i : Nat) (r : List Nat) (s : State), s.hubUp = true → s.trunk.relay = true → s.trunk.due.fragment ≤ s.now → s.trunk.relayLeft = i :: r →
     ∃ u f, exec .updateFragmentSend s = .next u ∧ u.trunk.relayLeft = r ∧ f.type = 7 ∧ u.trunk.due.fragment = s.now + 200 ∧ sends u s f) ∧
   (∀ s : State, s.hubUp = true → s.trunk.relay = true → s.trunk.due.fragment ≤ s.now → s.trunk.relayLeft = [] → 10 ≤ s.trunk.relayPass →
     ∃ u, exec .updateFragmentSend s = .next u ∧ u = s.modTrunk (fun t => { t with relay := false, resend := [] })) ∧
   (∀ s : State, s.hubUp = true → s.update.relayed = true → (s.update.storing = true ∨ s.update.st = .rejected) → s.trunk.due.ack ≤ s.now →
     ∃ u f, exec .updateAckSend s = .next u ∧ f.type = 8 ∧ f.dst = s.update.origin ∧ f.payload = s.ackPayload ∧ u.trunk.due.ack = s.now + 100000 ∧ sends u s f) ∧
   (∀ (k : Nat) (s : State), s.hubUp = true → s.update.kickoff = some k → s.trunk.kickoffBroadcast = true → s.fleetUs < k → s.trunk.due.kickoff ≤ s.now →
     ∃ u f, exec .kickoffSend s = .next u ∧ f.type = 10 ∧ u.trunk.due.kickoff = s.now + 100000 ∧ sends u s f)) ∧
  (∀ (n : Nat) (a : TrunkArrival) (f : TrunkFrame) (s : State), let u := s.takeFrame n a f
    (f.type = 9 → u.trunk.inboxSeq = s.trunk.inboxSeq + 1 ∧ (u.host.hdbOut.getLsbD 24 || u.host.hdbOut.getLsbD 25) = true ∧ u.lanes = s.lanes ∧ u.conns = s.conns) ∧
    (f.type = 7 → (f.payload.length ≠ 272 ∨ s.therm.flashShut = true) → u = s) ∧
    (∀ i : Nat, f.type = 7 → f.payload.length = 272 → s.therm.flashShut = false → s.update.relayed = true →
      s.update.st = .receiving → s.update.tag = BitVec.ofNat 32 (u32 f.payload 0) → u32 f.payload 4 = 256 * i → 0 < i → 256 * i < s.update.relayLength →
      s.update.fragments = [] → s.update.manifest = [] →
      u.update.fragments = [(i, slice f.payload 16 256)] ∧ u.flash.stagingErased = false ∧ u.lanes = s.lanes) ∧
    (f.type = 8 → s.trunk.relay = true → u32 f.payload 0 = s.update.tag.toNat → f.payload.length = 46 →
      (f.src, u8 f.payload 44) ∈ u.trunk.ackStates ∧ u.update = s.update) ∧
    (f.type = 10 → u32 f.payload 0 ≠ s.update.tag.toNat → u = s) ∧
    (f.type = 10 → u32 f.payload 0 = s.update.tag.toNat → s.update.st = .sealedUp → s.update.kickoff = none →
      u.update.st = .armed ∧ u.update.kickoff = some (u64 f.payload 4) ∧ (u.flash.shelves.get s.update.target).armed = true ∧ u.trunk = s.trunk))

/-- For every channel, descriptor, function set with TRUNK (all stopped by this channel) and state in which the channel takes
FUNC_START: if V_KNEE is below V_FLOOR + 2.0 V, V_FFL below V_KNEE + 1.0 V, V_FNL below V_FFL + 1.0 V, TRK_EN is ON with TA
and TB not fitted, TA or TB is fitted without a TRUNK far node, or 3 x TRK_ILIM x TRK_RSENSE exceeds 300 mV, the answer is
0x0008 and the settings in force are unchanged. Rules: R289. -/
def Obligations.TrunkStartIsValidated : Prop :=
  ∀ (c : HostChan) (d : Desc) (m : BitVec 15) (s : State), s.takes c 0x0103 d → funcMask d.params = some m → m.getLsbD 11 = true →
    (∀ f, m.getLsbD f = true → s.cfg.stop f = some c) →
    let x := s.checkCtx m
    let ta := s.cfg.connFitted.getLsbD 5
    let tb := s.cfg.connFitted.getLsbD 6
    let volt := fun idx => (x.v 11 idx : Rat) / 10
    (volt 5 < volt 6 + 2 ∨ volt 8 < volt 5 + 1 ∨ volt 7 < volt 8 + 1 ∨ (x.v 11 1 = 1 ∧ ta = false ∧ tb = false) ∨
      ((ta = true ∨ tb = true) ∧ ∀ n : Lane, farKindOf (x.v 1 1 n.val) ≠ .trunk) ∨
      3 / 10 < 3 * ((x.v 11 12 : Rat) * (5 / 100)) * ((x.v 11 13 : Rat) * (5 / 10000))) →
    ∃ u, exec (.funcStart c .normal d) s = .next u ∧ Answered u c d 8 ∧ u.cfg.inForce = s.cfg.inForce

/-- With the channel taking FUNC_START and every named function stopped by it: on ACIN, ACIN_VMAX below ACIN_VMIN + 2.0 V,
PANEL_VMIN above ACIN_VMAX - 2.0 V or 3 x SRC_ILIM x ISENSE_R above 300 mV; on PORTCx, 3 x SRC_ILIM x ISENSE_R above 300 mV:
the answer is 0x0008 and the settings in force are unchanged. Rules: R159. -/
def Obligations.InputStartsAreValidated : Prop :=
  (∀ (c : HostChan) (d : Desc) (m : BitVec 15) (s : State), s.takes c 0x0103 d → funcMask d.params = some m → m.getLsbD 10 = true →
    (∀ f, m.getLsbD f = true → s.cfg.stop f = some c) →
    let x := s.checkCtx m
    ((x.v 10 6 : Rat) / 2 < (x.v 10 5 : Rat) / 2 + 2 ∨ (x.v 10 6 : Rat) / 2 - 2 < (x.v 10 8 : Rat) / 2 ∨
      3 / 10 < 3 * ((x.v 10 1 : Rat) * (5 / 100)) * ((x.v 10 2 : Rat) * (5 / 10000))) →
    ∃ u, exec (.funcStart c .normal d) s = .next u ∧ Answered u c d 8 ∧ u.cfg.inForce = s.cfg.inForce) ∧
  (∀ (c : HostChan) (d : Desc) (m : BitVec 15) (p : Port) (s : State), s.takes c 0x0103 d → funcMask d.params = some m → m.getLsbD (6 + p.val) = true →
    (∀ f, m.getLsbD f = true → s.cfg.stop f = some c) →
    let x := s.checkCtx m
    3 / 10 < 3 * ((x.v (6 + p.val) 1 : Rat) * (5 / 100)) * ((x.v (6 + p.val) 2 : Rat) * (5 / 10000)) →
    ∃ u, exec (.funcStart c .normal d) s = .next u ∧ Answered u c d 8 ∧ u.cfg.inForce = s.cfg.inForce)

/-- With the channel taking FUNC_START and every named function stopped by it, LANE n named: IPK_LIM below 1.25 x IAVG_LIM,
|INEG_LIM| above IAVG_LIM, TRUNC_HYS not less than TRUNC, SKIP_BAND not less than STEP_V, TON_MIN, TOFF_MIN or DEADTIME
above 10% of the period, a gang lane whose FSW differs from the leader's, or on a lane R253 counts a SKIP_BAND too large for
HDRM_MARGIN: the answer is 0x0008 and the settings in force are unchanged. Rules: R109, R253. -/
def Obligations.LaneStartsAreValidated : Prop :=
  ∀ (c : HostChan) (d : Desc) (m : BitVec 15) (n : Lane) (s : State), s.takes c 0x0103 d → funcMask d.params = some m →
    m.getLsbD (2 + n.val) = true → (∀ f, m.getLsbD f = true → s.cfg.stop f = some c) →
    let x := s.checkCtx m
    let g := fun idx => x.v (2 + n.val) idx
    let period : Rat := ratio 1000000 (g 0)
    let lead := ((gangMembers (x.v 1 2) n).head?).getD 0
    ((g 8 : Rat) < 125 / 100 * (g 9 : Rat) ∨ g 9 < -(g 10) ∨ g 21 ≤ g 22 ∨ 2 * g 20 ≤ g 25 ∨
      period / 10 < (g 6 : Rat) * (5 / 2) ∨ period / 10 < (g 7 : Rat) * (5 / 2) ∨ period / 10 < (g 5 : Rat) * (5 / 16) ∨
      (∃ k ∈ gangMembers (x.v 1 2) lead, x.v (2 + k.val) 0 ≠ x.v (2 + lead.val) 0) ∨
      (skipCounted x n.val = true ∧ (x.v 12 3 : Rat) / 2 < (g 25 : Rat) / 4 + 1 / 2)) →
    ∃ u, exec (.funcStart c .normal d) s = .next u ∧ Answered u c d 8 ∧ u.cfg.inForce = s.cfg.inForce

/-- A RESET_N pulse of at least 24 sampled edges (2 without the crystal) holds a hub that is neither off nor held for a cold boot with
cause 3; fewer than 23 (2) only leave the level of the ball. A lock-up holds it with cause 7, warm where allowed. Host interface,
telemetry and timers are reset, settings, nodes and pairs kept; SUPPLY or BATTERY becomes LIMP; a die that had a frame enters its
keeper. The flash hold release ends the running and suspended operations. A cold boot of a held hub releases it with its cause,
retained SRAM valid, the watchdog window open, staged settings and host memory empty and the straps read from their pins; in a
start with an FT ball high it ends in the factory test state instead; while held in reset nothing happens. A warm boot keeps host,
gauge and forecast and notes its time; with a failed image check it turns into a cold boot. Rules: R44, R50, R235, R385,
R408-R415, R418. The row is a whole pulse and 23 edges are open: log entry 8. -/
def Obligations.ResetsAndBoots : Prop :=
  (let free := fun (s : State) => s.hub.hub ≠ .off ∧ ∀ c w, s.hub.hub ≠ .held c w
   let held := fun (c : Nat) (w : Bool) (s u : State) => u.hub.hub = .held c w ∧ u.host = s.host.atReset ∧ u.tel = s.tel.atReset ∧ u.timers = .zero ∧
     u.flash = { s.flash with queue := [] } ∧ u.cfg = s.cfg ∧ u.nodes = s.nodes ∧ u.conns = s.conns ∧
     ((s.aon.mode = some .supply ∨ s.aon.mode = some .battery) → u.aon.mode = some .limp) ∧
     (∀ n, s.aon.safeLatch = false → (s.lane n).up = true → (s.lane n).got = true → (s.lane n).keeper = none →
       u.lane n = { s.lane n with keeper := some { entry := s.now, expired := false } })
   (∀ (n : Nat) (low : Bool) (s : State), free s → (24 ≤ n ∧ s.aon.xtalLost = false ∨ 2 ≤ n ∧ s.aon.xtalLost = true) →
     ∃ u, exec (.resetNAssert ⟨n, low⟩) s = .next u ∧ held 3 false s u ∧ u.aon.resetLow = low) ∧
   (∀ (n : Nat) (low : Bool) (s : State), (n < 23 ∧ s.aon.xtalLost = false ∨ n < 2) →
     exec (.resetNAssert ⟨n, low⟩) s = .next (s.modAon (fun a => { a with resetLow := low }))) ∧
   (∀ s : State, free s → ∃ u, exec .hubLockup s = .next u ∧ held 7 (s.warmChosen 7) s u)) ∧
  ((∀ (c : Nat) (w : Bool) (s : State), s.hub.hub = .held c w →
     ∃ u, exec .flashHoldRelease s = .next u ∧ u.flash.busy = none ∧ u.flash.background = none ∧ u.flash.suspended = false ∧ u.hub = s.hub ∧
       (s.flash.background = some .staging → u.flash.stagingErased = true)) ∧
   (∀ (c : Nat) (b : BootPins) (s : State), s.hub.hub = .held c false → s.heldInReset = false → (2 < c ∨ b.ftHigh = false) →
     ∃ u, exec (.coldBoot b) s = .next u ∧ u.hub.hub = .booted c false ∧ u.hub.cause = c ∧ u.hub.warmBoot = false ∧ u.aon.retained = true ∧
       u.wdg.elapsed = some 0 ∧ u.cfg.staged = [] ∧ u.host.mem = [] ∧ u.aon.straps = Straps.read b) ∧
   (∀ (c : Nat) (b : BootPins) (s : State), s.hub.hub = .held c false → s.heldInReset = false → c ≤ 2 → b.ftHigh = true →
     ∃ u, exec (.coldBoot b) s = .next u ∧ u.hub.hub = .off ∧ u.aon.factoryTest = true ∧ (∀ n, (u.lane n).up = false) ∧ ∀ m, (u.pdie m).up = false) ∧
   (∀ (c : Nat) (b : BootPins) (s : State), s.hub.hub = .held c false → s.heldInReset = true → exec (.coldBoot b) s = .next s) ∧
   (∀ (c : Nat) (s : State), s.hub.hub = .held c true → s.heldInReset = false →
     ∃ u, exec (.warmBoot true) s = .next u ∧ u.hub.hub = .booted c true ∧ u.hub.cause = c ∧ u.hub.warmBoot = true ∧
       u.aon = { s.aon with warmBoots := (s.now :: s.aon.warmBoots).take 2 } ∧ u.host = s.host ∧ u.gauge = s.gauge ∧ u.fcst = s.fcst) ∧
   (∀ (c : Nat) (s : State), s.hub.hub = .held c true → s.heldInReset = false →
     exec (.warmBoot false) s = .next { s with hub := { s.hub with hub := .held c false } }))

/-- A die 50 ticks late is unresponsive, earlier nothing changes. A die that finds the hub halted enters its keeper and a running
mode becomes LIMP, a port die releases DP and DM, and the hub answers nothing more; with the SAFE latch set only the hub halts.
When the hold time ends, with no frame taking effect in that tick, a lane takes its keeper default: a supplementing battery lane
keeps its target, or 98% of it beside a drawing lane, with no charge current, an allocated lane holds its target, a DIODE battery
lane goes to standby, a trunk feed ramps down, a trunk draw returns to 5 W; a feeding port's lane ends the feed, a fast-role-swap
watch ends; each feeding source port of a port die recovers. Before that nothing changes. VIO lost unlocks the forecast and clears
the VSEL samples; its return notes the interval. Rules: R14, R39, R65, R66, R242, R416-R421. -/
def Obligations.KeepersAndUnresponsiveDies : Prop :=
  ((∀ (n : Lane) (s : State), s.hubUp = true → 50 ≤ (s.lane n).lag → (s.lane n).unresponsive = false →
     ∃ u, exec (.dieUnresponsive (.lane n)) s = .next u ∧ u.lanes = (s.modLane n (fun l => { l with unresponsive := true })).lanes ∧
       u.portDies = s.portDies ∧ u.conns = s.conns) ∧
   (∀ (n : Lane) (s : State), (s.lane n).lag < 50 → exec (.dieUnresponsive (.lane n)) s = .next s) ∧
   (∀ (m : PortDie) (s : State), s.hubUp = true → 50 ≤ (s.pdie m).lag → (s.pdie m).unresponsive = false →
     ∃ u, exec (.dieUnresponsive (.port m)) s = .next u ∧ u.portDies = (s.modPd m (fun d => { d with unresponsive := true })).portDies ∧
       u.lanes = s.lanes ∧ u.conns = s.conns) ∧
   (∀ (n : Lane) (s : State), (s.lane n).up = true → (s.lane n).got = true → (s.lane n).keeper = none →
     (s.aon.safeLatch = false → ∃ u, exec (.hubHaltDetected (.lane n)) s = .next u ∧ u.hubUp = false ∧
       u.lanes = (s.modLane n (fun l => { l with keeper := some { entry := s.now, expired := false } })).lanes ∧
       ((s.aon.mode = some .supply ∨ s.aon.mode = some .battery) → u.aon.mode = some .limp)) ∧
     (s.aon.safeLatch = true → ∃ u, exec (.hubHaltDetected (.lane n)) s = .next u ∧ u.hubUp = false ∧ u = { s with hub := u.hub })) ∧
   (∀ (m : PortDie) (s : State), (s.pdie m).up = true → (s.pdie m).got = true → (s.pdie m).keeper = none →
     (s.aon.safeLatch = false → ∃ u, exec (.hubHaltDetected (.port m)) s = .next u ∧ u.hubUp = false ∧ u.lanes = s.lanes ∧
       u.portDies = (s.modPd m (fun d => { d with keeper := some { entry := s.now, expired := false } })).portDies ∧
       (∀ p, portDie p = m → (u.port p).bcRunning = false) ∧
       ((s.aon.mode = some .supply ∨ s.aon.mode = some .battery) → u.aon.mode = some .limp)) ∧
     (s.aon.safeLatch = true → ∃ u, exec (.hubHaltDetected (.port m)) s = .next u ∧ u.hubUp = false ∧ u = { s with hub := u.hub }))) ∧
  ((∀ (n : Lane) (k : Keeper) (s : State), (s.lane n).keeper = some k → k.expired = false → k.entry + (s.lane n).holdTenths * 10000 ≤ s.now →
     s.aon.safeLatch = false → (∀ f ∈ (s.lane n).frames, ixReached f.eff (s.lane n).tick.toNat = false) →
     (s.fedPort n = none → ∃ u, exec (.keeperHoldExpiry (.lane n)) s = .next u ∧ (u.lane n).keeper = some { k with expired := true } ∧
       (u.lane n).order.floor = 0 ∧ (u.lane n).order.iBias = 0 ∧ (∀ m, m ≠ n → u.lane m = s.lane m) ∧ u.conns = s.conns ∧
       ((s.lane n).active = true → s.cfg.farKind n = .trunk → (s.lane n).order.dir = .draw → (u.lane n).order.pBase = 5) ∧
       ((s.lane n).active = true → (s.cfg.farKind n ≠ .trunk ∨ (s.lane n).order.dir ≠ .draw) →
         ((s.lane n).order.role = .batSupplement → (u.lane n).order.iSet = 0 ∧
           (u.lane n).order.target = if s.drawRunning then 98 / 100 * (s.lane n).order.target else (s.lane n).order.target) ∧
         ((s.lane n).order.role = .drawAlloc → (u.lane n).order.role = .drawHold ∧ (u.lane n).order.target = (s.lane n).order.target) ∧
         ((s.lane n).order.role = .batDiode → (u.lane n).run = .standby) ∧
         ((s.lane n).order.role = .feed → (u.lane n).run = .ramping))) ∧
     (∀ p, s.fedPort n = some p → (s.port p).attach ≠ .frsWatch → (s.port p).feeding = true →
       ∃ u, exec (.keeperHoldExpiry (.lane n)) s = .next u ∧ (u.port p).feeding = false ∧ (u.conn (portSrc p)).pair = .opened) ∧
     (∀ p, s.fedPort n = some p → (s.port p).attach = .frsWatch →
       ∃ u, exec (.keeperHoldExpiry (.lane n)) s = .next u ∧ (u.port p).attach = .sink ∧ (u.port p).swap = none ∧ (u.lane n).run = .stopped)) ∧
   (∀ (n : Lane) (k : Keeper) (s : State), (s.lane n).keeper = some k → s.now < k.entry + (s.lane n).holdTenths * 10000 →
     exec (.keeperHoldExpiry (.lane n)) s = .next s) ∧
   (∀ (m : PortDie) (k : Keeper) (s : State), (s.pdie m).keeper = some k → k.expired = false → k.entry + (s.pdie m).holdTenths * 10000 ≤ s.now →
     s.aon.safeLatch = false → (∀ f ∈ (s.pdie m).frames, ixReached f.eff (s.pdie m).tick.toNat = false) →
     ∃ u, exec (.keeperHoldExpiry (.port m)) s = .next u ∧ (u.pdie m).keeper = some { k with expired := true } ∧
       (∀ p, portDie p = m → (s.port p).attach = .source → (s.port p).feeding = true → (u.port p).attach = .recovery) ∧
       (∀ p, (portDie p ≠ m ∨ (s.port p).attach ≠ .source ∨ (s.port p).feeding = false) → (u.port p).attach = (s.port p).attach))) ∧
  ((∀ s : State, s.aon.vio = true →
     ∃ u, exec .vioLost s = .next u ∧ u.aon = { s.aon with vio := false } ∧ u.hub.vsel = [] ∧ u.hub.vselCode = s.hub.vselCode ∧
       u.fcst.locked = false ∧ u.fcst.prep = []) ∧
   (∀ (us : Nat) (s : State), s.aon.vio = false →
     ∃ u, exec (.vioReturn us) s = .next u ∧ u.aon = { s.aon with vio := true, vioUs := some us } ∧ u.lanes = s.lanes ∧ u.conns = s.conns))

/-- A diode reads from -55 to 175 degC, and a broken reading stands as the sensor's shutdown temperature, 150 degC for a diode. Below
it a reading is kept and nothing else; at it a lane die, by its diode or its lane NTC, a port die, the flash die or the hub die shuts
down and queues a shutdown slot with cause 1, or 2 where the sensor is broken: the hub is held with cause 8, the flash die stamps its
event, a port die drops VCONN and, of die 0, ACIN. Battery NTCs only read. A round advances the count, the clock division step and
takes the measured voltages and currents; with a battery whose NTCs read invalid it also stamps the removal. A die is released after
ten good rounds, not before. The first pending slot is written, 32 kept. Rules: R291-R294, R297-R303, R461. -/
def Obligations.TemperaturesShutDiesDown : Prop :=
  ((∀ (s : State) (x : Sensor) (t : DegC), s.convert x (.diode t) = if -55 ≤ t ∧ t ≤ 175 then some t else none) ∧
   (∀ (s : State) (x : Sensor), s.effective x none = s.shutAt x ∧ (∀ t, s.effective x (some t) = t) ∧ ((∀ n, x ≠ .tsl n) → s.shutAt x = 150)) ∧
   (∀ (n : Lane) (t : DegC) (s : State), s.hubPowered = true → (s.lane n).up = true →
     let r := s.convert (.laneDie n) (.diode t)
     let x := s.effective (.laneDie n) r
     ((x < 150 ∨ (s.lane n).shutDie = true) →
       ∃ u, exec (.housekeepingSlot (.laneDie n) (.diode t)) s = .next u ∧ u = s.modLane n (fun l => { l with tempDie := x, dieOk := r.isSome })) ∧
     (150 ≤ x → (s.lane n).shutDie = false →
       ∃ u, exec (.housekeepingSlot (.laneDie n) (.diode t)) s = .next u ∧ OnlyLane n { s with aon := u.aon } u ∧ (u.lane n).shut = true ∧
         (u.lane n).shutDie = true ∧ (u.lane n).tempDie = x ∧ (u.lane n).okRounds = 0 ∧
         (∃ y ∈ u.aon.slotPending, y.sensor = 1 + n.val ∧ y.cause = (if r.isSome then 1 else 2) ∧ y.tick = s.now))) ∧
   (∀ (n : Lane) (q : Rat) (s : State), s.hubPowered = true → (s.lane n).up = true → (s.lane n).onLine = true →
     let r := s.convert (.tsl n) (.ratio q)
     let x := s.effective (.tsl n) r
     ((x < s.shutAt (.tsl n) ∨ (s.lane n).shutTsl = true) →
       ∃ u, exec (.housekeepingSlot (.tsl n) (.ratio q)) s = .next u ∧ u = s.modLane n (fun l => { l with tempTsl := x, tslOk := r.isSome })) ∧
     (s.shutAt (.tsl n) ≤ x → (s.lane n).shutTsl = false →
       ∃ u, exec (.housekeepingSlot (.tsl n) (.ratio q)) s = .next u ∧ OnlyLane n { s with aon := u.aon } u ∧ (u.lane n).shut = true ∧
         (u.lane n).okRounds = 0 ∧ (∃ y ∈ u.aon.slotPending, y.sensor = 8 + n.val ∧ y.cause = (if r.isSome then 1 else 2) ∧ y.tick = s.now))) ∧
   (∀ (m : PortDie) (t : DegC) (s : State), s.hubPowered = true → (s.pdie m).up = true →
     let r := s.convert (.portDie m) (.diode t)
     let x := s.effective (.portDie m) r
     ((x < 150 ∨ (s.pdie m).shut = true) →
       ∃ u, exec (.housekeepingSlot (.portDie m) (.diode t)) s = .next u ∧ u = s.modPd m (fun d => { d with temp := x, tempOk := r.isSome })) ∧
     (150 ≤ x → (s.pdie m).shut = false →
       ∃ u, exec (.housekeepingSlot (.portDie m) (.diode t)) s = .next u ∧ (u.pdie m).shut = true ∧ (u.pdie m).temp = x ∧ (u.pdie m).okRounds = 0 ∧
         (m = 0 → (u.conn acin).pair = .opened ∧ (u.conn acin).qualified = false) ∧ (∀ p, portDie p = m → (u.port p).vconn = false) ∧
         (∃ y ∈ u.aon.slotPending, y.sensor = 5 + m.val ∧ y.cause = (if r.isSome then 1 else 2)))) ∧
   (∀ (t : DegC) (s : State), s.hubPowered = true →
     let r := s.convert .flash (.diode t)
     let x := s.effective .flash r
     ((x < 150 ∨ s.therm.flashShut = true) →
       ∃ u, exec (.housekeepingSlot .flash (.diode t)) s = .next u ∧ u = { s with therm := { s.therm with flashT := x, flashOk := r.isSome } }) ∧
     (150 ≤ x → s.therm.flashShut = false →
       ∃ u, exec (.housekeepingSlot .flash (.diode t)) s = .next u ∧ u.therm.flashShut = true ∧ u.therm.flashT = x ∧ u.lanes = s.lanes ∧
         u.events = s.events ++ [{ cls := .protection, tick := s.now, sub := BitVec.ofNat 8 s.subTick, src := .housekeeping, item := 7, kind := if r.isSome then .dieShutdown else .brokenSensor }])) ∧
   (∀ (t : DegC) (s : State), s.hubPowered = true →
     let r := s.convert .hub (.diode t)
     let x := s.effective .hub r
     ((x < 150 ∨ s.therm.hubShut = true) →
       ∃ u, exec (.housekeepingSlot .hub (.diode t)) s = .next u ∧ u = { s with therm := { s.therm with hubT := x, hubOk := r.isSome } }) ∧
     (150 ≤ x → s.therm.hubShut = false →
       ∃ u, exec (.housekeepingSlot .hub (.diode t)) s = .next u ∧ u.therm.hubShut = true ∧ u.hub.hub = .held 8 false)) ∧
   (∀ (k : Fin 2) (q : Rat) (s : State), s.hubPowered = true →
     ∃ u, exec (.housekeepingSlot (.tb k) (.ratio q)) s = .next u ∧ u = { s with therm := u.therm } ∧
       u.therm.tbOk.get k = (s.convert (.tb k) (.ratio q)).isSome ∧ ∀ x, s.convert (.tb k) (.ratio q) = some x → u.therm.tb.get k = x)) ∧
  ((∀ (r : RoundInfo) (s : State), s.hubPowered = true → s.hubUp = true →
     ∃ u, exec (.housekeepingRound r) s = .next u ∧ u.therm.round = s.therm.round + 1 ∧ u.therm.hubDiv = hubDivStep s.therm.hubDiv s.therm.hubT ∧
       u.hub.sysAvg = r.vsys ∧ (∀ c, (u.conn c).i = r.connI.get c ∧ (u.conn c).v = r.connV.get c ∧ (u.conn c).pair = (s.conn c).pair) ∧
       u.events = s.events ++ (if s.ntcValid = false ∧ s.charge.present = true then
           [{ cls := .presence, tick := s.now, sub := BitVec.ofNat 8 s.subTick, src := .housekeeping, item := 0, kind := .removal .ntc s.gauge.vBat s.gauge.iMeas }] else []) ++
         [{ cls := .thermal, tick := s.now, sub := BitVec.ofNat 8 s.subTick, src := .housekeeping, item := 0, kind := .thermalRound }]) ∧
   (∀ (d : Fin 8) (n : Lane) (s : State), releaseDie d = .laneDie n →
     ((s.lane n).shut = true → 10 ≤ (s.lane n).okRounds →
       ∃ u, exec (.shutdownRelease d) s = .next u ∧ u = s.modLane n (fun l => { l with shut := false, shutDie := false, shutTsl := false, okRounds := 0 })) ∧
     ((s.lane n).okRounds < 10 → exec (.shutdownRelease d) s = .next s)) ∧
   (∀ (d : Fin 8) (m : PortDie) (s : State), releaseDie d = .portDie m →
     ((s.pdie m).shut = true → 10 ≤ (s.pdie m).okRounds →
       ∃ u, exec (.shutdownRelease d) s = .next u ∧ (u.pdie m).shut = false ∧ (u.pdie m).okRounds = 0) ∧
     ((s.pdie m).okRounds < 10 → exec (.shutdownRelease d) s = .next s)) ∧
   (∀ (s : State), s.therm.hubShut = true → 10 ≤ s.therm.hubOkRounds →
     ∃ u, exec (.shutdownRelease 0) s = .next u ∧ u = { s with therm := { s.therm with hubShut := false, hubOkRounds := 0 } }) ∧
   (∀ (s : State), s.therm.flashShut = true → 10 ≤ s.therm.flashOkRounds →
     ∃ u, exec (.shutdownRelease 7) s = .next u ∧ u = { s with therm := { s.therm with flashShut := false, flashOkRounds := 0 }, flash := s.flash.kick }) ∧
   (∀ (x : ShutSlot) (r : List ShutSlot) (s : State), s.aon.slotPending = x :: r →
     ∃ u, exec .shutdownSlotWrite s = .next u ∧ u.aon.slotPending = r ∧ u.aon.slots = ({ x with seq := s.aon.slotSeq } :: s.aon.slots).take 32 ∧
       u.aon.slotSeq = s.aon.slotSeq + 1 ∧ u.lanes = s.lanes))

/-- Trickle ends at CELLS x TRICKLE_TH with 50 mA accepted, precharge at CELLS x PRE_TH, CC at the CV limit, CV below I_TERM
when neither suspended nor out of CV; termination zeroes the current and qualifies SoC; recharge starts below VREG - 0.1 V
per cell. Off these conditions nothing changes. Expiry of the trickle or precharge timer sets cause 9 and of the fast timer
cause 6 or 7, and either sets 8 after a restart; the current goes to zero. A thermal restart gives half the fast budget once;
over-voltage sets cause 4. Rules: R197-R207, R210. Log entry 82 for expiry of the pre timer after a restart. -/
def Obligations.ChargePhasesAndTimers : Prop :=
  ((∀ (v : Volt) (i : Amp) (s : State), s.hubUp = true → s.charge.phase = .trickle → s.cells * s.trickleTh ≤ v → 5 / 100 ≤ i →
     ∃ u, exec (.chargePhaseAdvance .toPrecharge v i) s = .next u ∧ u.charge.phase = .precharge ∧ u.gauge = s.gauge) ∧
   (∀ (v : Volt) (i : Amp) (s : State), (v < s.cells * s.trickleTh ∨ i < 5 / 100) → exec (.chargePhaseAdvance .toPrecharge v i) s = .next s) ∧
   (∀ (v : Volt) (i : Amp) (s : State), s.hubUp = true → s.charge.phase = .precharge → s.cells * s.preTh ≤ v →
     ∃ u, exec (.chargePhaseAdvance .toCc v i) s = .next u ∧ u.charge.phase = .cc ∧ u.gauge = s.gauge) ∧
   (∀ (v : Volt) (i : Amp) (s : State), s.hubUp = true → s.charge.phase = .cc → s.cvActive = true →
     ∃ u, exec (.chargePhaseAdvance .toCv v i) s = .next u ∧ u.charge.phase = .cv ∧ u.gauge = s.gauge) ∧
   (∀ (v : Volt) (i : Amp) (s : State), s.hubUp = true → s.charge.phase = .cv → s.cvActive = true → s.suspended = false → i < s.iTerm →
     ∃ u, exec (.chargePhaseAdvance .terminate v i) s = .next u ∧ u.charge.phase = .terminated ∧ u.charge.iSet = 0 ∧ u.charge.iReq = 0 ∧
       u.gauge.socQualified = true) ∧
   (∀ (v : Volt) (i : Amp) (s : State), (s.charge.phase ≠ .cv ∨ s.cvActive = false ∨ s.suspended = true ∨ s.iTerm ≤ i) →
     exec (.chargePhaseAdvance .terminate v i) s = .next s) ∧
   (∀ (v : Volt) (i : Amp) (s : State), s.hubUp = true → s.charge.phase = .terminated → v < s.cells * (s.vregEff - 1 / 10) →
     ∃ u, exec (.chargePhaseAdvance .recharge v i) s = .next u ∧ u.charge.phase = s.phaseFor v ∧ u.charge.fastS = 0 ∧ u.charge.fastBudgetS = s.tmrFast)) ∧
  ((∀ s : State, s.hubUp = true → ((s.charge.phase = .trickle ∧ 1800 ≤ s.charge.trickleS) ∨ (s.charge.phase = .precharge ∧ s.tmrPre ≤ s.charge.preS)) →
     ∃ u, exec .preTimerExpiry s = .next u ∧ u.hasCause (if s.charge.restartUsed then 8 else 9) = true ∧ u.charge.iSet = 0 ∧ u.charge.iReq = 0 ∧ u.charge.phase = s.charge.phase) ∧
   (∀ s : State, s.charge.trickleS < 1800 → s.charge.preS < s.tmrPre → exec .preTimerExpiry s = .next s) ∧
   (∀ s : State, s.hubUp = true → (s.charge.phase = .cc ∨ s.charge.phase = .cv) → s.charge.fastBudgetS ≤ s.charge.fastS →
     s.hasCause 6 = false → s.hasCause 7 = false → s.hasCause 8 = false →
     ∃ u, exec .fastTimerExpiry s = .next u ∧ u.charge.iSet = 0 ∧ u.charge.iReq = 0 ∧
       u.hasCause (if s.charge.restartUsed then 8 else if s.charge.thermal then 6 else 7) = true) ∧
   (∀ (t : Nat) (s : State), s.charge.clearSince = some t → s.hubUp = true → s.cycling = true → s.hasCause 6 = true → t + 60000000 ≤ s.now → s.limitsAbsent = true →
     ∃ u, exec .thermalRestart s = .next u ∧ u.hasCause 6 = false ∧ u.charge.fastS = 0 ∧ u.charge.fastBudgetS = s.tmrFast / 2 ∧ u.charge.restartUsed = true ∧
       u.charge.phase = s.phaseFor s.gauge.vBat) ∧
   (∀ (v : Volt) (s : State), s.hubUp = true → s.charge.present = true → s.cells * (s.vreg + 75 / 1000) < v →
     ∃ u, exec (.batOvSuspend v) s = .next u ∧ u.hasCause 4 = true ∧ u.charge.iSet = 0 ∧ u.charge.iReq = 0) ∧
   (∀ (v : Volt) (s : State), v ≤ s.cells * (s.vreg + 75 / 1000) → exec (.batOvSuspend v) s = .next s))

/-- The backstop counts charging seconds, trips at 20 h with its event, which the decision uses as cause 0x0A, and resets after an
idle hour. Presence qualifies with valid NTCs and starts a cycle in SUPPLY. A removal's detection stamps its presence event (the lane
die's also puts the gang in standby); the decision that uses it clears presence and charge, and in DIODE the diode and the BATFET.
Each coulomb sample adds its signed code and stamps its charge event, which the decision takes into the round's means; a rest anchor
sets the charge from the table unless an LFP cell rests on its plateau; the periodic gauge record is written after 10 min and 1%
moved; a full half is compacted into the other. Rules: R206-R212, R214, R219-R224, R226, R232, R234, R461. -/
def Obligations.PresenceBackstopAndGauge : Prop :=
  ((∀ (n : Lane) (i : Amp) (s : State), s.battDie n = true → (s.lane n).up = true →
     ∃ u, exec (.backstopInterval n i) s = .next u ∧ OnlyLane n s u ∧
       (2 / 10 < i → (u.lane n).backstop = { (s.lane n).backstop with counted := (s.lane n).backstop.counted + 1, idle := 0 }) ∧
       (i ≤ 2 / 10 → (u.lane n).backstop = { (s.lane n).backstop with idle := (s.lane n).backstop.idle + 1 })) ∧
   (∀ (n : Lane) (s : State), s.battDie n = true → (s.lane n).backstop.tripped = false → 72000 ≤ (s.lane n).backstop.counted →
     ∃ u, exec (.backstopTrip n) s = .next u ∧ OnlyLane n s u ∧ (u.lane n).backstop.tripped = true ∧ (u.lane n).loop.iSet = 0 ∧
       u.events = s.events ++ [{ cls := .charge, tick := s.now, sub := BitVec.ofNat 8 s.subTick, src := .lane n, item := n.val, kind := .backstop }]) ∧
   (∀ (n : Lane) (s : State), (s.lane n).backstop.counted < 72000 → exec (.backstopTrip n) s = .next s) ∧
   (∀ (e : Event) (s : State), e.kind = .backstop → s.useEvent e = (s.setCause 10).chargeSetpoint) ∧
   (∀ (n : Lane) (s : State), s.battDie n = true → 3600 ≤ (s.lane n).backstop.idle →
     ∃ u, exec (.backstopReset n) s = .next u ∧ OnlyLane n s u ∧ (u.lane n).backstop = { counted := 0, idle := 0, tripped := false }) ∧
   (∀ (v : Volt) (s : State), s.hubUp = true → s.charge.present = false → s.ntcValid = true → s.charge.requalAfter ≤ s.now → s.cfg.battLane.isSome = true →
     ∃ u, exec (.presenceQualified v) s = .next u ∧ u.charge.present = true ∧ u.hasCause 3 = false ∧ u.gauge.vBat = v ∧
       (s.cfg.on 0 0 = true → s.aon.mode = some .supply → u.charge.startRound = true ∧ u.charge.phase = .idle ∧ u.charge.iSet = 0)) ∧
   (∀ (n : Lane) (v : Volt) (i : Amp) (s : State), s.cfg.battLane = some n → (s.cfg.gang n).any (fun m => (s.lane m).removalSeen) = true →
     ∃ u, exec (.removalIndication .voltageStep v i) s = .next u ∧
       u.lanes = ((s.cfg.gang n).foldl (fun s m => s.modLane m LaneDie.toStandby) s).lanes ∧ u.events = s.events ++
         [{ cls := .presence, tick := s.now, sub := BitVec.ofNat 8 s.subTick, src := .lane n, item := n.val, kind := .removal .voltageStep v i }]) ∧
   (∀ (d : RemovalDetector) (v : Volt) (i : Amp) (s : State), s.hubUp = true →
     ((d = .ntc ∧ s.ntcValid = false) ∨ (d = .currentCollapse ∧ 8 ≤ s.gauge.collapseRun)) →
     ∃ u, exec (.removalIndication d v i) s = .next u ∧ u.lanes = s.lanes ∧ u.charge = s.charge ∧ u.events = s.events ++
         [{ cls := .presence, tick := s.now, sub := BitVec.ofNat 8 s.subTick, src := .housekeeping, item := 0, kind := .removal d v i }]) ∧
   (∀ (e : Event) (d : RemovalDetector) (v : Volt) (i : Amp) (s : State), e.kind = .removal d v i → s.useEvent e = s.removeBattery d v i) ∧
   (∀ (d : RemovalDetector) (v : Volt) (i : Amp) (s : State), s.charge.present = true → let u := s.removeBattery d v i
     u.charge.present = false ∧ u.charge.phase = .idle ∧ u.charge.iSet = 0 ∧ (d = .ntc → u.hasCause 3 = true) ∧
       (s.cfg.supplement = false → u.aon.diodeOn = false ∧ u.aon.batfet = .off)) ∧
   (∀ s : State, s.aon.vaon = true → exec .statPatternTimer s = .next { s with aon := { s.aon with statMs := (s.aon.statMs + 25) % 4000 } })) ∧
  ((∀ (g : GaugePair) (s : State), s.hubPowered = true →
     ∃ u, exec (.gaugeSample g) s = .next u ∧ u.gauge = { s.gauge with sum := s.gauge.sum + BitVec.signExtend 64 g.iCode, lastTick := s.now } ∧
       u.charge = s.charge ∧ u.lanes = s.lanes ∧ (s.hubUp = true → u.events = s.events ++
         [{ cls := .charge, tick := s.now, sub := BitVec.ofNat 8 s.subTick, src := .housekeeping, item := 0, kind := .gaugeSample (s.sampleAmp g.iCode) (sampleVolt g.vCode) }])) ∧
   (∀ (g : GaugePair) (s : State), s.hubPowered = false → exec (.gaugeSample g) s = .next s) ∧
   (∀ (e : Event) (i : Amp) (v : Volt) (s : State), e.kind = .gaugeSample i v → let u := s.useEvent e
     u.gauge.iSum = s.gauge.iSum + i ∧ u.gauge.nRound = s.gauge.nRound + 1 ∧ u.gauge.sum = s.gauge.sum ∧ u.charge = s.charge ∧ u.lanes = s.lanes) ∧
   (∀ (v : Volt) (s : State), s.hubUp = true → s.charge.present = true → s.restDue = true →
     ∃ u, exec (.restAnchor v) s = .next u ∧ u.gauge.socQualified = true ∧ u.gauge.restDone = true ∧ u.charge = s.charge ∧
       (if s.lfp = true ∧ 325 / 100 ≤ v / s.cells ∧ v / s.cells ≤ 333 / 100 ∧ s.gauge.socQualified = true then u.gauge.qRem = s.gauge.qRem
        else u.gauge.qRem = s.tableSoc v * u.gauge.qFcc ∧ u.gauge.sinceAnchorAh = 0 ∧ u.gauge.anchorTerm = false)) ∧
   (∀ (v : Volt) (s : State), s.restDue = false → exec (.restAnchor v) s = .next s) ∧
   (∀ s : State, s.hubUp = true → s.gauge.lastRecTick + 60000000 ≤ s.now → 1 / 100 ≤ rabs (s.soc - s.gauge.lastRecSoc) →
     ∃ u, exec .gaugeRecordPeriodic s = .next u ∧ u.gauge.lastRecTick = s.now ∧ u.gauge.lastRecSoc = s.soc ∧ u.gauge.batid = some s.gauge.batidNow ∧
       u.gauge.qRem = s.gauge.qRem) ∧
   (∀ s : State, s.now < s.gauge.lastRecTick + 60000000 → exec .gaugeRecordPeriodic s = .next s) ∧
   (∀ s : State, s.hubUp = true → s.therm.flashShut = false → let a := s.flash.learnedActive
     let b : Fin 2 := if a = 0 then 1 else 0
     learnedSlots ≤ (s.flash.learned.get a).length →
     ∃ u, exec .learnedStateCompaction s = .next u ∧ u.flash.learnedActive = b ∧ u.flash.learned.get a = [] ∧
       u.flash.learned.get b = compactLearned (s.flash.learned.get b ++ s.flash.learned.get a)))
/-- A frame start begins a block with the FDO frame for it. A complete frame with a matching check word, version and interval
(none is judged for the first) is counted, and its demands wait for the decision after the tick of their stamp; it locks the
port if one has been handed over before it. Every other frame is discarded, counted by its cause, and breaks the run. Block
starts follow the period. Unlock clears demands and preparations; a due preposition action is taken once, an undue one not;
the bias hold ends so that its frame takes effect 200 us after the bias. Rules: R10, R238-R246, R249, R250. Length before
check: log entry 29. Lock at the second frame: log entry 30. -/
def Obligations.TheForecastPort : Prop :=
  ((∀ (n : Fin 16) (s : State), s.ioUp = true →
     ∃ u, exec (.forecastFrameStart n) s = .next u ∧ u.fcst.blockStart = s.now ∧ u.fcst.lastFrame = some s.now ∧
       u.fcst.block = (match s.fcst.lastFrame with
         | some f => s.frameBlock + max 1 ((2 * (s.now - f) + s.blockT) / (2 * s.blockT))
         | none => s.fcst.block + 1) ∧
       u.fcst.lastN = n.val + 1 ∧ u.fcst.fdo = s.fdoFrame n.val u.fcst.block ∧ u.fcst.revoked = false ∧ u.fcst.demands = s.fcst.demands ∧ u.lanes = s.lanes) ∧
   (∀ (n : Fin 16) (s : State), s.ioUp = false → exec (.forecastFrameStart n) s = .next s) ∧
   (∀ (f : FdiFrame) (w : Half) (s : State), s.ioUp = true → s.cfg.on 12 0 = true → f.words.head? = some w → f.complete = true →
     f.words.length = ((w >>> 8) &&& 15).toNat + 4 → w >>> 12 = 1 →
     f.words[((w >>> 8) &&& 15).toNat + 3]? = some (crc16 (unitBytes (f.words.take (((w >>> 8) &&& 15).toNat + 3)))) →
     (s.fcst.fresh = true ∨ s.intervalOk f.intervalNs = true) →
     ∃ u, exec (.forecastFrameHandover f) s = .next u ∧
       u.fcst.locked = (s.fcst.locked || (decide (0 < s.fcst.run) && s.intervalOk f.intervalNs)) ∧
       u.fcst.handed = bvSatInc s.fcst.handed ∧ u.fcst.run = s.fcst.run + 1 ∧ u.fcst.lastSeq = BitVec.ofNat 8 w.toNat ∧
       u.fcst.waiting = s.fcst.waiting ++ [(s.now, frameDemands s.frameBlock ((f.words.take (((w >>> 8) &&& 15).toNat + 3)).drop 2))] ∧
       u.fcst.demands = s.fcst.demands ∧ u.lanes = s.lanes) ∧
   (∀ (t m : Nat) (l : List Demand) (s : State), s.fcst.waiting = [(t, l)] →
     (ixBefore t m = true → (s.landDemands m).fcst.waiting = [] ∧ ∀ d ∈ l, d ∈ (s.landDemands m).fcst.demands) ∧
     (ixBefore t m = false → (s.landDemands m).fcst.waiting = [(t, l)] ∧ (s.landDemands m).fcst.demands = s.fcst.demands)) ∧
   (∀ (f : FdiFrame) (w : Half) (s : State), s.ioUp = true → s.cfg.on 12 0 = true → f.words.head? = some w →
     let whole := f.complete = true ∧ f.words.length = ((w >>> 8) &&& 15).toNat + 4
     let check := f.words[((w >>> 8) &&& 15).toNat + 3]? = some (crc16 (unitBytes (f.words.take (((w >>> 8) &&& 15).toNat + 3))))
     let dropped := { s.fcst with discarded := bvSatInc s.fcst.discarded, run := 0, fresh := false }
     (¬ whole → exec (.forecastFrameHandover f) s = .next { s with fcst := { dropped with lenErr := satInc 32 s.fcst.lenErr } }) ∧
     (whole → ¬ check → exec (.forecastFrameHandover f) s = .next { s with fcst := { dropped with crcErr := satInc 32 s.fcst.crcErr } }) ∧
     (whole → check → w >>> 12 ≠ 1 → exec (.forecastFrameHandover f) s = .next { s with fcst := { dropped with verErr := satInc 32 s.fcst.verErr } }) ∧
     (whole → check → w >>> 12 = 1 → s.fcst.fresh = false → s.intervalOk f.intervalNs = false →
       exec (.forecastFrameHandover f) s = .next { s with fcst := { dropped with intErr := satInc 32 s.fcst.intErr } })) ∧
   (∀ (k : Nat) (s : State), s.fcst.lastFrame = some k → s.fcst.blockStart + s.blockT ≤ s.now →
     ∃ u, exec .blockStart s = .next u ∧ u.fcst.block = s.fcst.block + 1 ∧ u.fcst.blockStart = s.fcst.blockStart + s.blockT ∧ u.lanes = s.lanes) ∧
   (∀ s : State, s.now < s.fcst.blockStart + s.blockT → exec .blockStart s = .next s)) ∧
  ((∀ s : State, s.fcst.locked = true → s.fcstLost = true →
     ∃ u, exec .forecastUnlock s = .next u ∧ u.fcst.locked = false ∧ u.fcst.run = 0 ∧ u.fcst.demands = [] ∧ u.fcst.prep = [] ∧ u.fcst.prepared = [] ∧
       u.fcst.hdrm = false ∧ u.conns = s.conns ∧ u.ports = s.ports) ∧
   (∀ s : State, s.fcstLost = false → exec .forecastUnlock s = .next s) ∧
   (∀ (n : Lane) (a : PrepAction) (s : State), s.hubUp = true →
     (∃ e ∈ s.fcst.prep, e.act = a ∧ (e.lane = n ∨ a = .allocationRaise) ∧ e.at_ ≤ s.effTick) →
     ∃ u x, exec (.prepositionAction n a) s = .next u ∧ x ∈ s.fcst.prep ∧ x.act = a ∧ (x.lane = n ∨ a = .allocationRaise) ∧ x.at_ ≤ s.effTick ∧
       u.fcst.prep = s.fcst.prep.filter (· != x) ∧ u.fcst.demands = s.fcst.demands ∧ u.conns = s.conns ∧
       (a = .allocationRaise → ∀ y ∈ u.fcst.prepared, y.block = x.step → y.raised = true) ∧
       (a = .bias → u.fcst.biasFrom = some s.effTick)) ∧
   (∀ (n : Lane) (a : PrepAction) (s : State), (∀ e ∈ s.fcst.prep, s.effTick < e.at_) → exec (.prepositionAction n a) s = .next s) ∧
   (∀ (t : Nat) (n : Lane) (s : State), s.hubUp = true → s.fcst.biasFrom = some t → s.cfg.battLane = some n → t + 20 ≤ s.effTick →
     ∃ u, exec .biasHoldExpiry s = .next u ∧ u.fcst.biasFrom = none ∧ u.fcst.prep = s.fcst.prep ∧ u.conns = s.conns))

/-- Capture notes a pending capture, or an ignored one while one is pending or frozen. Release and the freeze timeout end the
freeze. A block read latches its block. A publication takes a pending capture accepted before the end of its round, or a
capturing stream's, freezes, counts the capture and restarts every channel's interval; one that takes no capture keeps the
number. Under a freeze the published blocks stay; else each carries the tick of the end of the round. A freeze for a stream
ends with the publication. Rules: R310-R313, R315, R316. -/
def Obligations.TelemetryPublishesAndFreezes : Prop :=
  (∀ s : State, s.hostUp = true → s.tel.pending = false → s.tel.frozen = false → s.tel.capturing = false →
    ∃ u, exec .capture s = .next u ∧ u = { s with tel := { s.tel with pending := true, pendingAt := s.now } }) ∧
  (∀ s : State, s.hostUp = true → (s.tel.pending = true ∨ s.tel.frozen = true ∨ s.tel.capturing = true) →
    ∃ u, exec .capture s = .next u ∧ u = { s with tel := { s.tel with ignored := true } }) ∧
  (∀ s : State, s.hostUp = true → ∃ u, exec .release s = .next u ∧ u = { s with tel := { s.tel with frozen := false } }) ∧
  (∀ s : State, s.hubUp = true → s.tel.frozen = true → s.tel.frozenAt + (s.cfg.get 14 1).toNat * 100 ≤ s.now →
    ∃ u, exec .telFreezeTimeout s = .next u ∧ u = { s with tel := { s.tel with frozen := false } }) ∧
  (∀ s : State, s.now < s.tel.frozenAt + (s.cfg.get 14 1).toNat * 100 → exec .telFreezeTimeout s = .next s) ∧
  (∀ (i : Iface) (c : Fin 96) (s : State), s.hostUp = true →
    ∃ u, exec (.telBlockRead i c) s = .next u ∧ u.tel.latch.get (ifaceIx i) = some (c.val, (s.tel.chans.get c).block.toList) ∧ u.tel.chans = s.tel.chans ∧
      u.tel.frozen = s.tel.frozen) ∧
  (∀ s : State, s.hubUp = true → s.tel.frozen = false → ((s.tel.pending = true ∧ s.tel.pendingAt ≤ s.therm.roundTick) ∨ s.tel.streamDue = true) →
    ∃ u, exec .telemetryPublish s = .next u ∧ u.tel.frozen = !s.tel.streamDue ∧ u.tel.pending = false ∧ u.tel.capSeq = s.tel.capSeq + 1 ∧
      u.tel.frozenAt = s.now ∧ u.tel.capTick = BitVec.ofNat 32 s.therm.roundTick ∧
      (∀ c, (u.tel.chans.get c).count = 0 ∧ (u.tel.chans.get c).max = none ∧ (u.tel.chans.get c).n = 0 ∧ (u.tel.chans.get c).seq = s.tel.capSeq + 1 ∧
        (u.tel.chans.get c).block.get 5 = BitVec.ofNat 32 s.therm.roundTick)) ∧
  (∀ s : State, s.hubUp = true → s.tel.frozen = false → ((s.tel.pending = true → s.therm.roundTick < s.tel.pendingAt) ∧ s.tel.streamDue = false) →
    ∃ u, exec .telemetryPublish s = .next u ∧ u.tel.frozen = false ∧ u.tel.pending = s.tel.pending ∧ u.tel.capSeq = s.tel.capSeq ∧
      (∀ c, (u.tel.chans.get c).n = 0 ∧ (u.tel.chans.get c).block.get 5 = BitVec.ofNat 32 s.therm.roundTick)) ∧
  (∀ s : State, s.hubUp = true → s.tel.frozen = true →
    ∃ u, exec .telemetryPublish s = .next u ∧ u.tel.frozen = true ∧ u.tel.capSeq = s.tel.capSeq ∧
      (∀ c, (u.tel.chans.get c).block = (s.tel.chans.get c).block ∧ (u.tel.chans.get c).n = 0))

/-- With the hub running and VIO present: a short SPI frame is discarded and counted. A word written by SPI into its own region changes exactly its four bytes and
answers status 0xA0; into another channel's region it changes nothing, answers 0xE2 and notes the violation with kind,
interface and address. A read answers the bytes and their CRC-8. A UART frame with a reserved command is answered 0xE3; a
gap discards. An I2C write changes its word. Rules: R320-R326. -/
def Obligations.InterfaceFramesAreAnswered : Prop :=
  (∀ (b : List Byte) (s : State), s.hostUp = true → b.length < 6 →
    ∃ u, exec (.spiFrame b) s = .next u ∧ u.host.spiDiscards = s.host.spiDiscards + 1 ∧ u.host.out.get 0 = [] ∧ u.host.mem = s.host.mem ∧
      u.host.rings = s.host.rings) ∧
  (∀ (a : Nat) (v : Word) (h : List Byte) (s : State), h = [0x80] ++ beBytes 4 a ++ le32 v.toNat → s.hostUp = true → Memory.wf s.host.mem → 0x10000 ≤ a → a < 0x14000 → a % 4 = 0 →
    ∃ u, exec (.spiFrame (h ++ [crc8 h])) s = .next u ∧ u.memRead a 4 = le32 v.toNat ∧
      (∀ x, (x < a ∨ a + 4 ≤ x) → cellsRead u.host.mem x = cellsRead s.host.mem x) ∧ u.host.out.get 0 = [0xFF, 0xA0] ∧ u.host.viol = s.host.viol) ∧
  (∀ (a : Nat) (v : Word) (h : List Byte) (s : State), h = [0x80] ++ beBytes 4 a ++ le32 v.toNat → s.hostUp = true → 0x14000 ≤ a → a < 0x28000 → a % 4 = 0 → s.host.viol.valid = false →
    ∃ u, exec (.spiFrame (h ++ [crc8 h])) s = .next u ∧ u.host.mem = s.host.mem ∧ u.host.out.get 0 = [0xFF, 0xE2] ∧
      u.host.viol.valid = true ∧ u.host.viol.kind = 0 ∧ u.host.viol.iface = 0 ∧ u.host.viol.write = true ∧ u.host.viol.addr = BitVec.ofNat 32 a ∧
      u.host.viol.count = bvSatInc s.host.viol.count) ∧
  (∀ (a : Nat) (h : List Byte) (s : State), h = [0x40] ++ beBytes 4 a → s.hostUp = true → 0x10000 ≤ a → a < 0x14000 → a % 4 = 0 →
    ∃ u, exec (.spiFrame (h ++ [crc8 h])) s = .next u ∧ u.host.mem = s.host.mem ∧
      u.host.out.get 0 = [0xFF, 0xA0] ++ s.memRead a 4 ++ [crc8 (s.memRead a 4)]) ∧
  (∀ (b : List Byte) (s : State), s.hostUp = true → 6 ≤ b.length → (u8 b 0 / 64 = 0 ∨ u8 b 0 / 64 = 3) →
    ∃ u, exec (.uartFrame (0x5A :: b)) s = .next u ∧ u.host.out.get 2 = [0xFF, 0xE3] ∧ u.host.mem = s.host.mem ∧ u.host.rings = s.host.rings) ∧
  (∀ s : State, s.hostUp = true →
    ∃ u, exec .uartFrameGap s = .next u ∧ u = { s with host := { s.host with uartDiscards := s.host.uartDiscards + 1 } }) ∧
  (∀ (a : Nat) (v : Word) (x : I2cTransfer) (s : State), s.hostUp = true → x.target = i2cAddress s.aon.straps.i2cAddr → Memory.wf s.host.mem →
    0x14000 ≤ a → a < 0x18000 → a % 4 = 0 → x.addr = beBytes 4 a → x.data = le32 v.toNat → x.readBytes = 0 →
    ∃ u, exec (.i2cTransfer x) s = .next u ∧ u.memRead a 4 = le32 v.toNat ∧ u.host.out.get 1 = List.replicate 8 0 ∧ u.host.viol = s.host.viol)

/-- POST on an idle channel queues a ring, on a running one counts an overrun; URGENT, CANCEL and RESYNC latch. DB_MASK, HDB_OUT
and HDB_MASK writes change only own bits and a write outside them is a violation. Reading OVERRUN clears its flag,
VIOL_CLEAR keeps the count. A host's word outside its grant changes nothing and is counted. Firmware writes the registers of a
timer; the watchdog's window is set within 1-4000 ms, and its line-up, unless locked. Rules: R326-R329, R333, R337, R366, R374,
R377. -/
def Obligations.DoorbellsAndViolations : Prop :=
  (∀ (c : HostChan) (s : State), s.hostUp = true → (s.mbx c).st = .idle →
    ∃ u, exec (.post c) s = .next u ∧ (u.mbx c).st = .queued ∧
      u.host.rings = s.host.rings ++ [{ chan := c, bit := .post, tick := s.now, held := s.ringMasked c .post }]) ∧
  (∀ (c : HostChan) (s : State), s.hostUp = true → (s.mbx c).st = .running → s.clearing c = false →
    ∃ u, exec (.post c) s = .next u ∧ (u.mbx c).overrun = true ∧ (u.mbx c).overruns = bvSatInc (s.mbx c).overruns ∧ (u.mbx c).st = .running ∧
      u.host.rings = s.host.rings) ∧
  (∀ (c : HostChan) (s : State), s.hostUp = true → (s.mbx c).ubusy = false →
    ∃ u, exec (.urgent c) s = .next u ∧ (u.mbx c).ubusy = true ∧ (u.mbx c).st = (s.mbx c).st ∧
      u.host.rings = s.host.rings ++ [{ chan := c, bit := .urgent, tick := s.now, held := s.ringMasked c .urgent }]) ∧
  (∀ (c : HostChan) (s : State), s.hostUp = true → s.latched c .cancel = false →
    ∃ u, exec (.cancel c) s = .next u ∧ u.latched c .cancel = true ∧ (u.mbx c).st = (s.mbx c).st) ∧
  (∀ (c : HostChan) (s : State), s.hostUp = true → s.latched c .resync = false →
    ∃ u, exec (.resync c) s = .next u ∧ u.latched c .resync = true ∧ (u.mbx c).st = (s.mbx c).st) ∧
  (∀ (i : Iface) (v : Word) (s : State), s.hostUp = true → v &&& ~~~(ownBits i 0x1208) = 0 →
    ∃ u, exec (.dbMaskWrite i v) s = .next u ∧ u.host.dbMask = (s.host.dbMask &&& ~~~(ownBits i 0x1208)) ||| v ∧ u.host.viol = s.host.viol) ∧
  (∀ (i : Iface) (v : Word) (s : State), s.hostUp = true → v &&& ~~~(ownBits i 0x1208) ≠ 0 →
    ∃ u, exec (.dbMaskWrite i v) s = .next u ∧ u.host.dbMask = s.host.dbMask ∧ u.host.viol.count = bvSatInc s.host.viol.count) ∧
  (∀ (i : Iface) (v : Word) (s : State), s.hostUp = true → v &&& ~~~(ownBits i 0x120C) = 0 →
    ∃ u, exec (.hdbOutClear i v) s = .next u ∧ u.host.hdbOut = s.host.hdbOut &&& ~~~v ∧ u.host.viol = s.host.viol) ∧
  (∀ (i : Iface) (v : Word) (s : State), s.hostUp = true → v &&& ~~~(ownBits i 0x1210) = 0 →
    ∃ u, exec (.hdbMaskWrite i v) s = .next u ∧ u.host.hdbMask = (s.host.hdbMask &&& ~~~(ownBits i 0x1210)) ||| v ∧ u.host.viol = s.host.viol) ∧
  (ownBits .spi 0x1208 = 0x0000000F ∧ ownBits .i2c 0x1208 = 0x000000F0 ∧ ownBits .uart 0x1208 = 0x00000F00) ∧
  (∀ (i : Iface) (c : Fin 8) (s : State), s.hostUp = true →
    ∃ u, exec (.overrunRead i c) s = .next u ∧ (u.host.mbx.get c).overrun = false ∧ (u.host.mbx.get c).overruns = (s.host.mbx.get c).overruns ∧
      u.host.mem = s.host.mem) ∧
  (∀ s : State, s.hostUp = true →
    ∃ u, exec .violClear s = .next u ∧ u.host.viol.valid = false ∧ u.host.viol.addr = 0 ∧ u.host.viol.count = s.host.viol.count ∧ u.host.mbx = s.host.mbx) ∧
  (∀ (i : Iface) (a v : Word) (s : State), s.hostUp = true →
    ∃ u, exec (.registerWrite (.host i a v)) s = .next u ∧ (∀ k, s.refuses i a.toNat (some v) = some k → u.host.mem = s.host.mem ∧ u.hnd = s.hnd ∧
      u.host.dbMask = s.host.dbMask ∧ u.host.viol.count = bvSatInc s.host.viol.count)) ∧
  (∀ (c : Fin 16) (v : Word) (s : State), s.clocked = true →
    (∃ u, exec (.registerWrite (.timerCnt c v)) s = .next u ∧ (u.timers.tmr.get c).cnt = v ∧ (u.timers.tmr.get c).ctl = (s.timers.tmr.get c).ctl) ∧
    (∃ u, exec (.registerWrite (.timerCtl c v)) s = .next u ∧ (u.timers.tmr.get c).ctl = ctlWritten c v ∧ (u.timers.tmr.get c).cnt = (s.timers.tmr.get c).cnt) ∧
    (∃ u, exec (.registerWrite (.timerStat c v)) s = .next u ∧ (u.timers.tmr.get c).stat = (s.timers.tmr.get c).stat &&& ~~~(v.setWidth 5)) ∧
    (∀ k, ∃ u, exec (.registerWrite (.timerCmp c k v)) s = .next u ∧ (u.timers.tmr.get c).cmp.get k = v)) ∧
  (∀ (ms : BitVec 12) (s : State), s.wdg.runs = true → s.wdg.locked = false → 1 ≤ ms.toNat → ms.toNat ≤ 4000 →
    ∃ u, exec (.registerWrite (.wdgWindow ms)) s = .next u ∧ u = { s with wdg := { s.wdg with nextWindow := ms } }) ∧
  (∀ (m) (s : State), s.wdg.runs = true → s.wdg.locked = false →
    ∃ u, exec (.registerWrite (.wdgLineup m)) s = .next u ∧ u = { s with wdg := { s.wdg with lineup := m } }) ∧
  (∀ (ms : BitVec 12) (s : State), s.wdg.locked = true → exec (.registerWrite (.wdgWindow ms)) s = .next s)

/-- A taken SYS_NOP answers 0 with its parameters echoed and the channel's counts advanced, touching only the host interface. A
refused descriptor answers its code. A ring on a running slot is an overrun. A repeated sequence repeats the last code and
counts a duplicate. An urgent SYS_NOP answers in the urgent slot. With the hub down nothing changes. Rules: R330-R334, R337. -/
def Obligations.MailboxChannelsTakeAndAnswer : Prop :=
  (∀ (c : HostChan) (d : Desc) (s : State), s.takes c 0x0000 d → Memory.wf s.host.mem →
    ∃ u, exec (.sysNop c .normal d) s = .next u ∧ Answered u c d 0 ∧ u.memRead (mbxBase c + 0x1400) 8 = d.params ∧
      (u.mbx c).completed = (s.mbx c).completed + 1 ∧ (u.mbx c).lastSeq = d.seq ∧ u = { s with host := u.host }) ∧
  (∀ (c : HostChan) (d : Desc) (code : Nat) (s : State), s.hubUp = true → (s.mbx c).st = .idle → ¬ ((s.mbx c).lastSeq = d.seq ∧ (s.mbx c).lastOp = 1) →
    precheck 1 .normal d = some code →
    ∃ u, exec (.sysReset c .normal d) s = .next u ∧ Answered u c d code ∧ u = { s with host := u.host }) ∧
  (∀ (c : HostChan) (d : Desc) (s : State), s.hubUp = true → (s.mbx c).st = .running →
    ∃ u, exec (.sysReset c .normal d) s = .next u ∧ (u.mbx c).overrun = true ∧ (u.mbx c).overruns = bvSatInc (s.mbx c).overruns ∧
      (u.mbx c).st = .running ∧ u = { s with host := u.host }) ∧
  (∀ (c : HostChan) (d : Desc) (s : State), s.hubUp = true → (s.mbx c).st = .idle → (s.mbx c).lastSeq = d.seq → (s.mbx c).lastOp = 1 → d.seq ≠ 0xFFFF →
    ∃ u, exec (.sysReset c .normal d) s = .next u ∧ (u.mbx c).ackCode = (s.mbx c).lastCode ∧ (u.mbx c).ackSeq = d.seq ∧
      (u.mbx c).duplicates = bvSatInc (s.mbx c).duplicates ∧ u = { s with host := u.host }) ∧
  (∀ (c : HostChan) (d : Desc) (s : State), s.hubUp = true → s.hub.shelf ≠ .recovery → precheck 0 .urgent d = none →
    ∃ u, exec (.sysNop c .urgent d) s = .next u ∧ (u.mbx c).uackCode = 0 ∧ (u.mbx c).uackSeq = d.seq ∧ (u.mbx c).ubusy = false ∧
      u.host.hdbOut.getLsbD (4 * c.val + 1) = true ∧ (u.mbx c).st = (s.mbx c).st ∧ u = { s with host := u.host }) ∧
  (∀ (c : HostChan) (x : Slot) (d : Desc) (s : State), s.hubUp = false → exec (.sysNop c x d) s = .next s)

/-- SYS_RESET schedules the reset 1 ms later. SAFE_ENTER sets the latch and stops every lane; with the latch set it stands.
SAFE_CLEAR without a present trigger clears only the latch. An allowed SHIP_ENTER drops PGOOD and stands as a request after
SHIP_DELAY; an allowed DORMANT_ENTER moves SYS to V_BAT - 0.1 V in SUPPLEMENT and goes on to the ramp at once in DIODE. Rules:
R21, R22, R24, R70, R72, R342, R343. -/
def Obligations.SystemCommandsAct : Prop :=
  (∀ (c : HostChan) (d : Desc) (s : State), s.takes c 0x0001 d → u8 d.params 0 ≤ 1 → zeroBytes d.params 1 3 = true →
    ∃ u, exec (.sysReset c .normal d) s = .next u ∧ Answered u c d 0 ∧ u.hub.resetAt = some (s.now + 100, u8 d.params 0 == 0) ∧ u.lanes = s.lanes) ∧
  (∀ (c : HostChan) (d : Desc) (s : State), s.takes c 0x0002 d → s.aon.vaon = true →
    ∃ u, exec (.safeEnter c .normal d) s = .next u ∧ Answered u c d 0 ∧ u.aon.safeLatch = true ∧
      (s.aon.safeLatch = false → ∀ n, (u.lane n).run = .stopped) ∧ (s.aon.safeLatch = true → u.lanes = s.lanes)) ∧
  (∀ (c : HostChan) (d : Desc) (s : State), s.takes c 0x0003 d → s.safeBlocked = false →
    ∃ u, exec (.safeClear c .normal d) s = .next u ∧ Answered u c d 0 ∧ u.aon = { s.aon with safeLatch := false } ∧ u.lanes = s.lanes) ∧
  (∀ (c : HostChan) (d : Desc) (s : State), s.takes c 0x0004 d → s.pathStopped = false → s.shipAllowed = true → s.aon.request = none →
    ∃ u, exec (.shipEnter c .normal d) s = .next u ∧ u.aon.pgood = false ∧
      u.aon.request = some { dormant := false, automatic := false, deadline := s.now + s.shipDelay, stage := .wait }) ∧
  (∀ (c : HostChan) (d : Desc) (s : State), s.takes c 0x0005 d → s.pathStopped = false → s.dormantAllowed = true → s.aon.request = none →
    ∃ u, exec (.dormantEnter c .normal d) s = .next u ∧ u.hub.sysFinal = (if s.cfg.supplement then s.gauge.vBat - 1 / 10 else s.hub.sysFinal) ∧
      u.aon.request = some { dormant := true, automatic := false, deadline := s.now, stage := if s.cfg.supplement then .moving else .ramping })

/-- FUNC_STOP marks exactly the named functions; a function another channel stopped is DENIED. CFG_WRITE stages a good entry,
refuses a bad one unchanged. CFG_READ answers the value in force. A valid FUNC_START with changes writes a catalogue record
and runs on; without changes it answers and frees the functions; FUNC_ABORT frees them, drops their staged values and leaves
the settings in force. Rules: R344-R352. -/
def Obligations.ConfigurationTransactions : Prop :=
  (∀ (c : HostChan) (d : Desc) (m : BitVec 15) (s : State), s.takes c 0x0100 d → funcMask d.params = some m → (∀ f, m.getLsbD f = true → s.cfg.stop f = none) →
    ∃ u, exec (.funcStop c .normal d) s = .next u ∧ Answered u c d 0 ∧ (∀ f : Fin 15, m.getLsbD f.val = true → u.cfg.stoppedBy.get f = some c) ∧
      (∀ f : Fin 15, m.getLsbD f.val = false → u.cfg.stoppedBy.get f = s.cfg.stoppedBy.get f) ∧ u.cfg.inForce = s.cfg.inForce) ∧
  (∀ (c k : HostChan) (d : Desc) (m : BitVec 15) (f : Fin 15) (s : State), s.takes c 0x0100 d → funcMask d.params = some m → m.getLsbD f.val = true →
    s.cfg.stoppedBy.get f = some k → k ≠ c →
    ∃ u, exec (.funcStop c .normal d) s = .next u ∧ Answered u c d 6 ∧ u.cfg = s.cfg) ∧
  (∀ (c : HostChan) (d : Desc) (s : State), s.takes c 0x0101 d → u16 d.params 0 = 1 → u16 d.params 2 = 0 → s.writeFault c d.params 0 = none →
    ∃ u, exec (.cfgWrite c .normal d) s = .next u ∧ Answered u c d 0 ∧ u.cfg = { s.cfg with staged := putEntry (writeEntry d.params 0) s.cfg.staged }) ∧
  (∀ (c : HostChan) (d : Desc) (x : Nat) (s : State), s.takes c 0x0101 d → u16 d.params 0 = 1 → u16 d.params 2 = 0 → s.writeFault c d.params 0 = some (4, x) →
    ∃ u, exec (.cfgWrite c .normal d) s = .next u ∧ Answered u c d 4 ∧ u.cfg = s.cfg) ∧
  (∀ (c : HostChan) (d : Desc) (s : State), s.takes c 0x0102 d → u16 d.params 0 = 1 → u16 d.params 2 = 0 → readFault d.params 0 = none → u8 d.params 7 = 0 → Memory.wf s.host.mem →
    ∃ u, exec (.cfgRead c .normal d) s = .next u ∧ Answered u c d 0 ∧ u = { s with host := u.host } ∧
      u.memRead (mbxBase c + 0x1404) 4 = sle 4 (s.cfg.get (u8 d.params 4) (u8 d.params 5) (u8 d.params 6))) ∧
  (∀ (c : HostChan) (d : Desc) (m : BitVec 15) (s : State), s.takes c 0x0103 d → funcMask d.params = some m → (∀ f, m.getLsbD f = true → s.cfg.stop f = some c) →
    validate (s.checkCtx m) = none → s.stagedNew m = true → s.therm.flashShut = false →
    ∃ u, exec (.funcStart c .normal d) s = .next u ∧ RunsOn u c 0x0103 ∧ u.cfg = s.cfg ∧
      FlashJob.catalogue c (s.catRecord s.fwVersion m) ∈ u.flash.busy.toList ++ u.flash.queue) ∧
  (∀ (c : HostChan) (d : Desc) (m : BitVec 15) (s : State), s.takes c 0x0103 d → funcMask d.params = some m → (∀ f, m.getLsbD f = true → s.cfg.stop f = some c) →
    validate (s.checkCtx m) = none → s.stagedNew m = false →
    ∃ u, exec (.funcStart c .normal d) s = .next u ∧ Answered u c d 0 ∧ u.cfg.inForce = s.cfg.inForce ∧
      (∀ f : Fin 15, m.getLsbD f.val = true → u.cfg.stoppedBy.get f = none)) ∧
  (∀ (c : HostChan) (d : Desc) (m : BitVec 15) (s : State), s.takes c 0x0104 d → funcMask d.params = some m → (∀ f, m.getLsbD f = true → s.cfg.stop f = some c) →
    ∃ u, exec (.funcAbort c .normal d) s = .next u ∧ Answered u c d 0 ∧ u.cfg.inForce = s.cfg.inForce ∧
      (∀ f : Fin 15, m.getLsbD f.val = true → u.cfg.stoppedBy.get f = none) ∧ (∀ e ∈ u.cfg.staged, m.getLsbD e.fn = false))

/-- LANE_STOP holds the far node, ends its feed and stops its lane over 1 ms. LANE_START clears the hold, and the fault history of
a lane out of service but for its newest event, unless a latch, shutdown or sensor stands against it. PHASE_RETURN on a
stopped lane clears the mask and the trims and leaves the phases out until the lane starts; PHASE_RETIRE puts a phase of the
field after the sheds that wait and any other out at once; both answer after their record. LANE_STATUS answers the block.
Rules: R129, R353, R354. -/
def Obligations.LaneCommandsAct : Prop :=
  (∀ (c : HostChan) (d : Desc) (n : Lane) (s : State), s.takes c 0x0200 d → s.namedLane d = .ok n →
    ∃ u, exec (.laneStop c .normal d) s = .next u ∧ Answered u c d 0 ∧ (u.node (s.cfg.leader n)).hold = true ∧
      ((s.node (s.cfg.leader n)).feeding = none → u.conns = s.conns ∧ u.ports = s.ports)) ∧
  (∀ (c : HostChan) (d : Desc) (n : Lane) (s : State), s.takes c 0x0201 d → s.namedLane d = .ok n → (s.lane n).latched = false → (s.lane n).shut = false →
    (s.lane n).dieOk = true → (s.lane n).tslOk = true → (s.lane n).unresponsive = false →
    ∃ u, exec (.laneStart c .normal d) s = .next u ∧ Answered u c d 0 ∧ (u.node (s.cfg.leader n)).hold = false ∧
      u.lane n = { s.lane n with outOfService := false, faults := if (s.lane n).outOfService then (s.lane n).faults.take 1 else (s.lane n).faults } ∧
      (∀ m, m ≠ n → u.lane m = s.lane m)) ∧
  (∀ (c : HostChan) (d : Desc) (n : Lane) (s : State), s.takes c 0x0201 d → s.namedLane d = .ok n → (s.lane n).latched = true →
    ∃ u, exec (.laneStart c .normal d) s = .next u ∧ Answered u c d 5 ∧ u = { s with host := u.host }) ∧
  (∀ (c : HostChan) (d : Desc) (n : Lane) (s : State), s.takes c 0x0202 d → laneOf (u8 d.params 0) = some n → 0 < u8 d.params 1 → u8 d.params 1 < 16 →
    zeroBytes d.params 2 3 = true → (s.laneStateCode n = 0 ∨ (s.laneStateCode n = 3 ∧ (s.lane n).active = false)) →
    (∀ p : Pos, (u8 d.params 1).testBit p.val = true → s.phaseFit n p = true ∧ ((s.keep.out.get n).get p).isSome = true) →
    ∃ u, exec (.phaseReturn c .normal d) s = .next u ∧ RunsOn u c 0x0202 ∧ u.keep.trims.get n = none ∧ u.lanes = s.lanes ∧
      (∀ p : Pos, (u.keep.out.get n).get p = if (u8 d.params 1).testBit p.val then none else (s.keep.out.get n).get p)) ∧
  (∀ (c : HostChan) (d : Desc) (k : PhaseNo) (s : State), s.takes c 0x0203 d → d.params = [BitVec.ofNat 8 k.val, 0, 0, 0] →
    s.phaseFit (phaseLane k) (phasePos k) = true → ((s.keep.out.get (phaseLane k)).get (phasePos k)) = none →
    1 < ((List.finRange 4).filter (fun q => s.phaseFit (phaseLane k) q && ((s.keep.out.get (phaseLane k)).get q).isNone)).length →
    let l := s.lane (phaseLane k)
    ∃ u, exec (.phaseRetire c .normal d) s = .next u ∧ RunsOn u c 0x0203 ∧ ((u.keep.out.get (phaseLane k)).get (phasePos k)) = some .retired ∧
      (if l.active = true ∧ (l.phases.get (phasePos k)).st = .field then
        u.lane (phaseLane k) = { l with field := { l.field with retireNext := l.field.retireNext ++ [phasePos k] } }
       else ((u.lane (phaseLane k)).phases.get (phasePos k)).st = .out ∧ ((u.lane (phaseLane k)).phases.get (phasePos k)).kind = some .retired)) ∧
  (∀ (c : HostChan) (d : Desc) (n : Lane) (s : State), s.takes c 0x0204 d → s.namedLane d = .ok n → Memory.wf s.host.mem →
    ∃ u, exec (.laneStatus c .normal d) s = .next u ∧ Answered u c d 0 ∧ u.memRead (mbxBase c + 0x1400) 16 = s.laneBlock n ∧ u = { s with host := u.host })

/-- A charge current up to ICHG is taken, above it refused unchanged. CHG_HOLD sets cause 5 and suspends. CHG_RESTART in SUPPLY
with the battery clears causes 5 to 7 and starts a cycle with full budgets; with no battery it is WRONG_STATE. SRC_UNLOCK
ends a lockout of one connector, else WRONG_STATE. PORT_ACTION asks the port die for a power-role, data-role or VCONN swap when the
port is free and its setting allows it; error recovery of an unattached port is WRONG_STATE. The status commands answer their
blocks. Rules: R154, R198, R209, R355-R357. -/
def Obligations.ChargeSourceAndPortCommandsAct : Prop :=
  ((∀ (c : HostChan) (d : Desc) (s : State), s.takes c 0x0300 d → (u16 d.params 0 : Rat) / 20 ≤ s.ichg → zeroBytes d.params 2 3 = true →
     ∃ u, exec (.chgSetCurrent c .normal d) s = .next u ∧ Answered u c d 0 ∧ u.charge.iHost = (u16 d.params 0 : Rat) / 20 ∧ u.charge.phase = s.charge.phase ∧
       u.lanes = s.lanes) ∧
   (∀ (c : HostChan) (d : Desc) (s : State), s.takes c 0x0300 d → s.ichg < (u16 d.params 0 : Rat) / 20 →
     ∃ u, exec (.chgSetCurrent c .normal d) s = .next u ∧ Answered u c d 4 ∧ u = { s with host := u.host }) ∧
   (∀ (c : HostChan) (d : Desc) (s : State), s.takes c 0x0301 d → s.cycling = true →
     ∃ u, exec (.chgHold c .normal d) s = .next u ∧ Answered u c d 0 ∧ u.hasCause 5 = true ∧ u.suspended = true ∧ u.charge.phase = s.charge.phase) ∧
   (∀ (c : HostChan) (d : Desc) (s : State), s.takes c 0x0302 d → s.aon.mode = some .supply → s.charge.present = true → s.cfg.on 0 0 = true →
     ∃ u, exec (.chgRestart c .normal d) s = .next u ∧ Answered u c d 0 ∧ u.hasCause 5 = false ∧ u.hasCause 6 = false ∧ u.hasCause 7 = false ∧
       u.charge.startRound = true ∧ u.charge.phase = .idle ∧ u.charge.fastS = 0 ∧ u.charge.fastBudgetS = s.tmrFast ∧ u.charge.iSet = 0) ∧
   (∀ (c : HostChan) (d : Desc) (s : State), s.takes c 0x0302 d → s.charge.present = false →
     ∃ u, exec (.chgRestart c .normal d) s = .next u ∧ Answered u c d 5 ∧ u = { s with host := u.host }) ∧
   (∀ (c : HostChan) (d : Desc) (s : State), s.takes c 0x0303 d → Memory.wf s.host.mem →
     ∃ u, exec (.chgStatus c .normal d) s = .next u ∧ Answered u c d 0 ∧ u.memRead (mbxBase c + 0x1400) 24 = s.chargeBlock ∧ u = { s with host := u.host })) ∧
  ((∀ (c : HostChan) (d : Desc) (x : Src) (s : State), s.takes c 0x0400 d → srcOf (u8 d.params 0) = some x → zeroBytes d.params 1 3 = true → s.cfg.connFit x = true →
     (s.conn x).lockedOut = true →
     ∃ u, exec (.srcUnlock c .normal d) s = .next u ∧ Answered u c d 0 ∧ u.conn x = { s.conn x with lockedOut := false, known := (s.conn x).qualified, trips := [], lastTrip := none } ∧
       (∀ y, y ≠ x → u.conn y = s.conn y) ∧ u.ports = s.ports) ∧
   (∀ (c : HostChan) (d : Desc) (x : Src) (s : State), s.takes c 0x0400 d → srcOf (u8 d.params 0) = some x → zeroBytes d.params 1 3 = true → s.cfg.connFit x = true →
     (s.conn x).lockedOut = false →
     ∃ u, exec (.srcUnlock c .normal d) s = .next u ∧ Answered u c d 5 ∧ u = { s with host := u.host }) ∧
   (∀ (c : HostChan) (d : Desc) (p : Port) (s : State), s.takes c 0x0401 d → portOf (u8 d.params 0) = some p → zeroBytes d.params 1 3 = true →
     s.cfg.connFit (portSrc p) = true → Memory.wf s.host.mem →
     ∃ u, exec (.portStatus c .normal d) s = .next u ∧ Answered u c d 0 ∧ u.memRead (mbxBase c + 0x1400) 24 = s.portBlock p ∧ u = { s with host := u.host }) ∧
   (∀ (c : HostChan) (d : Desc) (p : Port) (m : PdMsg) (w : PdWait) (s : State), s.takes c 0x0402 d → portOf (u8 d.params 0) = some p → zeroBytes d.params 2 3 = true →
     ((s.port p).attach = .sink ∨ (s.port p).attach = .source) → (s.port p).contract.kind ≠ .none → (s.port p).softened = false → s.portStopped p = false →
     s.portFree p = true →
     ((u8 d.params 1 = 1 ∧ m = .prSwap ∧ w = .swapReply ∧ s.portGet p 12 ≠ 2 ∧ ((s.port p).attach = .source ∨ (s.portGet p 12 ≠ 0 ∧ s.canFeed p = true))) ∨
      (u8 d.params 1 = 2 ∧ m = .drSwap ∧ w = .drReply ∧ s.portGet p 13 ≠ 1) ∨
      (u8 d.params 1 = 3 ∧ m = .vconnSwap ∧ w = .vconnReply ∧ s.portGet p 14 ≠ 1 ∧ ((s.port p).vconn = true ∨ (s.pdie (portDie p)).vconnSupply = true))) →
     ∃ u, exec (.portAction c .normal d) s = .next u ∧ RunsOn u c 0x0402 ∧ (u.port p).wait = w ∧ u.conns = s.conns ∧ u.pdOut = s.pdOut ∧
       (u.pdie (dieOfSrc (portSrc p))).frames = (s.pdie (dieOfSrc (portSrc p))).frames ++ [{ eff := s.effTick, cmd := .send p m }]) ∧
   (∀ (c : HostChan) (d : Desc) (p : Port) (s : State), s.takes c 0x0402 d → portOf (u8 d.params 0) = some p → u8 d.params 1 = 6 → zeroBytes d.params 2 3 = true →
     (s.port p).attach = .unattached →
     ∃ u, exec (.portAction c .normal d) s = .next u ∧ Answered u c d 5 ∧ u = { s with host := u.host }))

/-- TRK_SEND queues a MESSAGE frame with the next sequence number to a valid node; node 0 is BAD_PARAM. A subscription with a
legal mask, depth and period opens the channel's stream, an unsubscription ends it, without one it is WRONG_STATE. The
status commands answer their blocks; LEDGER_INFO the number of records, LEDGER_READ the 32 bytes of each record from the one named on, 95 at
most. Rules: R286,
R316, R358-R361. -/
def Obligations.TrunkTelemetryAndLedgerCommandsAct : Prop :=
  (∀ (c : HostChan) (d : Desc) (t : TrunkPort) (s : State), s.takes c 0x0500 d → u16 d.params 0 < 4096 → u16 d.params 0 ≠ 0 → u16 d.params 0 ≠ s.trunk.nodeId.toNat →
    (s.link t).up = true → (s.link t).queue.length < 16 →
    ∃ u f, exec (.trkSend c .normal d) s = .next u ∧ Answered u c d 0 ∧ (u.link t).queue = (s.link t).queue ++ [f] ∧ f.type = 9 ∧
      f.dst = BitVec.ofNat 12 (u16 d.params 0) ∧ f.payload = d.params.drop 4 ∧ u.trunk.seq = s.trunk.seq + 1) ∧
  (∀ (c : HostChan) (d : Desc) (s : State), s.takes c 0x0500 d → u16 d.params 0 = 0 →
    ∃ u, exec (.trkSend c .normal d) s = .next u ∧ Answered u c d 4 ∧ u = { s with host := u.host }) ∧
  (∀ (c : HostChan) (d : Desc) (s : State), s.takes c 0x0501 d → Memory.wf s.host.mem →
    ∃ u, exec (.trkStatus c .normal d) s = .next u ∧ Answered u c d 0 ∧ u.memRead (mbxBase c + 0x1400) 24 = s.trunkBlock ∧ u = { s with host := u.host }) ∧
  (∀ (c : HostChan) (d : Desc) (s : State), s.takes c 0x0600 d → Memory.wf s.host.mem →
    ∃ u, exec (.fcstStatus c .normal d) s = .next u ∧ Answered u c d 0 ∧ u.memRead (mbxBase c + 0x1404) 4 = le32 s.fcst.handed.toNat ∧ u = { s with host := u.host }) ∧
  (∀ (c : HostChan) (d : Desc) (s : State), s.takes c 0x0700 d → u8 d.params 0 = c.val → BitVec.ofNat 96 (leAt d.params 8 12) ≠ 0 → 0 < u8 d.params 1 → u8 d.params 1 < 32 →
    0 < u16 d.params 2 → u16 d.params 2 ≤ 1000 → u8 d.params 4 = 0 → zeroBytes d.params 5 7 = true →
    ∃ u x, exec (.telSubscribe c .normal d) s = .next u ∧ Answered u c d 0 ∧ u.tel.streams.get c = some x ∧ x.mask = BitVec.ofNat 96 (leAt d.params 8 12) ∧
      x.period = u16 d.params 2 ∧ x.capture = false ∧ x.seq = 0 ∧ (∀ k, k ≠ c → u.tel.streams.get k = s.tel.streams.get k)) ∧
  (∀ (c : HostChan) (d : Desc) (s : State), s.takes c 0x0701 d → (s.tel.streams.get c).isSome = true →
    ∃ u, exec (.telUnsubscribe c .normal d) s = .next u ∧ Answered u c d 0 ∧ u.tel.streams.get c = none ∧ (∀ k, k ≠ c → u.tel.streams.get k = s.tel.streams.get k)) ∧
  (∀ (c : HostChan) (d : Desc) (s : State), s.takes c 0x0701 d → s.tel.streams.get c = none →
    ∃ u, exec (.telUnsubscribe c .normal d) s = .next u ∧ Answered u c d 5 ∧ u.tel = s.tel) ∧
  (∀ (c : HostChan) (d : Desc) (s : State), s.takes c 0x0702 d → s.therm.flashShut = false → Memory.wf s.host.mem →
    ∃ u, exec (.ledgerInfo c .normal d) s = .next u ∧ Answered u c d 0 ∧ u.memRead (mbxBase c + 0x1408) 4 = le32 s.flash.ledger.length ∧ u = { s with host := u.host }) ∧
  (∀ (c : HostChan) (d : Desc) (s : State), s.takes c 0x0703 d → s.therm.flashShut = false → 1 ≤ u16 d.params 4 → u16 d.params 4 ≤ 95 → u16 d.params 6 = 0 →
    s.flash.ledger ≠ [] → u32 d.params 0 ≤ (s.flash.ledger.map (·.acc)).foldl max 0 → Memory.wf s.host.mem →
    let rs := (s.flash.ledger.reverse.filter (fun r => u32 d.params 0 ≤ r.acc)).take (u16 d.params 4)
    ∃ u, exec (.ledgerRead c .normal d) s = .next u ∧ Answered u c d 0 ∧ u.memRead (mbxBase c + 0x1404) 2 = le16 rs.length ∧
      u.memRead (mbxBase c + 0x1408) (32 * rs.length) = rs.flatMap ledgerBytes ∧ u = { s with host := u.host })

/-- Each that is accepted starts its flash job and runs on, leaving the session record until the job completes; UPD_RELAY starts
or ends the relay at once. A bad manifest, no session, a block missing at the seal, a kickoff time too near, no window and
no session to abort are answered with their codes and leave the session unchanged. UPD_STATUS answers the block. Rules:
R362, R394-R407. One job per command: log entry 43. -/
def Obligations.UpdateCommandsAct : Prop :=
  ((∀ (c : HostChan) (d : Desc) (s : State), s.hubUp = true → ((s.mbx c).st = .idle) → ¬ ((s.mbx c).lastSeq = d.seq ∧ (s.mbx c).lastOp = 0x0800) →
     precheck 0x0800 .normal d = none → s.update.isOpen = false → s.update.storing = false → s.manCheck d.params = none → s.therm.flashShut = false →
     s.flash.stagingErased = true →
     ∃ u, exec (.updOpen c .normal d) s = .next u ∧ RunsOn u c 0x0800 ∧ FlashJob.update c 0x0800 ∈ u.flash.busy.toList ++ u.flash.queue ∧ u.update = s.update) ∧
   (∀ (c : HostChan) (d : Desc) (k r : Nat) (s : State), s.takes c 0x0800 d → s.update.isOpen = false → s.update.storing = false → s.manCheck d.params = some (k, r) →
     ∃ u, exec (.updOpen c .normal d) s = .next u ∧ Answered u c d k ∧ u.update = s.update ∧ u.flash = s.flash) ∧
   (∀ (c : HostChan) (d : Desc) (s : State), s.takes c 0x0801 d → s.update.isOpen = false →
     ∃ u, exec (.updBlock c .normal d) s = .next u ∧ Answered u c d 14 ∧ u.update = s.update) ∧
   (∀ (c : HostChan) (d : Desc) (s : State), s.takes c 0x0801 d → s.update.st = .receiving → s.update.relayed = false → u32 d.params 0 < manBlocks s.update.manifest →
     s.update.held (u32 d.params 0) = none → s.therm.flashShut = false →
     ∃ u, exec (.updBlock c .normal d) s = .next u ∧ RunsOn u c 0x0801 ∧ FlashJob.update c 0x0801 ∈ u.flash.busy.toList ++ u.flash.queue ∧ u.update = s.update) ∧
   (∀ (c : HostChan) (d : Desc) (s : State), s.takes c 0x0802 d → s.update.st = .receiving → s.update.relayed = false → s.update.allHeld = true → s.update.buildDone = true →
     s.therm.flashShut = false →
     ∃ u, exec (.updSeal c .normal d) s = .next u ∧ RunsOn u c 0x0802 ∧ FlashJob.update c 0x0802 ∈ u.flash.busy.toList ++ u.flash.queue ∧ u.update = s.update) ∧
   (∀ (c : HostChan) (d : Desc) (s : State), s.takes c 0x0802 d → s.update.st = .receiving → s.update.allHeld = false →
     ∃ u, exec (.updSeal c .normal d) s = .next u ∧ Answered u c d 5 ∧ u.update = s.update)) ∧
  ((∀ (c : HostChan) (d : Desc) (s : State), s.takes c 0x0803 d → s.update.st = .sealedUp → s.fleetUs + 1000000 ≤ u64 d.params 0 → u8 d.params 8 ≤ 1 →
     zeroBytes d.params 9 11 = true →
     ∃ u, exec (.updKickoff c .normal d) s = .next u ∧ RunsOn u c 0x0803 ∧ FlashJob.update c 0x0803 ∈ u.flash.busy.toList ++ u.flash.queue ∧ u.update = s.update) ∧
   (∀ (c : HostChan) (d : Desc) (s : State), s.takes c 0x0803 d → s.update.st = .sealedUp → u64 d.params 0 < s.fleetUs + 1000000 →
     ∃ u, exec (.updKickoff c .normal d) s = .next u ∧ Answered u c d 4 ∧ u.update = s.update) ∧
   (∀ (c : HostChan) (d : Desc) (t : TrunkPort) (s : State), s.takes c 0x0804 d → s.update.st = .sealedUp → s.trkOn = true → (s.link t).up = true →
     u8 d.params 0 = 1 → zeroBytes d.params 1 3 = true →
     ∃ u, exec (.updRelay c .normal d) s = .next u ∧ Answered u c d 0 ∧ u.trunk.relay = true ∧ u.trunk.relayPass = 1 ∧
       u.trunk.relayLeft = List.range ((s.update.stream.length + 255) / 256) ∧ u.update = s.update) ∧
   (∀ (c : HostChan) (d : Desc) (t : TrunkPort) (s : State), s.takes c 0x0804 d → s.update.st = .sealedUp → s.trkOn = true → (s.link t).up = true →
     u8 d.params 0 = 0 → zeroBytes d.params 1 3 = true →
     ∃ u, exec (.updRelay c .normal d) s = .next u ∧ Answered u c d 0 ∧ u.trunk.relay = false ∧ u.trunk.relayLeft = []) ∧
   (∀ (c : HostChan) (d : Desc) (s : State), s.takes c 0x0805 d → s.update.st = .active → s.update.window = true → s.update.spoiled = false → s.update.wdgSpoiled = false →
     manHostConfirm s.update.manifest = true →
     ∃ u, exec (.updConfirm c .normal d) s = .next u ∧ RunsOn u c 0x0805 ∧ FlashJob.update c 0x0805 ∈ u.flash.busy.toList ++ u.flash.queue ∧ u.update = s.update) ∧
   (∀ (c : HostChan) (d : Desc) (s : State), s.takes c 0x0805 d → s.update.window = false →
     ∃ u, exec (.updConfirm c .normal d) s = .next u ∧ Answered u c d 5 ∧ u.update = s.update) ∧
   (∀ (c : HostChan) (d : Desc) (s : State), s.takes c 0x0806 d → s.update.st ≠ .idle → s.update.st ≠ .active →
     ∃ u, exec (.updAbort c .normal d) s = .next u ∧ RunsOn u c 0x0806 ∧ FlashJob.update c 0x0806 ∈ u.flash.busy.toList ++ u.flash.queue ∧ u.update = s.update) ∧
   (∀ (c : HostChan) (d : Desc) (s : State), s.takes c 0x0806 d → s.update.st = .idle →
     ∃ u, exec (.updAbort c .normal d) s = .next u ∧ Answered u c d 14 ∧ u.update = s.update) ∧
   (∀ (c : HostChan) (d : Desc) (s : State), s.takes c 0x0807 d → Memory.wf s.host.mem →
     ∃ u, exec (.updStatus c .normal d) s = .next u ∧ Answered u c d 0 ∧ u.memRead (mbxBase c + 0x1400) 24 = s.updBlock ∧ u = { s with host := u.host }))

/-- THERM_RELEASE unlatches a lane below its release temperatures, at 130 degC or above it is WRONG_STATE. HND_UNLOCK needs
TESTEN and its key. DIAG_READ answers and clears the counters of one lane, of one port die or of the hub. The cycle counter advances only while the division is
forced to 3; with the unit locked nothing changes. Rules: R301, R304, R363, R364, R433-R435. -/
def Obligations.ReleaseHandicapAndDiagnostics : Prop :=
  (∀ (c : HostChan) (d : Desc) (n : Lane) (s : State), s.takes c 0x0900 d → s.namedLane d = .ok n → (s.lane n).latched = true → (s.lane n).tempDie < 130 →
    (s.lane n).tempTsl < s.releaseAt (.tsl n) →
    ∃ u, exec (.thermRelease c .normal d) s = .next u ∧ Answered u c d 0 ∧ u.lane n = { s.lane n with latched := false } ∧ (∀ m, m ≠ n → u.lane m = s.lane m)) ∧
  (∀ (c : HostChan) (d : Desc) (n : Lane) (s : State), s.takes c 0x0900 d → s.namedLane d = .ok n → (s.lane n).latched = true → 130 ≤ (s.lane n).tempDie →
    ∃ u, exec (.thermRelease c .normal d) s = .next u ∧ Answered u c d 5 ∧ u.lanes = s.lanes) ∧
  (∀ (c : HostChan) (d : Desc) (s : State), s.takes c 0x0A00 d → s.aon.straps.testen = true → u32 d.params 0 = 0x48440724 →
    ∃ u, exec (.hndUnlock c .normal d) s = .next u ∧ Answered u c d 0 ∧ u.hnd = { s.hnd with unlocked := true }) ∧
  (∀ (c : HostChan) (d : Desc) (s : State), s.takes c 0x0A00 d → s.aon.straps.testen = false →
    ∃ u, exec (.hndUnlock c .normal d) s = .next u ∧ Answered u c d 6 ∧ u = { s with host := u.host }) ∧
  (∀ (c : HostChan) (d : Desc) (n : Lane) (s : State), s.takes c 0x0A02 d → d.params = [0, BitVec.ofNat 8 n.val, 1, 0] → s.cfg.laneFitted n = true → Memory.wf s.host.mem →
    ∃ u, exec (.diagRead c .normal d) s = .next u ∧ Answered u c d 0 ∧ (u.lane n).diag = LaneDie.zero.diag ∧ (∀ m, m ≠ n → u.lane m = s.lane m) ∧
      u.memRead (mbxBase c + 0x1400) 4 = le32 (sat32 (s.lane n).diag.late)) ∧
  (∀ (c : HostChan) (d : Desc) (m : PortDie) (s : State), s.takes c 0x0A02 d → d.params = [1, BitVec.ofNat 8 m.val, 1, 0] →
    ∃ u, exec (.diagRead c .normal d) s = .next u ∧ Answered u c d 0 ∧ u.lanes = s.lanes ∧
      u.pdie m = { s.pdie m with late := 0, softResets := 0, pdCrc := 0, trips := 0, badTa := 0, badTb := 0, dropped := 0 }) ∧
  (∀ (c : HostChan) (d : Desc) (s : State), s.takes c 0x0A02 d → d.params = [2, 0, 1, 0] →
    ∃ u, exec (.diagRead c .normal d) s = .next u ∧ Answered u c d 0 ∧ u.lanes = s.lanes ∧ u.portDies = s.portDies ∧
      u.fcst = { s.fcst with crcErr := 0, verErr := 0, lenErr := 0, intErr := 0, lateFrames := 0 } ∧ u.host.spiDiscards = 0 ∧ u.host.uartDiscards = 0 ∧
      u.tel.dropped = 0) ∧
  (∀ s : State, s.hubUp = true → s.hnd.forceDiv = 3 →
    ∃ u, exec .handicapDivCycle s = .next u ∧ u = { s with hnd := { s.hnd with cycle := (s.hnd.cycle + 1) % 3 } }) ∧
  (∀ s : State, s.hnd.unlocked = false → exec .handicapDivCycle s = .next s)

/-- Reads of the seven registers are never refused. With VIO present a write of one of the five writable registers while unlocked waits for the
boundary; while locked it changes nothing of the unit and is a violation of kind 2. HND_LOCK locks and returns the registers
to their reset values, keeping the counters; a cold boot returns the whole unit to reset, a warm boot keeps it. Rules: R433. -/
def Obligations.HandicapRegistersFollowTheLock : Prop :=
  (∀ (i : Iface) (r : Fin 7) (s : State), s.refuses i (0x5000 + 4 * r.val) none = none) ∧
  (∀ (i : Iface) (r : Fin 7) (v : Word) (s : State), s.hostUp = true → s.hnd.unlocked = true → r.val < 5 →
    ∃ u, exec (.hndRegisterWrite i r v) s = .next u ∧ u = { s with hnd := { s.hnd with queue := s.hnd.queue ++ [(r.val, v)] } }) ∧
  (∀ (i : Iface) (r : Fin 7) (v : Word) (s : State), s.hostUp = true → s.hnd.unlocked = false →
    ∃ u, exec (.hndRegisterWrite i r v) s = .next u ∧ u.hnd = s.hnd ∧ u.host.viol.count = bvSatInc s.host.viol.count ∧
      (s.host.viol.valid = false → u.host.viol.kind = 2 ∧ u.host.viol.write = true)) ∧
  (∀ (c : HostChan) (d : Desc) (s : State), s.takes c 0x0A01 d →
    ∃ u, exec (.hndLock c .normal d) s = .next u ∧ Answered u c d 0 ∧ u.hnd.unlocked = false ∧
      u.hnd = { Handicap.zero with delayed := s.hnd.delayed, pdDelayed := s.hnd.pdDelayed }) ∧
  (∀ (c : Nat) (b : BootPins) (s : State), s.hub.hub = .held c false → s.heldInReset = false → (2 < c ∨ b.ftHigh = false) →
    ∃ u, exec (.coldBoot b) s = .next u ∧ u.hnd = Handicap.zero) ∧
  (∀ (c : Nat) (s : State), s.hub.hub = .held c true → s.heldInReset = false →
    ∃ u, exec (.warmBoot true) s = .next u ∧ u.hnd = s.hnd)

/-- A completed learned record heads its half, a completed ledger record heads the ledger and leaves the queue, a completed
staging erase clears the journal. A queued record starts its write when its sector or the next one is erased and no record is under way; with
an empty queue nothing happens. Background erases and builds start only on an idle flash die, and nothing starts while it is
shut down. Rules: R383, R384, R388-R390, R395, R398. Log entries 43 and 64. -/
def Obligations.TheFlashDieWorks : Prop :=
  (∀ (r : LearnedRec) (s : State), s.hubUp = true → s.flash.busy = some (.learned r) → s.flash.queue = [] → s.therm.flashShut = false →
    ∃ u, exec .flashOperationComplete s = .next u ∧ u.flash.busy = none ∧ u.flash.suspended = false ∧
      u.flash.learned.get s.flash.learnedActive = r :: s.flash.learned.get s.flash.learnedActive ∧ u.flash.ledger = s.flash.ledger) ∧
  (∀ (r : LedgerRec) (s : State), s.hubUp = true → s.flash.busy = some (.ledger r) → s.flash.queue = [] → s.therm.flashShut = false →
    (∀ c, (s.mbx c).running = none) →
    ∃ u, exec .flashOperationComplete s = .next u ∧ u.flash.busy = none ∧ u.flash.ledger = r :: s.flash.ledger ∧ u.ledger.queue = s.ledger.queue.drop 1) ∧
  (∀ s : State, s.hubUp = true → s.flash.busy = none → s.flash.background = some .staging → s.flash.queue = [] → s.therm.flashShut = false →
    ∃ u, exec .flashOperationComplete s = .next u ∧ u.flash.background = none ∧ u.flash.stagingErased = true ∧ u.flash.journal = []) ∧
  (∀ (r : LedgerRec) (l : List LedgerRec) (s : State), s.hubUp = true → s.ledger.queue = r :: l → s.flash.ledgerBusy = false →
    (s.flash.ledgerErased = true ∨ s.flash.ledgerSlot % 128 ≠ 0) →
    ∃ u, exec .ledgerWrite s = .next u ∧ FlashJob.ledger r ∈ u.flash.busy.toList ++ u.flash.queue ∧ u.ledger = s.ledger) ∧
  (∀ s : State, s.ledger.queue = [] → exec .ledgerWrite s = .next s) ∧
  (∀ s : State, s.hubUp = true → s.flash.ledgerErased = false → s.flash.busy = none → s.flash.background = none → s.therm.flashShut = false →
    ∃ u, exec .ledgerSectorErase s = .next u ∧ u = { s with flash := { s.flash with background := some .ledgerErase } }) ∧
  (∀ s : State, s.hubUp = true → s.flash.stagingErased = false → (s.update.st = .idle ∨ s.update.st = .rejected) → s.flash.busy = none → s.flash.background = none → s.therm.flashShut = false →
    ∃ u, exec .stagingErase s = .next u ∧ u = { s with flash := { s.flash with background := some .staging } }) ∧
  (∀ (k : Fin 512) (s : State), s.hubUp = true → s.update.st = .receiving → s.update.manifest ≠ [] → k.val < manSectors s.update.manifest →
    s.update.built.contains k.val = false → (s.sectorSource k.val).isSome = true → s.flash.busy = none → s.flash.background = none → s.therm.flashShut = false →
    ∃ u, exec (.shelfSectorBuild k) s = .next u ∧ u = { s with flash := { s.flash with background := some (.sector k.val) } }) ∧
  (∀ (k : Fin 512) (s : State), s.therm.flashShut = true → exec (.shelfSectorBuild k) s = .next s)

/-- At its fleet time an armed shelf with no miss is on trial, the window opens and the hub reboots with cause 9; a miss notes
its reason and nothing else. Before the time nothing changes. 120 s later an unspoiled shelf without host confirmation is
confirmed; a spoiled one, or one whose host has not confirmed it, is retired and the hub reboots with cause 10. Rules: R401, R402, R404. -/
def Obligations.KickoffAndHealthWindow : Prop :=
  (∀ (t r : Nat) (s : State), s.hubUp = true → s.update.kickoff = some t → t ≤ s.fleetUs → s.update.kickDone = false → s.update.st ≠ .active →
    s.update.st ≠ .rejected → s.kickMiss t = some r →
    ∃ u, exec .kickoffTimeReached s = .next u ∧ u.update = { s.update with reason := r, kickDone := true } ∧ u.flash = s.flash ∧ u.hub = s.hub) ∧
  (∀ (t : Nat) (s : State), s.hubUp = true → s.update.kickoff = some t → t ≤ s.fleetUs → s.update.kickDone = false → s.update.st = .armed →
    s.kickMiss t = none →
    ∃ u, exec .kickoffTimeReached s = .next u ∧ u.update.st = .active ∧ u.update.window = true ∧ u.update.kickDone = true ∧
      (u.flash.shelves.get s.update.target).trial = true ∧ u.hub.hub = .held 9 false) ∧
  (∀ (t : Nat) (s : State), s.update.kickoff = some t → s.fleetUs < t → exec .kickoffTimeReached s = .next s) ∧
  (∀ (t : Nat) (s : State), s.hubUp = true → s.update.kickoff = some t → s.update.st = .active → s.update.window = true → t + 120000000 ≤ s.fleetUs →
    manHostConfirm s.update.manifest = false → s.update.spoiled = false → s.update.wdgSpoiled = false →
    ∃ u, exec .healthWindowEnd s = .next u ∧ (u.flash.shelves.get s.update.target).confirmed = true ∧ u.update.st = .idle ∧ u.hub = s.hub) ∧
  (∀ (t : Nat) (s : State), s.hubUp = true → s.update.kickoff = some t → s.update.st = .active → s.update.window = true → t + 120000000 ≤ s.fleetUs →
    (manHostConfirm s.update.manifest = true ∨ s.update.spoiled = true ∨ s.update.wdgSpoiled = true) →
    ∃ u, exec .healthWindowEnd s = .next u ∧ (u.flash.shelves.get s.update.target).retired = true ∧ u.update.st = .idle ∧ u.hub.hub = .held 10 false)

/-- A compare match or overflow that is due runs one clock edge of every timer, one that is not changes nothing. A first
check-in is noted, a second is a double. The key pair closes the window when every task of the line-up has checked in, else
is refused and counted; a key out of order is bad. The lock is set. At the window's end the hub is held with cause 6 and the missing and double tasks,
the tick and the count are recorded. Rules: R366-R368, R376-R379. -/
def Obligations.TimersAndWatchdog : Prop :=
  ((∀ (c : Fin 16) (k : Fin 4) (s : State), s.clocked = true → s.time.edges < 1000 → s.timers.fires c k.val = true →
     ∃ u, exec (.timerCompareMatch c k) s = .next u ∧ u.timers = s.timers.edge ∧ u.time = { s.time with edges := s.time.edges + 1 }) ∧
   (∀ (c : Fin 16) (k : Fin 4) (s : State), s.timers.fires c k.val = false → exec (.timerCompareMatch c k) s = .next s) ∧
   (∀ (c : Fin 16) (s : State), s.clocked = true → s.time.edges < 1000 → s.timers.fires c 4 = true →
     ∃ u, exec (.timerOverflow c) s = .next u ∧ u.timers = s.timers.edge ∧ u.time = { s.time with edges := s.time.edges + 1 })) ∧
  ((∀ (t : Fin 16) (s : State), s.wdg.runs = true → s.wdg.ended = false → s.wdg.seen.getLsbD t.val = false →
     ∃ u, exec (.wdgCheckin t) s = .next u ∧ u.wdg = { s.wdg with seen := s.wdg.seen ||| (1#16 <<< t.val) } ∧ u = { s with wdg := u.wdg }) ∧
   (∀ (t : Fin 16) (s : State), s.wdg.runs = true → s.wdg.ended = false → s.wdg.seen.getLsbD t.val = true →
     ∃ u, exec (.wdgCheckin t) s = .next u ∧ u.wdg.double = s.wdg.double ||| (1#16 <<< t.val) ∧ u.wdg.seen = s.wdg.seen ∧ u = { s with wdg := u.wdg }) ∧
   (∀ s : State, s.wdg.runs = true → s.wdg.ended = false →
     ∃ u, exec (.wdgKey 0xA5C3) s = .next u ∧ u = { s with wdg := { s.wdg with armed := true } }) ∧
   (∀ s : State, s.wdg.runs = true → s.wdg.ended = false → s.wdg.armed = true → s.wdg.lineup &&& ~~~s.wdg.seen = 0 →
     ∃ u, exec (.wdgKey 0x3C5A) s = .next u ∧ u = { s with wdg := { s.wdg with armed := false, elapsed := some 0, window := s.wdg.nextWindow, seen := 0, double := 0 } }) ∧
   (∀ s : State, s.wdg.runs = true → s.wdg.ended = false → s.wdg.armed = true → s.wdg.lineup &&& ~~~s.wdg.seen ≠ 0 →
     ∃ u, exec (.wdgKey 0x3C5A) s = .next u ∧ u = { s with wdg := { s.wdg with armed := false, keyRefused := bvSatInc s.wdg.keyRefused } }) ∧
   (∀ (v : Half) (s : State), s.wdg.runs = true → s.wdg.ended = false → v ≠ 0xA5C3 → (v ≠ 0x3C5A ∨ s.wdg.armed = false) →
     ∃ u, exec (.wdgKey v) s = .next u ∧ u = { s with wdg := { s.wdg with armed := false, badKey := bvSatInc s.wdg.badKey } }) ∧
   (∀ (v : Word) (s : State), s.wdg.runs = true → v.getLsbD 0 = true →
     ∃ u, exec (.wdgLock v) s = .next u ∧ u = { s with wdg := { s.wdg with locked := true } }) ∧
   (∀ s : State, s.hub.hub = .running → s.wdg.ended = true →
     ∃ u, exec .watchdogExpiry s = .next u ∧ u.hub.hub = .held 6 (s.warmChosen 6) ∧ u.wdg.lastMissing = s.wdg.lineup &&& ~~~s.wdg.seen ∧
       u.wdg.lastDouble = s.wdg.double ∧ u.wdg.lastTick = s.tickWord ∧ u.wdg.rstCount = bvSatInc s.wdg.rstCount ∧ u.wdg.expired = true ∧ u.wdg.elapsed = none) ∧
   (∀ s : State, s.wdg.ended = false → exec .watchdogExpiry s = .next s))

/-- With the hub up and VIO present, for every mask: tick, sub-tick position and sequence are taken; each selected counter, and both of a linked
pair when either bit is set, has its value before the edge copied and is otherwise unchanged; every other counter is
unchanged; bit 16 takes the coulomb counter, bit 17 the fleet time, unselected ones stay; nothing else of the state changes.
Rules: R369. -/
def Obligations.CapturesTakeOneEdge : Prop :=
  ∀ (v : Word) (s : State), s.hostUp = true →
    ∃ u, exec (.tmrCapture v) s = .next u ∧
      u.timers.capTick = s.tickWord ∧ u.timers.capSub = BitVec.ofNat 8 s.subTick ∧ u.timers.capSeq = s.timers.capSeq + 1 ∧
      (∀ c : Fin 16, v.getLsbD c.val = true → u.timers.tmr.get c = { s.timers.tmr.get c with cap := (s.timers.tmr.get c).cnt }) ∧
      (∀ c : Fin 16, (s.timers.tmr.get (evenOf c)).linked = true → (v.getLsbD (evenOf c).val = true ∨ v.getLsbD (oddOf c).val = true) →
        u.timers.tmr.get c = { s.timers.tmr.get c with cap := (s.timers.tmr.get c).cnt }) ∧
      (∀ c : Fin 16, v.getLsbD c.val = false → ((s.timers.tmr.get (evenOf c)).linked = false ∨ (v.getLsbD (evenOf c).val = false ∧ v.getLsbD (oddOf c).val = false)) →
        u.timers.tmr.get c = s.timers.tmr.get c) ∧
      (v.getLsbD 16 = true → u.gauge = { s.gauge with capSum := s.gauge.sum, capTick := BitVec.ofNat 32 s.gauge.lastTick }) ∧
      (v.getLsbD 16 = false → u.gauge = s.gauge) ∧
      u.timers.fleetCap = (if v.getLsbD 17 then BitVec.ofNat 64 s.fleetUs else s.timers.fleetCap) ∧
      u = { s with timers := u.timers, gauge := u.gauge }

/-- With STAT in use: SAFE gives OFF and ON; else a latched cause 7-11 OFF and FAST; else SUPPLY without battery OFF and BLIP;
else cause 6 SLOW and DOUBLE; else another cause SLOW and SLOW; else by phase: TRICKLE or PRECHARGE SLOW and OFF, CC or CV
ON and OFF, TERMINATED BLIP and OFF, IDLE OFF and OFF. The power-downs into SHIP and DORMANT leave both outputs OFF. Rules:
R215. -/
def Obligations.StatPatternsFollowTheTable : Prop :=
  let latched := fun (s : State) => ∃ k, 7 ≤ k ∧ k ≤ 11 ∧ s.hasCause k = true
  (∀ s : State, s.cfg.get 0 15 ≠ 0 → s.aon.mode = some .safe → s.statPatterns = (.off, .on)) ∧
  (∀ s : State, s.cfg.get 0 15 ≠ 0 → s.aon.mode ≠ some .safe → latched s → s.statPatterns = (.off, .fast)) ∧
  (∀ s : State, s.cfg.get 0 15 ≠ 0 → s.aon.mode = some .supply → ¬ latched s → s.charge.present = false → s.statPatterns = (.off, .blip)) ∧
  (∀ s : State, s.cfg.get 0 15 ≠ 0 → s.aon.mode ≠ some .safe → (s.aon.mode ≠ some .supply ∨ s.charge.present = true) → ¬ latched s →
    (s.hasCause 6 = true → s.statPatterns = (.slow, .double)) ∧
    (s.hasCause 6 = false → s.suspended = true → s.statPatterns = (.slow, .slow)) ∧
    (s.hasCause 6 = false → s.suspended = false → s.statPatterns = (match s.charge.phase with
      | .trickle | .precharge => (.slow, .off) | .cc | .cv => (.on, .off) | .terminated => (.blip, .off) | .idle => (.off, .off)))) ∧
  (∀ (r : Request) (s : State), s.aon.request = some r → r.dormant = false → r.stage = .pairOpen → r.deadline + 110 ≤ s.now →
    ∃ u, exec .shipFetOpen s = .next u ∧ u.aon.mode = some .ship ∧ u.aon.stat0 = .off ∧ u.aon.stat1 = .off) ∧
  (∀ (r : Request) (s : State), s.hubUp = true → s.aon.request = some r → r.dormant = true → r.stage = .ramping → s.dormantAllowed = true → s.aon.safeLatch = false →
    (∀ n, s.cfg.battLane = some n → ∀ m ∈ s.cfg.gang n, (s.lane m).active = false) →
    ∃ u, exec .dormantPowerDown s = .next u ∧ u.aon.mode = some .dormant ∧ u.aon.stat0 = .off ∧ u.aon.stat1 = .off)
end

