-- ==== Sys2Proof/Laws/Kept.lean ====
section
/-! SUPPORT. What every command keeps: the queue of waiting commands, the canonical form of the host's memory, the
bound of the record queue, and a set SAFE latch. Each operation of the machine has one lemma `<name>_kept`. -/

namespace Sys2Proof.Machine

/-- The queue of waiting commands, the tick and the unit identity. -/
abbrev Held := List Instr × Nat × Dword

/-- The kept facts over the fields they speak of. `p` is what is held to the letter; with `L` the SAFE latch stays set. -/
def KeptP (p : Held) (L : Bool) (q : List Instr) (n : Nat) (o : Dword) (m : List Host.Cell) (l : List LedgerRec) (safe : Bool) : Prop :=
  (q, n, o) = p ∧ Memory.wf m ∧ l.length ≤ 64 ∧ (L = true → safe = true)

abbrev KeptOf (p : Held) (L : Bool) (s : State) : Prop := KeptP p L s.pending s.time.tick s.otp.unit s.host.mem s.ledger.queue s.aon.safeLatch

/-- The kept facts of a next state; a stop keeps nothing. -/
@[irreducible] def KeptOut (p : Held) (L : Bool) : Out → Prop
  | .next t => KeptOf p L t
  | _ => True

/-- The kept facts of what a command body answers. -/
@[irreducible] def KeptRes (p : Held) (L : Bool) : Res → Prop
  | .reply _ _ t => KeptOf p L t
  | .run _ t => KeptOf p L t

/-- The held data with the tick moved. -/
def Held.goTo (p : Held) (n : Nat) : Held := (p.1, n, p.2.2)

/-- The kept facts of a row that may move the tick. -/
@[irreducible] def KeptMoved (p : Held) (L : Bool) : Out → Prop
  | .next t => ∃ n, KeptOf (p.goTo n) L t
  | _ => True

theorem keptGoTo {p : Held} {L : Bool} {q : List Instr} {k : Nat} {o : Dword} {m : List Host.Cell} {l : List LedgerRec} {b : Bool} (n : Nat)
    (h : KeptP p L q k o m l b) : KeptP (p.goTo n) L q n o m l b := ⟨by rw [← h.1]; rfl, h.2⟩

theorem keptMoved_next {p : Held} {L : Bool} {s : State} (n : Nat) (h : KeptOf (p.goTo n) L s) : KeptMoved p L (.next s) := by
  unfold KeptMoved; exact ⟨n, h⟩

theorem keptMoved_stay {p : Held} {L : Bool} {s : State} (h : KeptOf p L s) : KeptMoved p L (.next s) :=
  keptMoved_next p.2.1 h

theorem keptMoved_of {p : Held} {L : Bool} {o : Out} {t : State} (h : KeptMoved p L o) (ho : o = .next t) : ∃ n, KeptOf (p.goTo n) L t := by
  subst ho; unfold KeptMoved at h; exact h

theorem keptMovedIf {p : Held} {L : Bool} {c : Prop} [Decidable c] {a b : Out}
    (ha : c → KeptMoved p L a) (hb : ¬c → KeptMoved p L b) : KeptMoved p L (if c then a else b) := by
  by_cases h : c
  · simpa only [if_pos h] using ha h
  · simpa only [if_neg h] using hb h

theorem keptIf {p : Held} {L : Bool} {c : Prop} [Decidable c] {a b : State}
    (ha : c → KeptOf p L a) (hb : ¬c → KeptOf p L b) : KeptOf p L (if c then a else b) := by
  by_cases h : c
  · simpa only [if_pos h] using ha h
  · simpa only [if_neg h] using hb h

theorem keptIfOut {p : Held} {L : Bool} {c : Prop} [Decidable c] {a b : Out}
    (ha : c → KeptOut p L a) (hb : ¬c → KeptOut p L b) : KeptOut p L (if c then a else b) := by
  by_cases h : c
  · simpa only [if_pos h] using ha h
  · simpa only [if_neg h] using hb h

theorem keptIfRes {p : Held} {L : Bool} {c : Prop} [Decidable c] {a b : Res}
    (ha : c → KeptRes p L a) (hb : ¬c → KeptRes p L b) : KeptRes p L (if c then a else b) := by
  by_cases h : c
  · simpa only [if_pos h] using ha h
  · simpa only [if_neg h] using hb h

theorem keptNext {p : Held} {L : Bool} {s : State} (h : KeptOf p L s) : KeptOut p L (.next s) := by
  unfold KeptOut; exact h

theorem keptReply {p : Held} {L : Bool} {s : State} {c : Nat} {r : List Byte} (h : KeptOf p L s) :
    KeptRes p L (.reply c r s) := by
  unfold KeptRes; exact h

theorem keptRun {p : Held} {L : Bool} {s : State} {b : Bool} (h : KeptOf p L s) : KeptRes p L (.run b s) := by
  unfold KeptRes; exact h

theorem keptOut_next {p : Held} {L : Bool} {o : Out} {t : State} (h : KeptOut p L o) (ho : o = .next t) : KeptOf p L t := by
  subst ho; unfold KeptOut at h; exact h

theorem keptRes_reply {p : Held} {L : Bool} {r : Res} {c : Nat} {b : List Byte} {t : State} (h : KeptRes p L r)
    (hr : r = .reply c b t) : KeptOf p L t := by
  subst hr; unfold KeptRes at h; exact h

theorem keptRes_run {p : Held} {L : Bool} {r : Res} {c : Bool} {t : State} (h : KeptRes p L r)
    (hr : r = .run c t) : KeptOf p L t := by
  subst hr; unfold KeptRes at h; exact h

theorem keptFold {p : Held} {L : Bool} {α : Type} {f : State → α → State} {l : List α} {s : State}
    (h : KeptOf p L s) (hf : ∀ s x, KeptOf p L s → KeptOf p L (f s x)) : KeptOf p L (l.foldl f s) := by
  induction l generalizing s with
  | nil => exact h
  | cons x r ih => exact ih (hf s x h)

/-! ### Memory: writing keeps the canonical form -/

theorem cellsWrite_mem (m : List Host.Cell) (a : Nat) (b : Byte) (c : Host.Cell) (h : c ∈ cellsWrite m a b) :
    c ∈ m ∨ (c = (a, b) ∧ b ≠ 0) := by
  induction m with
  | nil =>
    unfold cellsWrite at h
    by_cases hb : b = 0 <;> simp_all
  | cons x r ih =>
    unfold cellsWrite at h
    by_cases hb : b = 0 <;> by_cases h1 : a < x.1 <;> by_cases h2 : a = x.1 <;> simp_all <;> tauto

theorem cellsWrite_wf (m : List Host.Cell) (a : Nat) (b : Byte) (h : Memory.wf m) : Memory.wf (cellsWrite m a b) := by
  refine ⟨?_, ?_⟩
  · obtain ⟨hp, -⟩ := h
    induction m with
    | nil => unfold cellsWrite; split <;> simp
    | cons x r ih =>
      obtain ⟨hx, hr⟩ := List.pairwise_cons.mp hp
      unfold cellsWrite
      split
      · rename_i h1
        split
        · exact hp
        · exact List.pairwise_cons.mpr ⟨fun y hy => by
            rcases List.mem_cons.mp hy with rfl | hy
            · exact h1
            · exact lt_trans h1 (hx y hy), hp⟩
      · split
        · rename_i h1 h2
          split
          · exact hr
          · exact List.pairwise_cons.mpr ⟨fun y hy => by rw [h2]; exact hx y hy, hr⟩
        · rename_i h1 h2
          refine List.pairwise_cons.mpr ⟨fun y hy => ?_, ih hr⟩
          rcases cellsWrite_mem r a b y hy with hy | ⟨rfl, -⟩
          · exact hx y hy
          · simp only; omega
  · intro c hc
    rcases cellsWrite_mem m a b c hc with hc | ⟨rfl, hb⟩
    · exact h.2 c hc
    · exact hb

theorem cellsWriteAll_wf (m : List Host.Cell) (a : Nat) (b : List Byte) (h : Memory.wf m) : Memory.wf (cellsWriteAll m a b) := by
  induction b generalizing m a with
  | nil => exact h
  | cons x r ih => exact ih _ _ (cellsWrite_wf m a x h)

theorem cellsRead_cons (d : Host.Cell) (l : List Host.Cell) (y : Nat) :
    cellsRead (d :: l) y = if d.1 = y then d.2 else cellsRead l y := by
  by_cases hd : d.1 = y
  · simp [cellsRead, hd]
  · have hd' : (d.1 == y) = false := by simpa using hd
    simp [cellsRead, List.find?, hd, hd']

theorem cellsRead_nil (y : Nat) : cellsRead [] y = 0 := rfl

theorem cellsRead_below (r : List Host.Cell) (y : Nat) (h : ∀ d ∈ r, y < d.1) : cellsRead r y = 0 := by
  induction r with
  | nil => rfl
  | cons d l ih =>
    have h1 := h d (by simp)
    rw [cellsRead_cons, if_neg (by omega)]
    exact ih (fun e he => h e (by simp [he]))

/-- Reading a byte after a write: the byte written at its address, elsewhere what stood there. -/
theorem cellsRead_write (m : List Host.Cell) (a x : Nat) (b : Byte) (h : Memory.wf m) :
    cellsRead (cellsWrite m a b) x = if x = a then b else cellsRead m x := by
  obtain ⟨hp, -⟩ := h
  induction m with
  | nil =>
    unfold cellsWrite
    split
    · rename_i hb; split <;> simp [cellsRead_nil, hb]
    · rw [cellsRead_cons]; simp only [eq_comm, cellsRead_nil]
  | cons c r ih =>
    obtain ⟨hc, hr⟩ := List.pairwise_cons.mp hp
    have low : ∀ y, y ≤ c.1 → cellsRead r y = 0 := fun y hy => cellsRead_below r y (fun d hd => lt_of_le_of_lt hy (hc d hd))
    unfold cellsWrite
    split
    · rename_i h1
      split
      · rename_i hb
        by_cases hx : x = a
        · rw [if_pos hx, cellsRead_cons, if_neg (by omega), low x (by omega), hb]
        · rw [if_neg hx]
      · rw [cellsRead_cons]
        by_cases hx : x = a
        · rw [if_pos hx, if_pos hx.symm]
        · rw [if_neg hx, if_neg (fun e => hx e.symm)]
    · split
      · rename_i h1 h2
        split
        · rename_i hb
          by_cases hx : x = a
          · rw [if_pos hx, low x (by omega), hb]
          · rw [if_neg hx, cellsRead_cons, if_neg (by omega)]
        · by_cases hx : x = a
          · rw [if_pos hx, cellsRead_cons, if_pos hx.symm]
          · rw [if_neg hx, cellsRead_cons, cellsRead_cons, if_neg (fun e => hx e.symm), if_neg (by omega)]
      · rename_i h1 h2
        rw [cellsRead_cons, cellsRead_cons, ih hr]
        by_cases hx : x = a
        · rw [if_pos hx, if_pos hx, if_neg (by omega)]
        · rw [if_neg hx, if_neg hx]

/-! ### The record queue -/

theorem pushRecord_bound (l : Ledger) (r : LedgerRec) (h : l.queue.length ≤ 64) : (pushRecord l r).queue.length ≤ 64 := by
  unfold pushRecord; split
  · exact h
  · split
    · exact h
    · simp; omega

theorem keptLedger {p : Held} {L : Bool} {q : List Instr} {k : Nat} {o : Dword} {m : List Host.Cell} {l l' : List LedgerRec} {b : Bool}
    (h : KeptP p L q k o m l b) (hl : l'.length ≤ 64) : KeptP p L q k o m l' b := ⟨h.1, h.2.1, hl, h.2.2.2⟩

theorem keptMem {p : Held} {L : Bool} {q : List Instr} {k : Nat} {o : Dword} {m m' : List Host.Cell} {l : List LedgerRec} {b : Bool}
    (h : KeptP p L q k o m l b) (hm : Memory.wf m') : KeptP p L q k o m' l b := ⟨h.1, hm, h.2.2⟩

theorem keptSafe {p : Held} {L : Bool} {q : List Instr} {k : Nat} {o : Dword} {m : List Host.Cell} {l : List LedgerRec} {b b' : Bool}
    (h : KeptP p L q k o m l b) (hb : b = true → b' = true) : KeptP p L q k o m l b' := ⟨h.1, h.2.1, h.2.2.1, fun e => hb (h.2.2.2 e)⟩

theorem keptEmpty {p : Held} {L : Bool} {q : List Instr} {k : Nat} {o : Dword} {m : List Host.Cell} {l : List LedgerRec} {b : Bool}
    (h : KeptP p L q k o m l b) : KeptP p L q k o [] l b := keptMem h ⟨List.Pairwise.nil, by simp⟩

theorem keptNoRecords {p : Held} {L : Bool} {q : List Instr} {k : Nat} {o : Dword} {m : List Host.Cell} {l : List LedgerRec} {b : Bool}
    (h : KeptP p L q k o m l b) : KeptP p L q k o m [] b := keptLedger h (by simp)

theorem keptDrop {p : Held} {L : Bool} {q : List Instr} {k : Nat} {o : Dword} {m : List Host.Cell} {l : List LedgerRec} {b : Bool} {n : Nat}
    (h : KeptP p L q k o m l b) : KeptP p L q k o m (l.drop n) b := keptLedger h (by have := h.2.2.1; simp only [List.length_drop]; omega)

theorem keptSet {p : Held} {L : Bool} {q : List Instr} {k : Nat} {o : Dword} {m : List Host.Cell} {l : List LedgerRec} {b : Bool}
    (h : KeptP p L q k o m l b) : KeptP p L q k o m l true := keptSafe h (fun _ => rfl)

/-- Without the SAFE clause the latch may take any value. -/
theorem keptFree {p : Held} {q : List Instr} {k : Nat} {o : Dword} {m : List Host.Cell} {l : List LedgerRec} {b b' : Bool}
    (h : KeptP p false q k o m l b) : KeptP p false q k o m l b' := ⟨h.1, h.2.1, h.2.2.1, fun e => by simp at e⟩

end Sys2Proof.Machine
end

