-- ==== Sys2Proof/Laws/State.lean ====
section
/-! SUPPORT. One lemma per field of the state per update of a group, each true by rfl, and reading one member of a group
after a change of one. No later proof unfolds a record update. -/

namespace Sys2Proof.Machine

/-! ### One member of a group -/

@[simp] theorem vmod_get_same {α : Type} {n : Nat} (v : Vector α n) (i : Fin n) (f : α → α) : (vmod v i f).get i = f (v.get i) :=
  Vector.getElem_set_self i.isLt

theorem vmod_get_other {α : Type} {n : Nat} (v : Vector α n) (i j : Fin n) (f : α → α) (h : j ≠ i) : (vmod v i f).get j = v.get j := by
  have h2 : i.val ≠ j.val := fun e => h (Fin.ext e.symm)
  exact Vector.getElem_set_ne i.isLt j.isLt h2

@[simp] theorem vput_get_same {α : Type} {n : Nat} (v : Vector α n) (i : Fin n) (x : α) : (vput v i x).get i = x :=
  Vector.getElem_set_self i.isLt

theorem vput_get_other {α : Type} {n : Nat} (v : Vector α n) (i j : Fin n) (x : α) (h : j ≠ i) : (vput v i x).get j = v.get j := by
  have h2 : i.val ≠ j.val := fun e => h (Fin.ext e.symm)
  exact Vector.getElem_set_ne i.isLt j.isLt h2

@[simp] theorem vget_map {α β : Type} {n : Nat} (v : Vector α n) (f : α → β) (i : Fin n) : (v.map f).get i = f (v.get i) := by
  simp [Vector.get]

@[simp] theorem vget_replicate {α : Type} {n : Nat} (x : α) (i : Fin n) : (Vector.replicate n x).get i = x := by
  simp [Vector.get]

@[simp] theorem State.modLane_lane (s : State) (n : Lane) (f : LaneDie → LaneDie) : (s.modLane n f).lane n = f (s.lane n) := vmod_get_same ..
theorem State.modLane_other (s : State) (n m : Lane) (f : LaneDie → LaneDie) (h : m ≠ n) : (s.modLane n f).lane m = s.lane m := vmod_get_other _ _ _ _ h
@[simp] theorem State.modPort_port (s : State) (p : Port) (f : PortSt → PortSt) : (s.modPort p f).port p = f (s.port p) := vmod_get_same ..
theorem State.modPort_other (s : State) (p q : Port) (f : PortSt → PortSt) (h : q ≠ p) : (s.modPort p f).port q = s.port q := vmod_get_other _ _ _ _ h
@[simp] theorem State.modPd_pdie (s : State) (m : PortDie) (f : PortDieSt → PortDieSt) : (s.modPd m f).pdie m = f (s.pdie m) := vmod_get_same ..
theorem State.modPd_other (s : State) (m k : PortDie) (f : PortDieSt → PortDieSt) (h : k ≠ m) : (s.modPd m f).pdie k = s.pdie k := vmod_get_other _ _ _ _ h
@[simp] theorem State.modConn_conn (s : State) (c : Src) (f : Conn → Conn) : (s.modConn c f).conn c = f (s.conn c) := vmod_get_same ..
theorem State.modConn_other (s : State) (c d : Src) (f : Conn → Conn) (h : d ≠ c) : (s.modConn c f).conn d = s.conn d := vmod_get_other _ _ _ _ h
@[simp] theorem State.modNode_node (s : State) (n : Lane) (f : Node → Node) : (s.modNode n f).node n = f (s.node n) := vmod_get_same ..
theorem State.modNode_other (s : State) (n m : Lane) (f : Node → Node) (h : m ≠ n) : (s.modNode n f).node m = s.node m := vmod_get_other _ _ _ _ h
@[simp] theorem State.modLink_link (s : State) (t : TrunkPort) (f : Link → Link) : (s.modLink t f).link t = f (s.link t) := vmod_get_same ..

/-! ### Fields after an update -/

@[simp] theorem State.modLane_pending (s : State) (n : Lane) (f : LaneDie → LaneDie) : (s.modLane n f).pending = s.pending := rfl
@[simp] theorem State.modLane_time (s : State) (n : Lane) (f : LaneDie → LaneDie) : (s.modLane n f).time = s.time := rfl
@[simp] theorem State.modLane_events (s : State) (n : Lane) (f : LaneDie → LaneDie) : (s.modLane n f).events = s.events := rfl
@[simp] theorem State.modLane_lanes (s : State) (n : Lane) (f : LaneDie → LaneDie) : (s.modLane n f).lanes = vmod s.lanes n f := rfl
@[simp] theorem State.modLane_portDies (s : State) (n : Lane) (f : LaneDie → LaneDie) : (s.modLane n f).portDies = s.portDies := rfl
@[simp] theorem State.modLane_ports (s : State) (n : Lane) (f : LaneDie → LaneDie) : (s.modLane n f).ports = s.ports := rfl
@[simp] theorem State.modLane_conns (s : State) (n : Lane) (f : LaneDie → LaneDie) : (s.modLane n f).conns = s.conns := rfl
@[simp] theorem State.modLane_nodes (s : State) (n : Lane) (f : LaneDie → LaneDie) : (s.modLane n f).nodes = s.nodes := rfl
@[simp] theorem State.modLane_pdOut (s : State) (n : Lane) (f : LaneDie → LaneDie) : (s.modLane n f).pdOut = s.pdOut := rfl
@[simp] theorem State.modLane_aon (s : State) (n : Lane) (f : LaneDie → LaneDie) : (s.modLane n f).aon = s.aon := rfl
@[simp] theorem State.modLane_hub (s : State) (n : Lane) (f : LaneDie → LaneDie) : (s.modLane n f).hub = s.hub := rfl
@[simp] theorem State.modLane_keep (s : State) (n : Lane) (f : LaneDie → LaneDie) : (s.modLane n f).keep = s.keep := rfl
@[simp] theorem State.modLane_charge (s : State) (n : Lane) (f : LaneDie → LaneDie) : (s.modLane n f).charge = s.charge := rfl
@[simp] theorem State.modLane_gauge (s : State) (n : Lane) (f : LaneDie → LaneDie) : (s.modLane n f).gauge = s.gauge := rfl
@[simp] theorem State.modLane_fcst (s : State) (n : Lane) (f : LaneDie → LaneDie) : (s.modLane n f).fcst = s.fcst := rfl
@[simp] theorem State.modLane_therm (s : State) (n : Lane) (f : LaneDie → LaneDie) : (s.modLane n f).therm = s.therm := rfl
@[simp] theorem State.modLane_trunk (s : State) (n : Lane) (f : LaneDie → LaneDie) : (s.modLane n f).trunk = s.trunk := rfl
@[simp] theorem State.modLane_tel (s : State) (n : Lane) (f : LaneDie → LaneDie) : (s.modLane n f).tel = s.tel := rfl
@[simp] theorem State.modLane_host (s : State) (n : Lane) (f : LaneDie → LaneDie) : (s.modLane n f).host = s.host := rfl
@[simp] theorem State.modLane_cfg (s : State) (n : Lane) (f : LaneDie → LaneDie) : (s.modLane n f).cfg = s.cfg := rfl
@[simp] theorem State.modLane_flash (s : State) (n : Lane) (f : LaneDie → LaneDie) : (s.modLane n f).flash = s.flash := rfl
@[simp] theorem State.modLane_ledger (s : State) (n : Lane) (f : LaneDie → LaneDie) : (s.modLane n f).ledger = s.ledger := rfl
@[simp] theorem State.modLane_update (s : State) (n : Lane) (f : LaneDie → LaneDie) : (s.modLane n f).update = s.update := rfl
@[simp] theorem State.modLane_otp (s : State) (n : Lane) (f : LaneDie → LaneDie) : (s.modLane n f).otp = s.otp := rfl
@[simp] theorem State.modLane_timers (s : State) (n : Lane) (f : LaneDie → LaneDie) : (s.modLane n f).timers = s.timers := rfl
@[simp] theorem State.modLane_wdg (s : State) (n : Lane) (f : LaneDie → LaneDie) : (s.modLane n f).wdg = s.wdg := rfl
@[simp] theorem State.modLane_hnd (s : State) (n : Lane) (f : LaneDie → LaneDie) : (s.modLane n f).hnd = s.hnd := rfl
@[simp] theorem State.modLane_stack (s : State) (n : Lane) (f : LaneDie → LaneDie) : (s.modLane n f).stack = s.stack := rfl
@[simp] theorem State.modLane_freeCtr (s : State) (n : Lane) (f : LaneDie → LaneDie) : (s.modLane n f).freeCtr = s.freeCtr := rfl

@[simp] theorem State.modPort_pending (s : State) (p : Port) (f : PortSt → PortSt) : (s.modPort p f).pending = s.pending := rfl
@[simp] theorem State.modPort_time (s : State) (p : Port) (f : PortSt → PortSt) : (s.modPort p f).time = s.time := rfl
@[simp] theorem State.modPort_events (s : State) (p : Port) (f : PortSt → PortSt) : (s.modPort p f).events = s.events := rfl
@[simp] theorem State.modPort_lanes (s : State) (p : Port) (f : PortSt → PortSt) : (s.modPort p f).lanes = s.lanes := rfl
@[simp] theorem State.modPort_portDies (s : State) (p : Port) (f : PortSt → PortSt) : (s.modPort p f).portDies = s.portDies := rfl
@[simp] theorem State.modPort_ports (s : State) (p : Port) (f : PortSt → PortSt) : (s.modPort p f).ports = vmod s.ports p f := rfl
@[simp] theorem State.modPort_conns (s : State) (p : Port) (f : PortSt → PortSt) : (s.modPort p f).conns = s.conns := rfl
@[simp] theorem State.modPort_nodes (s : State) (p : Port) (f : PortSt → PortSt) : (s.modPort p f).nodes = s.nodes := rfl
@[simp] theorem State.modPort_pdOut (s : State) (p : Port) (f : PortSt → PortSt) : (s.modPort p f).pdOut = s.pdOut := rfl
@[simp] theorem State.modPort_aon (s : State) (p : Port) (f : PortSt → PortSt) : (s.modPort p f).aon = s.aon := rfl
@[simp] theorem State.modPort_hub (s : State) (p : Port) (f : PortSt → PortSt) : (s.modPort p f).hub = s.hub := rfl
@[simp] theorem State.modPort_keep (s : State) (p : Port) (f : PortSt → PortSt) : (s.modPort p f).keep = s.keep := rfl
@[simp] theorem State.modPort_charge (s : State) (p : Port) (f : PortSt → PortSt) : (s.modPort p f).charge = s.charge := rfl
@[simp] theorem State.modPort_gauge (s : State) (p : Port) (f : PortSt → PortSt) : (s.modPort p f).gauge = s.gauge := rfl
@[simp] theorem State.modPort_fcst (s : State) (p : Port) (f : PortSt → PortSt) : (s.modPort p f).fcst = s.fcst := rfl
@[simp] theorem State.modPort_therm (s : State) (p : Port) (f : PortSt → PortSt) : (s.modPort p f).therm = s.therm := rfl
@[simp] theorem State.modPort_trunk (s : State) (p : Port) (f : PortSt → PortSt) : (s.modPort p f).trunk = s.trunk := rfl
@[simp] theorem State.modPort_tel (s : State) (p : Port) (f : PortSt → PortSt) : (s.modPort p f).tel = s.tel := rfl
@[simp] theorem State.modPort_host (s : State) (p : Port) (f : PortSt → PortSt) : (s.modPort p f).host = s.host := rfl
@[simp] theorem State.modPort_cfg (s : State) (p : Port) (f : PortSt → PortSt) : (s.modPort p f).cfg = s.cfg := rfl
@[simp] theorem State.modPort_flash (s : State) (p : Port) (f : PortSt → PortSt) : (s.modPort p f).flash = s.flash := rfl
@[simp] theorem State.modPort_ledger (s : State) (p : Port) (f : PortSt → PortSt) : (s.modPort p f).ledger = s.ledger := rfl
@[simp] theorem State.modPort_update (s : State) (p : Port) (f : PortSt → PortSt) : (s.modPort p f).update = s.update := rfl
@[simp] theorem State.modPort_otp (s : State) (p : Port) (f : PortSt → PortSt) : (s.modPort p f).otp = s.otp := rfl
@[simp] theorem State.modPort_timers (s : State) (p : Port) (f : PortSt → PortSt) : (s.modPort p f).timers = s.timers := rfl
@[simp] theorem State.modPort_wdg (s : State) (p : Port) (f : PortSt → PortSt) : (s.modPort p f).wdg = s.wdg := rfl
@[simp] theorem State.modPort_hnd (s : State) (p : Port) (f : PortSt → PortSt) : (s.modPort p f).hnd = s.hnd := rfl
@[simp] theorem State.modPort_stack (s : State) (p : Port) (f : PortSt → PortSt) : (s.modPort p f).stack = s.stack := rfl
@[simp] theorem State.modPort_freeCtr (s : State) (p : Port) (f : PortSt → PortSt) : (s.modPort p f).freeCtr = s.freeCtr := rfl

@[simp] theorem State.modPd_pending (s : State) (m : PortDie) (f : PortDieSt → PortDieSt) : (s.modPd m f).pending = s.pending := rfl
@[simp] theorem State.modPd_time (s : State) (m : PortDie) (f : PortDieSt → PortDieSt) : (s.modPd m f).time = s.time := rfl
@[simp] theorem State.modPd_events (s : State) (m : PortDie) (f : PortDieSt → PortDieSt) : (s.modPd m f).events = s.events := rfl
@[simp] theorem State.modPd_lanes (s : State) (m : PortDie) (f : PortDieSt → PortDieSt) : (s.modPd m f).lanes = s.lanes := rfl
@[simp] theorem State.modPd_portDies (s : State) (m : PortDie) (f : PortDieSt → PortDieSt) : (s.modPd m f).portDies = vmod s.portDies m f := rfl
@[simp] theorem State.modPd_ports (s : State) (m : PortDie) (f : PortDieSt → PortDieSt) : (s.modPd m f).ports = s.ports := rfl
@[simp] theorem State.modPd_conns (s : State) (m : PortDie) (f : PortDieSt → PortDieSt) : (s.modPd m f).conns = s.conns := rfl
@[simp] theorem State.modPd_nodes (s : State) (m : PortDie) (f : PortDieSt → PortDieSt) : (s.modPd m f).nodes = s.nodes := rfl
@[simp] theorem State.modPd_pdOut (s : State) (m : PortDie) (f : PortDieSt → PortDieSt) : (s.modPd m f).pdOut = s.pdOut := rfl
@[simp] theorem State.modPd_aon (s : State) (m : PortDie) (f : PortDieSt → PortDieSt) : (s.modPd m f).aon = s.aon := rfl
@[simp] theorem State.modPd_hub (s : State) (m : PortDie) (f : PortDieSt → PortDieSt) : (s.modPd m f).hub = s.hub := rfl
@[simp] theorem State.modPd_keep (s : State) (m : PortDie) (f : PortDieSt → PortDieSt) : (s.modPd m f).keep = s.keep := rfl
@[simp] theorem State.modPd_charge (s : State) (m : PortDie) (f : PortDieSt → PortDieSt) : (s.modPd m f).charge = s.charge := rfl
@[simp] theorem State.modPd_gauge (s : State) (m : PortDie) (f : PortDieSt → PortDieSt) : (s.modPd m f).gauge = s.gauge := rfl
@[simp] theorem State.modPd_fcst (s : State) (m : PortDie) (f : PortDieSt → PortDieSt) : (s.modPd m f).fcst = s.fcst := rfl
@[simp] theorem State.modPd_therm (s : State) (m : PortDie) (f : PortDieSt → PortDieSt) : (s.modPd m f).therm = s.therm := rfl
@[simp] theorem State.modPd_trunk (s : State) (m : PortDie) (f : PortDieSt → PortDieSt) : (s.modPd m f).trunk = s.trunk := rfl
@[simp] theorem State.modPd_tel (s : State) (m : PortDie) (f : PortDieSt → PortDieSt) : (s.modPd m f).tel = s.tel := rfl
@[simp] theorem State.modPd_host (s : State) (m : PortDie) (f : PortDieSt → PortDieSt) : (s.modPd m f).host = s.host := rfl
@[simp] theorem State.modPd_cfg (s : State) (m : PortDie) (f : PortDieSt → PortDieSt) : (s.modPd m f).cfg = s.cfg := rfl
@[simp] theorem State.modPd_flash (s : State) (m : PortDie) (f : PortDieSt → PortDieSt) : (s.modPd m f).flash = s.flash := rfl
@[simp] theorem State.modPd_ledger (s : State) (m : PortDie) (f : PortDieSt → PortDieSt) : (s.modPd m f).ledger = s.ledger := rfl
@[simp] theorem State.modPd_update (s : State) (m : PortDie) (f : PortDieSt → PortDieSt) : (s.modPd m f).update = s.update := rfl
@[simp] theorem State.modPd_otp (s : State) (m : PortDie) (f : PortDieSt → PortDieSt) : (s.modPd m f).otp = s.otp := rfl
@[simp] theorem State.modPd_timers (s : State) (m : PortDie) (f : PortDieSt → PortDieSt) : (s.modPd m f).timers = s.timers := rfl
@[simp] theorem State.modPd_wdg (s : State) (m : PortDie) (f : PortDieSt → PortDieSt) : (s.modPd m f).wdg = s.wdg := rfl
@[simp] theorem State.modPd_hnd (s : State) (m : PortDie) (f : PortDieSt → PortDieSt) : (s.modPd m f).hnd = s.hnd := rfl
@[simp] theorem State.modPd_stack (s : State) (m : PortDie) (f : PortDieSt → PortDieSt) : (s.modPd m f).stack = s.stack := rfl
@[simp] theorem State.modPd_freeCtr (s : State) (m : PortDie) (f : PortDieSt → PortDieSt) : (s.modPd m f).freeCtr = s.freeCtr := rfl

@[simp] theorem State.modConn_pending (s : State) (c : Src) (f : Conn → Conn) : (s.modConn c f).pending = s.pending := rfl
@[simp] theorem State.modConn_time (s : State) (c : Src) (f : Conn → Conn) : (s.modConn c f).time = s.time := rfl
@[simp] theorem State.modConn_events (s : State) (c : Src) (f : Conn → Conn) : (s.modConn c f).events = s.events := rfl
@[simp] theorem State.modConn_lanes (s : State) (c : Src) (f : Conn → Conn) : (s.modConn c f).lanes = s.lanes := rfl
@[simp] theorem State.modConn_portDies (s : State) (c : Src) (f : Conn → Conn) : (s.modConn c f).portDies = s.portDies := rfl
@[simp] theorem State.modConn_ports (s : State) (c : Src) (f : Conn → Conn) : (s.modConn c f).ports = s.ports := rfl
@[simp] theorem State.modConn_conns (s : State) (c : Src) (f : Conn → Conn) : (s.modConn c f).conns = vmod s.conns c f := rfl
@[simp] theorem State.modConn_nodes (s : State) (c : Src) (f : Conn → Conn) : (s.modConn c f).nodes = s.nodes := rfl
@[simp] theorem State.modConn_pdOut (s : State) (c : Src) (f : Conn → Conn) : (s.modConn c f).pdOut = s.pdOut := rfl
@[simp] theorem State.modConn_aon (s : State) (c : Src) (f : Conn → Conn) : (s.modConn c f).aon = s.aon := rfl
@[simp] theorem State.modConn_hub (s : State) (c : Src) (f : Conn → Conn) : (s.modConn c f).hub = s.hub := rfl
@[simp] theorem State.modConn_keep (s : State) (c : Src) (f : Conn → Conn) : (s.modConn c f).keep = s.keep := rfl
@[simp] theorem State.modConn_charge (s : State) (c : Src) (f : Conn → Conn) : (s.modConn c f).charge = s.charge := rfl
@[simp] theorem State.modConn_gauge (s : State) (c : Src) (f : Conn → Conn) : (s.modConn c f).gauge = s.gauge := rfl
@[simp] theorem State.modConn_fcst (s : State) (c : Src) (f : Conn → Conn) : (s.modConn c f).fcst = s.fcst := rfl
@[simp] theorem State.modConn_therm (s : State) (c : Src) (f : Conn → Conn) : (s.modConn c f).therm = s.therm := rfl
@[simp] theorem State.modConn_trunk (s : State) (c : Src) (f : Conn → Conn) : (s.modConn c f).trunk = s.trunk := rfl
@[simp] theorem State.modConn_tel (s : State) (c : Src) (f : Conn → Conn) : (s.modConn c f).tel = s.tel := rfl
@[simp] theorem State.modConn_host (s : State) (c : Src) (f : Conn → Conn) : (s.modConn c f).host = s.host := rfl
@[simp] theorem State.modConn_cfg (s : State) (c : Src) (f : Conn → Conn) : (s.modConn c f).cfg = s.cfg := rfl
@[simp] theorem State.modConn_flash (s : State) (c : Src) (f : Conn → Conn) : (s.modConn c f).flash = s.flash := rfl
@[simp] theorem State.modConn_ledger (s : State) (c : Src) (f : Conn → Conn) : (s.modConn c f).ledger = s.ledger := rfl
@[simp] theorem State.modConn_update (s : State) (c : Src) (f : Conn → Conn) : (s.modConn c f).update = s.update := rfl
@[simp] theorem State.modConn_otp (s : State) (c : Src) (f : Conn → Conn) : (s.modConn c f).otp = s.otp := rfl
@[simp] theorem State.modConn_timers (s : State) (c : Src) (f : Conn → Conn) : (s.modConn c f).timers = s.timers := rfl
@[simp] theorem State.modConn_wdg (s : State) (c : Src) (f : Conn → Conn) : (s.modConn c f).wdg = s.wdg := rfl
@[simp] theorem State.modConn_hnd (s : State) (c : Src) (f : Conn → Conn) : (s.modConn c f).hnd = s.hnd := rfl
@[simp] theorem State.modConn_stack (s : State) (c : Src) (f : Conn → Conn) : (s.modConn c f).stack = s.stack := rfl
@[simp] theorem State.modConn_freeCtr (s : State) (c : Src) (f : Conn → Conn) : (s.modConn c f).freeCtr = s.freeCtr := rfl

@[simp] theorem State.modNode_pending (s : State) (n : Lane) (f : Node → Node) : (s.modNode n f).pending = s.pending := rfl
@[simp] theorem State.modNode_time (s : State) (n : Lane) (f : Node → Node) : (s.modNode n f).time = s.time := rfl
@[simp] theorem State.modNode_events (s : State) (n : Lane) (f : Node → Node) : (s.modNode n f).events = s.events := rfl
@[simp] theorem State.modNode_lanes (s : State) (n : Lane) (f : Node → Node) : (s.modNode n f).lanes = s.lanes := rfl
@[simp] theorem State.modNode_portDies (s : State) (n : Lane) (f : Node → Node) : (s.modNode n f).portDies = s.portDies := rfl
@[simp] theorem State.modNode_ports (s : State) (n : Lane) (f : Node → Node) : (s.modNode n f).ports = s.ports := rfl
@[simp] theorem State.modNode_conns (s : State) (n : Lane) (f : Node → Node) : (s.modNode n f).conns = s.conns := rfl
@[simp] theorem State.modNode_nodes (s : State) (n : Lane) (f : Node → Node) : (s.modNode n f).nodes = vmod s.nodes n f := rfl
@[simp] theorem State.modNode_pdOut (s : State) (n : Lane) (f : Node → Node) : (s.modNode n f).pdOut = s.pdOut := rfl
@[simp] theorem State.modNode_aon (s : State) (n : Lane) (f : Node → Node) : (s.modNode n f).aon = s.aon := rfl
@[simp] theorem State.modNode_hub (s : State) (n : Lane) (f : Node → Node) : (s.modNode n f).hub = s.hub := rfl
@[simp] theorem State.modNode_keep (s : State) (n : Lane) (f : Node → Node) : (s.modNode n f).keep = s.keep := rfl
@[simp] theorem State.modNode_charge (s : State) (n : Lane) (f : Node → Node) : (s.modNode n f).charge = s.charge := rfl
@[simp] theorem State.modNode_gauge (s : State) (n : Lane) (f : Node → Node) : (s.modNode n f).gauge = s.gauge := rfl
@[simp] theorem State.modNode_fcst (s : State) (n : Lane) (f : Node → Node) : (s.modNode n f).fcst = s.fcst := rfl
@[simp] theorem State.modNode_therm (s : State) (n : Lane) (f : Node → Node) : (s.modNode n f).therm = s.therm := rfl
@[simp] theorem State.modNode_trunk (s : State) (n : Lane) (f : Node → Node) : (s.modNode n f).trunk = s.trunk := rfl
@[simp] theorem State.modNode_tel (s : State) (n : Lane) (f : Node → Node) : (s.modNode n f).tel = s.tel := rfl
@[simp] theorem State.modNode_host (s : State) (n : Lane) (f : Node → Node) : (s.modNode n f).host = s.host := rfl
@[simp] theorem State.modNode_cfg (s : State) (n : Lane) (f : Node → Node) : (s.modNode n f).cfg = s.cfg := rfl
@[simp] theorem State.modNode_flash (s : State) (n : Lane) (f : Node → Node) : (s.modNode n f).flash = s.flash := rfl
@[simp] theorem State.modNode_ledger (s : State) (n : Lane) (f : Node → Node) : (s.modNode n f).ledger = s.ledger := rfl
@[simp] theorem State.modNode_update (s : State) (n : Lane) (f : Node → Node) : (s.modNode n f).update = s.update := rfl
@[simp] theorem State.modNode_otp (s : State) (n : Lane) (f : Node → Node) : (s.modNode n f).otp = s.otp := rfl
@[simp] theorem State.modNode_timers (s : State) (n : Lane) (f : Node → Node) : (s.modNode n f).timers = s.timers := rfl
@[simp] theorem State.modNode_wdg (s : State) (n : Lane) (f : Node → Node) : (s.modNode n f).wdg = s.wdg := rfl
@[simp] theorem State.modNode_hnd (s : State) (n : Lane) (f : Node → Node) : (s.modNode n f).hnd = s.hnd := rfl
@[simp] theorem State.modNode_stack (s : State) (n : Lane) (f : Node → Node) : (s.modNode n f).stack = s.stack := rfl
@[simp] theorem State.modNode_freeCtr (s : State) (n : Lane) (f : Node → Node) : (s.modNode n f).freeCtr = s.freeCtr := rfl

@[simp] theorem State.modAon_pending (s : State) (f : Aon → Aon) : (s.modAon f).pending = s.pending := rfl
@[simp] theorem State.modAon_time (s : State) (f : Aon → Aon) : (s.modAon f).time = s.time := rfl
@[simp] theorem State.modAon_events (s : State) (f : Aon → Aon) : (s.modAon f).events = s.events := rfl
@[simp] theorem State.modAon_lanes (s : State) (f : Aon → Aon) : (s.modAon f).lanes = s.lanes := rfl
@[simp] theorem State.modAon_portDies (s : State) (f : Aon → Aon) : (s.modAon f).portDies = s.portDies := rfl
@[simp] theorem State.modAon_ports (s : State) (f : Aon → Aon) : (s.modAon f).ports = s.ports := rfl
@[simp] theorem State.modAon_conns (s : State) (f : Aon → Aon) : (s.modAon f).conns = s.conns := rfl
@[simp] theorem State.modAon_nodes (s : State) (f : Aon → Aon) : (s.modAon f).nodes = s.nodes := rfl
@[simp] theorem State.modAon_pdOut (s : State) (f : Aon → Aon) : (s.modAon f).pdOut = s.pdOut := rfl
@[simp] theorem State.modAon_aon (s : State) (f : Aon → Aon) : (s.modAon f).aon = f s.aon := rfl
@[simp] theorem State.modAon_hub (s : State) (f : Aon → Aon) : (s.modAon f).hub = s.hub := rfl
@[simp] theorem State.modAon_keep (s : State) (f : Aon → Aon) : (s.modAon f).keep = s.keep := rfl
@[simp] theorem State.modAon_charge (s : State) (f : Aon → Aon) : (s.modAon f).charge = s.charge := rfl
@[simp] theorem State.modAon_gauge (s : State) (f : Aon → Aon) : (s.modAon f).gauge = s.gauge := rfl
@[simp] theorem State.modAon_fcst (s : State) (f : Aon → Aon) : (s.modAon f).fcst = s.fcst := rfl
@[simp] theorem State.modAon_therm (s : State) (f : Aon → Aon) : (s.modAon f).therm = s.therm := rfl
@[simp] theorem State.modAon_trunk (s : State) (f : Aon → Aon) : (s.modAon f).trunk = s.trunk := rfl
@[simp] theorem State.modAon_tel (s : State) (f : Aon → Aon) : (s.modAon f).tel = s.tel := rfl
@[simp] theorem State.modAon_host (s : State) (f : Aon → Aon) : (s.modAon f).host = s.host := rfl
@[simp] theorem State.modAon_cfg (s : State) (f : Aon → Aon) : (s.modAon f).cfg = s.cfg := rfl
@[simp] theorem State.modAon_flash (s : State) (f : Aon → Aon) : (s.modAon f).flash = s.flash := rfl
@[simp] theorem State.modAon_ledger (s : State) (f : Aon → Aon) : (s.modAon f).ledger = s.ledger := rfl
@[simp] theorem State.modAon_update (s : State) (f : Aon → Aon) : (s.modAon f).update = s.update := rfl
@[simp] theorem State.modAon_otp (s : State) (f : Aon → Aon) : (s.modAon f).otp = s.otp := rfl
@[simp] theorem State.modAon_timers (s : State) (f : Aon → Aon) : (s.modAon f).timers = s.timers := rfl
@[simp] theorem State.modAon_wdg (s : State) (f : Aon → Aon) : (s.modAon f).wdg = s.wdg := rfl
@[simp] theorem State.modAon_hnd (s : State) (f : Aon → Aon) : (s.modAon f).hnd = s.hnd := rfl
@[simp] theorem State.modAon_stack (s : State) (f : Aon → Aon) : (s.modAon f).stack = s.stack := rfl
@[simp] theorem State.modAon_freeCtr (s : State) (f : Aon → Aon) : (s.modAon f).freeCtr = s.freeCtr := rfl

@[simp] theorem State.modHub_pending (s : State) (f : HubSt → HubSt) : (s.modHub f).pending = s.pending := rfl
@[simp] theorem State.modHub_time (s : State) (f : HubSt → HubSt) : (s.modHub f).time = s.time := rfl
@[simp] theorem State.modHub_events (s : State) (f : HubSt → HubSt) : (s.modHub f).events = s.events := rfl
@[simp] theorem State.modHub_lanes (s : State) (f : HubSt → HubSt) : (s.modHub f).lanes = s.lanes := rfl
@[simp] theorem State.modHub_portDies (s : State) (f : HubSt → HubSt) : (s.modHub f).portDies = s.portDies := rfl
@[simp] theorem State.modHub_ports (s : State) (f : HubSt → HubSt) : (s.modHub f).ports = s.ports := rfl
@[simp] theorem State.modHub_conns (s : State) (f : HubSt → HubSt) : (s.modHub f).conns = s.conns := rfl
@[simp] theorem State.modHub_nodes (s : State) (f : HubSt → HubSt) : (s.modHub f).nodes = s.nodes := rfl
@[simp] theorem State.modHub_pdOut (s : State) (f : HubSt → HubSt) : (s.modHub f).pdOut = s.pdOut := rfl
@[simp] theorem State.modHub_aon (s : State) (f : HubSt → HubSt) : (s.modHub f).aon = s.aon := rfl
@[simp] theorem State.modHub_hub (s : State) (f : HubSt → HubSt) : (s.modHub f).hub = f s.hub := rfl
@[simp] theorem State.modHub_keep (s : State) (f : HubSt → HubSt) : (s.modHub f).keep = s.keep := rfl
@[simp] theorem State.modHub_charge (s : State) (f : HubSt → HubSt) : (s.modHub f).charge = s.charge := rfl
@[simp] theorem State.modHub_gauge (s : State) (f : HubSt → HubSt) : (s.modHub f).gauge = s.gauge := rfl
@[simp] theorem State.modHub_fcst (s : State) (f : HubSt → HubSt) : (s.modHub f).fcst = s.fcst := rfl
@[simp] theorem State.modHub_therm (s : State) (f : HubSt → HubSt) : (s.modHub f).therm = s.therm := rfl
@[simp] theorem State.modHub_trunk (s : State) (f : HubSt → HubSt) : (s.modHub f).trunk = s.trunk := rfl
@[simp] theorem State.modHub_tel (s : State) (f : HubSt → HubSt) : (s.modHub f).tel = s.tel := rfl
@[simp] theorem State.modHub_host (s : State) (f : HubSt → HubSt) : (s.modHub f).host = s.host := rfl
@[simp] theorem State.modHub_cfg (s : State) (f : HubSt → HubSt) : (s.modHub f).cfg = s.cfg := rfl
@[simp] theorem State.modHub_flash (s : State) (f : HubSt → HubSt) : (s.modHub f).flash = s.flash := rfl
@[simp] theorem State.modHub_ledger (s : State) (f : HubSt → HubSt) : (s.modHub f).ledger = s.ledger := rfl
@[simp] theorem State.modHub_update (s : State) (f : HubSt → HubSt) : (s.modHub f).update = s.update := rfl
@[simp] theorem State.modHub_otp (s : State) (f : HubSt → HubSt) : (s.modHub f).otp = s.otp := rfl
@[simp] theorem State.modHub_timers (s : State) (f : HubSt → HubSt) : (s.modHub f).timers = s.timers := rfl
@[simp] theorem State.modHub_wdg (s : State) (f : HubSt → HubSt) : (s.modHub f).wdg = s.wdg := rfl
@[simp] theorem State.modHub_hnd (s : State) (f : HubSt → HubSt) : (s.modHub f).hnd = s.hnd := rfl
@[simp] theorem State.modHub_stack (s : State) (f : HubSt → HubSt) : (s.modHub f).stack = s.stack := rfl
@[simp] theorem State.modHub_freeCtr (s : State) (f : HubSt → HubSt) : (s.modHub f).freeCtr = s.freeCtr := rfl

@[simp] theorem State.modCharge_pending (s : State) (f : Charge → Charge) : (s.modCharge f).pending = s.pending := rfl
@[simp] theorem State.modCharge_time (s : State) (f : Charge → Charge) : (s.modCharge f).time = s.time := rfl
@[simp] theorem State.modCharge_events (s : State) (f : Charge → Charge) : (s.modCharge f).events = s.events := rfl
@[simp] theorem State.modCharge_lanes (s : State) (f : Charge → Charge) : (s.modCharge f).lanes = s.lanes := rfl
@[simp] theorem State.modCharge_portDies (s : State) (f : Charge → Charge) : (s.modCharge f).portDies = s.portDies := rfl
@[simp] theorem State.modCharge_ports (s : State) (f : Charge → Charge) : (s.modCharge f).ports = s.ports := rfl
@[simp] theorem State.modCharge_conns (s : State) (f : Charge → Charge) : (s.modCharge f).conns = s.conns := rfl
@[simp] theorem State.modCharge_nodes (s : State) (f : Charge → Charge) : (s.modCharge f).nodes = s.nodes := rfl
@[simp] theorem State.modCharge_pdOut (s : State) (f : Charge → Charge) : (s.modCharge f).pdOut = s.pdOut := rfl
@[simp] theorem State.modCharge_aon (s : State) (f : Charge → Charge) : (s.modCharge f).aon = s.aon := rfl
@[simp] theorem State.modCharge_hub (s : State) (f : Charge → Charge) : (s.modCharge f).hub = s.hub := rfl
@[simp] theorem State.modCharge_keep (s : State) (f : Charge → Charge) : (s.modCharge f).keep = s.keep := rfl
@[simp] theorem State.modCharge_charge (s : State) (f : Charge → Charge) : (s.modCharge f).charge = f s.charge := rfl
@[simp] theorem State.modCharge_gauge (s : State) (f : Charge → Charge) : (s.modCharge f).gauge = s.gauge := rfl
@[simp] theorem State.modCharge_fcst (s : State) (f : Charge → Charge) : (s.modCharge f).fcst = s.fcst := rfl
@[simp] theorem State.modCharge_therm (s : State) (f : Charge → Charge) : (s.modCharge f).therm = s.therm := rfl
@[simp] theorem State.modCharge_trunk (s : State) (f : Charge → Charge) : (s.modCharge f).trunk = s.trunk := rfl
@[simp] theorem State.modCharge_tel (s : State) (f : Charge → Charge) : (s.modCharge f).tel = s.tel := rfl
@[simp] theorem State.modCharge_host (s : State) (f : Charge → Charge) : (s.modCharge f).host = s.host := rfl
@[simp] theorem State.modCharge_cfg (s : State) (f : Charge → Charge) : (s.modCharge f).cfg = s.cfg := rfl
@[simp] theorem State.modCharge_flash (s : State) (f : Charge → Charge) : (s.modCharge f).flash = s.flash := rfl
@[simp] theorem State.modCharge_ledger (s : State) (f : Charge → Charge) : (s.modCharge f).ledger = s.ledger := rfl
@[simp] theorem State.modCharge_update (s : State) (f : Charge → Charge) : (s.modCharge f).update = s.update := rfl
@[simp] theorem State.modCharge_otp (s : State) (f : Charge → Charge) : (s.modCharge f).otp = s.otp := rfl
@[simp] theorem State.modCharge_timers (s : State) (f : Charge → Charge) : (s.modCharge f).timers = s.timers := rfl
@[simp] theorem State.modCharge_wdg (s : State) (f : Charge → Charge) : (s.modCharge f).wdg = s.wdg := rfl
@[simp] theorem State.modCharge_hnd (s : State) (f : Charge → Charge) : (s.modCharge f).hnd = s.hnd := rfl
@[simp] theorem State.modCharge_stack (s : State) (f : Charge → Charge) : (s.modCharge f).stack = s.stack := rfl
@[simp] theorem State.modCharge_freeCtr (s : State) (f : Charge → Charge) : (s.modCharge f).freeCtr = s.freeCtr := rfl

@[simp] theorem State.modFcst_pending (s : State) (f : Forecast → Forecast) : (s.modFcst f).pending = s.pending := rfl
@[simp] theorem State.modFcst_time (s : State) (f : Forecast → Forecast) : (s.modFcst f).time = s.time := rfl
@[simp] theorem State.modFcst_events (s : State) (f : Forecast → Forecast) : (s.modFcst f).events = s.events := rfl
@[simp] theorem State.modFcst_lanes (s : State) (f : Forecast → Forecast) : (s.modFcst f).lanes = s.lanes := rfl
@[simp] theorem State.modFcst_portDies (s : State) (f : Forecast → Forecast) : (s.modFcst f).portDies = s.portDies := rfl
@[simp] theorem State.modFcst_ports (s : State) (f : Forecast → Forecast) : (s.modFcst f).ports = s.ports := rfl
@[simp] theorem State.modFcst_conns (s : State) (f : Forecast → Forecast) : (s.modFcst f).conns = s.conns := rfl
@[simp] theorem State.modFcst_nodes (s : State) (f : Forecast → Forecast) : (s.modFcst f).nodes = s.nodes := rfl
@[simp] theorem State.modFcst_pdOut (s : State) (f : Forecast → Forecast) : (s.modFcst f).pdOut = s.pdOut := rfl
@[simp] theorem State.modFcst_aon (s : State) (f : Forecast → Forecast) : (s.modFcst f).aon = s.aon := rfl
@[simp] theorem State.modFcst_hub (s : State) (f : Forecast → Forecast) : (s.modFcst f).hub = s.hub := rfl
@[simp] theorem State.modFcst_keep (s : State) (f : Forecast → Forecast) : (s.modFcst f).keep = s.keep := rfl
@[simp] theorem State.modFcst_charge (s : State) (f : Forecast → Forecast) : (s.modFcst f).charge = s.charge := rfl
@[simp] theorem State.modFcst_gauge (s : State) (f : Forecast → Forecast) : (s.modFcst f).gauge = s.gauge := rfl
@[simp] theorem State.modFcst_fcst (s : State) (f : Forecast → Forecast) : (s.modFcst f).fcst = f s.fcst := rfl
@[simp] theorem State.modFcst_therm (s : State) (f : Forecast → Forecast) : (s.modFcst f).therm = s.therm := rfl
@[simp] theorem State.modFcst_trunk (s : State) (f : Forecast → Forecast) : (s.modFcst f).trunk = s.trunk := rfl
@[simp] theorem State.modFcst_tel (s : State) (f : Forecast → Forecast) : (s.modFcst f).tel = s.tel := rfl
@[simp] theorem State.modFcst_host (s : State) (f : Forecast → Forecast) : (s.modFcst f).host = s.host := rfl
@[simp] theorem State.modFcst_cfg (s : State) (f : Forecast → Forecast) : (s.modFcst f).cfg = s.cfg := rfl
@[simp] theorem State.modFcst_flash (s : State) (f : Forecast → Forecast) : (s.modFcst f).flash = s.flash := rfl
@[simp] theorem State.modFcst_ledger (s : State) (f : Forecast → Forecast) : (s.modFcst f).ledger = s.ledger := rfl
@[simp] theorem State.modFcst_update (s : State) (f : Forecast → Forecast) : (s.modFcst f).update = s.update := rfl
@[simp] theorem State.modFcst_otp (s : State) (f : Forecast → Forecast) : (s.modFcst f).otp = s.otp := rfl
@[simp] theorem State.modFcst_timers (s : State) (f : Forecast → Forecast) : (s.modFcst f).timers = s.timers := rfl
@[simp] theorem State.modFcst_wdg (s : State) (f : Forecast → Forecast) : (s.modFcst f).wdg = s.wdg := rfl
@[simp] theorem State.modFcst_hnd (s : State) (f : Forecast → Forecast) : (s.modFcst f).hnd = s.hnd := rfl
@[simp] theorem State.modFcst_stack (s : State) (f : Forecast → Forecast) : (s.modFcst f).stack = s.stack := rfl
@[simp] theorem State.modFcst_freeCtr (s : State) (f : Forecast → Forecast) : (s.modFcst f).freeCtr = s.freeCtr := rfl

@[simp] theorem State.modTrunk_pending (s : State) (f : Trunk → Trunk) : (s.modTrunk f).pending = s.pending := rfl
@[simp] theorem State.modTrunk_time (s : State) (f : Trunk → Trunk) : (s.modTrunk f).time = s.time := rfl
@[simp] theorem State.modTrunk_events (s : State) (f : Trunk → Trunk) : (s.modTrunk f).events = s.events := rfl
@[simp] theorem State.modTrunk_lanes (s : State) (f : Trunk → Trunk) : (s.modTrunk f).lanes = s.lanes := rfl
@[simp] theorem State.modTrunk_portDies (s : State) (f : Trunk → Trunk) : (s.modTrunk f).portDies = s.portDies := rfl
@[simp] theorem State.modTrunk_ports (s : State) (f : Trunk → Trunk) : (s.modTrunk f).ports = s.ports := rfl
@[simp] theorem State.modTrunk_conns (s : State) (f : Trunk → Trunk) : (s.modTrunk f).conns = s.conns := rfl
@[simp] theorem State.modTrunk_nodes (s : State) (f : Trunk → Trunk) : (s.modTrunk f).nodes = s.nodes := rfl
@[simp] theorem State.modTrunk_pdOut (s : State) (f : Trunk → Trunk) : (s.modTrunk f).pdOut = s.pdOut := rfl
@[simp] theorem State.modTrunk_aon (s : State) (f : Trunk → Trunk) : (s.modTrunk f).aon = s.aon := rfl
@[simp] theorem State.modTrunk_hub (s : State) (f : Trunk → Trunk) : (s.modTrunk f).hub = s.hub := rfl
@[simp] theorem State.modTrunk_keep (s : State) (f : Trunk → Trunk) : (s.modTrunk f).keep = s.keep := rfl
@[simp] theorem State.modTrunk_charge (s : State) (f : Trunk → Trunk) : (s.modTrunk f).charge = s.charge := rfl
@[simp] theorem State.modTrunk_gauge (s : State) (f : Trunk → Trunk) : (s.modTrunk f).gauge = s.gauge := rfl
@[simp] theorem State.modTrunk_fcst (s : State) (f : Trunk → Trunk) : (s.modTrunk f).fcst = s.fcst := rfl
@[simp] theorem State.modTrunk_therm (s : State) (f : Trunk → Trunk) : (s.modTrunk f).therm = s.therm := rfl
@[simp] theorem State.modTrunk_trunk (s : State) (f : Trunk → Trunk) : (s.modTrunk f).trunk = f s.trunk := rfl
@[simp] theorem State.modTrunk_tel (s : State) (f : Trunk → Trunk) : (s.modTrunk f).tel = s.tel := rfl
@[simp] theorem State.modTrunk_host (s : State) (f : Trunk → Trunk) : (s.modTrunk f).host = s.host := rfl
@[simp] theorem State.modTrunk_cfg (s : State) (f : Trunk → Trunk) : (s.modTrunk f).cfg = s.cfg := rfl
@[simp] theorem State.modTrunk_flash (s : State) (f : Trunk → Trunk) : (s.modTrunk f).flash = s.flash := rfl
@[simp] theorem State.modTrunk_ledger (s : State) (f : Trunk → Trunk) : (s.modTrunk f).ledger = s.ledger := rfl
@[simp] theorem State.modTrunk_update (s : State) (f : Trunk → Trunk) : (s.modTrunk f).update = s.update := rfl
@[simp] theorem State.modTrunk_otp (s : State) (f : Trunk → Trunk) : (s.modTrunk f).otp = s.otp := rfl
@[simp] theorem State.modTrunk_timers (s : State) (f : Trunk → Trunk) : (s.modTrunk f).timers = s.timers := rfl
@[simp] theorem State.modTrunk_wdg (s : State) (f : Trunk → Trunk) : (s.modTrunk f).wdg = s.wdg := rfl
@[simp] theorem State.modTrunk_hnd (s : State) (f : Trunk → Trunk) : (s.modTrunk f).hnd = s.hnd := rfl
@[simp] theorem State.modTrunk_stack (s : State) (f : Trunk → Trunk) : (s.modTrunk f).stack = s.stack := rfl
@[simp] theorem State.modTrunk_freeCtr (s : State) (f : Trunk → Trunk) : (s.modTrunk f).freeCtr = s.freeCtr := rfl

@[simp] theorem State.modTel_pending (s : State) (f : Tel → Tel) : (s.modTel f).pending = s.pending := rfl
@[simp] theorem State.modTel_time (s : State) (f : Tel → Tel) : (s.modTel f).time = s.time := rfl
@[simp] theorem State.modTel_events (s : State) (f : Tel → Tel) : (s.modTel f).events = s.events := rfl
@[simp] theorem State.modTel_lanes (s : State) (f : Tel → Tel) : (s.modTel f).lanes = s.lanes := rfl
@[simp] theorem State.modTel_portDies (s : State) (f : Tel → Tel) : (s.modTel f).portDies = s.portDies := rfl
@[simp] theorem State.modTel_ports (s : State) (f : Tel → Tel) : (s.modTel f).ports = s.ports := rfl
@[simp] theorem State.modTel_conns (s : State) (f : Tel → Tel) : (s.modTel f).conns = s.conns := rfl
@[simp] theorem State.modTel_nodes (s : State) (f : Tel → Tel) : (s.modTel f).nodes = s.nodes := rfl
@[simp] theorem State.modTel_pdOut (s : State) (f : Tel → Tel) : (s.modTel f).pdOut = s.pdOut := rfl
@[simp] theorem State.modTel_aon (s : State) (f : Tel → Tel) : (s.modTel f).aon = s.aon := rfl
@[simp] theorem State.modTel_hub (s : State) (f : Tel → Tel) : (s.modTel f).hub = s.hub := rfl
@[simp] theorem State.modTel_keep (s : State) (f : Tel → Tel) : (s.modTel f).keep = s.keep := rfl
@[simp] theorem State.modTel_charge (s : State) (f : Tel → Tel) : (s.modTel f).charge = s.charge := rfl
@[simp] theorem State.modTel_gauge (s : State) (f : Tel → Tel) : (s.modTel f).gauge = s.gauge := rfl
@[simp] theorem State.modTel_fcst (s : State) (f : Tel → Tel) : (s.modTel f).fcst = s.fcst := rfl
@[simp] theorem State.modTel_therm (s : State) (f : Tel → Tel) : (s.modTel f).therm = s.therm := rfl
@[simp] theorem State.modTel_trunk (s : State) (f : Tel → Tel) : (s.modTel f).trunk = s.trunk := rfl
@[simp] theorem State.modTel_tel (s : State) (f : Tel → Tel) : (s.modTel f).tel = f s.tel := rfl
@[simp] theorem State.modTel_host (s : State) (f : Tel → Tel) : (s.modTel f).host = s.host := rfl
@[simp] theorem State.modTel_cfg (s : State) (f : Tel → Tel) : (s.modTel f).cfg = s.cfg := rfl
@[simp] theorem State.modTel_flash (s : State) (f : Tel → Tel) : (s.modTel f).flash = s.flash := rfl
@[simp] theorem State.modTel_ledger (s : State) (f : Tel → Tel) : (s.modTel f).ledger = s.ledger := rfl
@[simp] theorem State.modTel_update (s : State) (f : Tel → Tel) : (s.modTel f).update = s.update := rfl
@[simp] theorem State.modTel_otp (s : State) (f : Tel → Tel) : (s.modTel f).otp = s.otp := rfl
@[simp] theorem State.modTel_timers (s : State) (f : Tel → Tel) : (s.modTel f).timers = s.timers := rfl
@[simp] theorem State.modTel_wdg (s : State) (f : Tel → Tel) : (s.modTel f).wdg = s.wdg := rfl
@[simp] theorem State.modTel_hnd (s : State) (f : Tel → Tel) : (s.modTel f).hnd = s.hnd := rfl
@[simp] theorem State.modTel_stack (s : State) (f : Tel → Tel) : (s.modTel f).stack = s.stack := rfl
@[simp] theorem State.modTel_freeCtr (s : State) (f : Tel → Tel) : (s.modTel f).freeCtr = s.freeCtr := rfl

@[simp] theorem State.modUpd_pending (s : State) (f : Update → Update) : (s.modUpd f).pending = s.pending := rfl
@[simp] theorem State.modUpd_time (s : State) (f : Update → Update) : (s.modUpd f).time = s.time := rfl
@[simp] theorem State.modUpd_events (s : State) (f : Update → Update) : (s.modUpd f).events = s.events := rfl
@[simp] theorem State.modUpd_lanes (s : State) (f : Update → Update) : (s.modUpd f).lanes = s.lanes := rfl
@[simp] theorem State.modUpd_portDies (s : State) (f : Update → Update) : (s.modUpd f).portDies = s.portDies := rfl
@[simp] theorem State.modUpd_ports (s : State) (f : Update → Update) : (s.modUpd f).ports = s.ports := rfl
@[simp] theorem State.modUpd_conns (s : State) (f : Update → Update) : (s.modUpd f).conns = s.conns := rfl
@[simp] theorem State.modUpd_nodes (s : State) (f : Update → Update) : (s.modUpd f).nodes = s.nodes := rfl
@[simp] theorem State.modUpd_pdOut (s : State) (f : Update → Update) : (s.modUpd f).pdOut = s.pdOut := rfl
@[simp] theorem State.modUpd_aon (s : State) (f : Update → Update) : (s.modUpd f).aon = s.aon := rfl
@[simp] theorem State.modUpd_hub (s : State) (f : Update → Update) : (s.modUpd f).hub = s.hub := rfl
@[simp] theorem State.modUpd_keep (s : State) (f : Update → Update) : (s.modUpd f).keep = s.keep := rfl
@[simp] theorem State.modUpd_charge (s : State) (f : Update → Update) : (s.modUpd f).charge = s.charge := rfl
@[simp] theorem State.modUpd_gauge (s : State) (f : Update → Update) : (s.modUpd f).gauge = s.gauge := rfl
@[simp] theorem State.modUpd_fcst (s : State) (f : Update → Update) : (s.modUpd f).fcst = s.fcst := rfl
@[simp] theorem State.modUpd_therm (s : State) (f : Update → Update) : (s.modUpd f).therm = s.therm := rfl
@[simp] theorem State.modUpd_trunk (s : State) (f : Update → Update) : (s.modUpd f).trunk = s.trunk := rfl
@[simp] theorem State.modUpd_tel (s : State) (f : Update → Update) : (s.modUpd f).tel = s.tel := rfl
@[simp] theorem State.modUpd_host (s : State) (f : Update → Update) : (s.modUpd f).host = s.host := rfl
@[simp] theorem State.modUpd_cfg (s : State) (f : Update → Update) : (s.modUpd f).cfg = s.cfg := rfl
@[simp] theorem State.modUpd_flash (s : State) (f : Update → Update) : (s.modUpd f).flash = s.flash := rfl
@[simp] theorem State.modUpd_ledger (s : State) (f : Update → Update) : (s.modUpd f).ledger = s.ledger := rfl
@[simp] theorem State.modUpd_update (s : State) (f : Update → Update) : (s.modUpd f).update = f s.update := rfl
@[simp] theorem State.modUpd_otp (s : State) (f : Update → Update) : (s.modUpd f).otp = s.otp := rfl
@[simp] theorem State.modUpd_timers (s : State) (f : Update → Update) : (s.modUpd f).timers = s.timers := rfl
@[simp] theorem State.modUpd_wdg (s : State) (f : Update → Update) : (s.modUpd f).wdg = s.wdg := rfl
@[simp] theorem State.modUpd_hnd (s : State) (f : Update → Update) : (s.modUpd f).hnd = s.hnd := rfl
@[simp] theorem State.modUpd_stack (s : State) (f : Update → Update) : (s.modUpd f).stack = s.stack := rfl
@[simp] theorem State.modUpd_freeCtr (s : State) (f : Update → Update) : (s.modUpd f).freeCtr = s.freeCtr := rfl

@[simp] theorem State.modWdg_pending (s : State) (f : Wdg → Wdg) : (s.modWdg f).pending = s.pending := rfl
@[simp] theorem State.modWdg_time (s : State) (f : Wdg → Wdg) : (s.modWdg f).time = s.time := rfl
@[simp] theorem State.modWdg_events (s : State) (f : Wdg → Wdg) : (s.modWdg f).events = s.events := rfl
@[simp] theorem State.modWdg_lanes (s : State) (f : Wdg → Wdg) : (s.modWdg f).lanes = s.lanes := rfl
@[simp] theorem State.modWdg_portDies (s : State) (f : Wdg → Wdg) : (s.modWdg f).portDies = s.portDies := rfl
@[simp] theorem State.modWdg_ports (s : State) (f : Wdg → Wdg) : (s.modWdg f).ports = s.ports := rfl
@[simp] theorem State.modWdg_conns (s : State) (f : Wdg → Wdg) : (s.modWdg f).conns = s.conns := rfl
@[simp] theorem State.modWdg_nodes (s : State) (f : Wdg → Wdg) : (s.modWdg f).nodes = s.nodes := rfl
@[simp] theorem State.modWdg_pdOut (s : State) (f : Wdg → Wdg) : (s.modWdg f).pdOut = s.pdOut := rfl
@[simp] theorem State.modWdg_aon (s : State) (f : Wdg → Wdg) : (s.modWdg f).aon = s.aon := rfl
@[simp] theorem State.modWdg_hub (s : State) (f : Wdg → Wdg) : (s.modWdg f).hub = s.hub := rfl
@[simp] theorem State.modWdg_keep (s : State) (f : Wdg → Wdg) : (s.modWdg f).keep = s.keep := rfl
@[simp] theorem State.modWdg_charge (s : State) (f : Wdg → Wdg) : (s.modWdg f).charge = s.charge := rfl
@[simp] theorem State.modWdg_gauge (s : State) (f : Wdg → Wdg) : (s.modWdg f).gauge = s.gauge := rfl
@[simp] theorem State.modWdg_fcst (s : State) (f : Wdg → Wdg) : (s.modWdg f).fcst = s.fcst := rfl
@[simp] theorem State.modWdg_therm (s : State) (f : Wdg → Wdg) : (s.modWdg f).therm = s.therm := rfl
@[simp] theorem State.modWdg_trunk (s : State) (f : Wdg → Wdg) : (s.modWdg f).trunk = s.trunk := rfl
@[simp] theorem State.modWdg_tel (s : State) (f : Wdg → Wdg) : (s.modWdg f).tel = s.tel := rfl
@[simp] theorem State.modWdg_host (s : State) (f : Wdg → Wdg) : (s.modWdg f).host = s.host := rfl
@[simp] theorem State.modWdg_cfg (s : State) (f : Wdg → Wdg) : (s.modWdg f).cfg = s.cfg := rfl
@[simp] theorem State.modWdg_flash (s : State) (f : Wdg → Wdg) : (s.modWdg f).flash = s.flash := rfl
@[simp] theorem State.modWdg_ledger (s : State) (f : Wdg → Wdg) : (s.modWdg f).ledger = s.ledger := rfl
@[simp] theorem State.modWdg_update (s : State) (f : Wdg → Wdg) : (s.modWdg f).update = s.update := rfl
@[simp] theorem State.modWdg_otp (s : State) (f : Wdg → Wdg) : (s.modWdg f).otp = s.otp := rfl
@[simp] theorem State.modWdg_timers (s : State) (f : Wdg → Wdg) : (s.modWdg f).timers = s.timers := rfl
@[simp] theorem State.modWdg_wdg (s : State) (f : Wdg → Wdg) : (s.modWdg f).wdg = f s.wdg := rfl
@[simp] theorem State.modWdg_hnd (s : State) (f : Wdg → Wdg) : (s.modWdg f).hnd = s.hnd := rfl
@[simp] theorem State.modWdg_stack (s : State) (f : Wdg → Wdg) : (s.modWdg f).stack = s.stack := rfl
@[simp] theorem State.modWdg_freeCtr (s : State) (f : Wdg → Wdg) : (s.modWdg f).freeCtr = s.freeCtr := rfl

@[simp] theorem State.modTimers_pending (s : State) (f : TimerUnit → TimerUnit) : (s.modTimers f).pending = s.pending := rfl
@[simp] theorem State.modTimers_time (s : State) (f : TimerUnit → TimerUnit) : (s.modTimers f).time = s.time := rfl
@[simp] theorem State.modTimers_events (s : State) (f : TimerUnit → TimerUnit) : (s.modTimers f).events = s.events := rfl
@[simp] theorem State.modTimers_lanes (s : State) (f : TimerUnit → TimerUnit) : (s.modTimers f).lanes = s.lanes := rfl
@[simp] theorem State.modTimers_portDies (s : State) (f : TimerUnit → TimerUnit) : (s.modTimers f).portDies = s.portDies := rfl
@[simp] theorem State.modTimers_ports (s : State) (f : TimerUnit → TimerUnit) : (s.modTimers f).ports = s.ports := rfl
@[simp] theorem State.modTimers_conns (s : State) (f : TimerUnit → TimerUnit) : (s.modTimers f).conns = s.conns := rfl
@[simp] theorem State.modTimers_nodes (s : State) (f : TimerUnit → TimerUnit) : (s.modTimers f).nodes = s.nodes := rfl
@[simp] theorem State.modTimers_pdOut (s : State) (f : TimerUnit → TimerUnit) : (s.modTimers f).pdOut = s.pdOut := rfl
@[simp] theorem State.modTimers_aon (s : State) (f : TimerUnit → TimerUnit) : (s.modTimers f).aon = s.aon := rfl
@[simp] theorem State.modTimers_hub (s : State) (f : TimerUnit → TimerUnit) : (s.modTimers f).hub = s.hub := rfl
@[simp] theorem State.modTimers_keep (s : State) (f : TimerUnit → TimerUnit) : (s.modTimers f).keep = s.keep := rfl
@[simp] theorem State.modTimers_charge (s : State) (f : TimerUnit → TimerUnit) : (s.modTimers f).charge = s.charge := rfl
@[simp] theorem State.modTimers_gauge (s : State) (f : TimerUnit → TimerUnit) : (s.modTimers f).gauge = s.gauge := rfl
@[simp] theorem State.modTimers_fcst (s : State) (f : TimerUnit → TimerUnit) : (s.modTimers f).fcst = s.fcst := rfl
@[simp] theorem State.modTimers_therm (s : State) (f : TimerUnit → TimerUnit) : (s.modTimers f).therm = s.therm := rfl
@[simp] theorem State.modTimers_trunk (s : State) (f : TimerUnit → TimerUnit) : (s.modTimers f).trunk = s.trunk := rfl
@[simp] theorem State.modTimers_tel (s : State) (f : TimerUnit → TimerUnit) : (s.modTimers f).tel = s.tel := rfl
@[simp] theorem State.modTimers_host (s : State) (f : TimerUnit → TimerUnit) : (s.modTimers f).host = s.host := rfl
@[simp] theorem State.modTimers_cfg (s : State) (f : TimerUnit → TimerUnit) : (s.modTimers f).cfg = s.cfg := rfl
@[simp] theorem State.modTimers_flash (s : State) (f : TimerUnit → TimerUnit) : (s.modTimers f).flash = s.flash := rfl
@[simp] theorem State.modTimers_ledger (s : State) (f : TimerUnit → TimerUnit) : (s.modTimers f).ledger = s.ledger := rfl
@[simp] theorem State.modTimers_update (s : State) (f : TimerUnit → TimerUnit) : (s.modTimers f).update = s.update := rfl
@[simp] theorem State.modTimers_otp (s : State) (f : TimerUnit → TimerUnit) : (s.modTimers f).otp = s.otp := rfl
@[simp] theorem State.modTimers_timers (s : State) (f : TimerUnit → TimerUnit) : (s.modTimers f).timers = f s.timers := rfl
@[simp] theorem State.modTimers_wdg (s : State) (f : TimerUnit → TimerUnit) : (s.modTimers f).wdg = s.wdg := rfl
@[simp] theorem State.modTimers_hnd (s : State) (f : TimerUnit → TimerUnit) : (s.modTimers f).hnd = s.hnd := rfl
@[simp] theorem State.modTimers_stack (s : State) (f : TimerUnit → TimerUnit) : (s.modTimers f).stack = s.stack := rfl
@[simp] theorem State.modTimers_freeCtr (s : State) (f : TimerUnit → TimerUnit) : (s.modTimers f).freeCtr = s.freeCtr := rfl

@[simp] theorem State.modStack_pending (s : State) (f : Stack → Stack) : (s.modStack f).pending = s.pending := rfl
@[simp] theorem State.modStack_time (s : State) (f : Stack → Stack) : (s.modStack f).time = s.time := rfl
@[simp] theorem State.modStack_events (s : State) (f : Stack → Stack) : (s.modStack f).events = s.events := rfl
@[simp] theorem State.modStack_lanes (s : State) (f : Stack → Stack) : (s.modStack f).lanes = s.lanes := rfl
@[simp] theorem State.modStack_portDies (s : State) (f : Stack → Stack) : (s.modStack f).portDies = s.portDies := rfl
@[simp] theorem State.modStack_ports (s : State) (f : Stack → Stack) : (s.modStack f).ports = s.ports := rfl
@[simp] theorem State.modStack_conns (s : State) (f : Stack → Stack) : (s.modStack f).conns = s.conns := rfl
@[simp] theorem State.modStack_nodes (s : State) (f : Stack → Stack) : (s.modStack f).nodes = s.nodes := rfl
@[simp] theorem State.modStack_pdOut (s : State) (f : Stack → Stack) : (s.modStack f).pdOut = s.pdOut := rfl
@[simp] theorem State.modStack_aon (s : State) (f : Stack → Stack) : (s.modStack f).aon = s.aon := rfl
@[simp] theorem State.modStack_hub (s : State) (f : Stack → Stack) : (s.modStack f).hub = s.hub := rfl
@[simp] theorem State.modStack_keep (s : State) (f : Stack → Stack) : (s.modStack f).keep = s.keep := rfl
@[simp] theorem State.modStack_charge (s : State) (f : Stack → Stack) : (s.modStack f).charge = s.charge := rfl
@[simp] theorem State.modStack_gauge (s : State) (f : Stack → Stack) : (s.modStack f).gauge = s.gauge := rfl
@[simp] theorem State.modStack_fcst (s : State) (f : Stack → Stack) : (s.modStack f).fcst = s.fcst := rfl
@[simp] theorem State.modStack_therm (s : State) (f : Stack → Stack) : (s.modStack f).therm = s.therm := rfl
@[simp] theorem State.modStack_trunk (s : State) (f : Stack → Stack) : (s.modStack f).trunk = s.trunk := rfl
@[simp] theorem State.modStack_tel (s : State) (f : Stack → Stack) : (s.modStack f).tel = s.tel := rfl
@[simp] theorem State.modStack_host (s : State) (f : Stack → Stack) : (s.modStack f).host = s.host := rfl
@[simp] theorem State.modStack_cfg (s : State) (f : Stack → Stack) : (s.modStack f).cfg = s.cfg := rfl
@[simp] theorem State.modStack_flash (s : State) (f : Stack → Stack) : (s.modStack f).flash = s.flash := rfl
@[simp] theorem State.modStack_ledger (s : State) (f : Stack → Stack) : (s.modStack f).ledger = s.ledger := rfl
@[simp] theorem State.modStack_update (s : State) (f : Stack → Stack) : (s.modStack f).update = s.update := rfl
@[simp] theorem State.modStack_otp (s : State) (f : Stack → Stack) : (s.modStack f).otp = s.otp := rfl
@[simp] theorem State.modStack_timers (s : State) (f : Stack → Stack) : (s.modStack f).timers = s.timers := rfl
@[simp] theorem State.modStack_wdg (s : State) (f : Stack → Stack) : (s.modStack f).wdg = s.wdg := rfl
@[simp] theorem State.modStack_hnd (s : State) (f : Stack → Stack) : (s.modStack f).hnd = s.hnd := rfl
@[simp] theorem State.modStack_stack (s : State) (f : Stack → Stack) : (s.modStack f).stack = f s.stack := rfl
@[simp] theorem State.modStack_freeCtr (s : State) (f : Stack → Stack) : (s.modStack f).freeCtr = s.freeCtr := rfl

@[simp] theorem State.modCfg_pending (s : State) (f : Cfg → Cfg) : (s.modCfg f).pending = s.pending := rfl
@[simp] theorem State.modCfg_time (s : State) (f : Cfg → Cfg) : (s.modCfg f).time = s.time := rfl
@[simp] theorem State.modCfg_events (s : State) (f : Cfg → Cfg) : (s.modCfg f).events = s.events := rfl
@[simp] theorem State.modCfg_lanes (s : State) (f : Cfg → Cfg) : (s.modCfg f).lanes = s.lanes := rfl
@[simp] theorem State.modCfg_portDies (s : State) (f : Cfg → Cfg) : (s.modCfg f).portDies = s.portDies := rfl
@[simp] theorem State.modCfg_ports (s : State) (f : Cfg → Cfg) : (s.modCfg f).ports = s.ports := rfl
@[simp] theorem State.modCfg_conns (s : State) (f : Cfg → Cfg) : (s.modCfg f).conns = s.conns := rfl
@[simp] theorem State.modCfg_nodes (s : State) (f : Cfg → Cfg) : (s.modCfg f).nodes = s.nodes := rfl
@[simp] theorem State.modCfg_pdOut (s : State) (f : Cfg → Cfg) : (s.modCfg f).pdOut = s.pdOut := rfl
@[simp] theorem State.modCfg_aon (s : State) (f : Cfg → Cfg) : (s.modCfg f).aon = s.aon := rfl
@[simp] theorem State.modCfg_hub (s : State) (f : Cfg → Cfg) : (s.modCfg f).hub = s.hub := rfl
@[simp] theorem State.modCfg_keep (s : State) (f : Cfg → Cfg) : (s.modCfg f).keep = s.keep := rfl
@[simp] theorem State.modCfg_charge (s : State) (f : Cfg → Cfg) : (s.modCfg f).charge = s.charge := rfl
@[simp] theorem State.modCfg_gauge (s : State) (f : Cfg → Cfg) : (s.modCfg f).gauge = s.gauge := rfl
@[simp] theorem State.modCfg_fcst (s : State) (f : Cfg → Cfg) : (s.modCfg f).fcst = s.fcst := rfl
@[simp] theorem State.modCfg_therm (s : State) (f : Cfg → Cfg) : (s.modCfg f).therm = s.therm := rfl
@[simp] theorem State.modCfg_trunk (s : State) (f : Cfg → Cfg) : (s.modCfg f).trunk = s.trunk := rfl
@[simp] theorem State.modCfg_tel (s : State) (f : Cfg → Cfg) : (s.modCfg f).tel = s.tel := rfl
@[simp] theorem State.modCfg_host (s : State) (f : Cfg → Cfg) : (s.modCfg f).host = s.host := rfl
@[simp] theorem State.modCfg_cfg (s : State) (f : Cfg → Cfg) : (s.modCfg f).cfg = f s.cfg := rfl
@[simp] theorem State.modCfg_flash (s : State) (f : Cfg → Cfg) : (s.modCfg f).flash = s.flash := rfl
@[simp] theorem State.modCfg_ledger (s : State) (f : Cfg → Cfg) : (s.modCfg f).ledger = s.ledger := rfl
@[simp] theorem State.modCfg_update (s : State) (f : Cfg → Cfg) : (s.modCfg f).update = s.update := rfl
@[simp] theorem State.modCfg_otp (s : State) (f : Cfg → Cfg) : (s.modCfg f).otp = s.otp := rfl
@[simp] theorem State.modCfg_timers (s : State) (f : Cfg → Cfg) : (s.modCfg f).timers = s.timers := rfl
@[simp] theorem State.modCfg_wdg (s : State) (f : Cfg → Cfg) : (s.modCfg f).wdg = s.wdg := rfl
@[simp] theorem State.modCfg_hnd (s : State) (f : Cfg → Cfg) : (s.modCfg f).hnd = s.hnd := rfl
@[simp] theorem State.modCfg_stack (s : State) (f : Cfg → Cfg) : (s.modCfg f).stack = s.stack := rfl
@[simp] theorem State.modCfg_freeCtr (s : State) (f : Cfg → Cfg) : (s.modCfg f).freeCtr = s.freeCtr := rfl

@[simp] theorem State.stamp_pending (s : State) (k : EvClass) (src : EvSource) (i : Nat) (e : EvKind) : (s.stamp k src i e).pending = s.pending := rfl
@[simp] theorem State.stamp_time (s : State) (k : EvClass) (src : EvSource) (i : Nat) (e : EvKind) : (s.stamp k src i e).time = s.time := rfl
@[simp] theorem State.stamp_events (s : State) (k : EvClass) (src : EvSource) (i : Nat) (e : EvKind) : (s.stamp k src i e).events = s.events ++ [{ cls := k, tick := s.now, sub := BitVec.ofNat 8 s.subTick, src := src, item := i, kind := e }] := rfl
@[simp] theorem State.stamp_lanes (s : State) (k : EvClass) (src : EvSource) (i : Nat) (e : EvKind) : (s.stamp k src i e).lanes = s.lanes := rfl
@[simp] theorem State.stamp_portDies (s : State) (k : EvClass) (src : EvSource) (i : Nat) (e : EvKind) : (s.stamp k src i e).portDies = s.portDies := rfl
@[simp] theorem State.stamp_ports (s : State) (k : EvClass) (src : EvSource) (i : Nat) (e : EvKind) : (s.stamp k src i e).ports = s.ports := rfl
@[simp] theorem State.stamp_conns (s : State) (k : EvClass) (src : EvSource) (i : Nat) (e : EvKind) : (s.stamp k src i e).conns = s.conns := rfl
@[simp] theorem State.stamp_nodes (s : State) (k : EvClass) (src : EvSource) (i : Nat) (e : EvKind) : (s.stamp k src i e).nodes = s.nodes := rfl
@[simp] theorem State.stamp_pdOut (s : State) (k : EvClass) (src : EvSource) (i : Nat) (e : EvKind) : (s.stamp k src i e).pdOut = s.pdOut := rfl
@[simp] theorem State.stamp_aon (s : State) (k : EvClass) (src : EvSource) (i : Nat) (e : EvKind) : (s.stamp k src i e).aon = s.aon := rfl
@[simp] theorem State.stamp_hub (s : State) (k : EvClass) (src : EvSource) (i : Nat) (e : EvKind) : (s.stamp k src i e).hub = s.hub := rfl
@[simp] theorem State.stamp_keep (s : State) (k : EvClass) (src : EvSource) (i : Nat) (e : EvKind) : (s.stamp k src i e).keep = s.keep := rfl
@[simp] theorem State.stamp_charge (s : State) (k : EvClass) (src : EvSource) (i : Nat) (e : EvKind) : (s.stamp k src i e).charge = s.charge := rfl
@[simp] theorem State.stamp_gauge (s : State) (k : EvClass) (src : EvSource) (i : Nat) (e : EvKind) : (s.stamp k src i e).gauge = s.gauge := rfl
@[simp] theorem State.stamp_fcst (s : State) (k : EvClass) (src : EvSource) (i : Nat) (e : EvKind) : (s.stamp k src i e).fcst = s.fcst := rfl
@[simp] theorem State.stamp_therm (s : State) (k : EvClass) (src : EvSource) (i : Nat) (e : EvKind) : (s.stamp k src i e).therm = s.therm := rfl
@[simp] theorem State.stamp_trunk (s : State) (k : EvClass) (src : EvSource) (i : Nat) (e : EvKind) : (s.stamp k src i e).trunk = s.trunk := rfl
@[simp] theorem State.stamp_tel (s : State) (k : EvClass) (src : EvSource) (i : Nat) (e : EvKind) : (s.stamp k src i e).tel = s.tel := rfl
@[simp] theorem State.stamp_host (s : State) (k : EvClass) (src : EvSource) (i : Nat) (e : EvKind) : (s.stamp k src i e).host = s.host := rfl
@[simp] theorem State.stamp_cfg (s : State) (k : EvClass) (src : EvSource) (i : Nat) (e : EvKind) : (s.stamp k src i e).cfg = s.cfg := rfl
@[simp] theorem State.stamp_flash (s : State) (k : EvClass) (src : EvSource) (i : Nat) (e : EvKind) : (s.stamp k src i e).flash = s.flash := rfl
@[simp] theorem State.stamp_ledger (s : State) (k : EvClass) (src : EvSource) (i : Nat) (e : EvKind) : (s.stamp k src i e).ledger = s.ledger := rfl
@[simp] theorem State.stamp_update (s : State) (k : EvClass) (src : EvSource) (i : Nat) (e : EvKind) : (s.stamp k src i e).update = s.update := rfl
@[simp] theorem State.stamp_otp (s : State) (k : EvClass) (src : EvSource) (i : Nat) (e : EvKind) : (s.stamp k src i e).otp = s.otp := rfl
@[simp] theorem State.stamp_timers (s : State) (k : EvClass) (src : EvSource) (i : Nat) (e : EvKind) : (s.stamp k src i e).timers = s.timers := rfl
@[simp] theorem State.stamp_wdg (s : State) (k : EvClass) (src : EvSource) (i : Nat) (e : EvKind) : (s.stamp k src i e).wdg = s.wdg := rfl
@[simp] theorem State.stamp_hnd (s : State) (k : EvClass) (src : EvSource) (i : Nat) (e : EvKind) : (s.stamp k src i e).hnd = s.hnd := rfl
@[simp] theorem State.stamp_stack (s : State) (k : EvClass) (src : EvSource) (i : Nat) (e : EvKind) : (s.stamp k src i e).stack = s.stack := rfl
@[simp] theorem State.stamp_freeCtr (s : State) (k : EvClass) (src : EvSource) (i : Nat) (e : EvKind) : (s.stamp k src i e).freeCtr = s.freeCtr := rfl

@[simp] theorem State.pdSend_pending (s : State) (p : Port) (m : PdMsg) : (s.pdSend p m).pending = s.pending := rfl
@[simp] theorem State.pdSend_time (s : State) (p : Port) (m : PdMsg) : (s.pdSend p m).time = s.time := rfl
@[simp] theorem State.pdSend_events (s : State) (p : Port) (m : PdMsg) : (s.pdSend p m).events = s.events := rfl
@[simp] theorem State.pdSend_lanes (s : State) (p : Port) (m : PdMsg) : (s.pdSend p m).lanes = s.lanes := rfl
@[simp] theorem State.pdSend_portDies (s : State) (p : Port) (m : PdMsg) : (s.pdSend p m).portDies = (s.sendPort (dieOfSrc (portSrc p)) s.effTick (.send p m)).portDies := rfl
@[simp] theorem State.pdSend_ports (s : State) (p : Port) (m : PdMsg) : (s.pdSend p m).ports = s.ports := rfl
@[simp] theorem State.pdSend_conns (s : State) (p : Port) (m : PdMsg) : (s.pdSend p m).conns = s.conns := rfl
@[simp] theorem State.pdSend_nodes (s : State) (p : Port) (m : PdMsg) : (s.pdSend p m).nodes = s.nodes := rfl
@[simp] theorem State.pdSend_pdOut (s : State) (p : Port) (m : PdMsg) : (s.pdSend p m).pdOut = s.pdOut := rfl
@[simp] theorem State.pdSend_aon (s : State) (p : Port) (m : PdMsg) : (s.pdSend p m).aon = s.aon := rfl
@[simp] theorem State.pdSend_hub (s : State) (p : Port) (m : PdMsg) : (s.pdSend p m).hub = s.hub := rfl
@[simp] theorem State.pdSend_keep (s : State) (p : Port) (m : PdMsg) : (s.pdSend p m).keep = s.keep := rfl
@[simp] theorem State.pdSend_charge (s : State) (p : Port) (m : PdMsg) : (s.pdSend p m).charge = s.charge := rfl
@[simp] theorem State.pdSend_gauge (s : State) (p : Port) (m : PdMsg) : (s.pdSend p m).gauge = s.gauge := rfl
@[simp] theorem State.pdSend_fcst (s : State) (p : Port) (m : PdMsg) : (s.pdSend p m).fcst = s.fcst := rfl
@[simp] theorem State.pdSend_therm (s : State) (p : Port) (m : PdMsg) : (s.pdSend p m).therm = s.therm := rfl
@[simp] theorem State.pdSend_trunk (s : State) (p : Port) (m : PdMsg) : (s.pdSend p m).trunk = s.trunk := rfl
@[simp] theorem State.pdSend_tel (s : State) (p : Port) (m : PdMsg) : (s.pdSend p m).tel = s.tel := rfl
@[simp] theorem State.pdSend_host (s : State) (p : Port) (m : PdMsg) : (s.pdSend p m).host = s.host := rfl
@[simp] theorem State.pdSend_cfg (s : State) (p : Port) (m : PdMsg) : (s.pdSend p m).cfg = s.cfg := rfl
@[simp] theorem State.pdSend_flash (s : State) (p : Port) (m : PdMsg) : (s.pdSend p m).flash = s.flash := rfl
@[simp] theorem State.pdSend_ledger (s : State) (p : Port) (m : PdMsg) : (s.pdSend p m).ledger = s.ledger := rfl
@[simp] theorem State.pdSend_update (s : State) (p : Port) (m : PdMsg) : (s.pdSend p m).update = s.update := rfl
@[simp] theorem State.pdSend_otp (s : State) (p : Port) (m : PdMsg) : (s.pdSend p m).otp = s.otp := rfl
@[simp] theorem State.pdSend_timers (s : State) (p : Port) (m : PdMsg) : (s.pdSend p m).timers = s.timers := rfl
@[simp] theorem State.pdSend_wdg (s : State) (p : Port) (m : PdMsg) : (s.pdSend p m).wdg = s.wdg := rfl
@[simp] theorem State.pdSend_hnd (s : State) (p : Port) (m : PdMsg) : (s.pdSend p m).hnd = s.hnd := rfl
@[simp] theorem State.pdSend_stack (s : State) (p : Port) (m : PdMsg) : (s.pdSend p m).stack = s.stack := rfl
@[simp] theorem State.pdSend_freeCtr (s : State) (p : Port) (m : PdMsg) : (s.pdSend p m).freeCtr = s.freeCtr := rfl

@[simp] theorem State.pdPut_pending (s : State) (p : Port) (m : PdMsg) : (s.pdPut p m).pending = s.pending := rfl
@[simp] theorem State.pdPut_time (s : State) (p : Port) (m : PdMsg) : (s.pdPut p m).time = s.time := rfl
@[simp] theorem State.pdPut_events (s : State) (p : Port) (m : PdMsg) : (s.pdPut p m).events = s.events := rfl
@[simp] theorem State.pdPut_lanes (s : State) (p : Port) (m : PdMsg) : (s.pdPut p m).lanes = s.lanes := rfl
@[simp] theorem State.pdPut_portDies (s : State) (p : Port) (m : PdMsg) : (s.pdPut p m).portDies = s.portDies := rfl
@[simp] theorem State.pdPut_conns (s : State) (p : Port) (m : PdMsg) : (s.pdPut p m).conns = s.conns := rfl
@[simp] theorem State.pdPut_nodes (s : State) (p : Port) (m : PdMsg) : (s.pdPut p m).nodes = s.nodes := rfl
@[simp] theorem State.pdPut_aon (s : State) (p : Port) (m : PdMsg) : (s.pdPut p m).aon = s.aon := rfl
@[simp] theorem State.pdPut_hub (s : State) (p : Port) (m : PdMsg) : (s.pdPut p m).hub = s.hub := rfl
@[simp] theorem State.pdPut_keep (s : State) (p : Port) (m : PdMsg) : (s.pdPut p m).keep = s.keep := rfl
@[simp] theorem State.pdPut_charge (s : State) (p : Port) (m : PdMsg) : (s.pdPut p m).charge = s.charge := rfl
@[simp] theorem State.pdPut_gauge (s : State) (p : Port) (m : PdMsg) : (s.pdPut p m).gauge = s.gauge := rfl
@[simp] theorem State.pdPut_fcst (s : State) (p : Port) (m : PdMsg) : (s.pdPut p m).fcst = s.fcst := rfl
@[simp] theorem State.pdPut_therm (s : State) (p : Port) (m : PdMsg) : (s.pdPut p m).therm = s.therm := rfl
@[simp] theorem State.pdPut_trunk (s : State) (p : Port) (m : PdMsg) : (s.pdPut p m).trunk = s.trunk := rfl
@[simp] theorem State.pdPut_tel (s : State) (p : Port) (m : PdMsg) : (s.pdPut p m).tel = s.tel := rfl
@[simp] theorem State.pdPut_host (s : State) (p : Port) (m : PdMsg) : (s.pdPut p m).host = s.host := rfl
@[simp] theorem State.pdPut_cfg (s : State) (p : Port) (m : PdMsg) : (s.pdPut p m).cfg = s.cfg := rfl
@[simp] theorem State.pdPut_flash (s : State) (p : Port) (m : PdMsg) : (s.pdPut p m).flash = s.flash := rfl
@[simp] theorem State.pdPut_ledger (s : State) (p : Port) (m : PdMsg) : (s.pdPut p m).ledger = s.ledger := rfl
@[simp] theorem State.pdPut_update (s : State) (p : Port) (m : PdMsg) : (s.pdPut p m).update = s.update := rfl
@[simp] theorem State.pdPut_otp (s : State) (p : Port) (m : PdMsg) : (s.pdPut p m).otp = s.otp := rfl
@[simp] theorem State.pdPut_timers (s : State) (p : Port) (m : PdMsg) : (s.pdPut p m).timers = s.timers := rfl
@[simp] theorem State.pdPut_wdg (s : State) (p : Port) (m : PdMsg) : (s.pdPut p m).wdg = s.wdg := rfl
@[simp] theorem State.pdPut_hnd (s : State) (p : Port) (m : PdMsg) : (s.pdPut p m).hnd = s.hnd := rfl
@[simp] theorem State.pdPut_stack (s : State) (p : Port) (m : PdMsg) : (s.pdPut p m).stack = s.stack := rfl
@[simp] theorem State.pdPut_freeCtr (s : State) (p : Port) (m : PdMsg) : (s.pdPut p m).freeCtr = s.freeCtr := rfl
@[simp] theorem State.pdPut_pdOut (s : State) (p : Port) (m : PdMsg) : (s.pdPut p m).pdOut = { port := p, msg := m } :: s.pdOut := rfl

end Sys2Proof.Machine
end

