-- ==== Sys2Proof/Laws/Ops.lean ====
section
/-! SUPPORT. What the shared operations on memory, events, records, the mode and the mailbox do, each said once. -/

namespace Sys2Proof.Machine

/-! ### Memory -/

/-- Reading after a run of bytes was written: the written byte inside the run, the old one outside. -/
theorem cellsWriteAll_read (b : List Byte) : ∀ (m : List Host.Cell) (a x : Nat), Memory.wf m →
    cellsRead (cellsWriteAll m a b) x = if h : a ≤ x ∧ x < a + b.length then b[x - a] else cellsRead m x := by
  induction b with
  | nil => intro m a x h; rw [dif_neg (by simp)]; rfl
  | cons y r ih =>
    intro m a x h
    show cellsRead (cellsWriteAll (cellsWrite m a y) (a + 1) r) x = _
    rw [ih _ _ _ (cellsWrite_wf m a y h), cellsRead_write m a x y h]
    by_cases h1 : a + 1 ≤ x ∧ x < a + 1 + r.length
    · rw [dif_pos h1, dif_pos ⟨by omega, by simp only [List.length_cons]; omega⟩, List.getElem_cons, dif_neg (by omega)]
      congr 1
    · rw [dif_neg h1]
      by_cases h2 : x = a
      · subst h2; rw [if_pos rfl, dif_pos ⟨le_refl _, by simp only [List.length_cons]; omega⟩]; simp
      · rw [if_neg h2, dif_neg (by simp only [List.length_cons]; omega)]

/-- A block reads back as it was written. -/
theorem memRead_memWrite (s : State) (a : Nat) (b : List Byte) (h : Memory.wf s.host.mem) : (s.memWrite a b).memRead a b.length = b := by
  unfold State.memRead cellsReadAll
  apply List.ext_getElem
  · simp
  · intro i h1 h2
    simp only [List.getElem_map, List.getElem_range]
    show cellsRead (cellsWriteAll s.host.mem a b) (a + i) = _
    rw [cellsWriteAll_read b _ _ _ h, dif_pos ⟨by omega, by omega⟩]
    congr 1; omega

/-- Every byte outside a written block reads as before. -/
theorem memWrite_frame (s : State) (a : Nat) (b : List Byte) (x : Nat) (h : Memory.wf s.host.mem) (hx : x < a ∨ a + b.length ≤ x) :
    cellsRead (s.memWrite a b).host.mem x = cellsRead s.host.mem x := by
  show cellsRead (cellsWriteAll s.host.mem a b) x = _
  rw [cellsWriteAll_read b _ _ _ h, dif_neg (by omega)]

/-- Writing keeps the canonical form. -/
theorem memWrite_wf (s : State) (a : Nat) (b : List Byte) (h : Memory.wf s.host.mem) : Memory.wf (s.memWrite a b).host.mem :=
  cellsWriteAll_wf _ _ _ h

/-! ### Events -/

@[simp] theorem stamp_events (s : State) (c : EvClass) (src : EvSource) (item : Nat) (k : EvKind) :
    (s.stamp c src item k).events = s.events ++ [{ cls := c, tick := s.now, sub := BitVec.ofNat 8 s.subTick, src := src, item := item, kind := k }] := rfl

theorem stamp_frame (s : State) (c : EvClass) (src : EvSource) (item : Nat) (k : EvKind) :
    s.stamp c src item k = { s with events := (s.stamp c src item k).events } := rfl

/-! ### Records and the mode -/

/-- A record touches nothing but the ledger. -/
theorem record_frame (s : State) (ty : Half) (p : List Byte) : s.record ty p = { s with ledger := (s.record ty p).ledger } := by
  unfold State.record State.createRecord; dsimp only; split <;> rfl

/-- The mode is written, and its change is recorded in the ledger. -/
theorem setMode_frame (s : State) (m : Option Mode) (why : Nat) :
    s.setMode m why = { s with aon := { s.aon with mode := m }, ledger := (s.setMode m why).ledger } := by
  unfold State.setMode
  split
  · rename_i h; rw [← h]
  · rw [record_frame]

/-! ### Mailbox channels -/

theorem modChan_mbx (s : State) (c : HostChan) (f : Mbx → Mbx) : (s.modChan c f).mbx c = f (s.mbx c) := vmod_get_same ..

theorem modChan_frame (s : State) (c : HostChan) (f : Mbx → Mbx) : s.modChan c f = { s with host := (s.modChan c f).host } := rfl

end Sys2Proof.Machine
end

