-- ==== Sys2Proof/Laws/Records.lean ====
section
/-! SUPPORT. Laws about what a mode change and a ledger record leave alone, folds, one lane die. -/

namespace Sys2Proof.Machine

theorem setMode_mode (s : State) (m : Option Mode) (h : Nat) : (s.setMode m h).aon = { s.aon with mode := m } := by
  unfold State.setMode State.record State.createRecord; split
  · rename_i h; rw [← h]
  · dsimp only; split <;> rfl

theorem setMode_same (s : State) (m : Option Mode) (h : Nat) : (s.setMode m h).hub = s.hub ∧ (s.setMode m h).lanes = s.lanes ∧ (s.setMode m h).keep = s.keep ∧ (s.setMode m h).cfg = s.cfg ∧ (s.setMode m h).gauge = s.gauge ∧ (s.setMode m h).events = s.events  ∧ (s.setMode m h).conns = s.conns ∧ (s.setMode m h).nodes = s.nodes ∧ (s.setMode m h).ports = s.ports ∧ (s.setMode m h).portDies = s.portDies ∧ (s.setMode m h).host = s.host ∧ (s.setMode m h).time = s.time := by
  unfold State.setMode State.record State.createRecord; split
  · simp
  · dsimp only; split <;> simp

theorem record_same (s : State) (ty : Half) (p : List Byte) : (s.record ty p).aon = s.aon ∧ (s.record ty p).hub = s.hub ∧ (s.record ty p).lanes = s.lanes ∧ (s.record ty p).events = s.events ∧ (s.record ty p).conns = s.conns ∧ (s.record ty p).nodes = s.nodes ∧ (s.record ty p).ports = s.ports ∧ (s.record ty p).portDies = s.portDies ∧ (s.record ty p).host = s.host ∧ (s.record ty p).time = s.time ∧ (s.record ty p).cfg = s.cfg ∧ (s.record ty p).keep = s.keep ∧ (s.record ty p).charge = s.charge ∧ (s.record ty p).gauge = s.gauge ∧ (s.record ty p).trunk = s.trunk ∧ (s.record ty p).pdOut = s.pdOut ∧ (s.record ty p).update = s.update ∧ (s.record ty p).flash = s.flash ∧ (s.record ty p).therm = s.therm ∧ (s.record ty p).wdg = s.wdg ∧ (s.record ty p).stack = s.stack ∧ (s.record ty p).hnd = s.hnd  ∧ (s.record ty p).timers = s.timers ∧ (s.record ty p).tel = s.tel ∧ (s.record ty p).fcst = s.fcst := by
  unfold State.record State.createRecord; dsimp only; split <;> simp

theorem only_modLane (s : State) (n : Lane) (f) : OnlyLane n s (s.modLane n f) := ⟨rfl, fun m h => State.modLane_other s n m f h⟩

theorem only_modLane_stamp (s : State) (n : Lane) (f) (c so i k) : OnlyLane n s ((s.modLane n f).stamp c so i k) := ⟨rfl, fun m h => State.modLane_other s n m f h⟩

theorem foldl_inv {α β : Type} (P : β → Prop) (f : β → α → β) (l : List α) (b : β) (h : P b) (hf : ∀ b x, P b → P (f b x)) : P (l.foldl f b) := by
  induction l generalizing b with
  | nil => exact h
  | cons x r ih => exact ih _ (hf _ _ h)

@[simp] theorem vget_ofFn {α : Type} {n : Nat} (f : Fin n → α) (i : Fin n) : (Vector.ofFn f).get i = f i := by simp only [Vector.get, Vector.toArray_ofFn, Array.getInternal_eq_getElem, Array.getElem_ofFn]; rfl

theorem record_trunk (s : State) (ty p) : (s.record ty p).trunk = s.trunk := by unfold State.record State.createRecord; dsimp only; split <;> rfl

theorem record_lanes (s : State) (ty p) : (s.record ty p).lanes = s.lanes := by unfold State.record State.createRecord; dsimp only; split <;> rfl

theorem record_ports (s : State) (ty p) : (s.record ty p).ports = s.ports := by unfold State.record State.createRecord; dsimp only; split <;> rfl

theorem record_conns (s : State) (ty p) : (s.record ty p).conns = s.conns := by unfold State.record State.createRecord; dsimp only; split <;> rfl

theorem record_hub (s : State) (ty p) : (s.record ty p).hub = s.hub := by unfold State.record State.createRecord; dsimp only; split <;> rfl

theorem record_cfg (s : State) (ty p) : (s.record ty p).cfg = s.cfg := by unfold State.record State.createRecord; dsimp only; split <;> rfl

theorem record_time (s : State) (ty p) : (s.record ty p).time = s.time := by unfold State.record State.createRecord; dsimp only; split <;> rfl

theorem record_otp (s : State) (ty p) : (s.record ty p).otp = s.otp := by unfold State.record State.createRecord; dsimp only; split <;> rfl

theorem record_is (s : State) (ty p) : s.record ty p = { s with ledger := (s.record ty p).ledger } := by unfold State.record State.createRecord; dsimp only; split <;> rfl

theorem foldl_aon {α : Type} (f : State → α → State) (l : List α) (s : State) (hf : ∀ s x, (f s x).aon = s.aon) : (l.foldl f s).aon = s.aon := by
  induction l generalizing s with
  | nil => rfl
  | cons x r ih => rw [List.foldl_cons, ih, hf]

theorem foldl_proj {α β : Type} (g : State → β) (f : State → α → State) (l : List α) (s : State) (hf : ∀ s x, g (f s x) = g s) : g (l.foldl f s) = g s := by
  induction l generalizing s with
  | nil => rfl
  | cons x r ih => rw [List.foldl_cons, ih, hf]

theorem fold_conns {α : Type} (f : State → α → State) (l : List α) (s : State) (hf : ∀ s x, (f s x).conns = s.conns) : (l.foldl f s).conns = s.conns := by
  induction l generalizing s with
  | nil => rfl
  | cons x r ih => rw [List.foldl_cons, ih, hf]

theorem foldl_lanes {α : Type} (f : State → α → State) (l : List α) (s : State) (hf : ∀ s x, (f s x).lanes = s.lanes) : (l.foldl f s).lanes = s.lanes := by
  induction l generalizing s with
  | nil => rfl
  | cons x r ih => rw [List.foldl_cons, ih, hf]

end Sys2Proof.Machine
end

