-- ==== Sys2Proof/Laws/GaugeWrites.lean ====
section
/-! SUPPORT. Laws about what gauge records, anchors and learning leave alone. -/

namespace Sys2Proof.Machine

theorem addJob_is (s : State) (j) : ∃ f, s.addJob j = { s with flash := f } := by unfold State.addJob; exact ⟨_, rfl⟩

theorem writeGauge_is (s : State) (h : s.hubUp = true) : ∃ f, s.writeGauge = { s with flash := f, gauge := { s.gauge with batid := some s.gauge.batidNow, storedSoc := some s.soc, lastRecR := s.gauge.rPack, lastRecSoc := s.soc, lastRecTick := s.now } } := by
  unfold State.writeGauge; rw [if_pos h]; dsimp only
  obtain ⟨f, e⟩ := addJob_is ({ s with gauge := { s.gauge with batid := some s.gauge.batidNow, storedSoc := some s.soc, lastRecR := s.gauge.rPack, lastRecSoc := s.soc, lastRecTick := s.now } }) (FlashJob.learned (State.learnedRec { s with gauge := { s.gauge with batid := some s.gauge.batidNow, storedSoc := some s.soc, lastRecR := s.gauge.rPack, lastRecSoc := s.soc, lastRecTick := s.now } } 1 0 (State.gaugeBody { s with gauge := { s.gauge with batid := some s.gauge.batidNow, storedSoc := some s.soc, lastRecR := s.gauge.rPack, lastRecSoc := s.soc, lastRecTick := s.now } })))
  exact ⟨f, e⟩

/-- The coulomb counter, the charge record and the lanes are as before. -/
def GaugePartKept (s t : State) : Prop := t.gauge.sum = s.gauge.sum ∧ t.gauge.lastTick = s.gauge.lastTick ∧ t.gauge.nRound = s.gauge.nRound ∧ t.gauge.iSum = s.gauge.iSum ∧ t.charge = s.charge ∧ t.lanes = s.lanes

theorem writeGauge_lk (s : State) : GaugePartKept s s.writeGauge := by
  by_cases h : s.hubUp = true
  · obtain ⟨f, e⟩ := writeGauge_is s h
    rw [e]; exact ⟨rfl, rfl, rfl, rfl, rfl, rfl⟩
  · unfold State.writeGauge; rw [if_neg h]; exact ⟨rfl, rfl, rfl, rfl, rfl, rfl⟩

theorem GaugePartKept.tr {s t u : State} (h : GaugePartKept s t) (k : GaugePartKept t u) : GaugePartKept s u := ⟨k.1.trans h.1, k.2.1.trans h.2.1, k.2.2.1.trans h.2.2.1, k.2.2.2.1.trans h.2.2.2.1, k.2.2.2.2.1.trans h.2.2.2.2.1, k.2.2.2.2.2.trans h.2.2.2.2.2⟩

theorem applyEvent_lk (s : State) (r) : GaugePartKept s (s.applyEvent r) := by
  unfold State.applyEvent; dsimp only; repeat' split
  · exact GaugePartKept.tr (by exact ⟨rfl, rfl, rfl, rfl, rfl, rfl⟩) (writeGauge_lk _)
  · exact ⟨rfl, rfl, rfl, rfl, rfl, rfl⟩
  · exact ⟨rfl, rfl, rfl, rfl, rfl, rfl⟩
  · exact GaugePartKept.tr (by exact ⟨rfl, rfl, rfl, rfl, rfl, rfl⟩) (writeGauge_lk _)

theorem sampleGauge_lk (s : State) (i v) : GaugePartKept s (s.sampleGauge i v) := by
  unfold State.sampleGauge; split <;> exact ⟨rfl, rfl, rfl, rfl, rfl, rfl⟩

theorem writeGauge_kp (s : State) : ∃ f g, s.writeGauge = { s with flash := f, gauge := g } ∧ g.socQualified = s.gauge.socQualified := by
  by_cases h : s.hubUp = true
  · obtain ⟨f, e⟩ := writeGauge_is s h
    exact ⟨f, _, e, rfl⟩
  · unfold State.writeGauge; rw [if_neg h]; exact ⟨s.flash, s.gauge, rfl, rfl⟩

theorem packChange_kp (s : State) (x) : ∃ f g l, s.packChange x = { s with flash := f, gauge := g, ledger := l } := by
  unfold State.packChange; dsimp only; rw [record_is]
  generalize hz : State.setSoc _ x = z
  obtain ⟨f, g, e, _⟩ := writeGauge_kp z
  rw [e, ← hz]; exact ⟨_, _, _, rfl⟩

theorem presenceAnchor_kp (s : State) (x) : ∃ f g l, s.presenceAnchor x = { s with flash := f, gauge := g, ledger := l } := by
  unfold State.presenceAnchor; dsimp only; split
  · split
    · exact ⟨s.flash, _, s.ledger, rfl⟩
    · exact packChange_kp s _
  · exact ⟨s.flash, _, s.ledger, rfl⟩

theorem learnCap_kp (s : State) (x) : ∃ f g, s.learnCap x = { s with flash := f, gauge := g } := by
  unfold State.learnCap; dsimp only; split
  · generalize hz : ({ s with gauge := _ } : State) = z
    obtain ⟨f, g, e, _⟩ := writeGauge_kp z
    rw [e, ← hz]; exact ⟨_, _, rfl⟩
  · exact ⟨s.flash, s.gauge, rfl⟩

theorem anchorTermination_kp (s : State) (x) : ∃ f g, s.anchorTermination x = { s with flash := f, gauge := g } ∧ g.socQualified = true := by
  unfold State.anchorTermination; dsimp only
  split
  · split
    · obtain ⟨f, g, e⟩ := learnCap_kp s (ratio s.gauge.sinceAnchorAh (1 - ‹Rat›))
      rw [e]; exact ⟨f, _, rfl, rfl⟩
    · exact ⟨s.flash, _, rfl, rfl⟩
  · exact ⟨s.flash, _, rfl, rfl⟩

end Sys2Proof.Machine
end

