-- ==== Sys2Proof/Laws/Frames.lean ====
section
/-! SUPPORT. Laws about the frames the hub sends to the dies: a frame that has been sent stays in the die's list until it takes
effect, and a series of sends gives every die named its frame. -/

namespace Sys2Proof.Machine

theorem sendLane_keeps (s : State) (n m : Lane) (eff : Nat) (go : LaneGo) (o : LaneOrder) (f : LaneFrame) (h : f ∈ (s.lane m).frames) :
    f ∈ ((s.sendLane n eff go o).lane m).frames := by
  unfold State.sendLane
  by_cases e : m = n
  · subst e; rw [State.modLane_lane]; exact List.mem_append_left _ h
  · rw [State.modLane_other _ _ _ _ e]; exact h

theorem sendLane_has (s : State) (n : Lane) (eff : Nat) (go : LaneGo) (o : LaneOrder) :
    { eff := eff, go := go, order := o, set := [] } ∈ ((s.sendLane n eff go o).lane n).frames := by
  unfold State.sendLane; rw [State.modLane_lane]; exact List.mem_append_right _ (List.mem_singleton.mpr rfl)

theorem sendLanes_keep (g : State → Lane → LaneGo) (o : State → Lane → LaneOrder) (eff : Nat) (m : Lane) (f : LaneFrame) (l : List Lane) :
    ∀ s : State, f ∈ (s.lane m).frames → f ∈ ((l.foldl (fun s n => s.sendLane n eff (g s n) (o s n)) s).lane m).frames := by
  induction l with
  | nil => intro s h; exact h
  | cons x r ih => intro s h; rw [List.foldl_cons]; exact ih _ (sendLane_keeps _ _ _ _ _ _ _ h)

theorem sendLanes_have (g : State → Lane → LaneGo) (o : State → Lane → LaneOrder) (eff : Nat) (m : Lane) (l : List Lane) (hm : m ∈ l) :
    ∀ s : State, ∃ u : State, { eff := eff, go := g u m, order := o u m, set := [] } ∈
      ((l.foldl (fun s n => s.sendLane n eff (g s n) (o s n)) s).lane m).frames := by
  induction l with
  | nil => cases hm
  | cons x r ih =>
    intro s
    rw [List.foldl_cons]
    rcases List.mem_cons.mp hm with e | e
    · subst e; exact ⟨s, sendLanes_keep g o eff m _ r _ (sendLane_has ..)⟩
    · exact ih e _

/-- A frame to the far node reaches every lane of its gang. -/
theorem sendNode_has (s : State) (n m : Lane) (eff : Nat) (go : LaneGo) (f : LaneOrder → LaneOrder) (hm : m ∈ s.cfg.gang n) :
    ∃ u : State, { eff := eff, go := u.memberGo m go, order := u.memberPart n m (f (s.lastOrder n)), set := [] } ∈
      ((s.sendNode n eff go f).lane m).frames := by
  unfold State.sendNode; dsimp only
  exact sendLanes_have (fun s m => s.memberGo m go) (fun s m => s.memberPart n m (f _)) eff m _ hm s

/-- A frame to a far node changes the frames of lane dies and the node's record of what was sent, nothing else. -/
theorem sendNode_is (s : State) (n : Lane) (eff : Nat) (go : LaneGo) (f : LaneOrder → LaneOrder) :
    ∃ L N, s.sendNode n eff go f = { s with lanes := L, nodes := N } := by
  have k : ∀ (o : LaneOrder) (l : List Lane) (u : State), ∃ L, l.foldl (fun s m => s.sendLane m eff (s.memberGo m go) (s.memberPart n m o)) u = { u with lanes := L } := by
    intro o l
    induction l with
    | nil => intro u; exact ⟨u.lanes, rfl⟩
    | cons x r ih => intro u; obtain ⟨L, h⟩ := ih (u.sendLane x eff (u.memberGo x go) (u.memberPart n x o)); exact ⟨L, h⟩
  unfold State.sendNode; dsimp only
  obtain ⟨L, h⟩ := k (f (s.lastOrder n)) (s.cfg.gang n) s
  rw [h]; exact ⟨L, _, rfl⟩

theorem sendPort_keeps (s : State) (n m : PortDie) (eff : Nat) (c : PortCmd) (f : PortFrame) (h : f ∈ (s.pdie m).frames) :
    f ∈ ((s.sendPort n eff c).pdie m).frames := by
  unfold State.sendPort
  by_cases e : m = n
  · subst e; rw [State.modPd_pdie]; exact List.mem_append_left _ h
  · rw [State.modPd_other _ _ _ _ e]; exact h

theorem sendPort_has (s : State) (n : PortDie) (eff : Nat) (c : PortCmd) : { eff := eff, cmd := c } ∈ ((s.sendPort n eff c).pdie n).frames := by
  unfold State.sendPort; rw [State.modPd_pdie]; exact List.mem_append_right _ (List.mem_singleton.mpr rfl)

theorem sendPorts_keep {α : Type} (d : α → PortDie) (k : α → PortCmd) (eff : Nat) (m : PortDie) (f : PortFrame) (l : List α) :
    ∀ s : State, f ∈ (s.pdie m).frames → f ∈ ((l.foldl (fun s c => s.sendPort (d c) eff (k c)) s).pdie m).frames := by
  induction l with
  | nil => intro s h; exact h
  | cons x r ih => intro s h; rw [List.foldl_cons]; exact ih _ (sendPort_keeps _ _ _ _ _ _ h)

theorem sendPorts_have {α : Type} (d : α → PortDie) (k : α → PortCmd) (eff : Nat) (c : α) (l : List α) (hc : c ∈ l) :
    ∀ s : State, { eff := eff, cmd := k c } ∈ ((l.foldl (fun s c => s.sendPort (d c) eff (k c)) s).pdie (d c)).frames := by
  induction l with
  | nil => cases hc
  | cons x r ih =>
    intro s
    rw [List.foldl_cons]
    rcases List.mem_cons.mp hc with e | e
    · subst e; exact sendPorts_keep d k eff _ _ r _ (sendPort_has ..)
    · exact ih e _

end Sys2Proof.Machine
end

