-- ==== Sys2Proof/Laws/Ports.lean ====
section
/-! SUPPORT. Laws about what the shared port operations (CC refresh, ends of feed and watch, swap, attach, detach, hard reset, error recovery) leave and set. -/

namespace Sys2Proof.Machine

theorem ccRefresh_step (s : State) (p : Port) : ∀ t, t = (if (s.port p).attach = .unattached && !(s.port p).tryWait then
      let cc := s.ccRest p
      s.modPort p (fun q => { q with cc := if cc = .openPin && s.portGet p 4 = 2 then .rd else cc })
    else s) → t = { s with ports := t.ports } ∧ ∀ q, ∃ c, t.port q = { s.port q with cc := c } := by
  rintro t rfl; split
  · refine ⟨rfl, fun q => ?_⟩
    by_cases h : q = p
    · subst h; exact ⟨_, State.modPort_port ..⟩
    · exact ⟨_, State.modPort_other _ _ _ _ h⟩
  · exact ⟨rfl, fun q => ⟨_, rfl⟩⟩

theorem fp_trans {s u v : State} (hu : u = { s with ports := u.ports }) (hv : v = { u with ports := v.ports }) : v = { s with ports := v.ports } :=
  hv.trans (by rw [hu])

theorem ccRefresh_is (s : State) : s.ccRefresh = { s with ports := s.ccRefresh.ports } ∧ ∀ q, ∃ c, s.ccRefresh.port q = { s.port q with cc := c } := by
  unfold State.ccRefresh
  refine foldl_inv (fun t : State => t = { s with ports := t.ports } ∧ ∀ q, ∃ c, t.port q = { s.port q with cc := c }) _ _ _ ⟨rfl, fun q => ⟨_, rfl⟩⟩ ?_
  intro b p ⟨h1, h2⟩
  obtain ⟨k1, k2⟩ := ccRefresh_step b p _ rfl
  refine ⟨fp_trans h1 k1, fun q => ?_⟩
  obtain ⟨c, hc⟩ := h2 q
  obtain ⟨d, hd⟩ := k2 q
  exact ⟨d, by rw [hd, hc]⟩

theorem ccRefresh_ex (s : State) : ∃ p, s.ccRefresh = { s with ports := p } := ⟨_, (ccRefresh_is s).1⟩

@[simp] theorem ccRefresh_conn (s : State) (c) : s.ccRefresh.conn c = s.conn c := by obtain ⟨p, h⟩ := ccRefresh_ex s; simp only [State.conn, h]

@[simp] theorem ccRefresh_lane (s : State) (c) : s.ccRefresh.lane c = s.lane c := by obtain ⟨p, h⟩ := ccRefresh_ex s; simp only [State.lane, h]

@[simp] theorem ccRefresh_node (s : State) (c) : s.ccRefresh.node c = s.node c := by obtain ⟨p, h⟩ := ccRefresh_ex s; simp only [State.node, h]

@[simp] theorem ccRefresh_pdie (s : State) (c) : s.ccRefresh.pdie c = s.pdie c := by obtain ⟨p, h⟩ := ccRefresh_ex s; simp only [State.pdie, h]

@[simp] theorem ccRefresh_link (s : State) (c) : s.ccRefresh.link c = s.link c := by obtain ⟨p, h⟩ := ccRefresh_ex s; simp only [State.link, h]

@[simp] theorem ccRefresh_conns (s : State) : s.ccRefresh.conns = s.conns := by obtain ⟨p, h⟩ := ccRefresh_ex s; simp only [h]

@[simp] theorem ccRefresh_lanes (s : State) : s.ccRefresh.lanes = s.lanes := by obtain ⟨p, h⟩ := ccRefresh_ex s; simp only [h]

@[simp] theorem ccRefresh_nodes (s : State) : s.ccRefresh.nodes = s.nodes := by obtain ⟨p, h⟩ := ccRefresh_ex s; simp only [h]

@[simp] theorem ccRefresh_events (s : State) : s.ccRefresh.events = s.events := by obtain ⟨p, h⟩ := ccRefresh_ex s; simp only [h]

@[simp] theorem ccRefresh_aon (s : State) : s.ccRefresh.aon = s.aon := by obtain ⟨p, h⟩ := ccRefresh_ex s; simp only [h]

@[simp] theorem ccRefresh_hub (s : State) : s.ccRefresh.hub = s.hub := by obtain ⟨p, h⟩ := ccRefresh_ex s; simp only [h]

@[simp] theorem ccRefresh_trunk (s : State) : s.ccRefresh.trunk = s.trunk := by obtain ⟨p, h⟩ := ccRefresh_ex s; simp only [h]

@[simp] theorem ccRefresh_pdOut (s : State) : s.ccRefresh.pdOut = s.pdOut := by obtain ⟨p, h⟩ := ccRefresh_ex s; simp only [h]

@[simp] theorem ccRefresh_portDies (s : State) : s.ccRefresh.portDies = s.portDies := by obtain ⟨p, h⟩ := ccRefresh_ex s; simp only [h]

@[simp] theorem ccRefresh_charge (s : State) : s.ccRefresh.charge = s.charge := by obtain ⟨p, h⟩ := ccRefresh_ex s; simp only [h]

@[simp] theorem ccRefresh_keep (s : State) : s.ccRefresh.keep = s.keep := by obtain ⟨p, h⟩ := ccRefresh_ex s; simp only [h]

@[simp] theorem ccRefresh_cfg (s : State) : s.ccRefresh.cfg = s.cfg := by obtain ⟨p, h⟩ := ccRefresh_ex s; simp only [h]

@[simp] theorem ccRefresh_gauge (s : State) : s.ccRefresh.gauge = s.gauge := by obtain ⟨p, h⟩ := ccRefresh_ex s; simp only [h]

@[simp] theorem ccRefresh_time (s : State) : s.ccRefresh.time = s.time := by obtain ⟨p, h⟩ := ccRefresh_ex s; simp only [h]

@[simp] theorem ccRefresh_host (s : State) : s.ccRefresh.host = s.host := by obtain ⟨p, h⟩ := ccRefresh_ex s; simp only [h]

@[simp] theorem ccRefresh_flash (s : State) : s.ccRefresh.flash = s.flash := by obtain ⟨p, h⟩ := ccRefresh_ex s; simp only [h]

@[simp] theorem ccRefresh_ledger (s : State) : s.ccRefresh.ledger = s.ledger := by obtain ⟨p, h⟩ := ccRefresh_ex s; simp only [h]

@[simp] theorem ccRefresh_attach (s : State) (q) : (s.ccRefresh.port q).attach = (s.port q).attach := by obtain ⟨c, h⟩ := (ccRefresh_is s).2 q; rw [h]

@[simp] theorem stamp_conn (s : State) (a b c d x) : (s.stamp a b c d).conn x = s.conn x := rfl

@[simp] theorem stamp_lane (s : State) (a b c d x) : (s.stamp a b c d).lane x = s.lane x := rfl

@[simp] theorem stamp_port (s : State) (a b c d x) : (s.stamp a b c d).port x = s.port x := rfl

@[simp] theorem stamp_node (s : State) (a b c d x) : (s.stamp a b c d).node x = s.node x := rfl

@[simp] theorem stamp_pdie (s : State) (a b c d x) : (s.stamp a b c d).pdie x = s.pdie x := rfl

@[simp] theorem stamp_hub (s : State) (a b c d) : (s.stamp a b c d).hub = s.hub := rfl

@[simp] theorem stamp_ev (s : State) (a b c d) : (s.stamp a b c d).events = s.events ++ [{ cls := a, tick := s.now, sub := BitVec.ofNat 8 s.subTick, src := b, item := c, kind := d }] := rfl

/-- Ports, pairs, PD output, events, hub record, settings and time are as before. -/
structure PortPartKept (s t : State) : Prop where
  ports : t.ports = s.ports
  conns : t.conns = s.conns
  pdOut : t.pdOut = s.pdOut
  events : t.events = s.events
  hub : t.hub = s.hub
  cfg : t.cfg = s.cfg
  time : t.time = s.time

theorem PortPartKept.refl (s : State) : PortPartKept s s := ⟨rfl, rfl, rfl, rfl, rfl, rfl, rfl⟩

theorem PortPartKept.tr {s t u : State} (h : PortPartKept s t) (k : PortPartKept t u) : PortPartKept s u := ⟨k.1.trans h.1, k.2.trans h.2, k.3.trans h.3, k.4.trans h.4, k.5.trans h.5, k.6.trans h.6, k.7.trans h.7⟩

theorem PortPartKept.fold {α : Type} (f : State → α → State) (hf : ∀ s x, PortPartKept s (f s x)) (l : List α) (s : State) : PortPartKept s (l.foldl f s) := 
  foldl_inv (PortPartKept s) f l s (PortPartKept.refl s) (fun b x h => h.tr (hf b x))

theorem PortPartKept.record (s : State) (ty p) : PortPartKept s (s.record ty p) := by
  unfold State.record State.createRecord; split <;> exact ⟨rfl, rfl, rfl, rfl, rfl, rfl, rfl⟩

theorem PortPartKept.answerNormal (s : State) (c op seq bell code resp) : PortPartKept s (s.answerNormal c op seq bell code resp) := by
  have h1 : ∀ (s : State) f, PortPartKept s (s.modChan c f) := fun s f => ⟨rfl, rfl, rfl, rfl, rfl, rfl, rfl⟩
  have h2 : ∀ (s : State) f, PortPartKept s (s.setHdb f) := fun s f => ⟨rfl, rfl, rfl, rfl, rfl, rfl, rfl⟩
  have h3 : ∀ (s : State) f g, PortPartKept s (s.memWrite f g) := fun s f g => ⟨rfl, rfl, rfl, rfl, rfl, rfl, rfl⟩
  unfold State.answerNormal; split
  · exact (h1 _ _).tr (h2 _ _)
  · exact (((h3 _ _ _).tr (h3 _ _ _)).tr (h1 _ _)).tr (h2 _ _)

theorem PortPartKept.finish (s : State) (c code resp) : PortPartKept s (s.finish c code resp) := by
  unfold State.finish; split
  · exact PortPartKept.answerNormal ..
  · exact PortPartKept.refl _

theorem PortPartKept.portReply (s : State) (p l code) : PortPartKept s (s.portReply p l code) := by
  unfold State.portReply
  refine PortPartKept.fold _ (fun s c => ?_) _ _
  split
  · split
    · exact PortPartKept.finish ..
    · exact PortPartKept.refl _
  · exact PortPartKept.refl _

/-- A reply to the host sends nothing to a port die. -/
theorem portReply_dies (s : State) (p l code) : (s.portReply p l code).portDies = s.portDies := by
  have h1 : ∀ (s : State) c f, (s.modChan c f).portDies = s.portDies := fun _ _ _ => rfl
  have h2 : ∀ (s : State) f, (s.setHdb f).portDies = s.portDies := fun _ _ => rfl
  have h3 : ∀ (s : State) a b, (s.memWrite a b).portDies = s.portDies := fun _ _ _ => rfl
  have g : ∀ (u : State) (c code resp), (u.finish c code resp).portDies = u.portDies := by
    intro u c code resp; unfold State.finish; split
    · unfold State.answerNormal; split
      · rw [h2, h1]
      · rw [h2, h1, h3, h3]
    · rfl
  unfold State.portReply
  refine foldl_inv (fun u : State => u.portDies = s.portDies) _ _ _ rfl (fun b c hb => ?_)
  split
  · split
    · exact (g _ _ _ _).trans hb
    · exact hb
  · exact hb

@[simp] theorem pdPut_port (s : State) (p : Port) (m : PdMsg) : (s.pdPut p m).port p =
    { s.port p with lastTx := some m, retries := 0, txNg := (s.port p).attach == .source && (s.port p).contract.kind != .none } :=
  vmod_get_same ..

@[simp] theorem swapStep_port (s : State) (p : Port) (b : Byte) :
    (s.swapStep p b).port p = { s.port p with swap := (s.port p).swap.map (fun w => { w with step := b }) } := vmod_get_same ..

/-- A PD message of the hub is a frame to the port's die (R6). -/
theorem pdSend_sends (s u : State) (p : Port) (m : PdMsg) (h : u.time = s.time) : Sends p m s (u.pdSend p m) := by
  have e : s.effTick = u.effTick := by unfold State.effTick State.now; rw [h]
  unfold Sends; rw [e]; exact sendPort_has ..

theorem sends_keep (s u v : State) (p : Port) (m : PdMsg) (h : Sends p m s u) (hv : v.portDies = u.portDies) : Sends p m s v := by
  unfold Sends State.pdie at *; rw [hv]; exact h

theorem PortPartKept.sendMux (s : State) (p) : PortPartKept s (s.sendMux p) := by
  unfold State.sendMux; split
  · exact ⟨rfl, rfl, rfl, rfl, rfl, rfl, rfl⟩
  · exact PortPartKept.refl _

theorem PortPartKept.sendNode (s : State) (n e g f) : PortPartKept s (s.sendNode n e g f) := by
  unfold State.sendNode
  dsimp only
  generalize hu : List.foldl _ s (s.cfg.gang n) = u
  have k : PortPartKept s u := by
    rw [← hu]; refine PortPartKept.fold _ (fun s c => ?_) _ _; exact ⟨rfl, rfl, rfl, rfl, rfl, rfl, rfl⟩
  exact k.tr ⟨rfl, rfl, rfl, rfl, rfl, rfl, rfl⟩

theorem PortPartKept.modNode (s : State) (n f) : PortPartKept s (s.modNode n f) := ⟨rfl, rfl, rfl, rfl, rfl, rfl, rfl⟩

theorem PortPartKept.standbyFor (s : State) (p) : PortPartKept s (s.standbyFor p) := by
  unfold State.standbyFor; split
  · split
    · exact PortPartKept.tr (PortPartKept.sendNode _ _ _ _ _) (PortPartKept.modNode _ _ _)
    · exact PortPartKept.refl _
  · exact PortPartKept.refl _

theorem PortPartKept.port {s t : State} (h : PortPartKept s t) (p : Port) : t.port p = s.port p := congrArg (fun v => Vector.get v p) h.ports

theorem PortPartKept.conn {s t : State} (h : PortPartKept s t) (p : Src) : t.conn p = s.conn p := congrArg (fun v => Vector.get v p) h.conns

theorem stopNode_ports (s : State) (n) : (s.stopNode n).ports = s.ports ∧ (s.stopNode n).conns = s.conns ∧ (s.stopNode n).pdOut = s.pdOut ∧ (s.stopNode n).hub = s.hub ∧ (s.stopNode n).time = s.time := by
  unfold State.stopNode
  exact foldl_inv (fun u : State => u.ports = s.ports ∧ u.conns = s.conns ∧ u.pdOut = s.pdOut ∧ u.hub = s.hub ∧ u.time = s.time) _ _ _ ⟨rfl, rfl, rfl, rfl, rfl⟩ (fun b x h => h)

/-- A port keeps all but what the end of a feed or watch touches. -/
structure PortQuiet (a b : PortSt) : Prop where
  attach : b.attach = a.attach ∨ (a.attach = .frsWatch ∧ b.attach = .sink)
  attachRole : b.attachRole = a.attachRole
  hardResets : b.hardResets = a.hardResets
  contract : b.contract = a.contract
  deadRd : b.deadRd = a.deadRd
  wait : b.wait = a.wait

theorem PortQuiet.refl (a : PortSt) : PortQuiet a a := ⟨.inl rfl, rfl, rfl, rfl, rfl, rfl⟩

theorem PortQuiet.tr {a b c : PortSt} (h : PortQuiet a b) (k : PortQuiet b c) : PortQuiet a c := by
  refine ⟨?_, k.2.trans h.2, k.3.trans h.3, k.4.trans h.4, k.5.trans h.5, k.6.trans h.6⟩
  rcases h.1 with h1 | ⟨h1, h2⟩ <;> rcases k.1 with k1 | ⟨k1, k2⟩
  · exact .inl (k1.trans h1)
  · exact .inr ⟨h1 ▸ k1, k2⟩
  · exact .inr ⟨h1, k1.trans h2⟩
  · exact .inr ⟨h1, k2⟩

theorem feedEnd_port (s : State) (p d) : PortQuiet (s.port p) ((s.feedEnd p d).port p) ∧ (s.feedEnd p d).pdOut = s.pdOut ∧ (s.feedEnd p d).hub = s.hub ∧ ((s.port p).feeding = true → ((s.feedEnd p d).conn (portSrc p)).pair = .opened ∧ ((s.feedEnd p d).port p).feeding = false ∧ ((s.feedEnd p d).port p).disch = true) ∧ (s.feedEnd p d).time = s.time := by
  unfold State.feedEnd
  by_cases h : (s.port p).feeding = true
  · simp only [h, if_true]
    have key : ∀ u : State, u.ports = s.ports → u.pdOut = s.pdOut → u.hub = s.hub → u.time = s.time → 
      let t := (u.openPair (portSrc p)).modPort p (fun q => { q with feeding := false, disch := true, feedReady := false, feedTarget := 0, frsSignal := false })
      PortQuiet (s.port p) (t.port p) ∧ t.pdOut = s.pdOut ∧ t.hub = s.hub ∧ ((t.conn (portSrc p)).pair = .opened ∧ (t.port p).feeding = false ∧ (t.port p).disch = true) ∧ t.time = s.time := by
      intro u h1 h2 h3 h4 t
      have e : u.port p = s.port p := congrArg (fun v => Vector.get v p) h1
      have e2 : (u.openPair (portSrc p)).port p = s.port p := e
      refine ⟨?_, h2, h3, ⟨?_, ?_, ?_⟩, h4⟩
      · simp only [t, State.modPort_port, e2]; exact ⟨.inl rfl, rfl, rfl, rfl, rfl, rfl⟩
      · show ((u.openPair (portSrc p)).conn _).pair = _; unfold State.openPair; simp
      · simp [t]
      · simp [t]
    have st := fun n => stopNode_ports s n
    split
    · rename_i n _
      have := key ((s.stopNode n).modNode n (fun k => { k with feeding := none, drain := d && !(s.stopNode n).aon.safeLatch, sent := none })) (st n).1 (st n).2.2.1 (st n).2.2.2.1 (st n).2.2.2.2
      exact ⟨this.1, this.2.1, this.2.2.1, fun _ => this.2.2.2.1, this.2.2.2.2⟩
    · have := key s rfl rfl rfl rfl
      exact ⟨this.1, this.2.1, this.2.2.1, fun _ => this.2.2.2.1, this.2.2.2.2⟩
  · simp only [h]; exact ⟨PortQuiet.refl _, rfl, rfl, fun h' => absurd h' (by simp), rfl⟩

/-- VBUS that comes or goes moves only the step of a swap (R183). -/
theorem swapVbus_is (s : State) (p b) : (s.swapVbus p b).conns = s.conns ∧ (s.swapVbus p b).lanes = s.lanes ∧
    ((s.swapVbus p b).port p).attach = (s.port p).attach ∧ ((s.swapVbus p b).port p).hrActive = (s.port p).hrActive ∧
    (s.swapVbus p b).events = s.events ∧ (s.swapVbus p b).time = s.time := by
  unfold State.swapVbus; split
  · exact ⟨rfl, rfl, by simp, by simp, rfl, rfl⟩
  · exact ⟨rfl, rfl, rfl, rfl, rfl, rfl⟩

theorem swapBroken_port (s : State) (p) : PortQuiet (s.port p) ((s.swapBroken p).port p) ∧ (s.swapBroken p).pdOut = s.pdOut ∧ (s.swapBroken p).hub = s.hub ∧ (s.swapBroken p).conns = s.conns ∧ ((s.swapBroken p).port p).feeding = (s.port p).feeding ∧ ((s.swapBroken p).port p).swap = none ∧ (s.swapBroken p).time = s.time := by
  unfold State.swapBroken
  split
  · rename_i w hw
    have k := PortPartKept.record s 0x0405 [BitVec.ofNat 8 p.val, if w.fast then 2 else 1, w.step, boolByte ((s.port p).attachRole == .source)]
    have e := k.port p
    refine ⟨?_, k.pdOut, k.hub, k.conns, ?_, ?_, k.time⟩
    · simp only [State.modPort_port, e]; exact ⟨.inl rfl, rfl, rfl, rfl, rfl, rfl⟩
    · simp only [State.modPort_port, e]
    · simp only [State.modPort_port]
  · rename_i hw; exact ⟨PortQuiet.refl _, rfl, rfl, rfl, rfl, hw, rfl⟩

theorem watchEnd_port (s : State) (p) : PortQuiet (s.port p) ((s.watchEnd p).port p) ∧ (s.watchEnd p).pdOut = s.pdOut ∧ (s.watchEnd p).hub = s.hub ∧ (s.watchEnd p).conns = s.conns ∧ ((s.port p).attach ≠ .frsWatch → s.watchEnd p = s) ∧ ((s.watchEnd p).port p).feeding = (s.port p).feeding ∧ (s.watchEnd p).time = s.time := by
  unfold State.watchEnd
  by_cases h : (s.port p).attach = .frsWatch
  · simp only [h, if_true]
    obtain ⟨b1, b2, b3, b4, b5, b6, b7⟩ := swapBroken_port s p
    generalize s.swapBroken p = v at b1 b2 b3 b4 b5 b6 b7 ⊢
    have key : ∀ u : State, PortPartKept v u →
      let t := (u.sendPort (portDie p) (u.effTick + 1) (.openPair (portSrc p))).modPort p (fun q => { q with attach := .sink })
      PortQuiet (s.port p) (t.port p) ∧ t.pdOut = s.pdOut ∧ t.hub = s.hub ∧ t.conns = s.conns ∧ (t.port p).feeding = (s.port p).feeding ∧ t.time = s.time := by
      intro u hu t
      have e2 : (u.sendPort (portDie p) (u.effTick + 1) (.openPair (portSrc p))).port p = v.port p := hu.port p
      refine ⟨?_, hu.pdOut.trans b2, hu.hub.trans b3, hu.conns.trans b4, ?_, hu.time.trans b7⟩
      · refine b1.tr ?_
        have ha : (v.port p).attach = .frsWatch ∨ (v.port p).attach = .sink := by
          rcases b1.attach with e | ⟨_, e⟩
          · exact .inl (e.trans h)
          · exact .inr e
        simp only [t, State.modPort_port, e2]
        rcases ha with e | e
        · exact ⟨.inr ⟨e, rfl⟩, rfl, rfl, rfl, rfl, rfl⟩
        · exact ⟨.inl e.symm, rfl, rfl, rfl, rfl, rfl⟩
      · simp only [t, State.modPort_port, e2, b5]
    split
    · rename_i n _
      have := key ((v.sendNode n v.effTick .stopNow id).modNode n (fun k => { k with feeding := none, openedAt := v.effTick + 1 })) ((PortPartKept.sendNode ..).tr ⟨rfl, rfl, rfl, rfl, rfl, rfl, rfl⟩)
      exact ⟨this.1, this.2.1, this.2.2.1, this.2.2.2.1, fun h' => absurd rfl h', this.2.2.2.2⟩
    · have := key v (PortPartKept.refl v)
      exact ⟨this.1, this.2.1, this.2.2.1, this.2.2.2.1, fun h' => absurd rfl h', this.2.2.2.2⟩
  · rw [if_neg h]; exact ⟨PortQuiet.refl _, rfl, rfl, rfl, fun _ => rfl, rfl, rfl⟩

theorem ends_port (s : State) (p) (d) : let t := ((s.swapBroken p).feedEnd p d).watchEnd p
   PortQuiet (s.port p) (t.port p) ∧ t.pdOut = s.pdOut ∧ t.hub = s.hub ∧ t.time = s.time := by
  intro t
  have a := swapBroken_port s p
  have b := feedEnd_port (s.swapBroken p) p d
  have c := watchEnd_port ((s.swapBroken p).feedEnd p d) p
  exact ⟨a.1.tr (b.1.tr c.1), c.2.1.trans (b.2.1.trans a.2.1), c.2.2.1.trans (b.2.2.1.trans a.2.2.1), c.2.2.2.2.2.2.trans (b.2.2.2.2.trans a.2.2.2.2.2.2)⟩

theorem modeEnd_port (s : State) (p) : (s.modeEnd p).port p = { s.port p with tmode := false } ∧ (s.modeEnd p).pdOut = s.pdOut ∧ (s.modeEnd p).conns = s.conns ∧ (s.modeEnd p).hub = s.hub ∧ (s.modeEnd p).time = s.time := by
  unfold State.modeEnd
  have k := PortPartKept.sendMux (s.modPort p (fun q => { q with tmode := false })) p
  exact ⟨by rw [k.port]; simp, k.pdOut, k.conns, k.hub, k.time⟩

theorem hardState_port (s : State) (p) : let t := s.hardState p
   (t.port p).attach = (if (s.port p).attachRole = .source then .source else .sink) ∧ (t.port p).contract = .zero ∧ (t.port p).hrActive = true ∧ (t.port p).hrAt = some s.now ∧ (t.port p).epr = false ∧ (t.port p).caps = none ∧
   (t.port p).hardResets = (s.port p).hardResets ∧ (t.conn (portSrc p)).qualified = false ∧ t.pdOut = s.pdOut := by
  intro t
  have ht : t = s.hardState p := rfl
  clear_value t
  unfold State.hardState at ht
  dsimp only at ht
  have e := ends_port s p true
  generalize hu : ((s.swapBroken p).feedEnd p true).watchEnd p = u at *
  have hn : u.now = s.now := by
    simp only [State.now, e.2.2.2]
  rw [ht]
  have m := modeEnd_port ((u.modConn (portSrc p) (fun k => { k with qualified := false, known := false })).modPort p (fun q =>
    { q with attach := if q.attachRole = .source then .source else .sink
             cc := if q.attachRole = .source then .rp else .rd
             contract := .zero, epr := false, transition := false, wait := if q.attachRole = .source then .idle else .sourceCaps
             caps := none, softened := false, hrActive := true, hrAt := some (u.modConn (portSrc p) (fun k => { k with qualified := false, known := false })).now, capsCount := 0, lastReq := none
             hrSince := q.hrSince + 1 })) p
  rw [m.1]
  have ep : (u.modConn (portSrc p) (fun k => { k with qualified := false, known := false })).port p = u.port p := rfl
  simp only [State.modPort_port, ep]
  refine ⟨by rw [e.1.attachRole], trivial, trivial, by rw [← hn]; rfl, trivial, trivial, e.1.hardResets, ?_, ?_⟩
  · simp only [State.conn, m.2.2.1]; show (State.conn (State.modConn _ _ _) _).qualified = _; simp
  · rw [m.2.1]; exact e.2.1

theorem hardState_time (s : State) (p) : (s.hardState p).time = s.time := by
  unfold State.hardState
  rw [(modeEnd_port _ p).2.2.2.2]
  exact (ends_port s p true).2.2.2

theorem hardReset_sends (s : State) (p c) : Sends p .hardReset s (s.hardReset p c) := by
  unfold State.hardReset State.hardNoted
  refine pdSend_sends _ _ _ _ ?_
  rw [hardState_time]; exact (PortPartKept.record ..).time

theorem attachAs_port (s : State) (p a rp cc2) : let t := s.attachAs p a rp cc2
   (t.port p).attach = a ∧ (t.port p).rpSeen = rp ∧ (t.port p).cc2 = cc2 ∧ (t.port p).contract = .zero ∧ (t.port p).dfp = (a == .source) ∧ (t.port p).vconn = (a == .source && (s.pdie (portDie p)).vconnSupply) ∧
   (t.conn (portSrc p)).vExp = 5 ∧ (t.conn (portSrc p)).qualified = false ∧ (∀ q, q ≠ p → t.port q = s.port q) := by
  intro t
  have e : ∀ (u : State) f, (u.modPort p f).conn (portSrc p) = u.conn (portSrc p) := fun _ _ => rfl
  refine ⟨?_, ?_, ?_, ?_, ?_, ?_, ?_, ?_, fun q hq => ?_⟩
  all_goals simp only [t, State.attachAs, stamp_port, stamp_conn]
  · simp
  · simp
  · simp
  · simp [PortSt.zero]
  · simp
  · simp only [State.modPort_port]; rfl
  · rw [e, State.modConn_conn]
  · rw [e, State.modConn_conn]
  · rw [State.modPort_other _ _ _ _ hq]; rfl

@[simp] theorem ccRefresh_port_deadRd (s : State) (q) : (s.ccRefresh.port q).deadRd = (s.port q).deadRd := by obtain ⟨c, h⟩ := (ccRefresh_is s).2 q; rw [h]

@[simp] theorem ccRefresh_port_attachRole (s : State) (q) : (s.ccRefresh.port q).attachRole = (s.port q).attachRole := by obtain ⟨c, h⟩ := (ccRefresh_is s).2 q; rw [h]

@[simp] theorem ccRefresh_port_cc2 (s : State) (q) : (s.ccRefresh.port q).cc2 = (s.port q).cc2 := by obtain ⟨c, h⟩ := (ccRefresh_is s).2 q; rw [h]

@[simp] theorem ccRefresh_port_rpSeen (s : State) (q) : (s.ccRefresh.port q).rpSeen = (s.port q).rpSeen := by obtain ⟨c, h⟩ := (ccRefresh_is s).2 q; rw [h]

@[simp] theorem ccRefresh_port_bc12 (s : State) (q) : (s.ccRefresh.port q).bc12 = (s.port q).bc12 := by obtain ⟨c, h⟩ := (ccRefresh_is s).2 q; rw [h]

@[simp] theorem ccRefresh_port_bcRunning (s : State) (q) : (s.ccRefresh.port q).bcRunning = (s.port q).bcRunning := by obtain ⟨c, h⟩ := (ccRefresh_is s).2 q; rw [h]

@[simp] theorem ccRefresh_port_softened (s : State) (q) : (s.ccRefresh.port q).softened = (s.port q).softened := by obtain ⟨c, h⟩ := (ccRefresh_is s).2 q; rw [h]

@[simp] theorem ccRefresh_port_dfp (s : State) (q) : (s.ccRefresh.port q).dfp = (s.port q).dfp := by obtain ⟨c, h⟩ := (ccRefresh_is s).2 q; rw [h]

@[simp] theorem ccRefresh_port_vconn (s : State) (q) : (s.ccRefresh.port q).vconn = (s.port q).vconn := by obtain ⟨c, h⟩ := (ccRefresh_is s).2 q; rw [h]

@[simp] theorem ccRefresh_port_vconnTripped (s : State) (q) : (s.ccRefresh.port q).vconnTripped = (s.port q).vconnTripped := by obtain ⟨c, h⟩ := (ccRefresh_is s).2 q; rw [h]

@[simp] theorem ccRefresh_port_rev2 (s : State) (q) : (s.ccRefresh.port q).rev2 = (s.port q).rev2 := by obtain ⟨c, h⟩ := (ccRefresh_is s).2 q; rw [h]

@[simp] theorem ccRefresh_port_epr (s : State) (q) : (s.ccRefresh.port q).epr = (s.port q).epr := by obtain ⟨c, h⟩ := (ccRefresh_is s).2 q; rw [h]

@[simp] theorem ccRefresh_port_eprTried (s : State) (q) : (s.ccRefresh.port q).eprTried = (s.port q).eprTried := by obtain ⟨c, h⟩ := (ccRefresh_is s).2 q; rw [h]

@[simp] theorem ccRefresh_port_cable5 (s : State) (q) : (s.ccRefresh.port q).cable5 = (s.port q).cable5 := by obtain ⟨c, h⟩ := (ccRefresh_is s).2 q; rw [h]

@[simp] theorem ccRefresh_port_cableEpr (s : State) (q) : (s.ccRefresh.port q).cableEpr = (s.port q).cableEpr := by obtain ⟨c, h⟩ := (ccRefresh_is s).2 q; rw [h]

@[simp] theorem ccRefresh_port_cableTries (s : State) (q) : (s.ccRefresh.port q).cableTries = (s.port q).cableTries := by obtain ⟨c, h⟩ := (ccRefresh_is s).2 q; rw [h]

@[simp] theorem ccRefresh_port_contract (s : State) (q) : (s.ccRefresh.port q).contract = (s.port q).contract := by obtain ⟨c, h⟩ := (ccRefresh_is s).2 q; rw [h]

@[simp] theorem ccRefresh_port_caps (s : State) (q) : (s.ccRefresh.port q).caps = (s.port q).caps := by obtain ⟨c, h⟩ := (ccRefresh_is s).2 q; rw [h]

@[simp] theorem ccRefresh_port_sinkDual (s : State) (q) : (s.ccRefresh.port q).sinkDual = (s.port q).sinkDual := by obtain ⟨c, h⟩ := (ccRefresh_is s).2 q; rw [h]

@[simp] theorem ccRefresh_port_sinkUnc (s : State) (q) : (s.ccRefresh.port q).sinkUnc = (s.port q).sinkUnc := by obtain ⟨c, h⟩ := (ccRefresh_is s).2 q; rw [h]

@[simp] theorem ccRefresh_port_transition (s : State) (q) : (s.ccRefresh.port q).transition = (s.port q).transition := by obtain ⟨c, h⟩ := (ccRefresh_is s).2 q; rw [h]

@[simp] theorem ccRefresh_port_transEnd (s : State) (q) : (s.ccRefresh.port q).transEnd = (s.port q).transEnd := by obtain ⟨c, h⟩ := (ccRefresh_is s).2 q; rw [h]

@[simp] theorem ccRefresh_port_hrActive (s : State) (q) : (s.ccRefresh.port q).hrActive = (s.port q).hrActive := by obtain ⟨c, h⟩ := (ccRefresh_is s).2 q; rw [h]

@[simp] theorem ccRefresh_port_hrAt (s : State) (q) : (s.ccRefresh.port q).hrAt = (s.port q).hrAt := by obtain ⟨c, h⟩ := (ccRefresh_is s).2 q; rw [h]

@[simp] theorem ccRefresh_port_tryWait (s : State) (q) : (s.ccRefresh.port q).tryWait = (s.port q).tryWait := by obtain ⟨c, h⟩ := (ccRefresh_is s).2 q; rw [h]

@[simp] theorem ccRefresh_port_lastReq (s : State) (q) : (s.ccRefresh.port q).lastReq = (s.port q).lastReq := by obtain ⟨c, h⟩ := (ccRefresh_is s).2 q; rw [h]

@[simp] theorem ccRefresh_port_objMax (s : State) (q) : (s.ccRefresh.port q).objMax = (s.port q).objMax := by obtain ⟨c, h⟩ := (ccRefresh_is s).2 q; rw [h]

@[simp] theorem ccRefresh_port_frsSignal (s : State) (q) : (s.ccRefresh.port q).frsSignal = (s.port q).frsSignal := by obtain ⟨c, h⟩ := (ccRefresh_is s).2 q; rw [h]

@[simp] theorem ccRefresh_port_feedReady (s : State) (q) : (s.ccRefresh.port q).feedReady = (s.port q).feedReady := by obtain ⟨c, h⟩ := (ccRefresh_is s).2 q; rw [h]

@[simp] theorem ccRefresh_port_hadContract (s : State) (q) : (s.ccRefresh.port q).hadContract = (s.port q).hadContract := by obtain ⟨c, h⟩ := (ccRefresh_is s).2 q; rw [h]

@[simp] theorem ccRefresh_port_cableKnown (s : State) (q) : (s.ccRefresh.port q).cableKnown = (s.port q).cableKnown := by obtain ⟨c, h⟩ := (ccRefresh_is s).2 q; rw [h]

@[simp] theorem ccRefresh_port_wait (s : State) (q) : (s.ccRefresh.port q).wait = (s.port q).wait := by obtain ⟨c, h⟩ := (ccRefresh_is s).2 q; rw [h]

@[simp] theorem ccRefresh_port_hardResets (s : State) (q) : (s.ccRefresh.port q).hardResets = (s.port q).hardResets := by obtain ⟨c, h⟩ := (ccRefresh_is s).2 q; rw [h]

@[simp] theorem ccRefresh_port_hrSince (s : State) (q) : (s.ccRefresh.port q).hrSince = (s.port q).hrSince := by obtain ⟨c, h⟩ := (ccRefresh_is s).2 q; rw [h]

@[simp] theorem ccRefresh_port_srSince (s : State) (q) : (s.ccRefresh.port q).srSince = (s.port q).srSince := by obtain ⟨c, h⟩ := (ccRefresh_is s).2 q; rw [h]

@[simp] theorem ccRefresh_port_capsCount (s : State) (q) : (s.ccRefresh.port q).capsCount = (s.port q).capsCount := by obtain ⟨c, h⟩ := (ccRefresh_is s).2 q; rw [h]

@[simp] theorem ccRefresh_port_swap (s : State) (q) : (s.ccRefresh.port q).swap = (s.port q).swap := by obtain ⟨c, h⟩ := (ccRefresh_is s).2 q; rw [h]

@[simp] theorem ccRefresh_port_swapTried (s : State) (q) : (s.ccRefresh.port q).swapTried = (s.port q).swapTried := by obtain ⟨c, h⟩ := (ccRefresh_is s).2 q; rw [h]

@[simp] theorem ccRefresh_port_lastSwapStep (s : State) (q) : (s.ccRefresh.port q).lastSwapStep = (s.port q).lastSwapStep := by obtain ⟨c, h⟩ := (ccRefresh_is s).2 q; rw [h]

@[simp] theorem ccRefresh_port_feeding (s : State) (q) : (s.ccRefresh.port q).feeding = (s.port q).feeding := by obtain ⟨c, h⟩ := (ccRefresh_is s).2 q; rw [h]

@[simp] theorem ccRefresh_port_feedTarget (s : State) (q) : (s.ccRefresh.port q).feedTarget = (s.port q).feedTarget := by obtain ⟨c, h⟩ := (ccRefresh_is s).2 q; rw [h]

@[simp] theorem ccRefresh_port_disch (s : State) (q) : (s.ccRefresh.port q).disch = (s.port q).disch := by obtain ⟨c, h⟩ := (ccRefresh_is s).2 q; rw [h]

@[simp] theorem ccRefresh_port_mux (s : State) (q) : (s.ccRefresh.port q).mux = (s.port q).mux := by obtain ⟨c, h⟩ := (ccRefresh_is s).2 q; rw [h]

@[simp] theorem ccRefresh_port_tmode (s : State) (q) : (s.ccRefresh.port q).tmode = (s.port q).tmode := by obtain ⟨c, h⟩ := (ccRefresh_is s).2 q; rw [h]

@[simp] theorem ccRefresh_port_frsAmp (s : State) (q) : (s.ccRefresh.port q).frsAmp = (s.port q).frsAmp := by obtain ⟨c, h⟩ := (ccRefresh_is s).2 q; rw [h]

@[simp] theorem modPort_conn (s : State) (p f c) : (s.modPort p f).conn c = s.conn c := rfl

@[simp] theorem modConn_port (s : State) (p f c) : (s.modConn p f).port c = s.port c := rfl

@[simp] theorem pdSend_port (s : State) (p m c) : (s.pdSend p m).port c = s.port c := rfl

@[simp] theorem pdSend_conn (s : State) (p m c) : (s.pdSend p m).conn c = s.conn c := rfl

@[simp] theorem pdSend_out (s : State) (p m) : (s.pdSend p m).pdOut = s.pdOut := rfl

@[simp] theorem openPair_port (s : State) (p c) : (s.openPair c).port p = s.port p := rfl

theorem ccRefresh_portx (s : State) (q) : ∃ c, s.ccRefresh.port q = { s.port q with cc := c } := (ccRefresh_is s).2 q

theorem detachPort_port (s : State) (p b) : let t := s.detachPort p b
   (t.port p).attach = .unattached ∧ (t.port p).contract = .zero ∧ (t.port p).feeding = false ∧ (t.conn (portSrc p)).pair = .opened ∧ (t.conn (portSrc p)).qualified = false := by
  intro t
  have ht : t = s.detachPort p b := rfl
  clear_value t
  unfold State.detachPort at ht
  dsimp only at ht
  generalize State.watchEnd _ p = u at ht
  have k := PortPartKept.portReply ((u.openPair (portSrc p)).modConn (portSrc p) (fun k =>
    { k with vExp := 5, vOld := none, qualified := false, iLearn := none, detached := k.detached || b })) p [1, 2, 3, 4, 7, 8] rcTimeout
  generalize State.portReply _ p _ rcTimeout = w at ht k
  rw [ht]
  have kc := k.conn (portSrc p)
  have hc : (w.conn (portSrc p)).pair = .opened ∧ (w.conn (portSrc p)).qualified = false := by
    rw [kc, State.modConn_conn]; unfold State.openPair; rw [State.modConn_conn]; exact ⟨rfl, rfl⟩
  have a : ∀ (x : State) (f) (c : Cfg), ({ x.modPort p f with cfg := c } : State).port p = f (x.port p) := fun x f c =>
    State.modPort_port x p f
  generalize hx : ({ w.modPort p _ with cfg := _ } : State) = x
  have x1 : (x.port p).attach = .unattached ∧ (x.port p).contract = .zero ∧ (x.port p).feeding = false := by
    rw [← hx, a]; exact ⟨rfl, rfl, rfl⟩
  have x2 : x.conn (portSrc p) = w.conn (portSrc p) := by rw [← hx]; rfl
  refine ⟨?_, ?_, ?_, ?_, ?_⟩
  · simp [x1]
  · simp [x1]
  · simp [x1]
  · simp [x2, hc]
  · simp [x2, hc]

theorem hardReset_port (s : State) (p c) : ((s.hardReset p c).port p).attach = (if (s.port p).attachRole = .source then .source else .sink) ∧ ((s.hardReset p c).port p).contract = .zero ∧ ((s.hardReset p c).port p).hrActive = true ∧ ((s.hardReset p c).port p).hrAt = some s.now ∧ ((s.hardReset p c).port p).hardResets = (s.port p).hardResets ∧ ((s.hardReset p c).conn (portSrc p)).qualified = false ∧ (s.hardReset p c).pdOut = s.pdOut := by
  unfold State.hardReset State.hardNoted
  have r := PortPartKept.record s 0x0404 [BitVec.ofNat 8 p.val, 1, c, BitVec.ofNat 8 (s.port p).hardResets]
  generalize hu : s.record 0x0404 _ = u at *
  have h := hardState_port u p
  dsimp only at h ⊢
  have hn : u.now = s.now := by simp only [State.now, r.time]
  rw [r.port, hn] at h
  refine ⟨h.1, h.2.1, h.2.2.1, h.2.2.2.1, h.2.2.2.2.2.2.1, h.2.2.2.2.2.2.2.1, ?_⟩
  rw [pdSend_out, h.2.2.2.2.2.2.2.2, r.pdOut]

theorem errorRecovery_port (s : State) (p c) : ((s.errorRecovery p c).port p).attach = .recovery ∧ ((s.errorRecovery p c).port p).cc = .openPin ∧ ((s.errorRecovery p c).port p).hardResets = 0 ∧ ((s.errorRecovery p c).port p).contract = .zero ∧ ((s.errorRecovery p c).conn (portSrc p)).pair = .opened ∧ ((s.errorRecovery p c).conn (portSrc p)).qualified = false ∧ (s.errorRecovery p c).pdOut = s.pdOut := by
  unfold State.errorRecovery
  have r := PortPartKept.record s 0x0404 [BitVec.ofNat 8 p.val, 2, c, BitVec.ofNat 8 (s.port p).hardResets]
  generalize s.record 0x0404 _ = u at *
  have e := ends_port u p true
  dsimp only at e ⊢
  generalize ((u.swapBroken p).feedEnd p true).watchEnd p = w at *
  have k := PortPartKept.sendMux (((w.openPair (portSrc p)).modConn (portSrc p) (fun k => { k with vExp := 5, vOld := none, qualified := false, known := false })).modPort p (fun q =>
    { q with attach := .recovery, cc := .openPin, contract := .zero, epr := false, transition := false, wait := .idle
             caps := none, softened := false, hrActive := false, hardResets := 0, vconn := false, tmode := false
             bcRunning := false, tryWait := false })) p
  rw [k.port, k.conn, k.pdOut]
  refine ⟨by simp, by simp, by simp, by simp, ?_, ?_, ?_⟩
  · simp [State.openPair]
  · simp [State.openPair]
  · show w.pdOut = _; rw [e.2.1, r.pdOut]

/-- The other ports are as before, and a port die has changed in its list of frames at most. -/
structure OtherPortsKept (q : Port) (s t : State) : Prop where
  port : ∀ p, p ≠ q → t.port p = s.port p
  die : ∀ m, ∃ f, t.pdie m = { s.pdie m with frames := f }

theorem OtherPortsKept.tr {q : Port} {s t u : State} (h : OtherPortsKept q s t) (k : OtherPortsKept q t u) : OtherPortsKept q s u :=
  ⟨fun p hp => (k.1 p hp).trans (h.1 p hp), fun m => by
    obtain ⟨f, hf⟩ := k.2 m
    obtain ⟨g, hg⟩ := h.2 m
    exact ⟨f, by rw [hf, hg]⟩⟩

theorem OtherPortsKept.keeper {q : Port} {s t : State} (h : OtherPortsKept q s t) (m : Fin 2) : (t.pdie m).keeper = (s.pdie m).keeper := by
  obtain ⟨f, hf⟩ := h.2 m; rw [hf]

theorem OtherPortsKept.same {q : Port} {s t : State} (h1 : t.ports = s.ports) (h2 : t.portDies = s.portDies) : OtherPortsKept q s t :=
  ⟨fun p _ => congrArg (fun v => Vector.get v p) h1, fun m => ⟨(s.pdie m).frames, by simp only [State.pdie, h2]⟩⟩

theorem OtherPortsKept.modPort (q : Port) (s : State) (f) : OtherPortsKept q s (s.modPort q f) :=
  ⟨fun p hp => State.modPort_other s q p f hp, fun m => ⟨(s.pdie m).frames, rfl⟩⟩

theorem OtherPortsKept.sendPort (q : Port) (s : State) (m eff c) : OtherPortsKept q s (s.sendPort m eff c) :=
  ⟨fun _ _ => rfl, fun k => by
    unfold State.sendPort
    by_cases e : k = m
    · subst e; rw [State.modPd_pdie]; exact ⟨_, rfl⟩
    · rw [State.modPd_other _ _ _ _ e]; exact ⟨(s.pdie k).frames, rfl⟩⟩

theorem OtherPortsKept.record (q : Port) (s : State) (ty p) : OtherPortsKept q s (s.record ty p) :=
  .same (record_ports ..) (by rw [record_is])

theorem OtherPortsKept.swapBroken (q : Port) (s : State) : OtherPortsKept q s (s.swapBroken q) := by
  unfold State.swapBroken; split
  · exact (OtherPortsKept.record ..).tr (OtherPortsKept.modPort ..)
  · exact .same rfl rfl

theorem stopNode_dies (s : State) (n) : (s.stopNode n).portDies = s.portDies := by
  unfold State.stopNode
  exact foldl_inv (fun u : State => u.portDies = s.portDies) _ _ s rfl (fun b x h => h)

theorem OtherPortsKept.feedEnd (q : Port) (s : State) (d) : OtherPortsKept q s (s.feedEnd q d) := by
  unfold State.feedEnd; split
  · have go : ∀ (u : State) f, u.ports = s.ports → u.portDies = s.portDies → OtherPortsKept q s ((u.openPair (portSrc q)).modPort q f) :=
      fun u f h1 h2 => OtherPortsKept.tr (t := u.openPair (portSrc q)) (.same h1 h2) (OtherPortsKept.modPort ..)
    dsimp only
    split
    · exact go _ _ (stopNode_ports s _).1 (stopNode_dies s _)
    · exact go s _ rfl rfl
  · exact .same rfl rfl

theorem OtherPortsKept.watchEnd (q : Port) (s : State) : OtherPortsKept q s (s.watchEnd q) := by
  unfold State.watchEnd; split
  · refine (OtherPortsKept.swapBroken q s).tr ?_
    generalize s.swapBroken q = v
    have go : ∀ (u : State) e c f, u.ports = v.ports → u.portDies = v.portDies → OtherPortsKept q v ((u.sendPort (portDie q) e c).modPort q f) :=
      fun u e c f h1 h2 => OtherPortsKept.tr (t := u) (.same h1 h2) ((OtherPortsKept.sendPort ..).tr (OtherPortsKept.modPort ..))
    dsimp only
    split
    · rename_i n _
      obtain ⟨L, N, e⟩ := sendNode_is v n v.effTick .stopNow id
      exact go _ _ _ _ (by rw [e]; rfl) (by rw [e]; rfl)
    · exact go v _ _ _ rfl rfl
  · exact .same rfl rfl

/-- Error recovery of a port leaves the other ports alone. -/
theorem OtherPortsKept.errorRecovery (q : Port) (s : State) (c) : OtherPortsKept q s (s.errorRecovery q c) := by
  unfold State.errorRecovery; dsimp only
  generalize hr : s.record 0x0404 _ = r
  have h0 : OtherPortsKept q s r := hr ▸ OtherPortsKept.record q s _ _
  have h1 := h0.tr ((OtherPortsKept.swapBroken q r).tr ((OtherPortsKept.feedEnd q _ true).tr (OtherPortsKept.watchEnd q _)))
  clear h0 hr
  generalize (State.watchEnd _ q) = v at h1 ⊢
  refine h1.tr ?_
  generalize hw : State.modPort _ q _ = w
  have h2 : OtherPortsKept q v w := by
    have hs : ∀ f, OtherPortsKept q v ((v.openPair (portSrc q)).modConn (portSrc q) f) := fun _ => .same rfl rfl
    rw [← hw]; exact (hs _).tr (OtherPortsKept.modPort ..)
  refine h2.tr ?_
  unfold State.sendMux; split
  · exact OtherPortsKept.sendPort ..
  · exact .same rfl rfl

theorem OtherPortsKept.pdSend (q : Port) (s : State) (m) : OtherPortsKept q s (s.pdSend q m) := OtherPortsKept.sendPort ..

theorem OtherPortsKept.pdPut (q : Port) (s : State) (m) : OtherPortsKept q s (s.pdPut q m) :=
  ⟨fun _ hp => vmod_get_other _ _ _ _ hp, fun m => ⟨(s.pdie m).frames, rfl⟩⟩

theorem OtherPortsKept.modeEnd (q : Port) (s : State) : OtherPortsKept q s (s.modeEnd q) := by
  unfold State.modeEnd
  generalize hr : s.modPort q _ = r
  have h0 : OtherPortsKept q s r := hr ▸ OtherPortsKept.modPort q s _
  refine h0.tr ?_
  unfold State.sendMux; split
  · exact OtherPortsKept.sendPort ..
  · exact .same rfl rfl

theorem OtherPortsKept.hardNoted (q : Port) (s : State) (c) : OtherPortsKept q s (s.hardNoted q c) := by
  unfold State.hardNoted
  generalize hr : s.record _ _ = r
  have h0 : OtherPortsKept q s r := hr ▸ OtherPortsKept.record q s _ _
  refine h0.tr ?_
  clear h0 hr
  unfold State.hardState; dsimp only
  have h1 := (OtherPortsKept.swapBroken q r).tr ((OtherPortsKept.feedEnd q _ true).tr (OtherPortsKept.watchEnd q _))
  generalize (State.watchEnd _ q) = v at h1 ⊢
  refine h1.tr (OtherPortsKept.tr ?_ (OtherPortsKept.modeEnd ..))
  have hs : ∀ f, OtherPortsKept q v (v.modConn (portSrc q) f) := fun _ => .same rfl rfl
  exact (hs _).tr (OtherPortsKept.modPort ..)

theorem OtherPortsKept.startFeed (q : Port) (s : State) : OtherPortsKept q s (s.startFeed q) := by
  unfold State.startFeed; split
  · dsimp only
    generalize hr : s.modPort q _ = v
    have h0 : OtherPortsKept q s v := hr ▸ OtherPortsKept.modPort q s _
    refine h0.tr ?_
    clear h0 hr
    have hs : ∀ f n g, OtherPortsKept q v ((v.modConn (portSrc q) f).modNode n g) := fun _ _ _ => .same rfl rfl
    generalize hw : State.modNode _ _ _ = w
    have h1 : OtherPortsKept q v w := hw ▸ hs _ _ _
    refine h1.tr ?_
    unfold State.feedClose; split
    · exact OtherPortsKept.sendPort ..
    · exact .same rfl rfl
  · exact .same rfl rfl

theorem OtherPortsKept.sendCaps (q : Port) (s : State) : OtherPortsKept q s (s.sendCaps q) := by
  unfold State.sendCaps; dsimp only; split
  · exact .same rfl rfl
  · exact (OtherPortsKept.modPort q s _).tr (OtherPortsKept.pdSend ..)

theorem OtherPortsKept.requestBest (q : Port) (s : State) : OtherPortsKept q s (s.requestBest q) := by
  unfold State.requestBest; dsimp only; split
  · split
    · exact (OtherPortsKept.modPort q s _).tr (OtherPortsKept.pdSend ..)
    · exact .same rfl rfl
  · exact .same rfl rfl

theorem escalate_sends (s : State) (p) (h : (s.port p).hardResets ≤ 2) : Sends p .hardReset s (s.escalate p) := by
  unfold State.escalate; rw [if_neg (by omega)]
  exact hardReset_sends _ p 1

theorem escalate_port (s : State) (p) :
   ((s.port p).hardResets ≤ 2 → ((s.escalate p).port p).hardResets = (s.port p).hardResets + 1 ∧ ((s.escalate p).port p).hrActive = true ∧ ((s.escalate p).port p).contract = .zero ∧ (s.escalate p).pdOut = s.pdOut) ∧
   (2 < (s.port p).hardResets → ((s.escalate p).port p).attach = .recovery ∧ ((s.escalate p).port p).cc = .openPin ∧ ((s.escalate p).port p).hardResets = 0 ∧ ((s.escalate p).conn (portSrc p)).pair = .opened ∧ (s.escalate p).pdOut = s.pdOut) := by
  constructor
  · intro h
    unfold State.escalate; rw [if_neg (by omega)]
    have k := hardReset_port (s.modPort p (fun q => { q with hardResets := q.hardResets + 1 })) p 1
    rw [State.modPort_port] at k
    exact ⟨k.2.2.2.2.1, k.2.2.1, k.2.1, k.2.2.2.2.2.2⟩
  · intro h
    unfold State.escalate; rw [if_pos h]
    have k := errorRecovery_port s p 1
    exact ⟨k.1, k.2.1, k.2.2.1, k.2.2.2.2.1, k.2.2.2.2.2.2⟩

end Sys2Proof.Machine
end

