-- ==== Sys2Proof/Laws/SafeStop.lean ====
section
/-! SUPPORT. Laws about setting the SAFE latch, stopping all, powering down. -/

namespace Sys2Proof.Machine

theorem stop_run (l : LaneDie) : l.stop.run = .stopped := by
  unfold LaneDie.stop; rfl

/-- Every lane is stopped. -/
def AllStop (s : State) : Prop := (∀ n, (s.lane n).run = .stopped)

theorem allStop_of {s t : State} (h : AllStop s) (e : t.lanes = s.lanes) : AllStop t := by
  intro n; unfold State.lane; rw [e]; exact h n

theorem modLane_stop {s : State} (n : Lane) (f : LaneDie → LaneDie) (hf : ∀ l, l.run = .stopped → (f l).run = .stopped) (h : AllStop s) : AllStop (s.modLane n f) := by
  intro m; by_cases e : m = n
  · subst e; simp; exact hf _ (h m)
  · rw [State.modLane_other _ _ _ _ e]; exact h m

theorem feedEnd_stop {s : State} (p : Port) (d : Bool) (h : AllStop s) : AllStop (s.feedEnd p d) := by
  unfold State.feedEnd State.openPair
  split
  · dsimp only; split
    · refine allStop_of (s := s.stopNode _) ?_ rfl
      unfold State.stopNode
      exact foldl_inv AllStop _ _ _ h (fun b x hb => allStop_of (s := b.modLane x LaneDie.stop) (modLane_stop x _ (fun l _ => stop_run l) hb) rfl)
    · exact h
  · exact h

theorem swapBroken_same (s : State) (p : Port) : (s.swapBroken p).aon = s.aon ∧ (s.swapBroken p).lanes = s.lanes := by
  unfold State.swapBroken
  split
  · dsimp only [State.modPort]
    constructor <;> rw [record_is]
  · exact ⟨rfl, rfl⟩

theorem safePort_stop {s : State} (p : Port) (h : AllStop s) : AllStop (s.safePort p) := by
  unfold State.safePort
  dsimp only; split
  · exact allStop_of h (swapBroken_same s p).2
  · split
    · exact h
    · split
      · exact h
      · exact allStop_of (feedEnd_stop p false h) rfl

theorem fold4_stop (s : State) : AllStop ((List.finRange 4).foldl (fun s n =>
      if (s.lane n).run = .stopped then s.modLane n (fun l => { l with keeper := none })
      else (s.modLane n (fun l => { l.stop with keeper := none })).stampLane n .laneStopped) s) := by
  set g := (fun (s : State) (n : Lane) =>
      if (s.lane n).run = .stopped then s.modLane n (fun l => { l with keeper := none })
      else (s.modLane n (fun l => { l.stop with keeper := none })).stampLane n .laneStopped) with hg
  have key : ∀ (s : State) n, ((g s n).lane n).run = .stopped ∧ ∀ m, m ≠ n → (g s n).lane m = s.lane m := by
    intro s n; simp only [hg]; split
    · rename_i h; exact ⟨by simpa using h, fun m hm => State.modLane_other _ _ _ _ hm⟩
    · refine ⟨?_, fun m hm => ?_⟩
      · show ((s.modLane n _).lane n).run = _; rw [State.modLane_lane]; exact stop_run (s.lane n)
      · show (s.modLane n _).lane m = _; exact State.modLane_other _ _ _ _ hm
  have e : List.finRange 4 = [0,1,2,3] := by decide
  rw [e]; simp only [List.foldl]
  intro n
  fin_cases n
  · rw [(key _ 3).2 _ (by decide), (key _ 2).2 _ (by decide), (key _ 1).2 _ (by decide)]; exact (key _ 0).1
  · rw [(key _ 3).2 _ (by decide), (key _ 2).2 _ (by decide)]; exact (key _ 1).1
  · rw [(key _ 3).2 _ (by decide)]; exact (key _ 2).1
  · exact (key _ 3).1

/-- What the SAFE latch, once set, leaves standing. -/
structure SafeStanding (m : Option Mode) (s : State) : Prop where
  latch : s.aon.safeLatch = true
  pg : s.aon.pgood = false
  mode : s.aon.mode = m
  stop : AllStop s

theorem SafeStanding.of {m : Option Mode} {s t : State} (h : SafeStanding m s) (ha : t.aon = s.aon) (hl : t.lanes = s.lanes) : SafeStanding m t :=
  ⟨by rw [ha]; exact h.latch, by rw [ha]; exact h.pg, by rw [ha]; exact h.mode, allStop_of h.stop hl⟩

theorem stopNode_aon (s : State) (n : Lane) : (s.stopNode n).aon = s.aon := by
  unfold State.stopNode; exact foldl_aon _ _ _ (fun _ _ => rfl)

theorem feedEnd_aon (s : State) (p : Port) (d : Bool) : (s.feedEnd p d).aon = s.aon := by
  unfold State.feedEnd State.openPair
  split
  · dsimp only; split
    · exact stopNode_aon _ _
    · rfl
  · rfl

theorem safePort_aon (s : State) (p : Port) : (s.safePort p).aon = s.aon := by
  unfold State.safePort
  dsimp only; split
  · exact (swapBroken_same s p).1
  · split
    · rfl
    · split
      · rfl
      · exact feedEnd_aon _ _ _

theorem finRange_fold_nodes (s : State) (f : State → Node → Node) (hf : ∀ s k, (f s k).selected = none ∧ (f s k).allocW = 0) (n : Lane) :
   let t := (List.finRange 4).foldl (fun s n => s.modNode n (f s)) s
   (t.node n).selected = none ∧ (t.node n).allocW = 0 := by
  have e : List.finRange 4 = [0,1,2,3] := by decide
  rw [e]; simp only [List.foldl]
  fin_cases n
  · simp only [State.modNode_other _ _ _ _ (show (0:Lane) ≠ 3 by decide), State.modNode_other _ _ _ _ (show (0:Lane) ≠ 2 by decide), State.modNode_other _ _ _ _ (show (0:Lane) ≠ 1 by decide), Fin.zero_eta, State.modNode_node]; exact hf _ _
  · simp only [State.modNode_other _ _ _ _ (show (1:Lane) ≠ 3 by decide), State.modNode_other _ _ _ _ (show (1:Lane) ≠ 2 by decide), Fin.mk_one, State.modNode_node]; exact hf _ _
  · simp only [State.modNode_other _ _ _ _ (show (2:Lane) ≠ 3 by decide), show (⟨2, by decide⟩ : Lane) = 2 from rfl, Fin.reduceFinMk, State.modNode_node]; exact hf _ _
  · simp only [Fin.reduceFinMk, State.modNode_node]; exact hf _ _

theorem openFive (s : State) : (((List.finRange 5).foldl (fun s c =>
      let x : Src := ⟨c.val, by omega⟩
      if (srcPort x).any (fun p => (s.port p).frsSignal) then s else s.openPair x) s).conn acin).pair = .opened := by
  have e : List.finRange 5 = [0,1,2,3,4] := by decide
  rw [e]; simp only [List.foldl]
  have h : srcPort ⟨(4 : Fin 5).val, by decide⟩ = none := by decide
  simp only [h, Option.any_none, if_false, Bool.false_eq_true]
  show ((State.openPair _ (4 : Src)).conn 4).pair = _
  unfold State.openPair
  rw [State.modConn_conn]

/-- One input pair of the latch: opened unless its port drives the Fast Role Swap signal. -/
def State.latchPair (s : State) (c : Fin 5) : State :=
  let x : Src := ⟨c.val, by omega⟩
  if (srcPort x).any (fun p => (s.port p).frsSignal) then s else s.openPair x

theorem latchPair_ports (s : State) (c : Fin 5) : (s.latchPair c).ports = s.ports := by
  unfold State.latchPair; dsimp only; split <;> rfl

theorem latchPair_stays (s : State) (c : Fin 5) (x : Src) (h : (s.conn x).pair = .opened) : ((s.latchPair c).conn x).pair = .opened := by
  unfold State.latchPair; dsimp only
  split
  · exact h
  · by_cases e : x = ⟨c.val, by omega⟩
    · subst e; unfold State.openPair; rw [State.modConn_conn]
    · have : (s.openPair ⟨c.val, by omega⟩).conn x = s.conn x := vput_get_other _ _ _ _ e
      rw [this]; exact h

theorem latchPair_opens (s : State) (p : Port) (h : (s.port p).frsSignal = false) : ((s.latchPair ⟨p.val, by omega⟩).conn (portSrc p)).pair = .opened := by
  unfold State.latchPair; dsimp only
  have e : srcPort ⟨p.val, by omega⟩ = some p := by clear h; revert p; decide
  rw [e]; simp only [Option.any_some, h, Bool.false_eq_true, if_false]
  unfold State.openPair; exact congrArg Conn.pair (State.modConn_conn ..)

theorem latchPairs_ports (l : List (Fin 5)) : ∀ s : State, (l.foldl State.latchPair s).ports = s.ports := by
  induction l with
  | nil => intro s; rfl
  | cons c r ih => intro s; rw [List.foldl_cons, ih, latchPair_ports]

theorem latchPairs_stay (l : List (Fin 5)) (x : Src) : ∀ s : State, (s.conn x).pair = .opened → ((l.foldl State.latchPair s).conn x).pair = .opened := by
  induction l with
  | nil => intro s h; exact h
  | cons c r ih => intro s h; rw [List.foldl_cons]; exact ih _ (latchPair_stays s c x h)

theorem latchPairs_open (l : List (Fin 5)) (p : Port) (hp : ⟨p.val, by omega⟩ ∈ l) : ∀ s : State, (s.port p).frsSignal = false →
    ((l.foldl State.latchPair s).conn (portSrc p)).pair = .opened := by
  induction l with
  | nil => cases hp
  | cons c r ih =>
    intro s h
    rw [List.foldl_cons]
    rcases List.mem_cons.mp hp with e | e
    · rw [← e]; exact latchPairs_stay r _ _ (latchPair_opens s p h)
    · exact ih e _ (by unfold State.port; rw [latchPair_ports]; exact h)

theorem safeMain (s : State) (x : SafeTrigger) (src : EvSource) (die : Nat) (v : Int) (h1 : s.aon.vaon = true) (h2 : s.aon.safeLatch = false) :
   let t := s.setSafe x src die v
   t.aon.safeLatch = true ∧ t.aon.pgood = false ∧ (∀ n, (t.lane n).run = .stopped) ∧
    (∀ n, (t.node n).selected = none ∧ (t.node n).allocW = 0) ∧ (t.conn acin).pair = .opened ∧
    (∀ p, (t.port p).frsSignal = false → (t.conn (portSrc p)).pair = .opened) ∧
    ((s.modeIs .battery || s.modeIs .supply || s.modeIs .limp) = true → t.aon.mode = some .safe) := by
  intro t
  have ht : t = s.setSafe x src die v := rfl
  clear_value t
  unfold State.setSafe at ht
  simp only [h1, h2, Bool.not_true, Bool.or_false, Bool.false_eq_true, if_false] at ht
  generalize hs1 : s.modAon _ = s1 at ht
  generalize hs2 : List.foldl _ s1 (List.finRange 4) = s2 at ht
  have q1 : s1.aon.safeLatch = true ∧ s1.aon.pgood = false ∧ s1.aon.mode = s.aon.mode := by subst hs1; exact ⟨rfl, rfl, rfl⟩
  have q2 : SafeStanding s.aon.mode s2 := by
    have ea : s2.aon = s1.aon := by
      rw [← hs2]; exact foldl_aon _ _ _ (fun s n => by split <;> rfl)
    exact ⟨by rw [ea]; exact q1.1, by rw [ea]; exact q1.2.1, by rw [ea]; exact q1.2.2, by rw [← hs2]; exact fold4_stop s1⟩
  generalize hs3 : ({ s2 with portDies := _ } : State) = s3 at ht
  have q3 : SafeStanding s.aon.mode s3 := by subst hs3; exact q2.of rfl rfl
  generalize hs4 : List.foldl (fun s p => State.safePort s p) s3 _ = s4 at ht
  have periodPart : SafeStanding s.aon.mode s4 := by
    rw [← hs4]; exact foldl_inv (SafeStanding _) _ _ _ q3 (fun b p hb => ⟨by rw [safePort_aon]; exact hb.latch, by rw [safePort_aon]; exact hb.pg, by rw [safePort_aon]; exact hb.mode, safePort_stop p hb.stop⟩)
  generalize hs5 : List.foldl _ s4 (List.finRange 5) = s5 at ht
  have q5 : SafeStanding s.aon.mode s5 := by
    rw [← hs5]; exact foldl_inv (SafeStanding _) _ _ _ periodPart (fun b p hb => by split; exact hb; exact hb.of rfl rfl)
  have c5 : (s5.conn acin).pair = .opened := by rw [← hs5]; exact openFive s4
  have p5 : s5 = (List.finRange 5).foldl State.latchPair s4 := by rw [← hs5]; rfl
  have o5 : ∀ p, (s5.port p).frsSignal = false → (s5.conn (portSrc p)).pair = .opened := by
    intro p h; rw [p5] at h ⊢
    exact latchPairs_open _ p (List.mem_finRange _) s4 (by unfold State.port at h; rw [latchPairs_ports] at h; exact h)
  generalize hs6 : List.foldl _ s5 (List.finRange 4) = s6 at ht
  have q6 : SafeStanding s.aon.mode s6 := by
    rw [← hs6]; exact foldl_inv (SafeStanding _) _ _ _ q5 (fun b p hb => hb.of rfl rfl)
  have c6 : (s6.conn acin).pair = .opened := by
    have : s6.conns = s5.conns := by rw [← hs6]; exact fold_conns _ _ _ (fun _ _ => rfl)
    unfold State.conn; rw [this]; exact c5
  have o6 : ∀ p, (s6.port p).frsSignal = false → (s6.conn (portSrc p)).pair = .opened := by
    have e : s6.conns = s5.conns ∧ s6.ports = s5.ports := by
      rw [← hs6]; exact ⟨fold_conns _ _ _ (fun _ _ => rfl), foldl_proj (fun u : State => u.ports) _ _ _ (fun _ _ => rfl)⟩
    unfold State.conn State.port; rw [e.1, e.2]; exact o5
  have n6 : ∀ n, (s6.node n).selected = none ∧ (s6.node n).allocW = 0 := by
    intro n; rw [← hs6]
    exact finRange_fold_nodes s5 (fun s k => { k with
      selected := none, change := none, challengers := [], allocW := 0, drain := false, sent := none
      feeding := if k.feeding.any (fun p => (s.port p).frsSignal) then k.feeding else none }) (fun _ _ => ⟨rfl, rfl⟩) n
  generalize hs7 : State.stamp _ .protection src die _ = s7 at ht
  have q7 : SafeStanding s.aon.mode s7 := by rw [← hs7]; exact ⟨q6.latch, q6.pg, q6.mode, allStop_of q6.stop rfl⟩
  have c7 : (s7.conn acin).pair = .opened := by rw [← hs7]; exact c6
  have n7 : ∀ n, (s7.node n).selected = none ∧ (s7.node n).allocW = 0 := by rw [← hs7]; exact n6
  have o7 : ∀ p, (s7.port p).frsSignal = false → (s7.conn (portSrc p)).pair = .opened := by rw [← hs7]; exact o6
  have hm : (s7.modeIs .battery || s7.modeIs .supply || s7.modeIs .limp) = (s.modeIs .battery || s.modeIs .supply || s.modeIs .limp) := by
    unfold State.modeIs; rw [q7.mode]
  rw [hm] at ht
  have sm := setMode_same s7 (some .safe) 1
  split at ht
  · subst ht
    refine ⟨by rw [setMode_mode]; exact q7.latch, by rw [setMode_mode]; exact q7.pg, fun n => ?_, fun n => ?_, ?_, fun p => ?_, fun _ => by rw [setMode_mode]⟩
    · unfold State.lane; rw [sm.2.1]; exact q7.stop n
    · unfold State.node; rw [sm.2.2.2.2.2.2.2.1]; exact n7 n
    · unfold State.conn; rw [sm.2.2.2.2.2.2.1]; exact c7
    · unfold State.conn State.port; rw [sm.2.2.2.2.2.2.1, show (s7.setMode (some .safe) 1).ports = s7.ports from ?_]
      · exact o7 p
      · unfold State.setMode State.record State.createRecord; split
        · rfl
        · dsimp only; split <;> rfl
  · rename_i hn; subst ht
    exact ⟨q7.latch, q7.pg, q7.stop, n7, c7, o7, fun h => absurd h hn⟩

theorem writeGauge_aon (s : State) : s.writeGauge.aon = s.aon := by
  unfold State.writeGauge; split <;> rfl

theorem pathRecord_aon (s : State) (a : Byte) (b : Nat) (c : Bool) : (s.pathRecord a b c).aon = s.aon := (record_same _ _ _).1

theorem dormantStart_aon (s : State) (v : Volt) (a : Bool) : ∃ r, (s.dormantStart v a).aon = { s.aon with request := some r } ∧ r.dormant = true ∧ r.automatic = a := by
  unfold State.dormantStart; dsimp only; rw [writeGauge_aon]; split <;> exact ⟨_, rfl, rfl, rfl⟩

theorem powerDown_dies (s : State) (m : Mode) : let t := s.powerDown m
   t.aon.mode = some m ∧ t.hub.hub = .off ∧ t.aon.request = none ∧ (∀ n, (t.lane n).up = false ∧ (t.lane n).run = .stopped) ∧ (∀ c, (t.conn c).pair = .opened) ∧ t.aon.safeLatch = s.aon.safeLatch ∧ t.aon.shipFet = s.aon.shipFet := by
  intro t
  have e := setMode_mode s (some m) 0
  refine ⟨?_, rfl, rfl, fun n => ?_, fun c => ?_, ?_, ?_⟩
  · show (s.setMode (some m) 0).aon.mode = _; rw [e]
  · simp [t, State.powerDown, State.diesReset, State.lane, State.modHub, State.modAon, LaneDie.rebooted, LaneDie.zero]
  · simp [t, State.powerDown, State.diesReset, State.conn, State.modHub, State.modAon, Conn.zero]
  · show (s.setMode (some m) 0).aon.safeLatch = _; rw [e]
  · show (s.setMode (some m) 0).aon.shipFet = _; rw [e]

theorem stopAll_aon (s : State) : s.stopAll.aon = s.aon := by
  unfold State.stopAll; dsimp only
  exact (foldl_aon (fun (s : State) c => s.openPair c) _ _ (fun _ _ => rfl)).trans (foldl_aon (fun (s : State) n => s.modLane n LaneDie.stop) _ _ (fun _ _ => rfl))

end Sys2Proof.Machine
end

