-- ==== Sys2Proof/Laws/Channels.lean ====
section
/-! SUPPORT. Laws about a host channel takes a command, answers it or runs on; flash jobs; function starts. -/

namespace Sys2Proof.Machine

/-- The channel runs the command in its normal slot, before its effect. -/
def State.started (s : State) (c : HostChan) (op : Half) (d : Desc) (bell : Nat) : State :=
  s.modChan c (fun m => { m with st := .running, taken := BitVec.ofNat 32 bell
                                 running := some { op := op, desc := d, bell := bell, pastNoReturn := false, waits := none } })

theorem started_is (s : State) (c op d bell) : ∃ h, s.started c op d bell = { s with host := h } ∧ h.mem = s.host.mem ∧ ((s.started c op d bell).mbx c).st = .running ∧
   ((s.started c op d bell).mbx c).running = some { op := op, desc := d, bell := bell, pastNoReturn := false, waits := none } ∧ ((s.started c op d bell).mbx c).completed = (s.mbx c).completed := by
  refine ⟨_, rfl, rfl, ?_, ?_, ?_⟩ <;> (unfold State.started; rw [modChan_mbx])

theorem takeCmd_takes (s : State) (c : HostChan) (op : Half) (d : Desc) (bell) (body : State → Res) (h : s.takes c op d) :
    s.takeCmd c .normal op d bell (fun s => s.serve op.toNat body) = (match body (s.started c op d bell) with
      | .reply code resp t => t.answerNormal c op d.seq bell code resp
      | .run past t => t.modChan c (fun m => { m with running := m.running.map (fun r => { r with pastNoReturn := past }) })) := by
  obtain ⟨h1, h2, h3, h4, h5⟩ := h
  unfold State.takeCmd
  rw [if_neg (by rw [h1]; simp)]
  dsimp only
  rw [if_neg (by rcases h3 with h | h <;> rw [h] <;> simp), if_neg (by
    intro hx; simp only [Bool.and_eq_true, decide_eq_true_eq] at hx; exact h4 ⟨hx.1.1, hx.1.2⟩)]
  rw [h5]
  dsimp only
  have hs : ∀ t : State, t.hub.shelf = s.hub.shelf → t.serve op.toNat body = body t := by
    intro t ht; unfold State.serve; rw [if_neg (by rw [ht]; simp [h2])]
  have e := hs (s.started c op d bell) rfl
  unfold State.started at e ⊢
  rw [e]
  all_goals (generalize body _ = r; cases r <;> rfl)

theorem setHdb_mbx (s : State) (k) (c) : (s.setHdb k).mbx c = s.mbx c := rfl

theorem replyDesc_len (op seq : Half) (code len bell done) (inl) : (replyDesc op seq code len bell done inl).length = 32 := by simp [replyDesc, padTo, le16, le32, leBytes]; omega

theorem two_writes (t : State) (op seq : Half) {code bell done c} (resp : List Byte) (x : Nat) (hm : Memory.wf t.host.mem) (hx : mbxBase c + 0x20 + 32 ≤ mbxBase c + 0x1400) :
    ((t.memWrite (mbxBase c + 0x1400) resp).memWrite (mbxBase c + 0x20) (replyDesc op seq code x bell done [])).memRead (mbxBase c + 0x1400) resp.length = resp := by
  have hlen := replyDesc_len op seq code x bell done []
  generalize replyDesc op seq code x bell done [] = rd at hlen ⊢
  refine Eq.trans ?_ (memRead_memWrite t (mbxBase c + 0x1400) resp hm)
  unfold State.memRead cellsReadAll
  refine List.map_congr_left (fun i hi => ?_)
  refine memWrite_frame _ _ _ _ (memWrite_wf _ _ _ hm) (Or.inr ?_)
  rw [hlen]; omega

theorem fin_normal (t : State) (c : HostChan) (seq : Half) (code : Nat) (resp : List Byte) : ∀ (w : State) (f : Mbx → Mbx), w = { t with host := w.host } → w.mbx c = t.mbx c → (f (w.mbx c)).st = .idle → (f (w.mbx c)).ackCode = BitVec.ofNat 16 code → (f (w.mbx c)).ackSeq = seq →
      (code ≠ 13 → (f (w.mbx c)).completed = (w.mbx c).completed + 1 ∧ (f (w.mbx c)).lastSeq = seq) →
      (Memory.wf t.host.mem → resp.length ≤ 3072 → w.memRead (mbxBase c + 0x1400) resp.length = resp) →
      ∃ u, (w.modChan c f).setHdb (4 * c.val) = u ∧ u = { t with host := u.host } ∧ (u.mbx c).st = .idle ∧ (u.mbx c).ackCode = BitVec.ofNat 16 code ∧ (u.mbx c).ackSeq = seq ∧
      u.host.hdbOut.getLsbD (4 * c.val) = true ∧ (code ≠ 13 → (u.mbx c).completed = (t.mbx c).completed + 1 ∧ (u.mbx c).lastSeq = seq) ∧
      (Memory.wf t.host.mem → resp.length ≤ 3072 → u.memRead (mbxBase c + 0x1400) resp.length = resp) := by
  intro w f h1 hw h2 h3 h4 h5 h6
  rw [hw] at h5
  have hb : ∀ x : Word, (x ||| (1#32 <<< (4 * c.val))).getLsbD (4 * c.val) = true := by
    intro x; fin_cases c <;> simp
  refine ⟨_, rfl, ?_, ?_, ?_, ?_, hb _, ?_, h6⟩
  · have : ((w.modChan c f).setHdb (4 * c.val)) = { w with host := ((w.modChan c f).setHdb (4 * c.val)).host } := rfl
    rw [this, h1]
  all_goals rw [setHdb_mbx, modChan_mbx]
  · exact h2
  · exact h3
  · exact h4
  · rw [hw]; exact h5

theorem memWrite_mbx (s : State) (a b c) : (s.memWrite a b).mbx c = s.mbx c := rfl

theorem two_is (s : State) (a b a' b') : (s.memWrite a b).memWrite a' b' = { s with host := ((s.memWrite a b).memWrite a' b').host } := rfl

theorem answerNormal_is (t : State) (c : HostChan) (op seq : Half) (bell code : Nat) (resp : List Byte) (h : (t.mbx c).st ≠ .resyncing) :
    ∃ u, t.answerNormal c op seq bell code resp = u ∧ u = { t with host := u.host } ∧ (u.mbx c).st = .idle ∧ (u.mbx c).ackCode = BitVec.ofNat 16 code ∧ (u.mbx c).ackSeq = seq ∧
      u.host.hdbOut.getLsbD (4 * c.val) = true ∧ (code ≠ 13 → (u.mbx c).completed = (t.mbx c).completed + 1 ∧ (u.mbx c).lastSeq = seq) ∧
      (Memory.wf t.host.mem → resp.length ≤ 3072 → u.memRead (mbxBase c + 0x1400) resp.length = resp) := by
  unfold State.answerNormal
  rw [if_neg h]
  dsimp only
  refine fin_normal t c seq code resp ((t.memWrite (mbxBase c + 0x1400) (resp.take 3072)).memWrite (mbxBase c + 0x20) (replyDesc op seq code (resp.take 3072).length bell t.now []))
    (fun m => if code = rcCancelled then { m with ackCode := BitVec.ofNat 16 code, ackSeq := seq, st := .idle, running := none } else
      { m with ackCode := BitVec.ofNat 16 code, ackSeq := seq, st := .idle, running := none, lastSeq := seq, lastOp := op, lastCode := BitVec.ofNat 16 code, completed := m.completed + 1 }) (two_is ..) (by rw [memWrite_mbx, memWrite_mbx]) ?_ ?_ ?_ ?_ ?_
  · split <;> rfl
  · split <;> rfl
  · split <;> rfl
  · intro hc; rw [if_neg (show ¬ code = rcCancelled from hc)]; exact ⟨rfl, rfl⟩
  · intro hm hr
    have ht : resp.take 3072 = resp := List.take_of_length_le hr
    rw [ht]
    exact two_writes t _ _ resp _ hm (by omega)

theorem replies (s t : State) (c : HostChan) (op : Half) (d : Desc) (code : Nat) (resp : List Byte) (body : State → Res) (h : s.takes c op d)
    (hb : body (s.started c op d s.now) = .reply code resp t) (hc : code ≠ 13) (hl : resp.length ≤ 3072) (ht : t.host = (s.started c op d s.now).host) :
    ∃ u, Host.Outcome.next (s.takeCmd c .normal op d s.now (fun s => s.serve op.toNat body)) = (.next u : Out) ∧ Answered u c d code ∧ u = { t with host := u.host } ∧
      (u.mbx c).completed = (s.mbx c).completed + 1 ∧ (u.mbx c).lastSeq = d.seq ∧ (Memory.wf s.host.mem → u.memRead (mbxBase c + 0x1400) resp.length = resp) := by
  obtain ⟨hh, e, em, es, er, ec⟩ := started_is s c op d s.now
  have hst : (t.mbx c) = ((s.started c op d s.now).mbx c) := by unfold State.mbx; rw [ht]
  obtain ⟨u, he, h1, h2, h3, h4, h5, h6, h7⟩ := answerNormal_is t c op d.seq s.now code resp (by rw [hst, es]; simp)
  refine ⟨u, ?_, ⟨h2, h3, h4, h5⟩, h1, by rw [(h6 hc).1, hst, ec], (h6 hc).2, fun hm => h7 (by rw [ht, e]; exact em ▸ hm) hl⟩
  rw [takeCmd_takes s c op d s.now body h, hb]; exact congrArg _ he

theorem runsOn (s t : State) (c : HostChan) (op : Half) (d : Desc) (past : Bool) (body : State → Res) (h : s.takes c op d)
    (hb : body (s.started c op d s.now) = .run past t) (ht : t.host.mbx = (s.started c op d s.now).host.mbx) :
    ∃ u, Host.Outcome.next (s.takeCmd c .normal op d s.now (fun s => s.serve op.toNat body)) = (.next u : Out) ∧ RunsOn u c op ∧ u = { t with host := u.host } := by
  obtain ⟨hh, e, em, es, er, ec⟩ := started_is s c op d s.now
  have hst : (t.mbx c) = ((s.started c op d s.now).mbx c) := by unfold State.mbx; rw [ht]
  refine ⟨t.modChan c (fun m => { m with running := m.running.map (fun (r : Running) => { r with pastNoReturn := past }) }), congrArg _ ?_, ?_, rfl⟩
  · rw [takeCmd_takes s c op d s.now body h, hb]
  · unfold RunsOn; rw [modChan_mbx, hst]; dsimp only; rw [es, er]
    exact ⟨rfl, _, rfl, rfl⟩

theorem urgent_is (s : State) (c : HostChan) (op seq : Half) (bell code : Nat) (resp : List Byte) :
    ∃ u, s.answerUrgent c op seq bell code resp = u ∧ u = { s with host := u.host } ∧ (u.mbx c).uackCode = BitVec.ofNat 16 code ∧ (u.mbx c).uackSeq = seq ∧ (u.mbx c).ubusy = false ∧
      u.host.hdbOut.getLsbD (4 * c.val + 1) = true ∧ (u.mbx c).st = (s.mbx c).st := by
  have hm2 : ∀ (w : State), w = { s with host := w.host } → (w.mbx c) = s.mbx c →
      ∃ u, (w.modChan c (fun m => { m with uackCode := BitVec.ofNat 16 code, uackSeq := seq, ubusy := false })).setHdb (4 * c.val + 1) = u ∧ u = { s with host := u.host } ∧ (u.mbx c).uackCode = BitVec.ofNat 16 code ∧ (u.mbx c).uackSeq = seq ∧ (u.mbx c).ubusy = false ∧
      u.host.hdbOut.getLsbD (4 * c.val + 1) = true ∧ (u.mbx c).st = (s.mbx c).st := by
    intro w h1 h2
    have hb : ∀ x : Word, (x ||| (1#32 <<< (4 * c.val + 1))).getLsbD (4 * c.val + 1) = true := by
      intro x; fin_cases c <;> simp
    refine ⟨_, rfl, ?_, ?_, ?_, ?_, hb _, ?_⟩
    · have : ((w.modChan c (fun m => { m with uackCode := BitVec.ofNat 16 code, uackSeq := seq, ubusy := false })).setHdb (4 * c.val + 1)) = { w with host := ((w.modChan c (fun m => { m with uackCode := BitVec.ofNat 16 code, uackSeq := seq, ubusy := false })).setHdb (4 * c.val + 1)).host } := rfl
      rw [this, h1]
    all_goals rw [setHdb_mbx, modChan_mbx]
    exact (congrArg Mbx.st h2 :)
  unfold State.answerUrgent
  dsimp only
  split
  · exact hm2 _ rfl rfl
  · exact hm2 _ rfl rfl

theorem len_of (op n : Nat) (d : Desc) (r : OpRow) (h : precheck op .normal d = none) (ho : opRow op = some r) (hr : r.len = fixedLen n) : d.params.length = n := by
  unfold precheck at h; rw [ho] at h; dsimp only at h
  by_contra hc
  rw [if_pos (by rw [hr]; simp [fixedLen, hc])] at h
  cases h

theorem safePort_host (s : State) (p : Port) : (s.safePort p).host = s.host := by
  unfold State.safePort
  dsimp only; split
  · unfold State.swapBroken
    split
    · dsimp only [State.modPort]; rw [record_is]
    · rfl
  · split
    · rfl
    · split
      · rfl
      · show (s.feedEnd p false).host = _
        unfold State.feedEnd State.openPair State.stopNode
        split
        · dsimp only; split
          · exact foldl_proj State.host _ _ _ (fun _ _ => rfl)
          · rfl
        · rfl

theorem record_host (s : State) (ty p) : (s.record ty p).host = s.host := by rw [record_is]

theorem setSafe_host (s : State) (x c d v) : (s.setSafe x c d v).host = s.host := by
  unfold State.setSafe
  split
  · rfl
  split
  · rfl
  · dsimp only
    generalize hs1 : s.modAon _ = s1
    have e1 : s1.host = s.host := by subst hs1; rfl
    generalize hs2 : List.foldl _ s1 (List.finRange 4) = s2
    have e2 : s2.host = s.host := by rw [← hs2, ← e1]; exact foldl_proj State.host _ _ _ (fun s n => by split <;> rfl)
    generalize hs3 : ({ s2 with portDies := _ } : State) = s3
    have e3 : s3.host = s.host := by rw [← e2]; subst hs3; rfl
    generalize hs4 : List.foldl _ s3 (List.finRange 4) = s4
    have e4 : s4.host = s.host := by rw [← hs4, ← e3]; exact foldl_proj State.host _ _ _ (fun s n => safePort_host s n)
    generalize hs5 : List.foldl _ s4 (List.finRange 5) = s5
    have e5 : s5.host = s.host := by rw [← hs5, ← e4]; exact foldl_proj State.host _ _ _ (fun s n => by split <;> rfl)
    generalize hs6 : List.foldl _ s5 (List.finRange 4) = s6
    have e6 : s6.host = s.host := by rw [← hs6, ← e5]; exact foldl_proj State.host _ _ _ (fun s n => rfl)
    generalize hs7 : State.stamp _ .protection c d _ = s7
    have e7 : s7.host = s.host := by rw [← e6, ← hs7]; rfl
    split
    · rw [setMode_frame]; exact e7
    · exact e7

/-- The state a command body ends in. -/
def Res.st : Res → State
  | .reply _ _ s => s
  | .run _ s => s

theorem takes_any (s : State) (c : HostChan) (op : Half) (d : Desc) (r : Res) (body : State → Res) (h : s.takes c op d)
    (hb : body (s.started c op d s.now) = r) (ht : (r.st.mbx c).st = .running) :
    ∃ u, Host.Outcome.next (s.takeCmd c .normal op d s.now (fun s => s.serve op.toNat body)) = (.next u : Out) ∧ u = { r.st with host := u.host } := by
  rw [takeCmd_takes s c op d s.now body h, hb]
  cases r with
  | reply code resp t =>
    obtain ⟨u, he, h1, -⟩ := answerNormal_is t c op d.seq s.now code resp (by rw [show (t.mbx c).st = _ from ht]; simp)
    exact ⟨u, congrArg _ he, h1⟩
  | run past t => exact ⟨_, rfl, rfl⟩

theorem awaitRecord_st (s : State) (c : HostChan) (b) : (s.awaitRecord c b).st = { s with host := (s.awaitRecord c b).st.host } ∧
    ((s.awaitRecord c b).st.mbx c).st = (s.mbx c).st := by
  unfold State.awaitRecord
  split
  · split
    · refine ⟨rfl, ?_⟩
      show ((s.modChan c _).mbx c).st = _
      rw [modChan_mbx]
    · exact ⟨rfl, rfl⟩
  · exact ⟨rfl, rfl⟩

theorem request_of (s : State) (ev : Byte) : (s.pathRecord ev 0 false).aon = s.aon ∧ (s.pathRecord ev 0 false).hub = s.hub ∧ (s.pathRecord ev 0 false).host = s.host ∧
   (s.pathRecord ev 0 false).cfg = s.cfg ∧ (s.pathRecord ev 0 false).gauge = s.gauge ∧ (s.pathRecord ev 0 false).time = s.time := by
  unfold State.pathRecord; rw [record_is]; exact ⟨rfl, rfl, rfl, rfl, rfl, rfl⟩

theorem shipStart_is (s : State) (x) : (s.shipStart x false).aon = { s.aon with request := some { dormant := false, automatic := false, deadline := s.now + x, stage := .wait }, pgood := false } ∧
    (s.shipStart x false).host = s.host := by
  unfold State.shipStart
  dsimp only
  obtain ⟨f, g, e, -⟩ := writeGauge_kp (s.modAon (fun a => { a with request := some { dormant := false, automatic := false, deadline := s.now + x, stage := .wait }, pgood := false }))
  rw [e]; exact ⟨rfl, rfl⟩

theorem dormantStart_is (s : State) (v) :
    (s.dormantStart v false).aon = { s.aon with request := some { dormant := true, automatic := false, deadline := s.now, stage := if s.cfg.supplement then .moving else .ramping } } ∧
    (s.dormantStart v false).hub = { s.hub with sysFinal := if s.cfg.supplement then v - 1 / 10 else s.hub.sysFinal } ∧ (s.dormantStart v false).host = s.host := by
  unfold State.dormantStart
  dsimp only
  generalize hw : (if s.cfg.supplement = true then s.modHub _ else s : State) = w
  have kw : w.aon = s.aon ∧ w.hub = { s.hub with sysFinal := if s.cfg.supplement then v - 1 / 10 else s.hub.sysFinal } ∧ w.host = s.host ∧ w.now = s.now := by
    rw [← hw]; split <;> exact ⟨rfl, rfl, rfl, rfl⟩
  clear hw
  generalize hz : State.modAon _ _ = z
  obtain ⟨f, g, e, -⟩ := writeGauge_kp z
  rw [e, ← hz]
  refine ⟨?_, kw.2.1, kw.2.2.1⟩
  show ({ w.aon with request := _ } : Aon) = _
  rw [kw.1, kw.2.2.2]

theorem replies2 (s t : State) (c : HostChan) (op : Half) (d : Desc) (code : Nat) (resp : List Byte) (body : State → Res) (h : s.takes c op d)
    (hb : body (s.started c op d s.now) = .reply code resp t) (ht : t.host.mbx = (s.started c op d s.now).host.mbx) :
    ∃ u, Host.Outcome.next (s.takeCmd c .normal op d s.now (fun s => s.serve op.toNat body)) = (.next u : Out) ∧ Answered u c d code ∧ u = { t with host := u.host } := by
  obtain ⟨hh, e, em, es, er, ec⟩ := started_is s c op d s.now
  have hst : (t.mbx c) = ((s.started c op d s.now).mbx c) := by unfold State.mbx; rw [ht]
  obtain ⟨u, he, h1, h2, h3, h4, h5, h6, h7⟩ := answerNormal_is t c op d.seq s.now code resp (by rw [hst, es]; simp)
  refine ⟨u, ?_, ⟨h2, h3, h4, h5⟩, h1⟩
  rw [takeCmd_takes s c op d s.now body h, hb]; exact congrArg _ he

theorem ofFn_get {α : Type} {n : Nat} (f : Fin n → α) (i : Fin n) : (Vector.ofFn f).get i = f i := by simp [Vector.get]; rfl

theorem insertJob_mem (j : FlashJob) : ∀ l, j ∈ insertJob j l
  | [] => by simp [insertJob]
  | x :: r => by unfold insertJob; split <;> simp [insertJob_mem j r]

theorem kick_mem (f : Flash) (j : FlashJob) (h : j ∈ f.queue) : j ∈ f.kick.busy.toList ++ f.kick.queue := by
  unfold Flash.kick; split
  · rename_i x r h1 h2
    rw [h2] at h; simpa using h
  · rename_i h1 h2; rw [h2] at h; cases h
  · exact List.mem_append_right _ h

theorem addJob_mem (s : State) (j : FlashJob) : j ∈ (s.addJob j).flash.busy.toList ++ (s.addJob j).flash.queue := by
  unfold State.addJob; dsimp only; split
  · exact List.mem_append_right _ (insertJob_mem j _)
  · exact kick_mem _ j (insertJob_mem j _)

theorem mem_named (m : BitVec 15) (f : Nat) : f ∈ named m ↔ m.getLsbD f = true := by
  unfold named; simp only [List.mem_filter, List.mem_range]
  constructor
  · exact fun h => h.2
  · intro h; refine ⟨?_, h⟩; by_contra hc; rw [BitVec.getLsbD_of_ge _ _ (by omega)] at h; cases h

theorem stop_fin (g : Cfg) (f : Fin 15) : g.stop f.val = g.stoppedBy.get f := by
  unfold Cfg.stop; simp [Vector.get]

theorem startCheck_none (s : State) (c) (m : BitVec 15) (h : ∀ f, m.getLsbD f = true → s.cfg.stop f = some c) : s.startCheck c m = none := by
  unfold State.startCheck; rw [List.findSome?_eq_none_iff]
  intro f hf; rw [if_pos (h f ((mem_named m f).1 hf))]

theorem restart_is (s : State) (m : BitVec 15) : (s.restartFuncs m).host = s.host ∧ (s.restartFuncs m).cfg.inForce = s.cfg.inForce ∧
    (∀ f : Fin 15, m.getLsbD f.val = true → (s.restartFuncs m).cfg.stoppedBy.get f = none) ∧ (s.restartFuncs m).cfg.staged = s.cfg.staged.filter (fun e => !m.getLsbD e.fn) := by
  have k : ∀ f : Fin 15, m.getLsbD f.val = true → (Vector.ofFn (fun (f : Fin 15) => if m.getLsbD f.val then none else s.cfg.stoppedBy.get f)).get f = none := by
    intro f hf; rw [ofFn_get, if_pos hf]
  unfold State.restartFuncs; dsimp only; split
  · exact ⟨rfl, rfl, k, rfl⟩
  · exact ⟨rfl, rfl, k, rfl⟩

theorem sp_is (s : State) : ∃ a b c d e, s.chargeSetpoint = { s with charge := { s.charge with iSet := a, iReq := b, vIrc := c, reduction := d, cvTarget := e } } := by
  unfold State.chargeSetpoint; dsimp only
  exact ⟨_, _, _, _, _, rfl⟩

theorem memRead_sub (u : State) (a n i k : Nat) (r : List Byte) (h : u.memRead a n = r) (hk : i + k ≤ n) : u.memRead (a + i) k = (r.drop i).take k := by
  rw [← h]; unfold State.memRead cellsReadAll
  apply List.ext_getElem
  · simp; omega
  · intro j h1 h2; simp [Nat.add_assoc]

theorem firstFail_some (l : List Check) (x : Check) (h : x ∈ l) (hx : x.1 = false) : (firstFail l).isSome = true := by
  unfold firstFail; rw [Option.isSome_map, List.find?_isSome]; exact ⟨x, h, by rw [hx]; rfl⟩

theorem validate_some (x : CheckCtx) (fn : Nat) (hf : fn < 15) (h : x.isNamed fn = true) (k : (firstFail (checksOf x fn)).isSome = true) : ∃ r, validate x = some r := by
  rw [← Option.isSome_iff_exists]
  unfold validate
  rw [List.findSome?_isSome_iff]
  refine ⟨fn, List.mem_range.2 hf, ?_⟩
  rw [if_pos h, Option.isSome_map]; exact k

theorem refusedStart (c : HostChan) (d : Desc) (m : BitVec 15) (s : State) (h : s.takes c 0x0103 d) (h1 : funcMask d.params = some m)
    (h2 : ∀ f, m.getLsbD f = true → s.cfg.stop f = some c) (fn : Nat) (hf : fn < 15) (h3 : m.getLsbD fn = true) (k : (firstFail (checksOf (s.checkCtx m) fn)).isSome = true) :
    ∃ u, exec (.funcStart c .normal d) s = .next u ∧ Answered u c d 8 ∧ u.cfg.inForce = s.cfg.inForce := by
  obtain ⟨⟨a, b, e⟩, hr⟩ := validate_some (s.checkCtx m) fn hf h3 k
  have kk := restart_is (s.started c 0x103 d s.now) m
  obtain ⟨u, e1, a1, b1⟩ := replies2 s ((s.started c 0x103 d s.now).restartFuncs m) c 0x103 d 8 [BitVec.ofNat 8 a, BitVec.ofNat 8 b, BitVec.ofNat 8 e, 0] (cmdFuncStart c d) h
      (by unfold cmdFuncStart; rw [h1]; dsimp only
          rw [startCheck_none (s.started c 0x103 d s.now) c m h2]; dsimp only
          rw [show validate ((s.started c 0x103 d s.now).checkCtx m) = some (a, b, e) from hr]; rfl) (by rw [kk.1])
  exact ⟨u, e1, a1, by rw [b1]; exact kk.2.1⟩

end Sys2Proof.Machine
end

