-- ==== Sys2Proof/Laws/KeptOps.lean ====
section
/-! SUPPORT. What the operations of Machine/Ops keep (Laws/Kept.lean). -/

set_option linter.unusedTactic false
set_option linter.unreachableTactic false

namespace Sys2Proof.Machine

theorem State.modLane_kept {w0 : Held} {l0 : Bool} (s : State) (n : Lane) (f : LaneDie → LaneDie) (hk : KeptOf w0 l0 s) :
    KeptOf w0 l0 (State.modLane s n f) := by
  unfold State.modLane
  repeat' first | (with_reducible first | assumption | (apply keptIf <;> intro _)) | dsimp only [KeptOf] | split

theorem State.modPort_kept {w0 : Held} {l0 : Bool} (s : State) (p : Port) (f : PortSt → PortSt) (hk : KeptOf w0 l0 s) :
    KeptOf w0 l0 (State.modPort s p f) := by
  unfold State.modPort
  repeat' first | (with_reducible first | assumption | (apply keptIf <;> intro _)) | dsimp only [KeptOf] | split

theorem State.modPd_kept {w0 : Held} {l0 : Bool} (s : State) (m : PortDie) (f : PortDieSt → PortDieSt) (hk : KeptOf w0 l0 s) :
    KeptOf w0 l0 (State.modPd s m f) := by
  unfold State.modPd
  repeat' first | (with_reducible first | assumption | (apply keptIf <;> intro _)) | dsimp only [KeptOf] | split

theorem State.modConn_kept {w0 : Held} {l0 : Bool} (s : State) (c : Src) (f : Conn → Conn) (hk : KeptOf w0 l0 s) :
    KeptOf w0 l0 (State.modConn s c f) := by
  unfold State.modConn
  repeat' first | (with_reducible first | assumption | (apply keptIf <;> intro _)) | dsimp only [KeptOf] | split

theorem State.modNode_kept {w0 : Held} {l0 : Bool} (s : State) (n : Lane) (f : Node → Node) (hk : KeptOf w0 l0 s) :
    KeptOf w0 l0 (State.modNode s n f) := by
  unfold State.modNode
  repeat' first | (with_reducible first | assumption | (apply keptIf <;> intro _)) | dsimp only [KeptOf] | split

theorem State.modLink_kept {w0 : Held} {l0 : Bool} (s : State) (t : TrunkPort) (f : Link → Link) (hk : KeptOf w0 l0 s) :
    KeptOf w0 l0 (State.modLink s t f) := by
  unfold State.modLink
  repeat' first | (with_reducible first | assumption | (apply keptIf <;> intro _)) | dsimp only [KeptOf] | split

theorem State.modMbx_kept {w0 : Held} {l0 : Bool} (s : State) (c : Fin 8) (f : Mbx → Mbx) (hk : KeptOf w0 l0 s) :
    KeptOf w0 l0 (State.modMbx s c f) := by
  unfold State.modMbx
  repeat' first | (with_reducible first | assumption | (apply keptIf <;> intro _)) | dsimp only [KeptOf] | split

theorem State.memWrite_kept {w0 : Held} {l0 : Bool} (s : State) (a : Nat) (b : List Byte) (hk : KeptOf w0 l0 s) :
    KeptOf w0 l0 (State.memWrite s a b) := by
  exact keptMem hk (cellsWriteAll_wf _ _ _ hk.2.1)

theorem State.stamp_kept {w0 : Held} {l0 : Bool} (s : State) (cls : EvClass) (src : EvSource) (item : Nat) (kind : EvKind) (hk : KeptOf w0 l0 s) :
    KeptOf w0 l0 (State.stamp s cls src item kind) := by
  unfold State.stamp
  repeat' first | (with_reducible first | assumption | (apply keptIf <;> intro _)) | dsimp only [KeptOf] | split

theorem State.stampLane_kept {w0 : Held} {l0 : Bool} (s : State) (n : Lane) (k : EvKind) (hk : KeptOf w0 l0 s) :
    KeptOf w0 l0 (State.stampLane s n k) := by
  unfold State.stampLane
  repeat' first | (with_reducible first | assumption | apply State.stamp_kept | (apply keptIf <;> intro _)) | dsimp only [KeptOf] | split

theorem State.createRecord_kept {w0 : Held} {l0 : Bool} (s : State) (type : Half) (payload : List Byte) (whileOff : Bool) (hk : KeptOf w0 l0 s) :
    KeptOf w0 l0 (State.createRecord s type payload whileOff) := by
  have hb := hk.2.2.1
  unfold State.createRecord
  refine keptLedger hk ?_
  dsimp only
  split
  · exact pushRecord_bound _ _ (pushRecord_bound _ _ hb)
  · exact pushRecord_bound _ _ hb

theorem State.record_kept {w0 : Held} {l0 : Bool} (s : State) (type : Half) (payload : List Byte) (hk : KeptOf w0 l0 s) :
    KeptOf w0 l0 (State.record s type payload) := by
  unfold State.record
  repeat' first | (with_reducible first | assumption | apply State.createRecord_kept | (apply keptIf <;> intro _)) | dsimp only [KeptOf] | split

theorem State.setMode_kept {w0 : Held} {l0 : Bool} (s : State) (m : Option Mode) (how : Nat) (hk : KeptOf w0 l0 s) :
    KeptOf w0 l0 (State.setMode s m how) := by
  unfold State.setMode
  repeat' first | (with_reducible first | assumption | apply State.record_kept | (apply keptIf <;> intro _)) | dsimp only [KeptOf] | split

theorem State.sendLane_kept {w0 : Held} {l0 : Bool} (s : State) (n : Lane) (eff : Nat) (go : LaneGo) (o : LaneOrder) (hk : KeptOf w0 l0 s) :
    KeptOf w0 l0 (State.sendLane s n eff go o) := by
  unfold State.sendLane
  repeat' first | (with_reducible first | assumption | apply State.modLane_kept | (apply keptIf <;> intro _)) | dsimp only [KeptOf] | split

theorem State.sendSet_kept {w0 : Held} {l0 : Bool} (s : State) (n : Lane) (eff : Nat) (es : List CfgEntry) (hk : KeptOf w0 l0 s) :
    KeptOf w0 l0 (State.sendSet s n eff es) := by
  unfold State.sendSet
  repeat' first | (with_reducible first | assumption | apply State.modLane_kept | (apply keptIf <;> intro _)) | dsimp only [KeptOf] | split

theorem State.sendPort_kept {w0 : Held} {l0 : Bool} (s : State) (m : PortDie) (eff : Nat) (c : PortCmd) (hk : KeptOf w0 l0 s) :
    KeptOf w0 l0 (State.sendPort s m eff c) := by
  unfold State.sendPort
  repeat' first | (with_reducible first | assumption | apply State.modPd_kept | (apply keptIf <;> intro _)) | dsimp only [KeptOf] | split

theorem State.pdPut_kept {w0 : Held} {l0 : Bool} (s : State) (p : Port) (m : PdMsg) (hk : KeptOf w0 l0 s) :
    KeptOf w0 l0 (State.pdPut s p m) := by
  unfold State.pdPut
  repeat' first | (with_reducible first | assumption | (apply keptIf <;> intro _)) | dsimp only [KeptOf] | split

theorem State.pdSend_kept {w0 : Held} {l0 : Bool} (s : State) (p : Port) (m : PdMsg) (hk : KeptOf w0 l0 s) :
    KeptOf w0 l0 (State.pdSend s p m) := by
  unfold State.pdSend
  repeat' first | (with_reducible first | assumption | apply State.sendPort_kept | (apply keptIf <;> intro _)) | dsimp only [KeptOf] | split

theorem State.fresh_kept {w0 : Held} {l0 : Bool} (s : State) (hk : KeptOf w0 l0 s) :
    KeptOf w0 l0 (State.fresh s).1 := by
  unfold State.fresh
  repeat' first | (with_reducible first | assumption | (apply keptIf <;> intro _)) | dsimp only [KeptOf] | split

end Sys2Proof.Machine
end

