-- ==== Sys2Proof/Laws/KeptFold.lean ====
section
/-! SUPPORT. What the operations of Machine/Fold keep (Laws/Kept.lean). -/

set_option linter.unusedTactic false
set_option linter.unreachableTactic false

namespace Sys2Proof.Machine

theorem State.samplePeriod_kept {w0 : Held} {l0 : Bool} (s : State) (n : Lane) (hk : KeptOf w0 l0 s) :
    KeptOf w0 l0 (State.samplePeriod s n) := by
  unfold State.samplePeriod
  repeat' first | (with_reducible first | assumption | (apply keptIf <;> intro _) | (refine keptFold ?_ ?_ <;> [skip; intro s x hk])) | split | dsimp only [KeptOf]

theorem State.sampleGauge_kept {w0 : Held} {l0 : Bool} (s : State) (i : Amp) (v : Volt) (hk : KeptOf w0 l0 s) :
    KeptOf w0 l0 (State.sampleGauge s i v) := by
  unfold State.sampleGauge
  repeat' first | (with_reducible first | assumption | (apply keptIf <;> intro _)) | split | dsimp only [KeptOf]

end Sys2Proof.Machine
end

