-- ==== Sys2Proof/Laws/KeptFlash.lean ====
section
/-! SUPPORT. What the operations of Machine/Flash keep (Laws/Kept.lean). -/

set_option linter.unusedTactic false
set_option linter.unreachableTactic false

namespace Sys2Proof.Machine

theorem State.addJob_kept {w0 : Held} {l0 : Bool} (s : State) (j : FlashJob) (hk : KeptOf w0 l0 s) :
    KeptOf w0 l0 (State.addJob s j) := by
  unfold State.addJob
  repeat' first | (with_reducible first | assumption | (apply keptIf <;> intro _)) | split | dsimp only [KeptOf]

theorem State.saveTrims_kept {w0 : Held} {l0 : Bool} (s : State) (n : Lane) (t : Vector Amp 4) (hk : KeptOf w0 l0 s) :
    KeptOf w0 l0 (State.saveTrims s n t) := by
  unfold State.saveTrims
  repeat' first | (with_reducible first | assumption | apply State.addJob_kept | (apply keptIf <;> intro _)) | split | dsimp only [KeptOf]

theorem State.dueTrims_kept {w0 : Held} {l0 : Bool} (s : State) (hk : KeptOf w0 l0 s) :
    KeptOf w0 l0 (State.dueTrims s) := by
  unfold State.dueTrims
  repeat' first | (with_reducible first | assumption | apply State.addJob_kept | (apply keptIf <;> intro _) | (refine keptFold ?_ ?_ <;> [skip; intro s x hk])) | dsimp only [KeptOf] | split

theorem State.saveOut_kept {w0 : Held} {l0 : Bool} (s : State) (hk : KeptOf w0 l0 s) :
    KeptOf w0 l0 (State.saveOut s) := by
  unfold State.saveOut
  repeat' first | (with_reducible first | assumption | apply State.addJob_kept | (apply keptIf <;> intro _)) | split | dsimp only [KeptOf]

end Sys2Proof.Machine
end

