-- ==== Sys2Proof/Laws/KeptLaneRows.lean ====
section
/-! SUPPORT. What the operations of Machine/LaneRows keep (Laws/Kept.lean). -/

set_option linter.unusedTactic false
set_option linter.unreachableTactic false

namespace Sys2Proof.Machine

theorem State.laneEnable_kept {w0 : Held} {l0 : Bool} (s : State) (n : Lane) (run : LaneRun) (hk : KeptOf w0 l0 s) :
    KeptOf w0 l0 (State.laneEnable s n run) := by
  unfold State.laneEnable
  repeat' first | (with_reducible first | assumption | apply State.modLane_kept | apply State.stampLane_kept | apply State.record_kept | apply State.fresh_kept | (apply keptIf <;> intro _)) | dsimp only [KeptOf] | with_reducible apply State.fresh_kept | split

theorem State.noteAbort_kept {w0 : Held} {l0 : Bool} (s : State) (n : Lane) (before : LaneDie) (hk : KeptOf w0 l0 s) :
    KeptOf w0 l0 (State.noteAbort s n before) := by
  unfold State.noteAbort
  repeat' first | (with_reducible first | assumption | apply State.modLane_kept | apply State.stampLane_kept | (apply keptIf <;> intro _)) | dsimp only [KeptOf] | split

theorem State.laneGo_kept {w0 : Held} {l0 : Bool} (s : State) (n : Lane) (go : LaneGo) (hk : KeptOf w0 l0 s) :
    KeptOf w0 l0 (State.laneGo s n go) := by
  unfold State.laneGo
  repeat' first | (with_reducible first | assumption | apply State.modLane_kept | apply State.stampLane_kept | apply State.laneEnable_kept | (apply keptIf <;> intro _)) | dsimp only [KeptOf] | split

theorem State.applyLane_kept {w0 : Held} {l0 : Bool} (s : State) (n : Lane) (f : LaneFrame) (hk : KeptOf w0 l0 s) :
    KeptOf w0 l0 (State.applyLane s n f) := by
  unfold State.applyLane
  exact State.laneGo_kept _ _ _ (State.noteAbort_kept _ _ _ (State.modLane_kept _ _ _ hk))

theorem State.takeSettings_kept {w0 : Held} {l0 : Bool} (s : State) (n : Lane) (hk : KeptOf w0 l0 s) :
    KeptOf w0 l0 (State.takeSettings s n) := by
  unfold State.takeSettings
  repeat' first | (with_reducible first | assumption | apply State.modLane_kept | (apply keptIf <;> intro _) | (refine keptFold ?_ ?_ <;> [skip; intro s x hk])) | dsimp only [KeptOf] | split

theorem State.syncPulse_kept {w0 : Held} {l0 : Bool} (s : State) (n : Lane) (hk : KeptOf w0 l0 s) :
    KeptOf w0 l0 (State.syncPulse s n) := by
  unfold State.syncPulse
  repeat' first | (with_reducible first | assumption | apply State.modLane_kept | (apply keptIf <;> intro _) | (refine keptFold ?_ ?_ <;> [skip; intro s x hk])) | dsimp only [KeptOf] | split

theorem execLanePeriodBoundary_kept {w0 : Held} {l0 : Bool} (n : Lane) (m : PeriodSample) (s : State) (hk : KeptOf w0 l0 s) :
    KeptOut w0 l0 (execLanePeriodBoundary n m s) := by
  unfold execLanePeriodBoundary
  repeat' first | (with_reducible first | assumption | apply State.stampLane_kept | apply State.samplePeriod_kept | apply State.noteAbort_kept | apply State.takeSettings_kept | apply State.syncPulse_kept | apply keptNext | (apply keptIfOut <;> intro _) | (apply keptIf <;> intro _)) | dsimp only [KeptOf] | split

theorem execBalanceTrimUpdate_kept {w0 : Held} {l0 : Bool} (n : Lane) (s : State) (hk : KeptOf w0 l0 s) :
    KeptOut w0 l0 (execBalanceTrimUpdate n s) := by
  unfold execBalanceTrimUpdate
  repeat' first | (with_reducible first | assumption | apply State.modLane_kept | apply keptNext | (apply keptIfOut <;> intro _) | (apply keptIf <;> intro _)) | dsimp only [KeptOf] | split

theorem execPeakLimitTrip_kept {w0 : Held} {l0 : Bool} (k : PhaseNo) (i : Amp) (s : State) (hk : KeptOf w0 l0 s) :
    KeptOut w0 l0 (execPeakLimitTrip k i s) := by
  unfold execPeakLimitTrip
  repeat' first | (with_reducible first | assumption | apply State.modLane_kept | apply keptNext | (apply keptIfOut <;> intro _) | (apply keptIf <;> intro _)) | dsimp only [KeptOf] | split

theorem execCurrentLimitEvent_kept {w0 : Held} {l0 : Bool} (k : PhaseNo) (s : State) (hk : KeptOf w0 l0 s) :
    KeptOut w0 l0 (execCurrentLimitEvent k s) := by
  unfold execCurrentLimitEvent
  repeat' first | (with_reducible first | assumption | apply State.modLane_kept | apply State.stamp_kept | apply keptNext | (apply keptIfOut <;> intro _) | (apply keptIf <;> intro _)) | dsimp only [KeptOf] | split

theorem execNegCurrentLimit_kept {w0 : Held} {l0 : Bool} (k : PhaseNo) (x : NegSample) (s : State) (hk : KeptOf w0 l0 s) :
    KeptOut w0 l0 (execNegCurrentLimit k x s) := by
  unfold execNegCurrentLimit
  repeat' first | (with_reducible first | assumption | apply State.modLane_kept | apply keptNext | (apply keptIfOut <;> intro _) | (apply keptIf <;> intro _)) | dsimp only [KeptOf] | split

theorem execStageFault_kept {w0 : Held} {l0 : Bool} (n : Lane) (s : State) (hk : KeptOf w0 l0 s) :
    KeptOut w0 l0 (execStageFault n s) := by
  unfold execStageFault
  repeat' first | (with_reducible first | assumption | apply State.modLane_kept | apply State.stampLane_kept | apply keptNext | (apply keptIfOut <;> intro _) | (apply keptIf <;> intro _)) | dsimp only [KeptOf] | split

theorem execTruncation_kept {w0 : Held} {l0 : Bool} (n : Lane) (v : Volt) (s : State) (hk : KeptOf w0 l0 s) :
    KeptOut w0 l0 (execTruncation n v s) := by
  unfold execTruncation
  repeat' first | (with_reducible first | assumption | apply State.modLane_kept | apply State.stampLane_kept | apply keptNext | (apply keptIfOut <;> intro _) | (apply keptIf <;> intro _)) | dsimp only [KeptOf] | split

theorem execTruncationRelease_kept {w0 : Held} {l0 : Bool} (n : Lane) (v : Volt) (s : State) (hk : KeptOf w0 l0 s) :
    KeptOut w0 l0 (execTruncationRelease n v s) := by
  unfold execTruncationRelease
  repeat' first | (with_reducible first | assumption | apply State.modLane_kept | apply keptNext | (apply keptIfOut <;> intro _) | (apply keptIf <;> intro _)) | dsimp only [KeptOf] | split

theorem execSkipEntry_kept {w0 : Held} {l0 : Bool} (n : Lane) (s : State) (hk : KeptOf w0 l0 s) :
    KeptOut w0 l0 (execSkipEntry n s) := by
  unfold execSkipEntry
  repeat' first | (with_reducible first | assumption | apply State.modLane_kept | apply State.stampLane_kept | apply keptNext | (apply keptIfOut <;> intro _) | (apply keptIf <;> intro _)) | dsimp only [KeptOf] | split

theorem execSkipExitComparator_kept {w0 : Held} {l0 : Bool} (n : Lane) (v : Volt) (s : State) (hk : KeptOf w0 l0 s) :
    KeptOut w0 l0 (execSkipExitComparator n v s) := by
  unfold execSkipExitComparator
  repeat' first | (with_reducible first | assumption | apply State.modLane_kept | apply State.stampLane_kept | apply keptNext | (apply keptIfOut <;> intro _) | (apply keptIf <;> intro _)) | dsimp only [KeptOf] | split

theorem execSkipExit_kept {w0 : Held} {l0 : Bool} (n : Lane) (s : State) (hk : KeptOf w0 l0 s) :
    KeptOut w0 l0 (execSkipExit n s) := by
  unfold execSkipExit
  repeat' first | (with_reducible first | assumption | apply State.modLane_kept | apply State.stampLane_kept | apply keptNext | (apply keptIfOut <;> intro _) | (apply keptIf <;> intro _)) | dsimp only [KeptOf] | split

theorem execLaneFirstPulses_kept {w0 : Held} {l0 : Bool} (n : Lane) (node : Volt) (offsets : Vector Amp 4) (refs : Vector Volt 4) (s : State) (hk : KeptOf w0 l0 s) :
    KeptOut w0 l0 (execLaneFirstPulses n node offsets refs s) := by
  unfold execLaneFirstPulses
  repeat' first | (with_reducible first | assumption | apply State.modLane_kept | apply State.stamp_kept | apply keptNext | (apply keptIfOut <;> intro _) | (apply keptIf <;> intro _) | (refine keptFold ?_ ?_ <;> [skip; intro s x hk])) | dsimp only [KeptOf] | split

theorem execInRegulation_kept {w0 : Held} {l0 : Bool} (n : Lane) (s : State) (hk : KeptOf w0 l0 s) :
    KeptOut w0 l0 (execInRegulation n s) := by
  unfold execInRegulation
  repeat' first | (with_reducible first | assumption | apply State.modLane_kept | apply State.stampLane_kept | apply keptNext | (apply keptIfOut <;> intro _) | (apply keptIf <;> intro _)) | dsimp only [KeptOf] | split

theorem execLaneStopComplete_kept {w0 : Held} {l0 : Bool} (n : Lane) (s : State) (hk : KeptOf w0 l0 s) :
    KeptOut w0 l0 (execLaneStopComplete n s) := by
  unfold execLaneStopComplete
  repeat' first | (with_reducible first | assumption | apply State.modLane_kept | apply State.stampLane_kept | apply State.saveTrims_kept | apply keptNext | (apply keptIfOut <;> intro _) | (apply keptIf <;> intro _)) | dsimp only [KeptOf] | split

theorem execWarmRefresh_kept {w0 : Held} {l0 : Bool} (k : PhaseNo) (offset : Amp) (ref : Volt) (s : State) (hk : KeptOf w0 l0 s) :
    KeptOut w0 l0 (execWarmRefresh k offset ref s) := by
  unfold execWarmRefresh
  repeat' first | (with_reducible first | assumption | apply State.modLane_kept | apply keptNext | (apply keptIfOut <;> intro _) | (apply keptIf <;> intro _)) | dsimp only [KeptOf] | split

theorem execColdAdmissionComplete_kept {w0 : Held} {l0 : Bool} (k : PhaseNo) (offset : Amp) (s : State) (hk : KeptOf w0 l0 s) :
    KeptOut w0 l0 (execColdAdmissionComplete k offset s) := by
  unfold execColdAdmissionComplete
  repeat' first | (with_reducible first | assumption | apply State.modLane_kept | apply keptNext | (apply keptIfOut <;> intro _) | (apply keptIf <;> intro _)) | dsimp only [KeptOf] | split

theorem execShedBegin_kept {w0 : Held} {l0 : Bool} (n : Lane) (s : State) (hk : KeptOf w0 l0 s) :
    KeptOut w0 l0 (execShedBegin n s) := by
  unfold execShedBegin
  repeat' first | (with_reducible first | assumption | apply State.modLane_kept | apply State.stampLane_kept | apply keptNext | (apply keptIfOut <;> intro _) | (apply keptIf <;> intro _)) | dsimp only [KeptOf] | split

theorem execShedEnd_kept {w0 : Held} {l0 : Bool} (n : Lane) (s : State) (hk : KeptOf w0 l0 s) :
    KeptOut w0 l0 (execShedEnd n s) := by
  unfold execShedEnd
  repeat' first | (with_reducible first | assumption | apply State.modLane_kept | apply State.stampLane_kept | apply keptNext | (apply keptIfOut <;> intro _) | (apply keptIf <;> intro _)) | dsimp only [KeptOf] | split

theorem execShedInhibitExpiry_kept {w0 : Held} {l0 : Bool} (n : Lane) (s : State) (hk : KeptOf w0 l0 s) :
    KeptOut w0 l0 (execShedInhibitExpiry n s) := by
  unfold execShedInhibitExpiry
  repeat' first | (with_reducible first | assumption | apply State.modLane_kept | apply keptNext | (apply keptIfOut <;> intro _) | (apply keptIf <;> intro _)) | dsimp only [KeptOf] | split

theorem execBenchGoCold_kept {w0 : Held} {l0 : Bool} (n : Lane) (s : State) (hk : KeptOf w0 l0 s) :
    KeptOut w0 l0 (execBenchGoCold n s) := by
  unfold execBenchGoCold
  repeat' first | (with_reducible first | assumption | apply State.modLane_kept | apply keptNext | (apply keptIfOut <;> intro _) | (apply keptIf <;> intro _)) | dsimp only [KeptOf] | split

theorem execFillPeriodEnd_kept {w0 : Held} {l0 : Bool} (n : Lane) (s : State) (hk : KeptOf w0 l0 s) :
    KeptOut w0 l0 (execFillPeriodEnd n s) := by
  unfold execFillPeriodEnd
  repeat' first | (with_reducible first | assumption | apply State.modLane_kept | apply keptNext | (apply keptIfOut <;> intro _) | (apply keptIf <;> intro _)) | dsimp only [KeptOf] | split

theorem execTrimSave_kept {w0 : Held} {l0 : Bool} (n : Lane) (s : State) (hk : KeptOf w0 l0 s) :
    KeptOut w0 l0 (execTrimSave n s) := by
  unfold execTrimSave
  repeat' first | (with_reducible first | assumption | apply State.saveTrims_kept | apply keptNext | (apply keptIfOut <;> intro _) | (apply keptIf <;> intro _)) | dsimp only [KeptOf] | split

theorem execPhaseOut_kept {w0 : Held} {l0 : Bool} (k : PhaseNo) (kind : PhaseKind) (s : State) (hk : KeptOf w0 l0 s) :
    KeptOut w0 l0 (execPhaseOut k kind s) := by
  unfold execPhaseOut
  lift_lets
  intros
  refine keptIfOut (fun _ => keptNext ?_) (fun _ => keptNext hk)
  refine keptIf (fun _ => State.stampLane_kept _ _ _ ?_) (fun _ => ?_) <;> exact State.stamp_kept _ _ _ _ _ hk

theorem execHeadroomHoldRelease_kept {w0 : Held} {l0 : Bool} (n : Lane) (s : State) (hk : KeptOf w0 l0 s) :
    KeptOut w0 l0 (execHeadroomHoldRelease n s) := by
  unfold execHeadroomHoldRelease
  repeat' first | (with_reducible first | assumption | apply State.modLane_kept | apply keptNext | (apply keptIfOut <;> intro _) | (apply keptIf <;> intro _)) | dsimp only [KeptOf] | split

theorem execStackSyncEdge_kept {w0 : Held} {l0 : Bool} (errPs : Int) (s : State) (hk : KeptOf w0 l0 s) :
    KeptOut w0 l0 (execStackSyncEdge errPs s) := by
  unfold execStackSyncEdge
  repeat' first | (with_reducible first | assumption | apply State.modLane_kept | apply keptNext | (apply keptIfOut <;> intro _) | (apply keptIf <;> intro _) | (refine keptFold ?_ ?_ <;> [skip; intro s x hk])) | dsimp only [KeptOf] | split

theorem execStackSyncLocked_kept {w0 : Held} {l0 : Bool} (n : Lane) (s : State) (hk : KeptOf w0 l0 s) :
    KeptOut w0 l0 (execStackSyncLocked n s) := by
  unfold execStackSyncLocked
  repeat' first | (with_reducible first | assumption | apply State.modLane_kept | apply keptNext | (apply keptIfOut <;> intro _) | (apply keptIf <;> intro _)) | dsimp only [KeptOf] | split

theorem execSyncLoss_kept {w0 : Held} {l0 : Bool} (s : State) (hk : KeptOf w0 l0 s) :
    KeptOut w0 l0 (execSyncLoss s) := by
  unfold execSyncLoss
  repeat' first | (with_reducible first | assumption | apply State.modLane_kept | apply State.stampLane_kept | apply keptNext | (apply keptIfOut <;> intro _) | (apply keptIf <;> intro _) | (refine keptFold ?_ ?_ <;> [skip; intro s x hk])) | dsimp only [KeptOf] | split

theorem execSysDroopTrip_kept {w0 : Held} {l0 : Bool} (n : Lane) (v : Volt) (s : State) (hk : KeptOf w0 l0 s) :
    KeptOut w0 l0 (execSysDroopTrip n v s) := by
  unfold execSysDroopTrip
  repeat' first | (with_reducible first | assumption | apply State.modLane_kept | apply State.stampLane_kept | apply keptNext | (apply keptIfOut <;> intro _) | (apply keptIf <;> intro _)) | dsimp only [KeptOf] | split

theorem execHdrmDroopRelease_kept {w0 : Held} {l0 : Bool} (n : Lane) (v : Volt) (s : State) (hk : KeptOf w0 l0 s) :
    KeptOut w0 l0 (execHdrmDroopRelease n v s) := by
  unfold execHdrmDroopRelease
  repeat' first | (with_reducible first | assumption | apply State.modLane_kept | apply keptNext | (apply keptIfOut <;> intro _) | (apply keptIf <;> intro _)) | dsimp only [KeptOf] | split

end Sys2Proof.Machine
end

