-- ==== Sys2Proof/Laws/KeptConnect.lean ====
section
/-! SUPPORT. What the operations of Machine/Connect keep (Laws/Kept.lean). -/

set_option linter.unusedTactic false
set_option linter.unreachableTactic false

namespace Sys2Proof.Machine

theorem State.closePair_kept {w0 : Held} {l0 : Bool} (s : State) (c : Src) (hk : KeptOf w0 l0 s) :
    KeptOf w0 l0 (State.closePair s c) := by
  unfold State.closePair
  repeat' first | (with_reducible first | assumption | apply State.modConn_kept | (apply keptIf <;> intro _)) | dsimp only [KeptOf] | split

theorem State.openPair_kept {w0 : Held} {l0 : Bool} (s : State) (c : Src) (hk : KeptOf w0 l0 s) :
    KeptOf w0 l0 (State.openPair s c) := by
  unfold State.openPair
  repeat' first | (with_reducible first | assumption | apply State.modConn_kept | (apply keptIf <;> intro _)) | dsimp only [KeptOf] | split

theorem State.ccRefresh_kept {w0 : Held} {l0 : Bool} (s : State) (hk : KeptOf w0 l0 s) :
    KeptOf w0 l0 (State.ccRefresh s) := by
  unfold State.ccRefresh
  repeat' first | (with_reducible first | assumption | apply State.modPort_kept | (apply keptIf <;> intro _) | (refine keptFold ?_ ?_ <;> [skip; intro s x hk])) | dsimp only [KeptOf] | split

theorem State.stopNode_kept {w0 : Held} {l0 : Bool} (s : State) (n : Lane) (hk : KeptOf w0 l0 s) :
    KeptOf w0 l0 (State.stopNode s n) := by
  unfold State.stopNode
  repeat' first | (with_reducible first | assumption | apply State.modLane_kept | apply State.stampLane_kept | (apply keptIf <;> intro _) | (refine keptFold ?_ ?_ <;> [skip; intro s x hk])) | dsimp only [KeptOf] | split

end Sys2Proof.Machine
end

