-- ==== Sys2Proof/Laws/KeptMailbox.lean ====
section
/-! SUPPORT. What the operations of Machine/Mailbox keep (Laws/Kept.lean). -/

set_option linter.unusedTactic false
set_option linter.unreachableTactic false

namespace Sys2Proof.Machine

theorem State.modChan_kept {w0 : Held} {l0 : Bool} (s : State) (c : HostChan) (f : Mbx → Mbx) (hk : KeptOf w0 l0 s) :
    KeptOf w0 l0 (State.modChan s c f) := by
  unfold State.modChan
  repeat' first | (with_reducible first | assumption | apply State.modMbx_kept | (apply keptIf <;> intro _)) | dsimp only [KeptOf] | split

theorem State.setHdb_kept {w0 : Held} {l0 : Bool} (s : State) (bit : Nat) (hk : KeptOf w0 l0 s) :
    KeptOf w0 l0 (State.setHdb s bit) := by
  unfold State.setHdb
  repeat' first | (with_reducible first | assumption | (apply keptIf <;> intro _)) | dsimp only [KeptOf] | split

theorem State.clearHdbNibble_kept {w0 : Held} {l0 : Bool} (s : State) (c : HostChan) (hk : KeptOf w0 l0 s) :
    KeptOf w0 l0 (State.clearHdbNibble s c) := by
  unfold State.clearHdbNibble
  repeat' first | (with_reducible first | assumption | (apply keptIf <;> intro _)) | dsimp only [KeptOf] | split

theorem State.alert_kept {w0 : Held} {l0 : Bool} (s : State) (hk : KeptOf w0 l0 s) :
    KeptOf w0 l0 (State.alert s) := by
  unfold State.alert
  repeat' first | (with_reducible first | assumption | apply State.setHdb_kept | (apply keptIf <;> intro _)) | dsimp only [KeptOf] | split

theorem State.answerNormal_kept {w0 : Held} {l0 : Bool} (s : State) (c : HostChan) (op : Half) (seq : Half) (bell code : Nat) (resp : List Byte) (hk : KeptOf w0 l0 s) :
    KeptOf w0 l0 (State.answerNormal s c op seq bell code resp) := by
  unfold State.answerNormal
  repeat' first | (with_reducible first | assumption | apply State.memWrite_kept | apply State.modChan_kept | apply State.setHdb_kept | (apply keptIf <;> intro _)) | dsimp only [KeptOf] | split

theorem State.answerUrgent_kept {w0 : Held} {l0 : Bool} (s : State) (c : HostChan) (op : Half) (seq : Half) (bell code : Nat) (resp : List Byte) (hk : KeptOf w0 l0 s) :
    KeptOf w0 l0 (State.answerUrgent s c op seq bell code resp) := by
  unfold State.answerUrgent
  repeat' first | (with_reducible first | assumption | apply State.memWrite_kept | apply State.modChan_kept | apply State.setHdb_kept | (apply keptIf <;> intro _)) | dsimp only [KeptOf] | split

theorem State.answer_kept {w0 : Held} {l0 : Bool} (s : State) (c : HostChan) (slot : Slot) (op seq : Half) (bell code : Nat) (resp : List Byte) (hk : KeptOf w0 l0 s) :
    KeptOf w0 l0 (State.answer s c slot op seq bell code resp) := by
  unfold State.answer
  repeat' first | (with_reducible first | assumption | apply State.answerNormal_kept | apply State.answerUrgent_kept | (apply keptIf <;> intro _)) | dsimp only [KeptOf] | split

theorem State.finish_kept {w0 : Held} {l0 : Bool} (s : State) (c : HostChan) (code : Nat) (resp : List Byte) (hk : KeptOf w0 l0 s) :
    KeptOf w0 l0 (State.finish s c code resp) := by
  unfold State.finish
  repeat' first | (with_reducible first | assumption | apply State.answerNormal_kept | (apply keptIf <;> intro _)) | dsimp only [KeptOf] | split

theorem State.ok_kept {w0 : Held} {l0 : Bool} (s : State) (hk : KeptOf w0 l0 s) :
    KeptRes w0 l0 (State.ok s) := by
  unfold State.ok
  repeat' first | (with_reducible first | assumption | apply keptReply | apply keptRun | (apply keptIfRes <;> intro _) | (apply keptIf <;> intro _)) | dsimp only [KeptOf] | split

theorem State.okWith_kept {w0 : Held} {l0 : Bool} (s : State) (resp : List Byte) (hk : KeptOf w0 l0 s) :
    KeptRes w0 l0 (State.okWith s resp) := by
  unfold State.okWith
  repeat' first | (with_reducible first | assumption | apply keptReply | apply keptRun | (apply keptIfRes <;> intro _) | (apply keptIf <;> intro _)) | dsimp only [KeptOf] | split

theorem State.fail_kept {w0 : Held} {l0 : Bool} (s : State) (code : Nat) (hk : KeptOf w0 l0 s) :
    KeptRes w0 l0 (State.fail s code) := by
  unfold State.fail
  repeat' first | (with_reducible first | assumption | apply keptReply | apply keptRun | (apply keptIfRes <;> intro _) | (apply keptIf <;> intro _)) | dsimp only [KeptOf] | split

theorem State.overrun_kept {w0 : Held} {l0 : Bool} (s : State) (c : HostChan) (hk : KeptOf w0 l0 s) :
    KeptOf w0 l0 (State.overrun s c) := by
  unfold State.overrun
  repeat' first | (with_reducible first | assumption | apply State.modChan_kept | (apply keptIf <;> intro _)) | dsimp only [KeptOf] | split

theorem State.takeCmd_kept {w0 : Held} {l0 : Bool} (s : State) (c : HostChan) (slot : Slot) (op : Half) (d : Desc) (bell : Nat) (body : State → Res) (hk : KeptOf w0 l0 s) (hb : ∀ s, KeptOf w0 l0 s → KeptRes w0 l0 (body s)) :
    KeptOf w0 l0 (State.takeCmd s c slot op d bell body) := by
  unfold State.takeCmd
  refine keptIf (fun _ => hk) (fun _ => ?_)
  cases slot with
  | urgent =>
    dsimp only
    split
    · exact State.answerUrgent_kept _ _ _ _ _ _ _ hk
    · split <;> rename_i he
      · exact State.answerUrgent_kept _ _ _ _ _ _ _ (keptRes_reply (hb s hk) he)
      · exact keptRes_run (hb s hk) he
  | normal =>
    dsimp only
    refine keptIf (fun _ => State.overrun_kept _ _ hk) (fun _ => ?_)
    refine keptIf (fun _ => State.setHdb_kept _ _ (State.modChan_kept _ _ _ hk)) (fun _ => ?_)
    split
    · exact State.answerNormal_kept _ _ _ _ _ _ _ (State.modChan_kept _ _ _ hk)
    · split <;> rename_i he
      · exact State.answerNormal_kept _ _ _ _ _ _ _ (keptRes_reply (hb _ (State.modChan_kept _ _ _ hk)) he)
      · exact State.modChan_kept _ _ _ (keptRes_run (hb _ (State.modChan_kept _ _ _ hk)) he)

theorem State.dropJobs_kept {w0 : Held} {l0 : Bool} (s : State) (c : HostChan) (hk : KeptOf w0 l0 s) :
    KeptOf w0 l0 (State.dropJobs s c) := by
  unfold State.dropJobs
  repeat' first | (with_reducible first | assumption | (apply keptIf <;> intro _)) | dsimp only [KeptOf] | split

end Sys2Proof.Machine
end

