-- ==== Sys2Proof/Laws/KeptPort.lean ====
section
/-! SUPPORT. What the operations of Machine/Port keep (Laws/Kept.lean). -/

set_option linter.unusedTactic false
set_option linter.unreachableTactic false

namespace Sys2Proof.Machine

theorem State.portReply_kept {w0 : Held} {l0 : Bool} (s : State) (p : Port) (acts : List Nat) (code : Nat) (hk : KeptOf w0 l0 s) :
    KeptOf w0 l0 (State.portReply s p acts code) := by
  unfold State.portReply
  repeat' first | (with_reducible first | assumption | apply State.finish_kept | (apply keptIf <;> intro _) | (refine keptFold ?_ ?_ <;> [skip; intro s x hk])) | dsimp only [KeptOf] | split

theorem State.sendNode_kept {w0 : Held} {l0 : Bool} (s : State) (n : Lane) (eff : Nat) (go : LaneGo) (f : LaneOrder → LaneOrder) (hk : KeptOf w0 l0 s) :
    KeptOf w0 l0 (State.sendNode s n eff go f) := by
  unfold State.sendNode
  repeat' first | (with_reducible first | assumption | apply State.modNode_kept | apply State.sendLane_kept | (apply keptIf <;> intro _) | (refine keptFold ?_ ?_ <;> [skip; intro s x hk])) | dsimp only [KeptOf] | split

theorem State.sendMux_kept {w0 : Held} {l0 : Bool} (s : State) (p : Port) (hk : KeptOf w0 l0 s) :
    KeptOf w0 l0 (State.sendMux s p) := by
  unfold State.sendMux
  repeat' first | (with_reducible first | assumption | apply State.sendPort_kept | (apply keptIf <;> intro _)) | dsimp only [KeptOf] | split

theorem State.feedClose_kept {w0 : Held} {l0 : Bool} (s : State) (p : Port) (hk : KeptOf w0 l0 s) :
    KeptOf w0 l0 (State.feedClose s p) := by
  unfold State.feedClose
  repeat' first | (with_reducible first | assumption | apply State.sendPort_kept | apply State.closePair_kept | (apply keptIf <;> intro _)) | dsimp only [KeptOf] | split

theorem State.startFeed_kept {w0 : Held} {l0 : Bool} (s : State) (p : Port) (hk : KeptOf w0 l0 s) :
    KeptOf w0 l0 (State.startFeed s p) := by
  unfold State.startFeed
  repeat' first | (with_reducible first | assumption | apply State.modPort_kept | apply State.modConn_kept | apply State.modNode_kept | apply State.feedClose_kept | (apply keptIf <;> intro _)) | dsimp only [KeptOf] | split

theorem State.feedEnd_kept {w0 : Held} {l0 : Bool} (s : State) (p : Port) (drain : Bool) (hk : KeptOf w0 l0 s) :
    KeptOf w0 l0 (State.feedEnd s p drain) := by
  unfold State.feedEnd
  repeat' first | (with_reducible first | assumption | apply State.modPort_kept | apply State.modNode_kept | apply State.openPair_kept | apply State.stopNode_kept | (apply keptIf <;> intro _)) | dsimp only [KeptOf] | split

theorem State.swapBroken_kept {w0 : Held} {l0 : Bool} (s : State) (p : Port) (hk : KeptOf w0 l0 s) :
    KeptOf w0 l0 (State.swapBroken s p) := by
  unfold State.swapBroken
  repeat' first | (with_reducible first | assumption | apply State.modPort_kept | apply State.record_kept | (apply keptIf <;> intro _)) | dsimp only [KeptOf] | split

theorem State.watchEnd_kept {w0 : Held} {l0 : Bool} (s : State) (p : Port) (hk : KeptOf w0 l0 s) :
    KeptOf w0 l0 (State.watchEnd s p) := by
  unfold State.watchEnd
  repeat' first | (with_reducible first | assumption | apply State.modPort_kept | apply State.modNode_kept | apply State.sendPort_kept | apply State.openPair_kept | apply State.sendNode_kept | apply State.swapBroken_kept | (apply keptIf <;> intro _)) | dsimp only [KeptOf] | split

theorem State.modeEnd_kept {w0 : Held} {l0 : Bool} (s : State) (p : Port) (hk : KeptOf w0 l0 s) :
    KeptOf w0 l0 (State.modeEnd s p) := by
  unfold State.modeEnd
  repeat' first | (with_reducible first | assumption | apply State.modPort_kept | apply State.sendMux_kept | (apply keptIf <;> intro _)) | dsimp only [KeptOf] | split

theorem State.hardState_kept {w0 : Held} {l0 : Bool} (s : State) (p : Port) (hk : KeptOf w0 l0 s) :
    KeptOf w0 l0 (State.hardState s p) := by
  unfold State.hardState
  repeat' first | (with_reducible first | assumption | apply State.modPort_kept | apply State.modConn_kept | apply State.feedEnd_kept | apply State.swapBroken_kept | apply State.watchEnd_kept | apply State.modeEnd_kept | (apply keptIf <;> intro _)) | dsimp only [KeptOf] | split

theorem State.hardNoted_kept {w0 : Held} {l0 : Bool} (s : State) (p : Port) (cause : Byte) (hk : KeptOf w0 l0 s) :
    KeptOf w0 l0 (State.hardNoted s p cause) := by
  unfold State.hardNoted
  repeat' first | (with_reducible first | assumption | apply State.record_kept | apply State.hardState_kept | (apply keptIf <;> intro _)) | dsimp only [KeptOf] | split

theorem State.hardReset_kept {w0 : Held} {l0 : Bool} (s : State) (p : Port) (cause : Byte) (hk : KeptOf w0 l0 s) :
    KeptOf w0 l0 (State.hardReset s p cause) := by
  unfold State.hardReset
  repeat' first | (with_reducible first | assumption | apply State.pdSend_kept | apply State.hardNoted_kept | (apply keptIf <;> intro _)) | dsimp only [KeptOf] | split

theorem State.errorRecovery_kept {w0 : Held} {l0 : Bool} (s : State) (p : Port) (cause : Byte) (hk : KeptOf w0 l0 s) :
    KeptOf w0 l0 (State.errorRecovery s p cause) := by
  unfold State.errorRecovery
  repeat' first | (with_reducible first | assumption | apply State.modPort_kept | apply State.modConn_kept | apply State.record_kept | apply State.openPair_kept | apply State.sendMux_kept | apply State.feedEnd_kept | apply State.swapBroken_kept | apply State.watchEnd_kept | (apply keptIf <;> intro _)) | dsimp only [KeptOf] | split

theorem State.escalate_kept {w0 : Held} {l0 : Bool} (s : State) (p : Port) (hk : KeptOf w0 l0 s) :
    KeptOf w0 l0 (State.escalate s p) := by
  unfold State.escalate
  repeat' first | (with_reducible first | assumption | apply State.modPort_kept | apply State.hardReset_kept | apply State.errorRecovery_kept | (apply keptIf <;> intro _)) | dsimp only [KeptOf] | split

theorem State.softState_kept {w0 : Held} {l0 : Bool} (s : State) (p : Port) (hk : KeptOf w0 l0 s) :
    KeptOf w0 l0 (State.softState s p) := by
  unfold State.softState
  repeat' first | (with_reducible first | assumption | apply State.modPort_kept | apply State.modPd_kept | apply State.modConn_kept | (apply keptIf <;> intro _)) | dsimp only [KeptOf] | split

theorem State.softReset_kept {w0 : Held} {l0 : Bool} (s : State) (p : Port) (hk : KeptOf w0 l0 s) :
    KeptOf w0 l0 (State.softReset s p) := by
  unfold State.softReset
  repeat' first | (with_reducible first | assumption | apply State.modPort_kept | apply State.pdSend_kept | apply State.softState_kept | (apply keptIf <;> intro _)) | dsimp only [KeptOf] | split

theorem State.sendCaps_kept {w0 : Held} {l0 : Bool} (s : State) (p : Port) (hk : KeptOf w0 l0 s) :
    KeptOf w0 l0 (State.sendCaps s p) := by
  unfold State.sendCaps
  repeat' first | (with_reducible first | assumption | apply State.modPort_kept | apply State.pdSend_kept | (apply keptIf <;> intro _)) | dsimp only [KeptOf] | split

theorem State.onRequest_kept {w0 : Held} {l0 : Bool} (s : State) (p : Port) (pos : Nat) (v : Volt) (i : Amp) (hk : KeptOf w0 l0 s) :
    KeptOf w0 l0 (State.onRequest s p pos v i) := by
  unfold State.onRequest
  repeat' first | (with_reducible first | assumption | apply State.modPort_kept | apply State.modConn_kept | apply State.pdSend_kept | apply State.portReply_kept | (apply keptIf <;> intro _)) | dsimp only [KeptOf] | split

theorem State.requestBest_kept {w0 : Held} {l0 : Bool} (s : State) (p : Port) (hk : KeptOf w0 l0 s) :
    KeptOf w0 l0 (State.requestBest s p) := by
  unfold State.requestBest
  repeat' first | (with_reducible first | assumption | apply State.modPort_kept | apply State.pdSend_kept | (apply keptIf <;> intro _)) | dsimp only [KeptOf] | split

theorem State.onSourceCaps_kept {w0 : Held} {l0 : Bool} (s : State) (p : Port) (c : SourceCaps) (hk : KeptOf w0 l0 s) :
    KeptOf w0 l0 (State.onSourceCaps s p c) := by
  unfold State.onSourceCaps
  repeat' first | (with_reducible first | assumption | apply State.modPort_kept | apply State.requestBest_kept | (apply keptIf <;> intro _)) | dsimp only [KeptOf] | split

theorem State.standbyFor_kept {w0 : Held} {l0 : Bool} (s : State) (p : Port) (hk : KeptOf w0 l0 s) :
    KeptOf w0 l0 (State.standbyFor s p) := by
  unfold State.standbyFor
  repeat' first | (with_reducible first | assumption | apply State.modNode_kept | apply State.sendNode_kept | (apply keptIf <;> intro _)) | dsimp only [KeptOf] | split

theorem State.onRequestAccept_kept {w0 : Held} {l0 : Bool} (s : State) (p : Port) (hk : KeptOf w0 l0 s) :
    KeptOf w0 l0 (State.onRequestAccept s p) := by
  unfold State.onRequestAccept
  repeat' first | (with_reducible first | assumption | apply State.modPort_kept | apply State.modConn_kept | apply State.portReply_kept | apply State.standbyFor_kept | (apply keptIf <;> intro _)) | dsimp only [KeptOf] | split

theorem State.modeEnter_kept {w0 : Held} {l0 : Bool} (s : State) (p : Port) (hk : KeptOf w0 l0 s) :
    KeptOf w0 l0 (State.modeEnter s p) := by
  unfold State.modeEnter
  repeat' first | (with_reducible first | assumption | apply State.modPort_kept | apply State.sendMux_kept | (apply keptIf <;> intro _)) | dsimp only [KeptOf] | split

theorem State.afterContract_kept {w0 : Held} {l0 : Bool} (s : State) (p : Port) (first : Bool) (hk : KeptOf w0 l0 s) :
    KeptOf w0 l0 (State.afterContract s p first) := by
  unfold State.afterContract
  repeat' first | (with_reducible first | assumption | apply State.modPort_kept | apply State.pdSend_kept | (apply keptIf <;> intro _)) | dsimp only [KeptOf] | split

theorem State.contractMade_kept {w0 : Held} {l0 : Bool} (s : State) (p : Port) (hk : KeptOf w0 l0 s) :
    KeptOf w0 l0 (State.contractMade s p) := by
  unfold State.contractMade
  repeat' first | (with_reducible first | assumption | apply State.modPort_kept | apply State.modConn_kept | apply State.afterContract_kept | (apply keptIf <;> intro _)) | dsimp only [KeptOf] | split

theorem State.sourceContract_kept {w0 : Held} {l0 : Bool} (s : State) (p : Port) (hk : KeptOf w0 l0 s) :
    KeptOf w0 l0 (State.sourceContract s p) := by
  unfold State.sourceContract
  repeat' first | (with_reducible first | assumption | apply State.modPort_kept | apply State.afterContract_kept | (apply keptIf <;> intro _)) | dsimp only [KeptOf] | split

theorem State.swapStep_kept {w0 : Held} {l0 : Bool} (s : State) (p : Port) (step : Byte) (hk : KeptOf w0 l0 s) :
    KeptOf w0 l0 (State.swapStep s p step) := by
  unfold State.swapStep
  repeat' first | (with_reducible first | assumption | apply State.modPort_kept | (apply keptIf <;> intro _)) | dsimp only [KeptOf] | split

theorem State.swapVbus_kept {w0 : Held} {l0 : Bool} (s : State) (p : Port) (present : Bool) (hk : KeptOf w0 l0 s) :
    KeptOf w0 l0 (State.swapVbus s p present) := by
  unfold State.swapVbus
  repeat' first | (with_reducible first | assumption | apply State.modPort_kept | (apply keptIf <;> intro _)) | dsimp only [KeptOf] | split

theorem State.prSwapStart_kept {w0 : Held} {l0 : Bool} (s : State) (p : Port) (toSource : Bool) (hk : KeptOf w0 l0 s) :
    KeptOf w0 l0 (State.prSwapStart s p toSource) := by
  unfold State.prSwapStart
  repeat' first | (with_reducible first | assumption | apply State.modPort_kept | apply State.feedEnd_kept | apply State.standbyFor_kept | apply State.swapStep_kept | (apply keptIf <;> intro _)) | dsimp only [KeptOf] | split

theorem State.swapDone_kept {w0 : Held} {l0 : Bool} (s : State) (p : Port) (source : Bool) (hk : KeptOf w0 l0 s) :
    KeptOf w0 l0 (State.swapDone s p source) := by
  unfold State.swapDone
  repeat' first | (with_reducible first | assumption | apply State.modPort_kept | apply State.modConn_kept | (apply keptIf <;> intro _)) | dsimp only [KeptOf] | split

theorem State.onSwapRdy_kept {w0 : Held} {l0 : Bool} (s : State) (p : Port) (w : Swap) (hk : KeptOf w0 l0 s) :
    KeptOf w0 l0 (State.onSwapRdy s p w) := by
  unfold State.onSwapRdy
  repeat' first | (with_reducible first | assumption | apply State.modPort_kept | apply State.sendPort_kept | apply State.pdSend_kept | apply State.openPair_kept | apply State.sendNode_kept | apply State.startFeed_kept | apply State.sendCaps_kept | apply State.swapStep_kept | apply State.swapDone_kept | (apply keptIf <;> intro _)) | dsimp only [KeptOf] | split

theorem State.offerSink_kept {w0 : Held} {l0 : Bool} (s : State) (p : Port) (hk : KeptOf w0 l0 s) :
    KeptOf w0 l0 (State.offerSink s p) := by
  unfold State.offerSink
  repeat' first | (with_reducible first | assumption | apply State.modPort_kept | apply State.pdSend_kept | (apply keptIf <;> intro _)) | dsimp only [KeptOf] | split

theorem State.onRefused_kept {w0 : Held} {l0 : Bool} (s : State) (p : Port) (code : Nat) (hk : KeptOf w0 l0 s) :
    KeptOf w0 l0 (State.onRefused s p code) := by
  unfold State.onRefused
  repeat' first | (with_reducible first | assumption | apply State.modPort_kept | apply State.portReply_kept | apply State.escalate_kept | (apply keptIf <;> intro _)) | dsimp only [KeptOf] | split

theorem State.onAccept_kept {w0 : Held} {l0 : Bool} (s : State) (p : Port) (hk : KeptOf w0 l0 s) :
    KeptOf w0 l0 (State.onAccept s p) := by
  unfold State.onAccept
  repeat' first | (with_reducible first | assumption | apply State.modPort_kept | apply State.pdSend_kept | apply State.portReply_kept | apply State.softReset_kept | apply State.sendCaps_kept | apply State.onRequestAccept_kept | apply State.prSwapStart_kept | (apply keptIf <;> intro _)) | dsimp only [KeptOf] | split

theorem State.pdPolicy_kept {w0 : Held} {l0 : Bool} (s : State) (p : Port) (m : PdMsg) (hk : KeptOf w0 l0 s) :
    KeptOf w0 l0 (State.pdPolicy s p m) := by
  unfold State.pdPolicy
  repeat' first | (with_reducible first | assumption | apply State.modPort_kept | apply State.pdSend_kept | apply State.portReply_kept | apply State.modeEnd_kept | apply State.hardNoted_kept | apply State.hardReset_kept | apply State.softState_kept | apply State.softReset_kept | apply State.sendCaps_kept | apply State.onRequest_kept | apply State.onSourceCaps_kept | apply State.modeEnter_kept | apply State.contractMade_kept | apply State.swapStep_kept | apply State.prSwapStart_kept | apply State.onSwapRdy_kept | apply State.onRefused_kept | apply State.onAccept_kept | (apply keptIf <;> intro _)) | dsimp only [KeptOf] | split

theorem State.attachAs_kept {w0 : Held} {l0 : Bool} (s : State) (p : Port) (a : Attach) (rp : Rp) (cc2 : Bool) (hk : KeptOf w0 l0 s) :
    KeptOf w0 l0 (State.attachAs s p a rp cc2) := by
  unfold State.attachAs
  repeat' first | (with_reducible first | assumption | apply State.modPort_kept | apply State.modConn_kept | apply State.stamp_kept | (apply keptIf <;> intro _)) | dsimp only [KeptOf] | split

theorem State.detachPort_kept {w0 : Held} {l0 : Bool} (s : State) (p : Port) (counts : Bool) (hk : KeptOf w0 l0 s) :
    KeptOf w0 l0 (State.detachPort s p counts) := by
  unfold State.detachPort
  repeat' first | (with_reducible first | assumption | apply State.modPort_kept | apply State.modConn_kept | apply State.stamp_kept | apply State.openPair_kept | apply State.ccRefresh_kept | apply State.portReply_kept | apply State.feedEnd_kept | apply State.swapBroken_kept | apply State.watchEnd_kept | (apply keptIf <;> intro _)) | dsimp only [KeptOf] | split

end Sys2Proof.Machine
end

