-- ==== Sys2Proof/Laws/KeptSource.lean ====
section
/-! SUPPORT. What the operations of Machine/Source keep (Laws/Kept.lean). -/

set_option linter.unusedTactic false
set_option linter.unreachableTactic false

namespace Sys2Proof.Machine

theorem State.changeTo_kept {w0 : Held} {l0 : Bool} (s : State) (n : Lane) (new : Option Src) (hk : KeptOf w0 l0 s) :
    KeptOf w0 l0 (State.changeTo s n new) := by
  unfold State.changeTo
  repeat' first | (with_reducible first | assumption | apply State.modNode_kept | apply State.sendPort_kept | apply State.openPair_kept | apply State.sendNode_kept | (apply keptIf <;> intro _)) | dsimp only [KeptOf] | split

theorem State.selectNode_kept {w0 : Held} {l0 : Bool} (s : State) (n : Lane) (hk : KeptOf w0 l0 s) :
    KeptOf w0 l0 (State.selectNode s n) := by
  unfold State.selectNode
  repeat' first | (with_reducible first | assumption | apply State.modNode_kept | apply State.changeTo_kept | (apply keptIf <;> intro _)) | dsimp only [KeptOf] | split

theorem State.changeStep_kept {w0 : Held} {l0 : Bool} (s : State) (n : Lane) (hk : KeptOf w0 l0 s) :
    KeptOf w0 l0 (State.changeStep s n) := by
  unfold State.changeStep
  repeat' first | (with_reducible first | assumption | apply State.modNode_kept | apply State.sendPort_kept | apply State.closePair_kept | apply State.sendNode_kept | (apply keptIf <;> intro _)) | dsimp only [KeptOf] | split

theorem State.changeLost_kept {w0 : Held} {l0 : Bool} (s : State) (c : Src) (hk : KeptOf w0 l0 s) :
    KeptOf w0 l0 (State.changeLost s c) := by
  unfold State.changeLost
  repeat' first | (with_reducible first | assumption | apply State.modNode_kept | apply State.sendPort_kept | apply State.openPair_kept | (apply keptIf <;> intro _) | (refine keptFold ?_ ?_ <;> [skip; intro s x hk])) | dsimp only [KeptOf] | split

theorem State.allocate_kept {w0 : Held} {l0 : Bool} (s : State) (hk : KeptOf w0 l0 s) :
    KeptOf w0 l0 (State.allocate s) := by
  unfold State.allocate
  repeat' first | (with_reducible first | assumption | (apply keptIf <;> intro _)) | dsimp only [KeptOf] | split

theorem State.correctDemand_kept {w0 : Held} {l0 : Bool} (s : State) (shortfall : Amp) (hk : KeptOf w0 l0 s) :
    KeptOf w0 l0 (State.correctDemand s shortfall) := by
  unfold State.correctDemand
  repeat' first | (with_reducible first | assumption | (apply keptIf <;> intro _)) | dsimp only [KeptOf] | split

theorem State.correctSource_kept {w0 : Held} {l0 : Bool} (s : State) (n : Lane) (reading : Amp) (hk : KeptOf w0 l0 s) :
    KeptOf w0 l0 (State.correctSource s n reading) := by
  unfold State.correctSource
  repeat' first | (with_reducible first | assumption | apply State.modNode_kept | (apply keptIf <;> intro _)) | dsimp only [KeptOf] | split

theorem State.frsDrive_kept {w0 : Held} {l0 : Bool} (s : State) (p : Port) (hk : KeptOf w0 l0 s) :
    KeptOf w0 l0 (State.frsDrive s p) := by
  unfold State.frsDrive
  repeat' first | (with_reducible first | assumption | apply State.modPort_kept | (apply keptIf <;> intro _)) | dsimp only [KeptOf] | split

theorem State.preempt_kept {w0 : Held} {l0 : Bool} (s : State) (n : Lane) (c : Src) (hk : KeptOf w0 l0 s) :
    KeptOf w0 l0 (State.preempt s n c) := by
  unfold State.preempt
  repeat' first | (with_reducible first | assumption | apply State.record_kept | apply State.watchEnd_kept | apply State.errorRecovery_kept | apply State.frsDrive_kept | (apply keptIf <;> intro _)) | dsimp only [KeptOf] | split

theorem State.watchBegin_kept {w0 : Held} {l0 : Bool} (s : State) (p : Port) (hk : KeptOf w0 l0 s) :
    KeptOf w0 l0 (State.watchBegin s p) := by
  unfold State.watchBegin
  repeat' first | (with_reducible first | assumption | apply State.modPort_kept | apply State.modConn_kept | apply State.modNode_kept | (apply keptIf <;> intro _)) | dsimp only [KeptOf] | split

end Sys2Proof.Machine
end

