-- ==== Sys2Proof/Laws/KeptGauge.lean ====
section
/-! SUPPORT. What the operations of Machine/Gauge keep (Laws/Kept.lean). -/

set_option linter.unusedTactic false
set_option linter.unreachableTactic false

namespace Sys2Proof.Machine

theorem State.writeGauge_kept {w0 : Held} {l0 : Bool} (s : State) (hk : KeptOf w0 l0 s) :
    KeptOf w0 l0 (State.writeGauge s) := by
  unfold State.writeGauge
  repeat' first | (with_reducible first | assumption | apply State.addJob_kept | (apply keptIf <;> intro _)) | dsimp only [KeptOf] | split

theorem State.setSoc_kept {w0 : Held} {l0 : Bool} (s : State) (x : Rat) (hk : KeptOf w0 l0 s) :
    KeptOf w0 l0 (State.setSoc s x) := by
  unfold State.setSoc
  repeat' first | (with_reducible first | assumption | (apply keptIf <;> intro _)) | dsimp only [KeptOf] | split

theorem State.learnCap_kept {w0 : Held} {l0 : Bool} (s : State) (q : Rat) (hk : KeptOf w0 l0 s) :
    KeptOf w0 l0 (State.learnCap s q) := by
  unfold State.learnCap
  repeat' first | (with_reducible first | assumption | apply State.writeGauge_kept | (apply keptIf <;> intro _)) | dsimp only [KeptOf] | split

theorem State.anchorTermination_kept {w0 : Held} {l0 : Bool} (s : State) (vregEff : Volt) (hk : KeptOf w0 l0 s) :
    KeptOf w0 l0 (State.anchorTermination s vregEff) := by
  unfold State.anchorTermination
  repeat' first | (with_reducible first | assumption | apply State.setSoc_kept | apply State.learnCap_kept | (apply keptIf <;> intro _)) | dsimp only [KeptOf] | split

theorem State.anchorAtRest_kept {w0 : Held} {l0 : Bool} (s : State) (vbat : Volt) (hk : KeptOf w0 l0 s) :
    KeptOf w0 l0 (State.anchorAtRest s vbat) := by
  unfold State.anchorAtRest
  repeat' first | (with_reducible first | assumption | apply State.setSoc_kept | apply State.learnCap_kept | (apply keptIf <;> intro _)) | dsimp only [KeptOf] | split

theorem State.countRound_kept {w0 : Held} {l0 : Bool} (s : State) (hk : KeptOf w0 l0 s) :
    KeptOf w0 l0 (State.countRound s) := by
  unfold State.countRound
  repeat' first | (with_reducible first | assumption | (apply keptIf <;> intro _)) | dsimp only [KeptOf] | split

theorem State.packChange_kept {w0 : Held} {l0 : Bool} (s : State) (newSoc : Rat) (hk : KeptOf w0 l0 s) :
    KeptOf w0 l0 (State.packChange s newSoc) := by
  unfold State.packChange
  repeat' first | (with_reducible first | assumption | apply State.record_kept | apply State.writeGauge_kept | apply State.setSoc_kept | (apply keptIf <;> intro _)) | dsimp only [KeptOf] | split

theorem State.presenceAnchor_kept {w0 : Held} {l0 : Bool} (s : State) (vbat : Volt) (hk : KeptOf w0 l0 s) :
    KeptOf w0 l0 (State.presenceAnchor s vbat) := by
  unfold State.presenceAnchor
  repeat' first | (with_reducible first | assumption | apply State.setSoc_kept | apply State.packChange_kept | (apply keptIf <;> intro _)) | dsimp only [KeptOf] | split

theorem State.readBatid_kept {w0 : Held} {l0 : Bool} (s : State) (code : Fin 64) (hk : KeptOf w0 l0 s) :
    KeptOf w0 l0 (State.readBatid s code) := by
  unfold State.readBatid
  repeat' first | (with_reducible first | assumption | apply State.record_kept | (apply keptIf <;> intro _)) | dsimp only [KeptOf] | split

theorem State.applyEvent_kept {w0 : Held} {l0 : Bool} (s : State) (r : Rat) (hk : KeptOf w0 l0 s) :
    KeptOf w0 l0 (State.applyEvent s r) := by
  unfold State.applyEvent
  repeat' first | (with_reducible first | assumption | apply State.writeGauge_kept | (apply keptIf <;> intro _)) | dsimp only [KeptOf] | split

theorem State.useGauge_kept {w0 : Held} {l0 : Bool} (s : State) (tick : Nat) (i : Amp) (v : Volt) (hk : KeptOf w0 l0 s) :
    KeptOf w0 l0 (State.useGauge s tick i v) := by
  unfold State.useGauge
  repeat' first | (with_reducible first | assumption | apply State.applyEvent_kept | (apply keptIf <;> intro _)) | dsimp only [KeptOf] | split

theorem execGaugeSample_kept {w0 : Held} {l0 : Bool} (g : GaugePair) (s : State) (hk : KeptOf w0 l0 s) :
    KeptOut w0 l0 (execGaugeSample g s) := by
  unfold execGaugeSample
  repeat' first | (with_reducible first | assumption | apply State.stamp_kept | apply State.sampleGauge_kept | apply keptNext | (apply keptIfOut <;> intro _) | (apply keptIf <;> intro _)) | dsimp only [KeptOf] | split

theorem execRestAnchor_kept {w0 : Held} {l0 : Bool} (vbat : Volt) (s : State) (hk : KeptOf w0 l0 s) :
    KeptOut w0 l0 (execRestAnchor vbat s) := by
  unfold execRestAnchor
  repeat' first | (with_reducible first | assumption | apply State.anchorAtRest_kept | apply keptNext | (apply keptIfOut <;> intro _) | (apply keptIf <;> intro _)) | dsimp only [KeptOf] | split

theorem execGaugeRecordPeriodic_kept {w0 : Held} {l0 : Bool} (s : State) (hk : KeptOf w0 l0 s) :
    KeptOut w0 l0 (execGaugeRecordPeriodic s) := by
  unfold execGaugeRecordPeriodic
  repeat' first | (with_reducible first | assumption | apply State.writeGauge_kept | apply keptNext | (apply keptIfOut <;> intro _) | (apply keptIf <;> intro _)) | dsimp only [KeptOf] | split

theorem execLearnedStateCompaction_kept {w0 : Held} {l0 : Bool} (s : State) (hk : KeptOf w0 l0 s) :
    KeptOut w0 l0 (execLearnedStateCompaction s) := by
  unfold execLearnedStateCompaction
  repeat' first | (with_reducible first | assumption | apply keptNext | (apply keptIfOut <;> intro _) | (apply keptIf <;> intro _)) | dsimp only [KeptOf] | split

end Sys2Proof.Machine
end

