-- ==== Sys2Proof/Laws/KeptCharge.lean ====
section
/-! SUPPORT. What the operations of Machine/Charge keep (Laws/Kept.lean). -/

set_option linter.unusedTactic false
set_option linter.unreachableTactic false

namespace Sys2Proof.Machine

theorem State.modCharge_kept {w0 : Held} {l0 : Bool} (s : State) (f : Charge → Charge) (hk : KeptOf w0 l0 s) :
    KeptOf w0 l0 (State.modCharge s f) := by
  unfold State.modCharge
  repeat' first | (with_reducible first | assumption | (apply keptIf <;> intro _)) | dsimp only [KeptOf] | split

theorem State.setCause_kept {w0 : Held} {l0 : Bool} (s : State) (code : Nat) (hk : KeptOf w0 l0 s) :
    KeptOf w0 l0 (State.setCause s code) := by
  unfold State.setCause
  repeat' first | (with_reducible first | assumption | apply State.record_kept | apply State.modCharge_kept | (apply keptIf <;> intro _)) | dsimp only [KeptOf] | split

theorem State.clearCause_kept {w0 : Held} {l0 : Bool} (s : State) (code : Nat) (hk : KeptOf w0 l0 s) :
    KeptOf w0 l0 (State.clearCause s code) := by
  unfold State.clearCause
  repeat' first | (with_reducible first | assumption | apply State.modCharge_kept | (apply keptIf <;> intro _)) | dsimp only [KeptOf] | split

theorem State.clearLatched_kept {w0 : Held} {l0 : Bool} (s : State) (hk : KeptOf w0 l0 s) :
    KeptOf w0 l0 (State.clearLatched s) := by
  unfold State.clearLatched
  repeat' first | (with_reducible first | assumption | apply State.modCharge_kept | apply State.clearCause_kept | (apply keptIf <;> intro _) | (refine keptFold ?_ ?_ <;> [skip; intro s x hk])) | dsimp only [KeptOf] | split

theorem State.startCycle_kept {w0 : Held} {l0 : Bool} (s : State) (hk : KeptOf w0 l0 s) :
    KeptOf w0 l0 (State.startCycle s) := by
  unfold State.startCycle
  repeat' first | (with_reducible first | assumption | apply State.modCharge_kept | (apply keptIf <;> intro _)) | dsimp only [KeptOf] | split

theorem State.endCycle_kept {w0 : Held} {l0 : Bool} (s : State) (hk : KeptOf w0 l0 s) :
    KeptOf w0 l0 (State.endCycle s) := by
  unfold State.endCycle
  repeat' first | (with_reducible first | assumption | apply State.modCharge_kept | (apply keptIf <;> intro _)) | dsimp only [KeptOf] | split

theorem State.windowRound_kept {w0 : Held} {l0 : Bool} (s : State) (hk : KeptOf w0 l0 s) :
    KeptOf w0 l0 (State.windowRound s) := by
  unfold State.windowRound
  repeat' first | (with_reducible first | assumption | apply State.modCharge_kept | apply State.setCause_kept | apply State.clearCause_kept | (apply keptIf <;> intro _)) | dsimp only [KeptOf] | split

theorem State.chargeSetpoint_kept {w0 : Held} {l0 : Bool} (s : State) (hk : KeptOf w0 l0 s) :
    KeptOf w0 l0 (State.chargeSetpoint s) := by
  unfold State.chargeSetpoint
  repeat' first | (with_reducible first | assumption | apply State.modCharge_kept | (apply keptIf <;> intro _)) | dsimp only [KeptOf] | split

theorem State.chargeTimers_kept {w0 : Held} {l0 : Bool} (s : State) (hk : KeptOf w0 l0 s) :
    KeptOf w0 l0 (State.chargeTimers s) := by
  unfold State.chargeTimers
  repeat' first | (with_reducible first | assumption | apply State.modCharge_kept | (apply keptIf <;> intro _)) | dsimp only [KeptOf] | split

theorem State.chargeTrims_kept {w0 : Held} {l0 : Bool} (s : State) (hk : KeptOf w0 l0 s) :
    KeptOf w0 l0 (State.chargeTrims s) := by
  unfold State.chargeTrims
  repeat' first | (with_reducible first | assumption | apply State.modCharge_kept | (apply keptIf <;> intro _)) | dsimp only [KeptOf] | split

theorem State.chargeRound_kept {w0 : Held} {l0 : Bool} (s : State) (hk : KeptOf w0 l0 s) :
    KeptOf w0 l0 (State.chargeRound s) := by
  unfold State.chargeRound
  repeat' first | (with_reducible first | assumption | apply State.modCharge_kept | apply State.clearCause_kept | apply State.chargeSetpoint_kept | apply State.chargeTimers_kept | apply State.chargeTrims_kept | (apply keptIf <;> intro _)) | dsimp only [KeptOf] | split

theorem State.ntcRound_kept {w0 : Held} {l0 : Bool} (s : State) (hk : KeptOf w0 l0 s) :
    KeptOf w0 l0 (State.ntcRound s) := by
  unfold State.ntcRound
  repeat' first | (with_reducible first | assumption | apply State.modCharge_kept | apply State.setCause_kept | apply State.clearCause_kept | (apply keptIf <;> intro _)) | dsimp only [KeptOf] | split

theorem State.removalCleared_kept {w0 : Held} {l0 : Bool} (s : State) (d : RemovalDetector) (vbat : Volt) (iMeas : Amp) (hk : KeptOf w0 l0 s) :
    KeptOf w0 l0 (State.removalCleared s d vbat iMeas) := by
  unfold State.removalCleared
  repeat' first | (with_reducible first | assumption | apply State.record_kept | apply State.modCharge_kept | apply State.endCycle_kept | (apply keptIf <;> intro _)) | dsimp only [KeptOf] | split

theorem State.removalCause_kept {w0 : Held} {l0 : Bool} (s : State) (d : RemovalDetector) (hk : KeptOf w0 l0 s) :
    KeptOf w0 l0 (State.removalCause s d) := by
  unfold State.removalCause
  repeat' first | (with_reducible first | assumption | apply State.modCharge_kept | apply State.setCause_kept | (apply keptIf <;> intro _)) | dsimp only [KeptOf] | split

theorem State.removeBattery_kept {w0 : Held} {l0 : Bool} (s : State) (d : RemovalDetector) (vbat : Volt) (iMeas : Amp) (hk : KeptOf w0 l0 s) :
    KeptOf w0 l0 (State.removeBattery s d vbat iMeas) := by
  unfold State.removeBattery
  repeat' first | (with_reducible first | assumption | apply State.sendNode_kept | apply State.removalCleared_kept | apply State.removalCause_kept | (apply keptIf <;> intro _)) | dsimp only [KeptOf] | split

theorem execChargePhaseAdvance_kept {w0 : Held} {l0 : Bool} (a : ChargeAdvance) (vbat : Volt) (iMeas : Amp) (s : State) (hk : KeptOf w0 l0 s) :
    KeptOut w0 l0 (execChargePhaseAdvance a vbat iMeas s) := by
  unfold execChargePhaseAdvance
  repeat' first | (with_reducible first | assumption | apply State.record_kept | apply State.writeGauge_kept | apply State.anchorTermination_kept | apply State.modCharge_kept | apply State.chargeSetpoint_kept | apply keptNext | (apply keptIfOut <;> intro _) | (apply keptIf <;> intro _)) | dsimp only [KeptOf] | split

theorem execPreTimerExpiry_kept {w0 : Held} {l0 : Bool} (s : State) (hk : KeptOf w0 l0 s) :
    KeptOut w0 l0 (execPreTimerExpiry s) := by
  unfold execPreTimerExpiry
  repeat' first | (with_reducible first | assumption | apply State.setCause_kept | apply State.chargeSetpoint_kept | apply keptNext | (apply keptIfOut <;> intro _) | (apply keptIf <;> intro _)) | dsimp only [KeptOf] | split

theorem execFastTimerExpiry_kept {w0 : Held} {l0 : Bool} (s : State) (hk : KeptOf w0 l0 s) :
    KeptOut w0 l0 (execFastTimerExpiry s) := by
  unfold execFastTimerExpiry
  repeat' first | (with_reducible first | assumption | apply State.setCause_kept | apply State.chargeSetpoint_kept | apply keptNext | (apply keptIfOut <;> intro _) | (apply keptIf <;> intro _)) | dsimp only [KeptOf] | split

theorem execThermalRestart_kept {w0 : Held} {l0 : Bool} (s : State) (hk : KeptOf w0 l0 s) :
    KeptOut w0 l0 (execThermalRestart s) := by
  unfold execThermalRestart
  repeat' first | (with_reducible first | assumption | apply State.modCharge_kept | apply State.clearCause_kept | apply State.chargeSetpoint_kept | apply keptNext | (apply keptIfOut <;> intro _) | (apply keptIf <;> intro _)) | dsimp only [KeptOf] | split

theorem execBackstopInterval_kept {w0 : Held} {l0 : Bool} (n : Lane) (meanCharge : Amp) (s : State) (hk : KeptOf w0 l0 s) :
    KeptOut w0 l0 (execBackstopInterval n meanCharge s) := by
  unfold execBackstopInterval
  repeat' first | (with_reducible first | assumption | apply State.modLane_kept | apply keptNext | (apply keptIfOut <;> intro _) | (apply keptIf <;> intro _)) | dsimp only [KeptOf] | split

theorem execBackstopTrip_kept {w0 : Held} {l0 : Bool} (n : Lane) (s : State) (hk : KeptOf w0 l0 s) :
    KeptOut w0 l0 (execBackstopTrip n s) := by
  unfold execBackstopTrip
  repeat' first | (with_reducible first | assumption | apply State.modLane_kept | apply State.stamp_kept | apply keptNext | (apply keptIfOut <;> intro _) | (apply keptIf <;> intro _)) | dsimp only [KeptOf] | split

theorem execBackstopReset_kept {w0 : Held} {l0 : Bool} (n : Lane) (s : State) (hk : KeptOf w0 l0 s) :
    KeptOut w0 l0 (execBackstopReset n s) := by
  unfold execBackstopReset
  repeat' first | (with_reducible first | assumption | apply State.modLane_kept | apply keptNext | (apply keptIfOut <;> intro _) | (apply keptIf <;> intro _)) | dsimp only [KeptOf] | split

theorem execBatOvSuspend_kept {w0 : Held} {l0 : Bool} (vbat : Volt) (s : State) (hk : KeptOf w0 l0 s) :
    KeptOut w0 l0 (execBatOvSuspend vbat s) := by
  unfold execBatOvSuspend
  repeat' first | (with_reducible first | assumption | apply State.setCause_kept | apply State.chargeSetpoint_kept | apply keptNext | (apply keptIfOut <;> intro _) | (apply keptIf <;> intro _)) | dsimp only [KeptOf] | split

theorem execPresenceQualified_kept {w0 : Held} {l0 : Bool} (vbat : Volt) (s : State) (hk : KeptOf w0 l0 s) :
    KeptOut w0 l0 (execPresenceQualified vbat s) := by
  unfold execPresenceQualified
  repeat' first | (with_reducible first | assumption | apply State.presenceAnchor_kept | apply State.modCharge_kept | apply State.clearCause_kept | apply State.startCycle_kept | apply keptNext | (apply keptIfOut <;> intro _) | (apply keptIf <;> intro _)) | dsimp only [KeptOf] | split

theorem execRemovalIndication_kept {w0 : Held} {l0 : Bool} (d : RemovalDetector) (vbat : Volt) (iMeas : Amp) (s : State) (hk : KeptOf w0 l0 s) :
    KeptOut w0 l0 (execRemovalIndication d vbat iMeas s) := by
  unfold execRemovalIndication
  repeat' first | (with_reducible first | assumption | apply State.modLane_kept | apply State.stamp_kept | apply keptNext | (apply keptIfOut <;> intro _) | (apply keptIf <;> intro _) | (refine keptFold ?_ ?_ <;> [skip; intro s x hk])) | dsimp only [KeptOf] | split

theorem execStatPatternTimer_kept {w0 : Held} {l0 : Bool} (s : State) (hk : KeptOf w0 l0 s) :
    KeptOut w0 l0 (execStatPatternTimer s) := by
  unfold execStatPatternTimer
  repeat' first | (with_reducible first | assumption | apply keptNext | (apply keptIfOut <;> intro _) | (apply keptIf <;> intro _)) | dsimp only [KeptOf] | split

end Sys2Proof.Machine
end

