-- ==== Sys2Proof/Laws/KeptPortRows.lean ====
section
/-! SUPPORT. What the operations of Machine/PortRows keep (Laws/Kept.lean). -/

set_option linter.unusedTactic false
set_option linter.unreachableTactic false

namespace Sys2Proof.Machine

theorem State.stampPd_kept {w0 : Held} {l0 : Bool} (s : State) (p : Port) (k : EvKind) (hk : KeptOf w0 l0 s) :
    KeptOf w0 l0 (State.stampPd s p k) := by
  unfold State.stampPd
  repeat' first | (with_reducible first | assumption | apply State.stamp_kept | (apply keptIf <;> intro _)) | dsimp only [KeptOf] | split

theorem State.stampPort_kept {w0 : Held} {l0 : Bool} (s : State) (p : Port) (k : EvKind) (hk : KeptOf w0 l0 s) :
    KeptOf w0 l0 (State.stampPort s p k) := by
  unfold State.stampPort
  repeat' first | (with_reducible first | assumption | apply State.stamp_kept | (apply keptIf <;> intro _)) | dsimp only [KeptOf] | split

theorem State.unsupported_kept {w0 : Held} {l0 : Bool} (s : State) (p : Port) (hk : KeptOf w0 l0 s) :
    KeptOf w0 l0 (State.unsupported s p) := by
  unfold State.unsupported
  repeat' first | (with_reducible first | assumption | apply State.modPort_kept | apply State.stampPort_kept | (apply keptIf <;> intro _)) | dsimp only [KeptOf] | split

theorem execCcAttach_kept {w0 : Held} {l0 : Bool} (p : Port) (seen : CcSeen) (s : State) (hk : KeptOf w0 l0 s) :
    KeptOut w0 l0 (execCcAttach p seen s) := by
  unfold execCcAttach
  repeat' first | (with_reducible first | assumption | apply State.modPort_kept | apply State.ccRefresh_kept | apply State.attachAs_kept | apply State.unsupported_kept | apply keptNext | (apply keptIfOut <;> intro _) | (apply keptIf <;> intro _)) | dsimp only [KeptOf] | split

theorem execSinkDetach_kept {w0 : Held} {l0 : Bool} (p : Port) (x : SinkSense) (s : State) (hk : KeptOf w0 l0 s) :
    KeptOut w0 l0 (execSinkDetach p x s) := by
  unfold execSinkDetach
  repeat' first | (with_reducible first | assumption | apply State.detachPort_kept | apply State.unsupported_kept | apply keptNext | (apply keptIfOut <;> intro _) | (apply keptIf <;> intro _)) | dsimp only [KeptOf] | split

theorem execSourceDetach_kept {w0 : Held} {l0 : Bool} (p : Port) (s : State) (hk : KeptOf w0 l0 s) :
    KeptOut w0 l0 (execSourceDetach p s) := by
  unfold execSourceDetach
  repeat' first | (with_reducible first | assumption | apply State.record_kept | apply State.detachPort_kept | apply State.unsupported_kept | apply keptNext | (apply keptIfOut <;> intro _) | (apply keptIf <;> intro _)) | dsimp only [KeptOf] | split

theorem execDrpToggle_kept {w0 : Held} {l0 : Bool} (p : Port) (s : State) (hk : KeptOf w0 l0 s) :
    KeptOut w0 l0 (execDrpToggle p s) := by
  unfold execDrpToggle
  repeat' first | (with_reducible first | assumption | apply State.modPort_kept | apply keptNext | (apply keptIfOut <;> intro _) | (apply keptIf <;> intro _)) | dsimp only [KeptOf] | split

theorem execTrySnkTimeout_kept {w0 : Held} {l0 : Bool} (p : Port) (s : State) (hk : KeptOf w0 l0 s) :
    KeptOut w0 l0 (execTrySnkTimeout p s) := by
  unfold execTrySnkTimeout
  repeat' first | (with_reducible first | assumption | apply State.modPort_kept | apply State.ccRefresh_kept | apply State.attachAs_kept | apply keptNext | (apply keptIfOut <;> intro _) | (apply keptIf <;> intro _)) | dsimp only [KeptOf] | split

theorem execErrorRecoveryEnd_kept {w0 : Held} {l0 : Bool} (p : Port) (s : State) (hk : KeptOf w0 l0 s) :
    KeptOut w0 l0 (execErrorRecoveryEnd p s) := by
  unfold execErrorRecoveryEnd
  repeat' first | (with_reducible first | assumption | apply State.modPort_kept | apply State.ccRefresh_kept | apply keptNext | (apply keptIfOut <;> intro _) | (apply keptIf <;> intro _)) | dsimp only [KeptOf] | split

theorem execSinkVbusQualified_kept {w0 : Held} {l0 : Bool} (p : Port) (v : Volt) (s : State) (hk : KeptOf w0 l0 s) :
    KeptOut w0 l0 (execSinkVbusQualified p v s) := by
  unfold execSinkVbusQualified
  repeat' first | (with_reducible first | assumption | apply State.modPort_kept | apply State.modConn_kept | apply State.ccRefresh_kept | apply State.swapVbus_kept | apply State.stampPort_kept | apply keptNext | (apply keptIfOut <;> intro _) | (apply keptIf <;> intro _)) | dsimp only [KeptOf] | split

theorem execBc12DetectionDone_kept {w0 : Held} {l0 : Bool} (p : Port) (r : Bc12) (s : State) (hk : KeptOf w0 l0 s) :
    KeptOut w0 l0 (execBc12DetectionDone p r s) := by
  unfold execBc12DetectionDone
  repeat' first | (with_reducible first | assumption | apply State.stampPd_kept | apply keptNext | (apply keptIfOut <;> intro _) | (apply keptIf <;> intro _)) | dsimp only [KeptOf] | split

theorem State.limpDefault_kept {w0 : Held} {l0 : Bool} (s : State) (p : Port) (hard : Bool) (hk : KeptOf w0 l0 s) :
    KeptOf w0 l0 (State.limpDefault s p hard) := by
  unfold State.limpDefault
  repeat' first | (with_reducible first | assumption | apply State.modPort_kept | apply State.feedEnd_kept | apply State.hardState_kept | (apply keptIf <;> intro _)) | dsimp only [KeptOf] | split

theorem State.heardFrom_kept {w0 : Held} {l0 : Bool} (s : State) (p : Port) (rev2 : Bool) (hk : KeptOf w0 l0 s) :
    KeptOf w0 l0 (State.heardFrom s p rev2) := by
  unfold State.heardFrom
  repeat' first | (with_reducible first | assumption | apply State.modPort_kept | (apply keptIf <;> intro _)) | dsimp only [KeptOf] | split

theorem execPdMessageReceived_kept {w0 : Held} {l0 : Bool} (p : Port) (m : PdRx) (s : State) (hk : KeptOf w0 l0 s) :
    KeptOut w0 l0 (execPdMessageReceived p m s) := by
  unfold execPdMessageReceived
  repeat' first | (with_reducible first | assumption | apply State.modPd_kept | apply State.pdPut_kept | apply State.hardReset_kept | apply State.softReset_kept | apply State.stampPd_kept | apply State.limpDefault_kept | apply State.heardFrom_kept | apply keptNext | (apply keptIfOut <;> intro _) | (apply keptIf <;> intro _)) | dsimp only [KeptOf] | split

theorem execSourceCapabilitiesReceived_kept {w0 : Held} {l0 : Bool} (p : Port) (m : CapsMsg) (s : State) (hk : KeptOf w0 l0 s) :
    KeptOut w0 l0 (execSourceCapabilitiesReceived p m s) := by
  unfold execSourceCapabilitiesReceived
  repeat' first | (with_reducible first | assumption | apply State.stampPd_kept | apply State.heardFrom_kept | apply keptNext | (apply keptIfOut <;> intro _) | (apply keptIf <;> intro _)) | dsimp only [KeptOf] | split

theorem execRequestReceived_kept {w0 : Held} {l0 : Bool} (p : Port) (h : RequestHead) (v : Volt) (i : Amp) (s : State) (hk : KeptOf w0 l0 s) :
    KeptOut w0 l0 (execRequestReceived p h v i s) := by
  unfold execRequestReceived
  repeat' first | (with_reducible first | assumption | apply State.stampPd_kept | apply State.heardFrom_kept | apply keptNext | (apply keptIfOut <;> intro _) | (apply keptIf <;> intro _)) | dsimp only [KeptOf] | split

theorem execVoltageTransitionAccept_kept {w0 : Held} {l0 : Bool} (p : Port) (s : State) (hk : KeptOf w0 l0 s) :
    KeptOut w0 l0 (execVoltageTransitionAccept p s) := by
  unfold execVoltageTransitionAccept
  repeat' first | (with_reducible first | assumption | apply State.stampPd_kept | apply State.heardFrom_kept | apply keptNext | (apply keptIfOut <;> intro _) | (apply keptIf <;> intro _)) | dsimp only [KeptOf] | split

theorem execVendorModeEntry_kept {w0 : Held} {l0 : Bool} (p : Port) (s : State) (hk : KeptOf w0 l0 s) :
    KeptOut w0 l0 (execVendorModeEntry p s) := by
  unfold execVendorModeEntry
  repeat' first | (with_reducible first | assumption | apply State.stampPd_kept | apply keptNext | (apply keptIfOut <;> intro _) | (apply keptIf <;> intro _)) | dsimp only [KeptOf] | split

theorem State.noReply_kept {w0 : Held} {l0 : Bool} (s : State) (p : Port) (hk : KeptOf w0 l0 s) :
    KeptOf w0 l0 (State.noReply s p) := by
  unfold State.noReply
  repeat' first | (with_reducible first | assumption | apply State.portReply_kept | apply State.escalate_kept | apply State.softReset_kept | (apply keptIf <;> intro _)) | dsimp only [KeptOf] | split

theorem State.recoverFeed_kept {w0 : Held} {l0 : Bool} (s : State) (p : Port) (hk : KeptOf w0 l0 s) :
    KeptOf w0 l0 (State.recoverFeed s p) := by
  unfold State.recoverFeed
  repeat' first | (with_reducible first | assumption | apply State.modPort_kept | apply State.startFeed_kept | (apply keptIf <;> intro _)) | dsimp only [KeptOf] | split

theorem State.srcMove_kept {w0 : Held} {l0 : Bool} (s : State) (p : Port) (hk : KeptOf w0 l0 s) :
    KeptOf w0 l0 (State.srcMove s p) := by
  unfold State.srcMove
  repeat' first | (with_reducible first | assumption | apply State.modPort_kept | apply State.sendNode_kept | (apply keptIf <;> intro _)) | dsimp only [KeptOf] | split

theorem State.onTimer_kept {w0 : Held} {l0 : Bool} (s : State) (p : Port) (t : PdTimer) (hk : KeptOf w0 l0 s) :
    KeptOf w0 l0 (State.onTimer s p t) := by
  unfold State.onTimer
  repeat' first | (with_reducible first | assumption | apply State.modPort_kept | apply State.pdSend_kept | apply State.portReply_kept | apply State.errorRecovery_kept | apply State.escalate_kept | apply State.softReset_kept | apply State.sendCaps_kept | apply State.noReply_kept | apply State.recoverFeed_kept | apply State.srcMove_kept | (apply keptIf <;> intro _)) | dsimp only [KeptOf] | split

theorem State.expire_kept {w0 : Held} {l0 : Bool} (s : State) (p : Port) (t : PdTimer) (hk : KeptOf w0 l0 s) :
    KeptOf w0 l0 (State.expire s p t) := by
  unfold State.expire
  repeat' first | (with_reducible first | assumption | apply State.stampPd_kept | (apply keptIf <;> intro _)) | dsimp only [KeptOf] | split

theorem execPdResponseTimeout_kept {w0 : Held} {l0 : Bool} (x : PdSilence) (s : State) (hk : KeptOf w0 l0 s) :
    KeptOut w0 l0 (execPdResponseTimeout x s) := by
  unfold execPdResponseTimeout
  repeat' first | (with_reducible first | assumption | apply State.modPort_kept | apply State.pdPut_kept | apply State.expire_kept | apply keptNext | (apply keptIfOut <;> intro _) | (apply keptIf <;> intro _)) | dsimp only [KeptOf] | split

theorem execSinkWaitCapTimeout_kept {w0 : Held} {l0 : Bool} (p : Port) (s : State) (hk : KeptOf w0 l0 s) :
    KeptOut w0 l0 (execSinkWaitCapTimeout p s) := by
  unfold execSinkWaitCapTimeout
  repeat' first | (with_reducible first | assumption | apply State.expire_kept | apply keptNext | (apply keptIfOut <;> intro _) | (apply keptIf <;> intro _)) | dsimp only [KeptOf] | split

theorem execNoResponseTimeout_kept {w0 : Held} {l0 : Bool} (p : Port) (s : State) (hk : KeptOf w0 l0 s) :
    KeptOut w0 l0 (execNoResponseTimeout p s) := by
  unfold execNoResponseTimeout
  repeat' first | (with_reducible first | assumption | apply State.expire_kept | apply keptNext | (apply keptIfOut <;> intro _) | (apply keptIf <;> intro _)) | dsimp only [KeptOf] | split

theorem execSourceCapResend_kept {w0 : Held} {l0 : Bool} (p : Port) (s : State) (hk : KeptOf w0 l0 s) :
    KeptOut w0 l0 (execSourceCapResend p s) := by
  unfold execSourceCapResend
  repeat' first | (with_reducible first | assumption | apply State.expire_kept | apply keptNext | (apply keptIfOut <;> intro _) | (apply keptIf <;> intro _)) | dsimp only [KeptOf] | split

theorem execPpsRequestRepeat_kept {w0 : Held} {l0 : Bool} (p : Port) (s : State) (hk : KeptOf w0 l0 s) :
    KeptOut w0 l0 (execPpsRequestRepeat p s) := by
  unfold execPpsRequestRepeat
  repeat' first | (with_reducible first | assumption | apply State.modPort_kept | apply State.pdPut_kept | apply keptNext | (apply keptIfOut <;> intro _) | (apply keptIf <;> intro _)) | dsimp only [KeptOf] | split

theorem execEprKeepalive_kept {w0 : Held} {l0 : Bool} (p : Port) (s : State) (hk : KeptOf w0 l0 s) :
    KeptOut w0 l0 (execEprKeepalive p s) := by
  unfold execEprKeepalive
  repeat' first | (with_reducible first | assumption | apply State.pdPut_kept | apply keptNext | (apply keptIfOut <;> intro _) | (apply keptIf <;> intro _)) | dsimp only [KeptOf] | split

theorem execEprEntryTimeout_kept {w0 : Held} {l0 : Bool} (p : Port) (s : State) (hk : KeptOf w0 l0 s) :
    KeptOut w0 l0 (execEprEntryTimeout p s) := by
  unfold execEprEntryTimeout
  repeat' first | (with_reducible first | assumption | apply State.expire_kept | apply keptNext | (apply keptIfOut <;> intro _) | (apply keptIf <;> intro _)) | dsimp only [KeptOf] | split

theorem execCableDiscoverRetry_kept {w0 : Held} {l0 : Bool} (p : Port) (s : State) (hk : KeptOf w0 l0 s) :
    KeptOut w0 l0 (execCableDiscoverRetry p s) := by
  unfold execCableDiscoverRetry
  repeat' first | (with_reducible first | assumption | apply State.expire_kept | apply keptNext | (apply keptIfOut <;> intro _) | (apply keptIf <;> intro _)) | dsimp only [KeptOf] | split

theorem execVconnLimit_kept {w0 : Held} {l0 : Bool} (p : Port) (i : Amp) (s : State) (hk : KeptOf w0 l0 s) :
    KeptOut w0 l0 (execVconnLimit p i s) := by
  unfold execVconnLimit
  repeat' first | (with_reducible first | assumption | apply State.modPort_kept | apply State.stamp_kept | apply keptNext | (apply keptIfOut <;> intro _) | (apply keptIf <;> intro _)) | dsimp only [KeptOf] | split

theorem execSourceTransitionStart_kept {w0 : Held} {l0 : Bool} (p : Port) (s : State) (hk : KeptOf w0 l0 s) :
    KeptOut w0 l0 (execSourceTransitionStart p s) := by
  unfold execSourceTransitionStart
  repeat' first | (with_reducible first | assumption | apply State.expire_kept | apply keptNext | (apply keptIfOut <;> intro _) | (apply keptIf <;> intro _)) | dsimp only [KeptOf] | split

theorem State.onFeedReached_kept {w0 : Held} {l0 : Bool} (s : State) (p : Port) (hk : KeptOf w0 l0 s) :
    KeptOf w0 l0 (State.onFeedReached s p) := by
  unfold State.onFeedReached
  repeat' first | (with_reducible first | assumption | apply State.modPort_kept | apply State.pdSend_kept | apply State.sendCaps_kept | apply State.sourceContract_kept | apply State.swapStep_kept | apply State.swapDone_kept | (apply keptIf <;> intro _)) | dsimp only [KeptOf] | split

theorem execFeedTargetReached_kept {w0 : Held} {l0 : Bool} (p : Port) (v : Volt) (s : State) (hk : KeptOf w0 l0 s) :
    KeptOut w0 l0 (execFeedTargetReached p v s) := by
  unfold execFeedTargetReached
  repeat' first | (with_reducible first | assumption | apply State.stampPd_kept | apply keptNext | (apply keptIfOut <;> intro _) | (apply keptIf <;> intro _)) | dsimp only [KeptOf] | split

theorem State.onDischarged_kept {w0 : Held} {l0 : Bool} (s : State) (p : Port) (hk : KeptOf w0 l0 s) :
    KeptOf w0 l0 (State.onDischarged s p) := by
  unfold State.onDischarged
  repeat' first | (with_reducible first | assumption | apply State.modPort_kept | apply State.pdSend_kept | apply State.swapStep_kept | (apply keptIf <;> intro _)) | dsimp only [KeptOf] | split

theorem execVbusDischargeDone_kept {w0 : Held} {l0 : Bool} (p : Port) (v : Volt) (s : State) (hk : KeptOf w0 l0 s) :
    KeptOut w0 l0 (execVbusDischargeDone p v s) := by
  unfold execVbusDischargeDone
  repeat' first | (with_reducible first | assumption | apply State.modPort_kept | apply State.stampPort_kept | apply keptNext | (apply keptIfOut <;> intro _) | (apply keptIf <;> intro _)) | dsimp only [KeptOf] | split

theorem execHardResetReceived_kept {w0 : Held} {l0 : Bool} (p : Port) (s : State) (hk : KeptOf w0 l0 s) :
    KeptOut w0 l0 (execHardResetReceived p s) := by
  unfold execHardResetReceived
  repeat' first | (with_reducible first | assumption | apply State.hardNoted_kept | apply State.hardReset_kept | apply State.stampPd_kept | apply keptNext | (apply keptIfOut <;> intro _) | (apply keptIf <;> intro _)) | dsimp only [KeptOf] | split

theorem State.limpFeed_kept {w0 : Held} {l0 : Bool} (s : State) (p : Port) (hk : KeptOf w0 l0 s) :
    KeptOf w0 l0 (State.limpFeed s p) := by
  unfold State.limpFeed
  repeat' first | (with_reducible first | assumption | apply State.modLane_kept | apply State.modPort_kept | apply State.modConn_kept | apply State.modNode_kept | apply State.laneEnable_kept | apply State.closePair_kept | (apply keptIf <;> intro _) | (refine keptFold ?_ ?_ <;> [skip; intro s x hk])) | dsimp only [KeptOf] | split

theorem execSourceRecover_kept {w0 : Held} {l0 : Bool} (p : Port) (s : State) (hk : KeptOf w0 l0 s) :
    KeptOut w0 l0 (execSourceRecover p s) := by
  unfold execSourceRecover
  repeat' first | (with_reducible first | assumption | apply State.modPort_kept | apply State.expire_kept | apply State.limpFeed_kept | apply keptNext | (apply keptIfOut <;> intro _) | (apply keptIf <;> intro _)) | dsimp only [KeptOf] | split

theorem execFrsSignalDetected_kept {w0 : Held} {l0 : Bool} (p : Port) (s : State) (hk : KeptOf w0 l0 s) :
    KeptOut w0 l0 (execFrsSignalDetected p s) := by
  unfold execFrsSignalDetected
  repeat' first | (with_reducible first | assumption | apply State.modPort_kept | apply State.pdPut_kept | apply State.stampPd_kept | apply keptNext | (apply keptIfOut <;> intro _) | (apply keptIf <;> intro _)) | dsimp only [KeptOf] | split

theorem execFrsVbusFall_kept {w0 : Held} {l0 : Bool} (p : Port) (v : Volt) (s : State) (hk : KeptOf w0 l0 s) :
    KeptOut w0 l0 (execFrsVbusFall p v s) := by
  unfold execFrsVbusFall
  repeat' first | (with_reducible first | assumption | apply State.modConn_kept | apply State.stampPd_kept | apply keptNext | (apply keptIfOut <;> intro _) | (apply keptIf <;> intro _)) | dsimp only [KeptOf] | split

theorem execFrsSignalEnd_kept {w0 : Held} {l0 : Bool} (p : Port) (s : State) (hk : KeptOf w0 l0 s) :
    KeptOut w0 l0 (execFrsSignalEnd p s) := by
  unfold execFrsSignalEnd
  repeat' first | (with_reducible first | assumption | apply State.pdPut_kept | apply State.feedEnd_kept | apply State.swapStep_kept | apply keptNext | (apply keptIfOut <;> intro _) | (apply keptIf <;> intro _)) | dsimp only [KeptOf] | split

theorem execPsTransitionTimeout_kept {w0 : Held} {l0 : Bool} (p : Port) (x : PsTimer) (s : State) (hk : KeptOf w0 l0 s) :
    KeptOut w0 l0 (execPsTransitionTimeout p x s) := by
  unfold execPsTransitionTimeout
  repeat' first | (with_reducible first | assumption | apply State.expire_kept | apply keptNext | (apply keptIfOut <;> intro _) | (apply keptIf <;> intro _)) | dsimp only [KeptOf] | split

theorem execEprKeepaliveWatchExpiry_kept {w0 : Held} {l0 : Bool} (p : Port) (s : State) (hk : KeptOf w0 l0 s) :
    KeptOut w0 l0 (execEprKeepaliveWatchExpiry p s) := by
  unfold execEprKeepaliveWatchExpiry
  repeat' first | (with_reducible first | assumption | apply State.expire_kept | apply keptNext | (apply keptIfOut <;> intro _) | (apply keptIf <;> intro _)) | dsimp only [KeptOf] | split

theorem State.applyPort_kept {w0 : Held} {l0 : Bool} (s : State) (m : PortDie) (c : PortCmd) (hk : KeptOf w0 l0 s) :
    KeptOf w0 l0 (State.applyPort s m c) := by
  unfold State.applyPort
  repeat' first | (with_reducible first | assumption | apply State.modPort_kept | apply State.modPd_kept | apply State.pdPut_kept | apply State.closePair_kept | apply State.openPair_kept | apply State.ccRefresh_kept | (apply keptIf <;> intro _)) | dsimp only [KeptOf] | split

end Sys2Proof.Machine
end

