-- ==== Sys2Proof/Laws/KeptSession.lean ====
section
/-! SUPPORT. What the operations of Machine/Session keep (Laws/Kept.lean). -/

set_option linter.unusedTactic false
set_option linter.unreachableTactic false

namespace Sys2Proof.Machine

theorem State.modShelf_kept {w0 : Held} {l0 : Bool} (s : State) (i : Fin 2) (f : Shelf → Shelf) (hk : KeptOf w0 l0 s) :
    KeptOf w0 l0 (State.modShelf s i f) := by
  unfold State.modShelf
  repeat' first | (with_reducible first | assumption | (apply keptIf <;> intro _)) | dsimp only [KeptOf] | split

theorem State.modUpd_kept {w0 : Held} {l0 : Bool} (s : State) (f : Update → Update) (hk : KeptOf w0 l0 s) :
    KeptOf w0 l0 (State.modUpd s f) := by
  unfold State.modUpd
  repeat' first | (with_reducible first | assumption | (apply keptIf <;> intro _)) | dsimp only [KeptOf] | split

theorem State.updRecord_kept {w0 : Held} {l0 : Bool} (s : State) (event reason : Nat) (ver : Vector Byte 3) (hk : KeptOf w0 l0 s) :
    KeptOf w0 l0 (State.updRecord s event reason ver) := by
  unfold State.updRecord
  repeat' first | (with_reducible first | assumption | apply State.record_kept | (apply keptIf <;> intro _)) | dsimp only [KeptOf] | split

theorem State.journal_kept {w0 : Held} {l0 : Bool} (s : State) (kind a b : Nat) (hk : KeptOf w0 l0 s) :
    KeptOf w0 l0 (State.journal s kind a b) := by
  unfold State.journal
  repeat' first | (with_reducible first | assumption | (apply keptIf <;> intro _)) | dsimp only [KeptOf] | split

theorem State.staleStaging_kept {w0 : Held} {l0 : Bool} (s : State) (hk : KeptOf w0 l0 s) :
    KeptOf w0 l0 (State.staleStaging s) := by
  unfold State.staleStaging
  repeat' first | (with_reducible first | assumption | (apply keptIf <;> intro _)) | dsimp only [KeptOf] | split

theorem State.closeSession_kept {w0 : Held} {l0 : Bool} (s : State) (reason : Nat) (hk : KeptOf w0 l0 s) :
    KeptOf w0 l0 (State.closeSession s reason) := by
  unfold State.closeSession
  repeat' first | (with_reducible first | assumption | apply State.modUpd_kept | apply State.journal_kept | apply State.staleStaging_kept | (apply keptIf <;> intro _)) | dsimp only [KeptOf] | split

theorem State.rejectSession_kept {w0 : Held} {l0 : Bool} (s : State) (reason : Nat) (hk : KeptOf w0 l0 s) :
    KeptOf w0 l0 (State.rejectSession s reason) := by
  unfold State.rejectSession
  repeat' first | (with_reducible first | assumption | apply State.modUpd_kept | apply State.updRecord_kept | apply State.journal_kept | apply State.staleStaging_kept | (apply keptIf <;> intro _)) | dsimp only [KeptOf] | split

theorem State.openSession_kept {w0 : Held} {l0 : Bool} (s : State) (m : List Byte) (tag : Word) (hk : KeptOf w0 l0 s) :
    KeptOf w0 l0 (State.openSession s m tag) := by
  unfold State.openSession
  repeat' first | (with_reducible first | assumption | apply State.modShelf_kept | apply State.modUpd_kept | apply State.updRecord_kept | apply State.journal_kept | (apply keptIf <;> intro _)) | dsimp only [KeptOf] | split

theorem State.builtSector_kept {w0 : Held} {l0 : Bool} (s : State) (k : Nat) (hk : KeptOf w0 l0 s) :
    KeptOf w0 l0 (State.builtSector s k) := by
  unfold State.builtSector
  repeat' first | (with_reducible first | assumption | apply State.modShelf_kept | apply State.modUpd_kept | apply State.journal_kept | (apply keptIf <;> intro _)) | dsimp only [KeptOf] | split

theorem State.armIfDue_kept {w0 : Held} {l0 : Bool} (s : State) (hk : KeptOf w0 l0 s) :
    KeptOf w0 l0 (State.armIfDue s) := by
  unfold State.armIfDue
  repeat' first | (with_reducible first | assumption | apply State.modShelf_kept | apply State.modUpd_kept | apply State.updRecord_kept | (apply keptIf <;> intro _)) | dsimp only [KeptOf] | split

theorem State.sealSession_kept {w0 : Held} {l0 : Bool} (s : State) (sig : List Byte) (hk : KeptOf w0 l0 s) :
    KeptOf w0 l0 (State.sealSession s sig) := by
  unfold State.sealSession
  repeat' first | (with_reducible first | assumption | apply State.modShelf_kept | apply State.modUpd_kept | apply State.updRecord_kept | apply State.journal_kept | apply State.armIfDue_kept | (apply keptIf <;> intro _)) | dsimp only [KeptOf] | split

theorem State.setKickoff_kept {w0 : Held} {l0 : Bool} (s : State) (t : Nat) (hk : KeptOf w0 l0 s) :
    KeptOf w0 l0 (State.setKickoff s t) := by
  unfold State.setKickoff
  repeat' first | (with_reducible first | assumption | apply State.modUpd_kept | apply State.journal_kept | apply State.armIfDue_kept | (apply keptIf <;> intro _)) | dsimp only [KeptOf] | split

theorem State.confirmUpdate_kept {w0 : Held} {l0 : Bool} (s : State) (hk : KeptOf w0 l0 s) :
    KeptOf w0 l0 (State.confirmUpdate s) := by
  unfold State.confirmUpdate
  repeat' first | (with_reducible first | assumption | apply State.modShelf_kept | apply State.updRecord_kept | apply State.journal_kept | apply State.closeSession_kept | (apply keptIf <;> intro _)) | dsimp only [KeptOf] | split

theorem State.retireShelf_kept {w0 : Held} {l0 : Bool} (s : State) (i : Fin 2) (reason : Nat) (hk : KeptOf w0 l0 s) :
    KeptOf w0 l0 (State.retireShelf s i reason) := by
  unfold State.retireShelf
  repeat' first | (with_reducible first | assumption | apply State.modShelf_kept | apply State.updRecord_kept | apply State.journal_kept | apply State.closeSession_kept | (apply keptIf <;> intro _)) | dsimp only [KeptOf] | split

theorem State.bootFallback_kept {w0 : Held} {l0 : Bool} (s : State) (hk : KeptOf w0 l0 s) :
    KeptOf w0 l0 (State.bootFallback s) := by
  unfold State.bootFallback
  repeat' first | (with_reducible first | assumption | apply State.retireShelf_kept | (apply keptIf <;> intro _)) | dsimp only [KeptOf] | split

theorem State.replayJournal_kept {w0 : Held} {l0 : Bool} (s : State) (hk : KeptOf w0 l0 s) :
    KeptOf w0 l0 (State.replayJournal s) := by
  unfold State.replayJournal
  repeat' first | (with_reducible first | assumption | apply State.modUpd_kept | apply State.staleStaging_kept | (apply keptIf <;> intro _)) | dsimp only [KeptOf] | split

end Sys2Proof.Machine
end

