-- ==== Sys2Proof/Laws/KeptReset.lean ====
section
/-! SUPPORT. What the operations of Machine/Reset keep (Laws/Kept.lean). -/

set_option linter.unusedTactic false
set_option linter.unreachableTactic false

namespace Sys2Proof.Machine

theorem State.modAon_kept {w0 : Held} {l0 : Bool} (s : State) (f : Aon → Aon) (hk : KeptOf w0 l0 s) (hf : s.aon.safeLatch = true → (f s.aon).safeLatch = true) :
    KeptOf w0 l0 (State.modAon s f) := by
  exact keptSafe hk hf

theorem State.modHub_kept {w0 : Held} {l0 : Bool} (s : State) (f : HubSt → HubSt) (hk : KeptOf w0 l0 s) :
    KeptOf w0 l0 (State.modHub s f) := by
  unfold State.modHub
  repeat' first | (with_reducible first | assumption | (apply keptIf <;> intro _)) | dsimp only [KeptOf] | split

theorem State.limpDies_kept {w0 : Held} {l0 : Bool} (s : State) (hk : KeptOf w0 l0 s) :
    KeptOf w0 l0 (State.limpDies s) := by
  unfold State.limpDies
  repeat' first | (with_reducible first | assumption | (apply keptIf <;> intro _)) | dsimp only [KeptOf] | split

theorem State.limpMode_kept {w0 : Held} {l0 : Bool} (s : State) (hk : KeptOf w0 l0 s) :
    KeptOf w0 l0 (State.limpMode s) := by
  unfold State.limpMode
  repeat' first | (with_reducible first | assumption | apply State.setMode_kept | (apply keptIf <;> intro _)) | dsimp only [KeptOf, State.modAon] | split

theorem HostIf.atReset_mem (h : HostIf) : h.atReset.mem = h.mem := rfl

theorem State.hubReset_kept {w0 : Held} {l0 : Bool} (s : State) (cause : Nat) (hk : KeptOf w0 l0 s) :
    KeptOf w0 l0 (State.hubReset s cause) := by
  unfold State.hubReset
  repeat' first | (with_reducible first | assumption | apply State.modHub_kept | apply State.limpDies_kept | apply State.limpMode_kept | (apply keptIf <;> intro _)) | dsimp only [KeptOf, HostIf.atReset] | split

theorem State.flashFinish_kept {w0 : Held} {l0 : Bool} (s : State) (hk : KeptOf w0 l0 s) :
    KeptOf w0 l0 (State.flashFinish s) := by
  unfold State.flashFinish
  refine keptLedger hk ?_
  have hb := hk.2.2.1
  dsimp only
  split
  · simp only [List.length_drop]; omega
  · exact hb

theorem State.readNodes_kept {w0 : Held} {l0 : Bool} (s : State) (endHold : Bool) (hk : KeptOf w0 l0 s) :
    KeptOf w0 l0 (State.readNodes s endHold) := by
  unfold State.readNodes
  repeat' first | (with_reducible first | assumption | (apply keptIf <;> intro _)) | dsimp only [KeptOf] | split

theorem State.bootCommon_kept {w0 : Held} {l0 : Bool} (s : State) (cause : Nat) (warm : Bool) (hk : KeptOf w0 l0 s) :
    KeptOf w0 l0 (State.bootCommon s cause warm) := by
  unfold State.bootCommon
  repeat' first | (with_reducible first | assumption | apply State.replayJournal_kept | apply State.modHub_kept | (apply keptIf <;> intro _)) | dsimp only [KeptOf] | split

theorem State.runShelf_kept {w0 : Held} {l0 : Bool} (s : State) (x : ShelfId) (hk : KeptOf w0 l0 s) :
    KeptOf w0 l0 (State.runShelf s x) := by
  unfold State.runShelf
  repeat' first | (with_reducible first | assumption | apply State.modHub_kept | (apply keptIf <;> intro _)) | dsimp only [KeptOf] | split

theorem State.bootConfirmed_kept {w0 : Held} {l0 : Bool} (s : State) (hk : KeptOf w0 l0 s) :
    KeptOf w0 l0 (State.bootConfirmed s) := by
  unfold State.bootConfirmed
  repeat' first | (with_reducible first | assumption | apply State.runShelf_kept | (apply keptIf <;> intro _)) | dsimp only [KeptOf] | split

theorem State.selectShelf_kept {w0 : Held} {l0 : Bool} (n : Nat) (s : State) (hk : KeptOf w0 l0 s) :
    KeptOf w0 l0 (State.selectShelf n s) := by
  induction n generalizing s with
  | zero => exact State.bootConfirmed_kept s hk
  | succ k ih =>
    unfold State.selectShelf
    repeat' first | (with_reducible first | assumption | apply State.bootConfirmed_kept | apply ih | apply State.retireShelf_kept | apply State.runShelf_kept | (apply keptIf <;> intro _)) | dsimp only [KeptOf, State.modAon] | split

theorem State.bootCatalogue_kept {w0 : Held} {l0 : Bool} (s : State) (hk : KeptOf w0 l0 s) :
    KeptOf w0 l0 (State.bootCatalogue s) := by
  unfold State.bootCatalogue
  repeat' first | (with_reducible first | assumption | apply State.record_kept | (apply keptIf <;> intro _) | (refine keptFold ?_ ?_ <;> [skip; intro s x hk])) | dsimp only [KeptOf] | split

theorem State.bootLearned_kept {w0 : Held} {l0 : Bool} (s : State) (hk : KeptOf w0 l0 s) :
    KeptOf w0 l0 (State.bootLearned s) := by
  unfold State.bootLearned
  repeat' first | (with_reducible first | assumption | (apply keptIf <;> intro _)) | dsimp only [KeptOf] | split

theorem State.bootLedger_kept {w0 : Held} {l0 : Bool} (s : State) (hk : KeptOf w0 l0 s) :
    KeptOf w0 l0 (State.bootLedger s) := by
  unfold State.bootLedger
  repeat' first | (with_reducible first | assumption | (apply keptIf <;> intro _) | (refine keptFold ?_ ?_ <;> [skip; intro s x hk])) | dsimp only [KeptOf] | split

theorem State.bridgeGauge_kept {w0 : Held} {l0 : Bool} (s : State) (cause : Nat) (hk : KeptOf w0 l0 s) :
    KeptOf w0 l0 (State.bridgeGauge s cause) := by
  unfold State.bridgeGauge
  repeat' first | (with_reducible first | assumption | (apply keptIf <;> intro _)) | dsimp only [KeptOf] | split

theorem State.readStraps_kept {w0 : Held} {l0 : Bool} (s : State) (pins : BootPins) (hk : KeptOf w0 l0 s) :
    KeptOf w0 l0 (State.readStraps s pins) := by
  unfold State.readStraps
  repeat' first | (with_reducible first | assumption | (apply keptIf <;> intro _)) | dsimp only [KeptOf, State.modAon] | split

theorem State.restoreOut_kept {w0 : Held} {l0 : Bool} (s : State) (hk : KeptOf w0 l0 s) :
    KeptOf w0 l0 (State.restoreOut s) := by
  unfold State.restoreOut
  repeat' first | (with_reducible first | assumption | (apply keptIf <;> intro _)) | dsimp only [KeptOf] | split

theorem State.coldBoot_kept {w0 : Held} {l0 : Bool} (s : State) (cause : Nat) (pins : BootPins) (hk : KeptOf w0 l0 s) :
    KeptOf w0 l0 (State.coldBoot s cause pins) := by
  unfold State.coldBoot
  repeat' first | (with_reducible first | assumption | apply State.fresh_kept | apply State.modCharge_kept | apply State.bootFallback_kept | apply State.modHub_kept | apply State.readNodes_kept | apply State.bootCommon_kept | apply State.selectShelf_kept | apply State.bootCatalogue_kept | apply State.bootLearned_kept | apply State.bootLedger_kept | apply State.bridgeGauge_kept | apply State.readStraps_kept | apply State.restoreOut_kept | (apply keptIf <;> intro _)) | dsimp only [KeptOf, State.modAon] | with_reducible apply keptEmpty | with_reducible apply State.fresh_kept | split

theorem State.warmBoot_kept {w0 : Held} {l0 : Bool} (s : State) (cause : Nat) (hk : KeptOf w0 l0 s) :
    KeptOf w0 l0 (State.warmBoot s cause) := by
  unfold State.warmBoot
  repeat' first | (with_reducible first | assumption | apply State.readNodes_kept | apply State.bootCommon_kept | (apply keptIf <;> intro _)) | dsimp only [KeptOf, State.modAon] | split

theorem State.landSettings_kept {w0 : Held} {l0 : Bool} (s : State) (hk : KeptOf w0 l0 s) :
    KeptOf w0 l0 (State.landSettings s) := by
  unfold State.landSettings
  repeat' first | (with_reducible first | assumption | (apply keptIf <;> intro _)) | dsimp only [KeptOf] | split

theorem State.diesReset_kept {w0 : Held} {l0 : Bool} (s : State) (up keepLatch : Bool) (hk : KeptOf w0 l0 s) :
    KeptOf w0 l0 (State.diesReset s up keepLatch) := by
  unfold State.diesReset
  repeat' first | (with_reducible first | assumption | apply State.landSettings_kept | (apply keptIf <;> intro _)) | dsimp only [KeptOf] | split

theorem State.diesUp_kept {w0 : Held} {l0 : Bool} (s : State) (hk : KeptOf w0 l0 s) :
    KeptOf w0 l0 (State.diesUp s) := by
  unfold State.diesUp
  repeat' first | (with_reducible first | assumption | (apply keptIf <;> intro _)) | dsimp only [KeptOf] | split

theorem State.unpowered_kept {w0 : Held} {l0 : Bool} (s : State) (vaonLost : Bool) (hk : KeptOf w0 l0 s) (hv : vaonLost = true → l0 = false) :
    KeptOf (w0.goTo 0) l0 (State.unpowered s vaonLost) := by
  have h1 := State.setMode_kept s.landSettings none 3 (State.landSettings_kept s hk)
  unfold State.unpowered
  split
  · rename_i hc
    have hl := hv hc
    exact ⟨(keptGoTo 0 hk).1, ⟨List.Pairwise.nil, fun c hc => by cases hc⟩, Nat.zero_le _, fun e => by rw [hl] at e; cases e⟩
  · exact ⟨(keptGoTo 0 hk).1, ⟨List.Pairwise.nil, fun c hc => by cases hc⟩, h1.2.2.1, hk.2.2.2⟩

theorem State.powerDown_kept {w0 : Held} {l0 : Bool} (s : State) (m : Mode) (hk : KeptOf w0 l0 s) :
    KeptOf w0 l0 (State.powerDown s m) := by
  unfold State.powerDown
  repeat' first | (with_reducible first | assumption | apply State.setMode_kept | apply State.modHub_kept | apply State.diesReset_kept | (apply keptIf <;> intro _)) | dsimp only [KeptOf, State.modAon, HostIf.zero] | with_reducible apply keptEmpty | split

theorem State.factoryState_kept {w0 : Held} {l0 : Bool} (s : State) (hk : KeptOf w0 l0 s) :
    KeptOf w0 l0 (State.factoryState s) := by
  unfold State.factoryState
  repeat' first | (with_reducible first | assumption | apply State.setMode_kept | apply State.modHub_kept | apply State.diesReset_kept | (apply keptIf <;> intro _)) | dsimp only [KeptOf, State.modAon] | split

theorem State.wake_kept {w0 : Held} {l0 : Bool} (s : State) (cause : Nat) (w : WakeInfo) (hk : KeptOf w0 l0 s) :
    KeptOf (w0.goTo (s.time.tick + w.intervalUs / 10)) l0 (State.wake s cause w) := by
  have h := keptGoTo (s.time.tick + w.intervalUs / 10) hk
  unfold State.wake
  repeat' first | (with_reducible first | assumption | apply State.factoryState_kept | apply State.modHub_kept | apply State.diesUp_kept | (refine State.modAon_kept _ _ ?_ (fun e => e)) | (apply keptIf <;> intro _)) | dsimp only [KeptOf] | split

theorem State.safePort_kept {w0 : Held} {l0 : Bool} (s : State) (p : Port) (hk : KeptOf w0 l0 s) :
    KeptOf w0 l0 (State.safePort s p) := by
  unfold State.safePort
  repeat' first | (with_reducible first | assumption | apply State.modPort_kept | apply State.feedEnd_kept | apply State.swapBroken_kept | apply State.frsDrive_kept | (apply keptIf <;> intro _)) | dsimp only [KeptOf] | split

theorem State.setSafe_kept {w0 : Held} {l0 : Bool} (s : State) (t : SafeTrigger) (src : EvSource) (die : Nat) (value : Int) (hk : KeptOf w0 l0 s) :
    KeptOf w0 l0 (State.setSafe s t src die value) := by
  unfold State.setSafe
  repeat' first | (with_reducible first | assumption | apply State.modLane_kept | apply State.modNode_kept | apply State.stamp_kept | apply State.stampLane_kept | apply State.setMode_kept | apply State.closePair_kept | apply State.openPair_kept | apply State.safePort_kept | (apply keptIf <;> intro _) | (refine keptFold ?_ ?_ <;> [skip; intro s x hk])) | dsimp only [KeptOf, State.modAon] | with_reducible apply keptSet | split

theorem State.pathRecord_kept {w0 : Held} {l0 : Bool} (s : State) (event : Byte) (conn : Nat) (auto_ : Bool) (hk : KeptOf w0 l0 s) :
    KeptOf w0 l0 (State.pathRecord s event conn auto_) := by
  unfold State.pathRecord
  repeat' first | (with_reducible first | assumption | apply State.record_kept | (apply keptIf <;> intro _)) | dsimp only [KeptOf] | split

theorem State.dormantStart_kept {w0 : Held} {l0 : Bool} (s : State) (vbat : Volt) (automatic : Bool) (hk : KeptOf w0 l0 s) :
    KeptOf w0 l0 (State.dormantStart s vbat automatic) := by
  unfold State.dormantStart
  repeat' first | (with_reducible first | assumption | apply State.writeGauge_kept | apply State.modHub_kept | (apply keptIf <;> intro _)) | dsimp only [KeptOf, State.modAon] | split

theorem State.shipStart_kept {w0 : Held} {l0 : Bool} (s : State) (delay : Nat) (automatic : Bool) (hk : KeptOf w0 l0 s) :
    KeptOf w0 l0 (State.shipStart s delay automatic) := by
  unfold State.shipStart
  repeat' first | (with_reducible first | assumption | apply State.writeGauge_kept | (apply keptIf <;> intro _)) | dsimp only [KeptOf, State.modAon] | split

theorem State.abortRequest_kept {w0 : Held} {l0 : Bool} (s : State) (hk : KeptOf w0 l0 s) :
    KeptOf w0 l0 (State.abortRequest s) := by
  unfold State.abortRequest
  repeat' first | (with_reducible first | assumption | apply State.modHub_kept | apply State.pathRecord_kept | (apply keptIf <;> intro _)) | dsimp only [KeptOf, State.modAon] | split

theorem State.diodeClose_kept {w0 : Held} {l0 : Bool} (s : State) (sys vbat : Volt) (hk : KeptOf w0 l0 s) :
    KeptOf w0 l0 (State.diodeClose s sys vbat) := by
  unfold State.diodeClose
  repeat' first | (with_reducible first | assumption | (apply keptIf <;> intro _)) | dsimp only [KeptOf, State.modAon] | split

theorem State.diodeOpen_kept {w0 : Held} {l0 : Bool} (s : State) (hk : KeptOf w0 l0 s) :
    KeptOf w0 l0 (State.diodeOpen s) := by
  unfold State.diodeOpen
  repeat' first | (with_reducible first | assumption | (apply keptIf <;> intro _)) | dsimp only [KeptOf, State.modAon] | split

end Sys2Proof.Machine
end

