-- ==== Sys2Proof/Laws/KeptAonRows.lean ====
section
/-! SUPPORT. What the operations of Machine/AonRows keep (Laws/Kept.lean). -/

set_option linter.unusedTactic false
set_option linter.unreachableTactic false

namespace Sys2Proof.Machine

theorem State.packStart_kept {w0 : Held} {l0 : Bool} (s : State) (ftHigh : Bool) (hk : KeptOf w0 l0 s) :
    KeptOf w0 l0 (State.packStart s ftHigh) := by
  unfold State.packStart
  repeat' first | (with_reducible first | assumption | apply State.setMode_kept | apply State.factoryState_kept | (apply keptIf <;> intro _)) | dsimp only [KeptOf, State.modAon] | split

theorem execPowerOn_kept {w0 : Held} {l0 : Bool} (pins : BootPins) (fromPack : Bool) (s : State) (hk : KeptOf w0 l0 s) :
    KeptOut w0 l0 (execPowerOn pins fromPack s) := by
  unfold execPowerOn
  repeat' first | (with_reducible first | assumption | apply State.modHub_kept | apply State.diesUp_kept | apply State.factoryState_kept | apply State.packStart_kept | apply keptNext | (apply keptIfOut <;> intro _) | (apply keptIf <;> intro _)) | dsimp only [KeptOf, State.modAon] | split

theorem execPackConnect_kept {w0 : Held} {l0 : Bool} (s : State) (ftHigh : Bool) (hk : KeptOf w0 l0 s) :
    KeptOut w0 l0 (execPackConnect s ftHigh) := by
  unfold execPackConnect
  repeat' first | (with_reducible first | assumption | apply State.packStart_kept | apply keptNext | (apply keptIfOut <;> intro _) | (apply keptIf <;> intro _)) | dsimp only [KeptOf] | split

theorem execVpwrLoss_kept {w0 : Held} {l0 : Bool} (vaonLost : Bool) (s : State) (hk : KeptOf w0 l0 s) (hv : vaonLost = true → l0 = false) :
    KeptMoved w0 l0 (execVpwrLoss vaonLost s) := by
  exact keptMovedIf (fun _ => keptMoved_next 0 (State.unpowered_kept s vaonLost hk hv)) (fun _ => keptMoved_stay hk)

theorem execRailOverload_kept {w0 : Held} {l0 : Bool} (r : Rail) (s : State) (hk : KeptOf w0 l0 s) :
    KeptOut w0 l0 (execRailOverload r s) := by
  unfold execRailOverload
  repeat' first | (with_reducible first | assumption | apply State.diesReset_kept | apply keptNext | (apply keptIfOut <;> intro _) | (apply keptIf <;> intro _)) | dsimp only [KeptOf, State.modAon] | split

theorem execRailRecovered_kept {w0 : Held} {l0 : Bool} (r : Rail) (s : State) (hk : KeptOf w0 l0 s) :
    KeptOut w0 l0 (execRailRecovered r s) := by
  unfold execRailRecovered
  lift_lets
  intros
  refine keptIfOut (fun _ => keptNext ?_) (fun _ => keptNext hk)
  exact keptIf (fun _ => hk) (fun _ => State.diesUp_kept _ hk)

theorem execXtalLost_kept {w0 : Held} {l0 : Bool} (s : State) (hk : KeptOf w0 l0 s) :
    KeptOut w0 l0 (execXtalLost s) := by
  unfold execXtalLost
  repeat' first | (with_reducible first | assumption | apply State.stamp_kept | apply keptNext | (apply keptIfOut <;> intro _) | (apply keptIf <;> intro _)) | dsimp only [KeptOf, State.modAon] | split

theorem execXtalRestored_kept {w0 : Held} {l0 : Bool} (s : State) (hk : KeptOf w0 l0 s) :
    KeptOut w0 l0 (execXtalRestored s) := by
  unfold execXtalRestored
  repeat' first | (with_reducible first | assumption | apply keptNext | (apply keptIfOut <;> intro _) | (apply keptIf <;> intro _)) | dsimp only [KeptOf, State.modAon] | split

theorem execSafeLatchSet_kept {w0 : Held} {l0 : Bool} (t : SafeTrigger) (s : State) (hk : KeptOf w0 l0 s) :
    KeptOut w0 l0 (execSafeLatchSet t s) := by
  unfold execSafeLatchSet
  repeat' first | (with_reducible first | assumption | apply State.setSafe_kept | apply keptNext | (apply keptIfOut <;> intro _) | (apply keptIf <;> intro _)) | dsimp only [KeptOf] | split

theorem execSysOvershootSafe_kept {w0 : Held} {l0 : Bool} (n : Lane) (sys : Volt) (s : State) (hk : KeptOf w0 l0 s) :
    KeptOut w0 l0 (execSysOvershootSafe n sys s) := by
  unfold execSysOvershootSafe
  repeat' first | (with_reducible first | assumption | apply State.setSafe_kept | apply keptNext | (apply keptIfOut <;> intro _) | (apply keptIf <;> intro _)) | dsimp only [KeptOf] | split

theorem execBatteryOvSafe_kept {w0 : Held} {l0 : Bool} (n : Lane) (vbat : Volt) (s : State) (hk : KeptOf w0 l0 s) :
    KeptOut w0 l0 (execBatteryOvSafe n vbat s) := by
  unfold execBatteryOvSafe
  repeat' first | (with_reducible first | assumption | apply State.setSafe_kept | apply keptNext | (apply keptIfOut <;> intro _) | (apply keptIf <;> intro _)) | dsimp only [KeptOf] | split

theorem execBatfetCurrentSafe_kept {w0 : Held} {l0 : Bool} (i : Amp) (s : State) (hk : KeptOf w0 l0 s) :
    KeptOut w0 l0 (execBatfetCurrentSafe i s) := by
  unfold execBatfetCurrentSafe
  repeat' first | (with_reducible first | assumption | apply State.setSafe_kept | apply keptNext | (apply keptIfOut <;> intro _) | (apply keptIf <;> intro _)) | dsimp only [KeptOf] | split

theorem execWakeNShipWake_kept {w0 : Held} {l0 : Bool} (w : WakeInfo) (s : State) (hk : KeptOf w0 l0 s) :
    KeptMoved w0 l0 (execWakeNShipWake w s) := by
  unfold execWakeNShipWake
  exact keptMovedIf (fun _ => keptMoved_next _ (State.wake_kept s 1 w hk)) (fun _ => keptMoved_stay hk)

theorem execConnectorWake_kept {w0 : Held} {l0 : Bool} (c : Src) (v : Volt) (w : WakeInfo) (s : State) (hk : KeptOf w0 l0 s) :
    KeptMoved w0 l0 (execConnectorWake c v w s) := by
  unfold execConnectorWake
  exact keptMovedIf (fun _ => keptMoved_stay hk) (fun _ => keptMovedIf (fun _ => keptMoved_next _ (State.wake_kept s 1 w hk))
    (fun _ => keptMovedIf (fun _ => keptMoved_next _ (State.wake_kept s 2 w hk)) (fun _ => keptMoved_stay hk)))

theorem execDormantExit_kept {w0 : Held} {l0 : Bool} (why : DormantExit) (w : WakeInfo) (s : State) (hk : KeptOf w0 l0 s) :
    KeptMoved w0 l0 (execDormantExit why w s) := by
  unfold execDormantExit
  refine keptMovedIf (fun _ => ?_) (fun _ => keptMoved_stay hk)
  split
  · exact keptMoved_next _ (State.wake_kept s 2 w hk)
  · exact keptMovedIf (fun _ => keptMoved_next _ (State.wake_kept s 2 w hk)) (fun _ => keptMoved_stay hk)

theorem execSpuriousWake_kept {w0 : Held} {l0 : Bool} (s : State) (hk : KeptOf w0 l0 s) :
    KeptOut w0 l0 (execSpuriousWake s) := by
  unfold execSpuriousWake
  repeat' first | (with_reducible first | assumption | apply State.pathRecord_kept | apply State.shipStart_kept | apply keptNext | (apply keptIfOut <;> intro _) | (apply keptIf <;> intro _)) | dsimp only [KeptOf, State.modAon] | split

theorem execWakeNLow_kept {w0 : Held} {l0 : Bool} (s : State) (hk : KeptOf w0 l0 s) :
    KeptOut w0 l0 (execWakeNLow s) := by
  unfold execWakeNLow
  repeat' first | (with_reducible first | assumption | apply State.stamp_kept | apply keptNext | (apply keptIfOut <;> intro _) | (apply keptIf <;> intro _)) | dsimp only [KeptOf, State.modAon] | split

theorem execDormantAutoEntry_kept {w0 : Held} {l0 : Bool} (vbat : Volt) (s : State) (hk : KeptOf w0 l0 s) :
    KeptOut w0 l0 (execDormantAutoEntry vbat s) := by
  unfold execDormantAutoEntry
  repeat' first | (with_reducible first | assumption | apply State.pathRecord_kept | apply State.dormantStart_kept | apply keptNext | (apply keptIfOut <;> intro _) | (apply keptIf <;> intro _)) | dsimp only [KeptOf] | split

theorem execDormantSequenceContinue_kept {w0 : Held} {l0 : Bool} (sys : Volt) (s : State) (hk : KeptOf w0 l0 s) :
    KeptOut w0 l0 (execDormantSequenceContinue sys s) := by
  unfold execDormantSequenceContinue
  repeat' first | (with_reducible first | assumption | apply State.sendNode_kept | apply keptNext | (apply keptIfOut <;> intro _) | (apply keptIf <;> intro _)) | dsimp only [KeptOf, State.modAon] | split

theorem State.stopAll_kept {w0 : Held} {l0 : Bool} (s : State) (hk : KeptOf w0 l0 s) :
    KeptOf w0 l0 (State.stopAll s) := by
  unfold State.stopAll
  repeat' first | (with_reducible first | assumption | apply State.modLane_kept | apply State.openPair_kept | (apply keptIf <;> intro _) | (refine keptFold ?_ ?_ <;> [skip; intro s x hk])) | dsimp only [KeptOf] | split

theorem execDormantPowerDown_kept {w0 : Held} {l0 : Bool} (s : State) (hk : KeptOf w0 l0 s) :
    KeptOut w0 l0 (execDormantPowerDown s) := by
  unfold execDormantPowerDown
  repeat' first | (with_reducible first | assumption | apply State.powerDown_kept | apply State.stopAll_kept | apply keptNext | (apply keptIfOut <;> intro _) | (apply keptIf <;> intro _)) | dsimp only [KeptOf, State.modAon] | split

theorem execShipDelayExpiry_kept {w0 : Held} {l0 : Bool} (s : State) (hk : KeptOf w0 l0 s) :
    KeptOut w0 l0 (execShipDelayExpiry s) := by
  unfold execShipDelayExpiry
  repeat' first | (with_reducible first | assumption | apply State.sendLane_kept | apply State.sendPort_kept | apply State.openPair_kept | apply keptNext | (apply keptIfOut <;> intro _) | (apply keptIf <;> intro _) | (refine keptFold ?_ ?_ <;> [skip; intro s x hk])) | dsimp only [KeptOf, State.modAon] | split

theorem execShipBatfetOpen_kept {w0 : Held} {l0 : Bool} (s : State) (hk : KeptOf w0 l0 s) :
    KeptOut w0 l0 (execShipBatfetOpen s) := by
  unfold execShipBatfetOpen
  repeat' first | (with_reducible first | assumption | apply State.diodeOpen_kept | apply keptNext | (apply keptIfOut <;> intro _) | (apply keptIf <;> intro _)) | dsimp only [KeptOf, State.modAon] | split

theorem execShipFetOpen_kept {w0 : Held} {l0 : Bool} (s : State) (hk : KeptOf w0 l0 s) :
    KeptOut w0 l0 (execShipFetOpen s) := by
  unfold execShipFetOpen
  repeat' first | (with_reducible first | assumption | apply State.powerDown_kept | apply State.diodeOpen_kept | apply State.stopAll_kept | apply keptNext | (apply keptIfOut <;> intro _) | (apply keptIf <;> intro _)) | dsimp only [KeptOf, State.modAon] | split

theorem execIdealDiodeClose_kept {w0 : Held} {l0 : Bool} (sys vbat : Volt) (s : State) (hk : KeptOf w0 l0 s) :
    KeptOut w0 l0 (execIdealDiodeClose sys vbat s) := by
  unfold execIdealDiodeClose
  repeat' first | (with_reducible first | assumption | apply State.diodeClose_kept | apply keptNext | (apply keptIfOut <;> intro _) | (apply keptIf <;> intro _)) | dsimp only [KeptOf] | split

theorem execIdealDiodeOpen_kept {w0 : Held} {l0 : Bool} (sys vbat : Volt) (shuntA : Amp) (s : State) (hk : KeptOf w0 l0 s) :
    KeptOut w0 l0 (execIdealDiodeOpen sys vbat shuntA s) := by
  unfold execIdealDiodeOpen
  repeat' first | (with_reducible first | assumption | apply State.diodeOpen_kept | apply keptNext | (apply keptIfOut <;> intro _) | (apply keptIf <;> intro _)) | dsimp only [KeptOf] | split

theorem execSoftConnectTimeout_kept {w0 : Held} {l0 : Bool} (sys vbat : Volt) (s : State) (hk : KeptOf w0 l0 s) :
    KeptOut w0 l0 (execSoftConnectTimeout sys vbat s) := by
  unfold execSoftConnectTimeout
  repeat' first | (with_reducible first | assumption | apply State.record_kept | apply State.diodeOpen_kept | apply keptNext | (apply keptIfOut <;> intro _) | (apply keptIf <;> intro _)) | dsimp only [KeptOf, State.modAon] | split

theorem execSoftConnectComplete_kept {w0 : Held} {l0 : Bool} (sys vbat : Volt) (s : State) (hk : KeptOf w0 l0 s) :
    KeptOut w0 l0 (execSoftConnectComplete sys vbat s) := by
  unfold execSoftConnectComplete
  repeat' first | (with_reducible first | assumption | apply keptNext | (apply keptIfOut <;> intro _) | (apply keptIf <;> intro _)) | dsimp only [KeptOf, State.modAon] | split

theorem execLimpBackstopClose_kept {w0 : Held} {l0 : Bool} (sys vbat : Volt) (s : State) (hk : KeptOf w0 l0 s) :
    KeptOut w0 l0 (execLimpBackstopClose sys vbat s) := by
  unfold execLimpBackstopClose
  repeat' first | (with_reducible first | assumption | apply State.diodeClose_kept | apply keptNext | (apply keptIfOut <;> intro _) | (apply keptIf <;> intro _)) | dsimp only [KeptOf] | split

theorem execDiodeControlEnable_kept {w0 : Held} {l0 : Bool} (sys vbat : Volt) (s : State) (hk : KeptOf w0 l0 s) :
    KeptOut w0 l0 (execDiodeControlEnable sys vbat s) := by
  unfold execDiodeControlEnable
  repeat' first | (with_reducible first | assumption | apply State.modHub_kept | apply keptNext | (apply keptIfOut <;> intro _) | (apply keptIf <;> intro _)) | dsimp only [KeptOf, State.modAon] | split

theorem execResetNAssert_kept {w0 : Held} {l0 : Bool} (x : ResetPulse) (s : State) (hk : KeptOf w0 l0 s) :
    KeptOut w0 l0 (execResetNAssert x s) := by
  unfold execResetNAssert
  repeat' first | (with_reducible first | assumption | apply State.fresh_kept | apply State.hubReset_kept | apply keptNext | (apply keptIfOut <;> intro _) | (apply keptIf <;> intro _)) | dsimp only [KeptOf, State.modAon] | with_reducible apply State.fresh_kept | split

theorem execHubLockup_kept {w0 : Held} {l0 : Bool} (s : State) (hk : KeptOf w0 l0 s) :
    KeptOut w0 l0 (execHubLockup s) := by
  unfold execHubLockup
  repeat' first | (with_reducible first | assumption | apply State.hubReset_kept | apply keptNext | (apply keptIfOut <;> intro _) | (apply keptIf <;> intro _)) | dsimp only [KeptOf] | split

theorem execFlashHoldRelease_kept {w0 : Held} {l0 : Bool} (s : State) (hk : KeptOf w0 l0 s) :
    KeptOut w0 l0 (execFlashHoldRelease s) := by
  unfold execFlashHoldRelease
  repeat' first | (with_reducible first | assumption | apply State.flashFinish_kept | apply keptNext | (apply keptIfOut <;> intro _) | (apply keptIf <;> intro _)) | dsimp only [KeptOf] | split

theorem execColdBoot_kept {w0 : Held} {l0 : Bool} (pins : BootPins) (s : State) (hk : KeptOf w0 l0 s) :
    KeptOut w0 l0 (execColdBoot pins s) := by
  unfold execColdBoot
  repeat' first | (with_reducible first | assumption | apply State.coldBoot_kept | apply State.factoryState_kept | apply keptNext | (apply keptIfOut <;> intro _) | (apply keptIf <;> intro _)) | dsimp only [KeptOf] | split

theorem execWarmBoot_kept {w0 : Held} {l0 : Bool} (crcOk : Bool) (s : State) (hk : KeptOf w0 l0 s) :
    KeptOut w0 l0 (execWarmBoot crcOk s) := by
  unfold execWarmBoot
  repeat' first | (with_reducible first | assumption | apply State.modHub_kept | apply State.warmBoot_kept | apply keptNext | (apply keptIfOut <;> intro _) | (apply keptIf <;> intro _)) | dsimp only [KeptOf] | split

theorem State.haltHub_kept {w0 : Held} {l0 : Bool} (s : State) (hk : KeptOf w0 l0 s) :
    KeptOf w0 l0 (State.haltHub s) := by
  unfold State.haltHub
  repeat' first | (with_reducible first | assumption | apply State.modHub_kept | (apply keptIf <;> intro _)) | dsimp only [KeptOf] | split

theorem execHubHaltDetected_kept {w0 : Held} {l0 : Bool} (d : Die) (s : State) (hk : KeptOf w0 l0 s) :
    KeptOut w0 l0 (execHubHaltDetected d s) := by
  unfold execHubHaltDetected
  repeat' first | (with_reducible first | assumption | apply State.modLane_kept | apply State.modPort_kept | apply State.modPd_kept | apply State.limpMode_kept | apply State.haltHub_kept | apply keptNext | (apply keptIfOut <;> intro _) | (apply keptIf <;> intro _) | (refine keptFold ?_ ?_ <;> [skip; intro s x hk])) | dsimp only [KeptOf] | split

theorem execKeeperHoldExpiry_kept {w0 : Held} {l0 : Bool} (d : Die) (s : State) (hk : KeptOf w0 l0 s) :
    KeptOut w0 l0 (execKeeperHoldExpiry d s) := by
  unfold execKeeperHoldExpiry
  repeat' first | (with_reducible first | assumption | apply State.modLane_kept | apply State.modPort_kept | apply State.modPd_kept | apply State.modNode_kept | apply State.ccRefresh_kept | apply State.feedEnd_kept | apply State.swapBroken_kept | apply State.errorRecovery_kept | apply keptNext | (apply keptIfOut <;> intro _) | (apply keptIf <;> intro _) | (refine keptFold ?_ ?_ <;> [skip; intro s x hk])) | dsimp only [KeptOf] | split

theorem execDieUnresponsive_kept {w0 : Held} {l0 : Bool} (d : Die) (s : State) (hk : KeptOf w0 l0 s) :
    KeptOut w0 l0 (execDieUnresponsive d s) := by
  unfold execDieUnresponsive
  repeat' first | (with_reducible first | assumption | apply State.modLane_kept | apply State.modPd_kept | apply State.record_kept | apply State.ccRefresh_kept | apply keptNext | (apply keptIfOut <;> intro _) | (apply keptIf <;> intro _)) | dsimp only [KeptOf] | split

theorem execDieFrameApply_kept {w0 : Held} {l0 : Bool} (d : Die) (s : State) (hk : KeptOf w0 l0 s) :
    KeptOut w0 l0 (execDieFrameApply d s) := by
  unfold execDieFrameApply
  repeat' first | (with_reducible first | assumption | apply State.modLane_kept | apply State.modPd_kept | apply State.applyLane_kept | apply State.applyPort_kept | apply keptNext | (apply keptIfOut <;> intro _) | (apply keptIf <;> intro _)) | dsimp only [KeptOf] | split

end Sys2Proof.Machine
end

