-- ==== Sys2Proof/Laws/KeptSourceRows.lean ====
section
/-! SUPPORT. What the operations of Machine/SourceRows keep (Laws/Kept.lean). -/

set_option linter.unusedTactic false
set_option linter.unreachableTactic false

namespace Sys2Proof.Machine

theorem execSwapHoldExpiry_kept {w0 : Held} {l0 : Bool} (node : Lane) (challenger : Src) (s : State) (hk : KeptOf w0 l0 s) :
    KeptOut w0 l0 (execSwapHoldExpiry node challenger s) := by
  unfold execSwapHoldExpiry
  repeat' first | (with_reducible first | assumption | apply State.changeTo_kept | apply keptNext | (apply keptIfOut <;> intro _) | (apply keptIf <;> intro _)) | dsimp only [KeptOf] | split

theorem execAcinQualified_kept {w0 : Held} {l0 : Bool} (v : Volt) (s : State) (hk : KeptOf w0 l0 s) :
    KeptOut w0 l0 (execAcinQualified v s) := by
  unfold execAcinQualified
  repeat' first | (with_reducible first | assumption | apply State.modConn_kept | apply State.stamp_kept | apply State.ccRefresh_kept | apply keptNext | (apply keptIfOut <;> intro _) | (apply keptIf <;> intro _)) | dsimp only [KeptOf] | split

theorem execPairClosed_kept {w0 : Held} {l0 : Bool} (c : Src) (conn vinl : Volt) (s : State) (hk : KeptOf w0 l0 s) :
    KeptOut w0 l0 (execPairClosed c conn vinl s) := by
  unfold execPairClosed
  repeat' first | (with_reducible first | assumption | apply State.modConn_kept | apply State.stamp_kept | apply State.ccRefresh_kept | apply keptNext | (apply keptIfOut <;> intro _) | (apply keptIf <;> intro _)) | dsimp only [KeptOf] | split

theorem execFarNodeDrainDone_kept {w0 : Held} {l0 : Bool} (n : Lane) (vinl : Volt) (s : State) (hk : KeptOf w0 l0 s) :
    KeptOut w0 l0 (execFarNodeDrainDone n vinl s) := by
  unfold execFarNodeDrainDone
  repeat' first | (with_reducible first | assumption | apply State.modLane_kept | apply State.modNode_kept | apply State.stopNode_kept | apply keptNext | (apply keptIfOut <;> intro _) | (apply keptIf <;> intro _) | (refine keptFold ?_ ?_ <;> [skip; intro s x hk])) | dsimp only [KeptOf] | split

theorem execDrainTimeout_kept {w0 : Held} {l0 : Bool} (n : Lane) (s : State) (hk : KeptOf w0 l0 s) :
    KeptOut w0 l0 (execDrainTimeout n s) := by
  unfold execDrainTimeout
  repeat' first | (with_reducible first | assumption | apply State.modNode_kept | apply State.sendNode_kept | apply keptNext | (apply keptIfOut <;> intro _) | (apply keptIf <;> intro _)) | dsimp only [KeptOf] | split

theorem execSagLimitLearned_kept {w0 : Held} {l0 : Bool} (c : Src) (iMean : Amp) (s : State) (hk : KeptOf w0 l0 s) :
    KeptOut w0 l0 (execSagLimitLearned c iMean s) := by
  unfold execSagLimitLearned
  repeat' first | (with_reducible first | assumption | apply State.modConn_kept | apply State.stamp_kept | apply State.record_kept | apply keptNext | (apply keptIfOut <;> intro _) | (apply keptIf <;> intro _)) | dsimp only [KeptOf] | split

theorem execSagProbe_kept {w0 : Held} {l0 : Bool} (c : Src) (s : State) (hk : KeptOf w0 l0 s) :
    KeptOut w0 l0 (execSagProbe c s) := by
  unfold execSagProbe
  repeat' first | (with_reducible first | assumption | apply State.modConn_kept | apply keptNext | (apply keptIfOut <;> intro _) | (apply keptIf <;> intro _)) | dsimp only [KeptOf] | split

theorem execPanelTrack_kept {w0 : Held} {l0 : Bool} (activeHalf : Bool) (p : Watt) (s : State) (hk : KeptOf w0 l0 s) :
    KeptOut w0 l0 (execPanelTrack activeHalf p s) := by
  unfold execPanelTrack
  repeat' first | (with_reducible first | assumption | apply keptNext | (apply keptIfOut <;> intro _) | (apply keptIf <;> intro _)) | dsimp only [KeptOf] | split

theorem execPanelScan_kept {w0 : Held} {l0 : Bool} (powers : Vector Watt 9) (s : State) (hk : KeptOf w0 l0 s) :
    KeptOut w0 l0 (execPanelScan powers s) := by
  unfold execPanelScan
  repeat' first | (with_reducible first | assumption | apply keptNext | (apply keptIfOut <;> intro _) | (apply keptIf <;> intro _)) | dsimp only [KeptOf] | split

theorem execProtectionTrip_kept {w0 : Held} {l0 : Bool} (c : Src) (p : Protection) (v : Volt) (x : TripCurrent) (s : State) (hk : KeptOf w0 l0 s) :
    KeptOut w0 l0 (execProtectionTrip c p v x s) := by
  unfold execProtectionTrip
  repeat' first | (with_reducible first | assumption | apply State.modPd_kept | apply State.modConn_kept | apply State.stamp_kept | apply State.ccRefresh_kept | apply keptNext | (apply keptIfOut <;> intro _) | (apply keptIf <;> intro _)) | dsimp only [KeptOf] | split

theorem execRequalifyAfterTrip_kept {w0 : Held} {l0 : Bool} (c : Src) (s : State) (hk : KeptOf w0 l0 s) :
    KeptOut w0 l0 (execRequalifyAfterTrip c s) := by
  unfold execRequalifyAfterTrip
  repeat' first | (with_reducible first | assumption | apply State.modConn_kept | apply keptNext | (apply keptIfOut <;> intro _) | (apply keptIf <;> intro _)) | dsimp only [KeptOf] | split

theorem execLockoutEndLowVoltage_kept {w0 : Held} {l0 : Bool} (c : Src) (v : Volt) (s : State) (hk : KeptOf w0 l0 s) :
    KeptOut w0 l0 (execLockoutEndLowVoltage c v s) := by
  unfold execLockoutEndLowVoltage
  repeat' first | (with_reducible first | assumption | apply State.modConn_kept | apply keptNext | (apply keptIfOut <;> intro _) | (apply keptIf <;> intro _)) | dsimp only [KeptOf] | split

theorem execSourceLost_kept {w0 : Held} {l0 : Bool} (c : Src) (v : Volt) (s : State) (hk : KeptOf w0 l0 s) :
    KeptOut w0 l0 (execSourceLost c v s) := by
  unfold execSourceLost
  repeat' first | (with_reducible first | assumption | apply State.modPort_kept | apply State.modConn_kept | apply State.stamp_kept | apply State.openPair_kept | apply State.ccRefresh_kept | apply State.swapVbus_kept | apply keptNext | (apply keptIfOut <;> intro _) | (apply keptIf <;> intro _)) | dsimp only [KeptOf] | split

theorem execFarNodeLost_kept {w0 : Held} {l0 : Bool} (n : Lane) (v : Volt) (s : State) (hk : KeptOf w0 l0 s) :
    KeptOut w0 l0 (execFarNodeLost n v s) := by
  unfold execFarNodeLost
  repeat' first | (with_reducible first | assumption | apply State.modLane_kept | apply State.stamp_kept | apply keptNext | (apply keptIfOut <;> intro _) | (apply keptIf <;> intro _)) | dsimp only [KeptOf] | split

end Sys2Proof.Machine
end

