-- ==== Sys2Proof/Laws/KeptTrunk.lean ====
section
/-! SUPPORT. What the operations of Machine/Trunk keep (Laws/Kept.lean). -/

set_option linter.unusedTactic false
set_option linter.unreachableTactic false

namespace Sys2Proof.Machine

theorem State.modTrunk_kept {w0 : Held} {l0 : Bool} (s : State) (f : Trunk → Trunk) (hk : KeptOf w0 l0 s) :
    KeptOf w0 l0 (State.modTrunk s f) := by
  unfold State.modTrunk
  repeat' first | (with_reducible first | assumption | (apply keptIf <;> intro _)) | dsimp only [KeptOf] | split

theorem State.modDue_kept {w0 : Held} {l0 : Bool} (s : State) (f : TrunkDue → TrunkDue) (hk : KeptOf w0 l0 s) :
    KeptOf w0 l0 (State.modDue s f) := by
  unfold State.modDue
  repeat' first | (with_reducible first | assumption | apply State.modTrunk_kept | (apply keptIf <;> intro _)) | dsimp only [KeptOf] | split

theorem State.ringPut_kept {w0 : Held} {l0 : Bool} (s : State) (base size : Nat) (rec_ : List Byte) (hk : KeptOf w0 l0 s) :
    ∀ t, State.ringPut s base size rec_ = some t → KeptOf w0 l0 t := by
  intro t ht
  unfold State.ringPut at ht
  dsimp only at ht
  repeat' split at ht
  all_goals first | (cases ht) | skip
  all_goals repeat' first | (with_reducible first | assumption | apply State.memWrite_kept)

theorem State.enqueue_kept {w0 : Held} {l0 : Bool} (s : State) (t : TrunkPort) (f : TrunkFrame) (hk : KeptOf w0 l0 s) :
    KeptOf w0 l0 (State.enqueue s t f) := by
  unfold State.enqueue
  repeat' first | (with_reducible first | assumption | apply State.modPd_kept | apply State.modLink_kept | (apply keptIf <;> intro _)) | dsimp only [KeptOf] | split

theorem State.originate_kept {w0 : Held} {l0 : Bool} (s : State) (ports : List TrunkPort) (type : Byte) (dst : BitVec 12) (payload : List Byte) (hk : KeptOf w0 l0 s) :
    KeptOf w0 l0 (State.originate s ports type dst payload) := by
  unfold State.originate
  repeat' first | (with_reducible first | assumption | apply State.modTrunk_kept | apply State.enqueue_kept | (apply keptIf <;> intro _) | (refine keptFold ?_ ?_ <;> [skip; intro s x hk])) | dsimp only [KeptOf] | split

theorem State.originateHeld_kept {w0 : Held} {l0 : Bool} (s : State) (type : Byte) (dst : BitVec 12) (payload : List Byte) (hk : KeptOf w0 l0 s) :
    KeptOf w0 l0 (State.originateHeld s type dst payload) := by
  unfold State.originateHeld
  repeat' first | (with_reducible first | assumption | apply State.modLink_kept | apply State.modTrunk_kept | apply State.enqueue_kept | (apply keptIf <;> intro _) | (refine keptFold ?_ ?_ <;> [skip; intro s x hk])) | dsimp only [KeptOf] | split

theorem State.takeNodeId_kept {w0 : Held} {l0 : Bool} (s : State) (hk : KeptOf w0 l0 s) :
    KeptOf w0 l0 (State.takeNodeId s) := by
  unfold State.takeNodeId
  repeat' first | (with_reducible first | assumption | apply State.modTrunk_kept | (apply keptIf <;> intro _)) | dsimp only [KeptOf] | split

theorem State.loseId_kept {w0 : Held} {l0 : Bool} (s : State) (port : Nat) (hk : KeptOf w0 l0 s) :
    KeptOf w0 l0 (State.loseId s port) := by
  unfold State.loseId
  repeat' first | (with_reducible first | assumption | apply State.record_kept | apply State.modTrunk_kept | apply State.takeNodeId_kept | (apply keptIf <;> intro _)) | dsimp only [KeptOf] | split

theorem State.takeHello_kept {w0 : Held} {l0 : Bool} (s : State) (a : TrunkArrival) (f : TrunkFrame) (hk : KeptOf w0 l0 s) :
    KeptOf w0 l0 (State.takeHello s a f) := by
  unfold State.takeHello
  repeat' first | (with_reducible first | assumption | apply State.modLink_kept | apply State.stamp_kept | apply State.originate_kept | apply State.loseId_kept | (apply keptIf <;> intro _)) | dsimp only [KeptOf] | split

theorem State.noteSeen_kept {w0 : Held} {l0 : Bool} (s : State) (t : TrunkPort) (f : TrunkFrame) (repeated : Bool) (hk : KeptOf w0 l0 s) :
    KeptOf w0 l0 (State.noteSeen s t f repeated) := by
  unfold State.noteSeen
  repeat' first | (with_reducible first | assumption | apply State.modTrunk_kept | (apply keptIf <;> intro _)) | dsimp only [KeptOf] | split

theorem State.repeatFrame_kept {w0 : Held} {l0 : Bool} (s : State) (t : TrunkPort) (f : TrunkFrame) (hk : KeptOf w0 l0 s) :
    KeptOf w0 l0 (State.repeatFrame s t f) := by
  unfold State.repeatFrame
  repeat' first | (with_reducible first | assumption | apply State.enqueue_kept | apply State.noteSeen_kept | (apply keptIf <;> intro _)) | dsimp only [KeptOf] | split

theorem State.discipline_kept {w0 : Held} {l0 : Bool} (s : State) (a : TrunkArrival) (f : TrunkFrame) (newEpoch : Bool) (hk : KeptOf w0 l0 s) :
    KeptOf w0 l0 (State.discipline s a f newEpoch) := by
  unfold State.discipline
  repeat' first | (with_reducible first | assumption | apply State.record_kept | (apply keptIf <;> intro _)) | dsimp only [KeptOf] | split

theorem State.startClaim_kept {w0 : Held} {l0 : Bool} (s : State) (hk : KeptOf w0 l0 s) :
    KeptOf w0 l0 (State.startClaim s) := by
  unfold State.startClaim
  repeat' first | (with_reducible first | assumption | apply State.modTrunk_kept | (apply keptIf <;> intro _)) | dsimp only [KeptOf] | split

theorem State.stepDown_kept {w0 : Held} {l0 : Bool} (s : State) (cause : Byte) (node : BitVec 12) (hk : KeptOf w0 l0 s) :
    KeptOf w0 l0 (State.stepDown s cause node) := by
  unfold State.stepDown
  repeat' first | (with_reducible first | assumption | apply State.record_kept | apply State.modTrunk_kept | (apply keptIf <;> intro _)) | dsimp only [KeptOf] | split

theorem State.takeBeacon_kept {w0 : Held} {l0 : Bool} (s : State) (a : TrunkArrival) (f : TrunkFrame) (hk : KeptOf w0 l0 s) :
    KeptOf w0 l0 (State.takeBeacon s a f) := by
  unfold State.takeBeacon
  repeat' first | (with_reducible first | assumption | apply State.modTrunk_kept | apply State.discipline_kept | apply State.startClaim_kept | apply State.stepDown_kept | (apply keptIf <;> intro _)) | dsimp only [KeptOf] | split

theorem State.takeClaim_kept {w0 : Held} {l0 : Bool} (s : State) (f : TrunkFrame) (hk : KeptOf w0 l0 s) :
    KeptOf w0 l0 (State.takeClaim s f) := by
  unfold State.takeClaim
  repeat' first | (with_reducible first | assumption | apply State.modTrunk_kept | (apply keptIf <;> intro _)) | dsimp only [KeptOf] | split

theorem State.sendBeacon_kept {w0 : Held} {l0 : Bool} (s : State) (hk : KeptOf w0 l0 s) :
    KeptOf w0 l0 (State.sendBeacon s) := by
  unfold State.sendBeacon
  repeat' first | (with_reducible first | assumption | apply State.modTrunk_kept | apply State.originate_kept | (apply keptIf <;> intro _)) | dsimp only [KeptOf] | split

theorem State.electCaptain_kept {w0 : Held} {l0 : Bool} (s : State) (hk : KeptOf w0 l0 s) :
    KeptOf w0 l0 (State.electCaptain s) := by
  unfold State.electCaptain
  repeat' first | (with_reducible first | assumption | apply State.record_kept | apply State.modTrunk_kept | apply State.sendBeacon_kept | (apply keptIf <;> intro _)) | dsimp only [KeptOf] | split

theorem State.resumeCaptain_kept {w0 : Held} {l0 : Bool} (s : State) (hk : KeptOf w0 l0 s) :
    KeptOf w0 l0 (State.resumeCaptain s) := by
  unfold State.resumeCaptain
  repeat' first | (with_reducible first | assumption | apply State.record_kept | apply State.modDue_kept | apply State.stepDown_kept | apply State.sendBeacon_kept | (apply keptIf <;> intro _)) | dsimp only [KeptOf] | split

theorem State.trunkApplied_kept {w0 : Held} {l0 : Bool} (s : State) (hk : KeptOf w0 l0 s) :
    KeptOf w0 l0 (State.trunkApplied s) := by
  unfold State.trunkApplied
  repeat' first | (with_reducible first | assumption | apply State.modTrunk_kept | (apply keptIf <;> intro _)) | dsimp only [KeptOf] | split

theorem State.takeGrant_kept {w0 : Held} {l0 : Bool} (s : State) (p : List Byte) (hk : KeptOf w0 l0 s) :
    KeptOf w0 l0 (State.takeGrant s p) := by
  unfold State.takeGrant
  repeat' first | (with_reducible first | assumption | apply State.modTrunk_kept | apply State.loseId_kept | (apply keptIf <;> intro _)) | dsimp only [KeptOf] | split

theorem State.sendGrant_kept {w0 : Held} {l0 : Bool} (s : State) (node : BitVec 12) (p : List Byte) (hk : KeptOf w0 l0 s) :
    KeptOf w0 l0 (State.sendGrant s node p) := by
  unfold State.sendGrant
  repeat' first | (with_reducible first | assumption | apply State.originateHeld_kept | apply State.takeGrant_kept | (apply keptIf <;> intro _)) | dsimp only [KeptOf] | split

theorem State.sendDuplicate_kept {w0 : Held} {l0 : Bool} (s : State) (node : BitVec 12) (unit : Dword) (hk : KeptOf w0 l0 s) :
    KeptOf w0 l0 (State.sendDuplicate s node unit) := by
  unfold State.sendDuplicate
  repeat' first | (with_reducible first | assumption | apply State.sendGrant_kept | (apply keptIf <;> intro _)) | dsimp only [KeptOf] | split

theorem State.takeReport_kept {w0 : Held} {l0 : Bool} (s : State) (f : TrunkFrame) (hk : KeptOf w0 l0 s) :
    KeptOf w0 l0 (State.takeReport s f) := by
  unfold State.takeReport
  repeat' first | (with_reducible first | assumption | apply State.modTrunk_kept | apply State.sendDuplicate_kept | (apply keptIf <;> intro _)) | dsimp only [KeptOf] | split

theorem State.openOrRenew_kept {w0 : Held} {l0 : Bool} (s : State) (e : RosterEntry) (g us : Nat) (hk : KeptOf w0 l0 s) :
    KeptOf w0 l0 (State.openOrRenew s e g us) := by
  unfold State.openOrRenew
  repeat' first | (with_reducible first | assumption | apply State.modTrunk_kept | apply State.sendGrant_kept | (apply keptIf <;> intro _)) | dsimp only [KeptOf] | split

theorem State.closeGrant_kept {w0 : Held} {l0 : Bool} (s : State) (x : Session) (us : Nat) (hk : KeptOf w0 l0 s) :
    KeptOf w0 l0 (State.closeGrant s x us) := by
  unfold State.closeGrant
  repeat' first | (with_reducible first | assumption | apply State.modTrunk_kept | apply State.sendGrant_kept | (apply keptIf <;> intro _)) | dsimp only [KeptOf] | split

theorem State.sendBulletin_kept {w0 : Held} {l0 : Bool} (s : State) (hk : KeptOf w0 l0 s) :
    KeptOf w0 l0 (State.sendBulletin s) := by
  unfold State.sendBulletin
  repeat' first | (with_reducible first | assumption | apply State.modTrunk_kept | apply State.originate_kept | apply State.openOrRenew_kept | apply State.closeGrant_kept | (apply keptIf <;> intro _) | (refine keptFold ?_ ?_ <;> [skip; intro s x hk])) | dsimp only [KeptOf] | split

theorem State.takeBulletin_kept {w0 : Held} {l0 : Bool} (s : State) (f : TrunkFrame) (hk : KeptOf w0 l0 s) :
    KeptOf w0 l0 (State.takeBulletin s f) := by
  unfold State.takeBulletin
  repeat' first | (with_reducible first | assumption | apply State.record_kept | apply State.modTrunk_kept | (apply keptIf <;> intro _)) | dsimp only [KeptOf] | split

theorem State.sealRelayed_kept {w0 : Held} {l0 : Bool} (s : State) (hk : KeptOf w0 l0 s) :
    KeptOf w0 l0 (State.sealRelayed s) := by
  unfold State.sealRelayed
  repeat' first | (with_reducible first | assumption | apply State.rejectSession_kept | apply State.sealSession_kept | (apply keptIf <;> intro _)) | dsimp only [KeptOf] | split

theorem State.relayedManifest_kept {w0 : Held} {l0 : Bool} (s : State) (hk : KeptOf w0 l0 s) :
    KeptOf w0 l0 (State.relayedManifest s) := by
  unfold State.relayedManifest
  repeat' first | (with_reducible first | assumption | apply State.modUpd_kept | apply State.rejectSession_kept | apply State.openSession_kept | (apply keptIf <;> intro _)) | dsimp only [KeptOf] | split

theorem State.relayedRecords_kept {w0 : Held} {l0 : Bool} (s : State) (hk : KeptOf w0 l0 s) :
    KeptOf w0 l0 (State.relayedRecords s) := by
  unfold State.relayedRecords
  repeat' first | (with_reducible first | assumption | apply State.modUpd_kept | apply State.journal_kept | (apply keptIf <;> intro _) | (refine keptFold ?_ ?_ <;> [skip; intro s x hk])) | dsimp only [KeptOf] | split

theorem State.takeUpdate_kept {w0 : Held} {l0 : Bool} (s : State) (f : TrunkFrame) (hk : KeptOf w0 l0 s) :
    KeptOf w0 l0 (State.takeUpdate s f) := by
  unfold State.takeUpdate
  repeat' first | (with_reducible first | assumption | apply State.modUpd_kept | apply State.sealRelayed_kept | apply State.relayedManifest_kept | apply State.relayedRecords_kept | (apply keptIf <;> intro _)) | dsimp only [KeptOf] | split

theorem State.takeAck_kept {w0 : Held} {l0 : Bool} (s : State) (f : TrunkFrame) (hk : KeptOf w0 l0 s) :
    KeptOf w0 l0 (State.takeAck s f) := by
  unfold State.takeAck
  repeat' first | (with_reducible first | assumption | apply State.modTrunk_kept | (apply keptIf <;> intro _) | (refine keptFold ?_ ?_ <;> [skip; intro s x hk])) | dsimp only [KeptOf] | split

theorem State.takeKickoff_kept {w0 : Held} {l0 : Bool} (s : State) (f : TrunkFrame) (hk : KeptOf w0 l0 s) :
    KeptOf w0 l0 (State.takeKickoff s f) := by
  unfold State.takeKickoff
  repeat' first | (with_reducible first | assumption | apply State.setKickoff_kept | (apply keptIf <;> intro _)) | dsimp only [KeptOf] | split

theorem State.takeMessage_kept {w0 : Held} {l0 : Bool} (s : State) (tick : Nat) (f : TrunkFrame) (hk : KeptOf w0 l0 s) :
    KeptOf w0 l0 (State.takeMessage s tick f) := by
  unfold State.takeMessage
  dsimp only
  generalize hx : State.ringPut _ _ _ _ = o
  cases o with
  | some t => exact State.setHdb_kept _ _ (State.ringPut_kept _ _ _ _ (State.modTrunk_kept _ _ hk) t hx)
  | none => exact State.setHdb_kept _ _ (State.modTrunk_kept _ _ (State.modTrunk_kept _ _ hk))

theorem State.takeFrame_kept {w0 : Held} {l0 : Bool} (s : State) (tick : Nat) (a : TrunkArrival) (f : TrunkFrame) (hk : KeptOf w0 l0 s) :
    KeptOf w0 l0 (State.takeFrame s tick a f) := by
  unfold State.takeFrame
  repeat' first | (with_reducible first | assumption | apply State.takeBeacon_kept | apply State.takeClaim_kept | apply State.takeGrant_kept | apply State.takeReport_kept | apply State.takeBulletin_kept | apply State.takeUpdate_kept | apply State.takeAck_kept | apply State.takeKickoff_kept | apply State.takeMessage_kept | (apply keptIf <;> intro _)) | dsimp only [KeptOf] | split

end Sys2Proof.Machine
end

