-- ==== Sys2Proof/Laws/KeptTelemetry.lean ====
section
/-! SUPPORT. What the operations of Machine/Telemetry keep (Laws/Kept.lean). -/

set_option linter.unusedTactic false
set_option linter.unreachableTactic false

namespace Sys2Proof.Machine

theorem State.modTel_kept {w0 : Held} {l0 : Bool} (s : State) (f : Tel → Tel) (hk : KeptOf w0 l0 s) :
    KeptOf w0 l0 (State.modTel s f) := by
  unfold State.modTel
  repeat' first | (with_reducible first | assumption | (apply keptIf <;> intro _)) | dsimp only [KeptOf] | split

theorem State.publish_kept {w0 : Held} {l0 : Bool} (s : State) (hk : KeptOf w0 l0 s) :
    KeptOf w0 l0 (State.publish s) := by
  unfold State.publish
  repeat' first | (with_reducible first | assumption | apply State.modTel_kept | (apply keptIf <;> intro _)) | dsimp only [KeptOf] | split

theorem State.streamStep_kept {w0 : Held} {l0 : Bool} (s : State) (captured : Bool) (c : HostChan) (hk : KeptOf w0 l0 s) :
    KeptOf w0 l0 (State.streamStep s captured c) := by
  unfold State.streamStep
  split
  · exact hk
  · refine keptIf (fun _ => State.modTel_kept _ _ hk) (fun _ => ?_)
    dsimp only
    split
    · rename_i t ht
      exact State.setHdb_kept _ _ (State.modTel_kept _ _ (State.ringPut_kept _ _ _ _ hk t ht))
    · exact State.modTel_kept _ _ hk

theorem execTelemetryPublish_kept {w0 : Held} {l0 : Bool} (s : State) (hk : KeptOf w0 l0 s) :
    KeptOut w0 l0 (execTelemetryPublish s) := by
  unfold execTelemetryPublish
  repeat' first | (with_reducible first | assumption | apply State.modHub_kept | apply State.modTel_kept | apply State.publish_kept | apply State.streamStep_kept | apply keptNext | (apply keptIfOut <;> intro _) | (apply keptIf <;> intro _) | (refine keptFold ?_ ?_ <;> [skip; intro s x hk])) | dsimp only [KeptOf] | split

theorem execTelFreezeTimeout_kept {w0 : Held} {l0 : Bool} (s : State) (hk : KeptOf w0 l0 s) :
    KeptOut w0 l0 (execTelFreezeTimeout s) := by
  unfold execTelFreezeTimeout
  repeat' first | (with_reducible first | assumption | apply State.modTel_kept | apply keptNext | (apply keptIfOut <;> intro _) | (apply keptIf <;> intro _)) | dsimp only [KeptOf] | split

theorem State.latchBlock_kept {w0 : Held} {l0 : Bool} (s : State) (i : Iface) (c : Fin 96) (hk : KeptOf w0 l0 s) :
    KeptOf w0 l0 (State.latchBlock s i c) := by
  unfold State.latchBlock
  repeat' first | (with_reducible first | assumption | apply State.modTel_kept | (apply keptIf <;> intro _)) | dsimp only [KeptOf] | split

theorem execTelBlockRead_kept {w0 : Held} {l0 : Bool} (i : Iface) (c : Fin 96) (s : State) (hk : KeptOf w0 l0 s) :
    KeptOut w0 l0 (execTelBlockRead i c s) := by
  unfold execTelBlockRead
  repeat' first | (with_reducible first | assumption | apply State.latchBlock_kept | apply keptNext | (apply keptIfOut <;> intro _) | (apply keptIf <;> intro _)) | dsimp only [KeptOf] | split

theorem State.capture_kept {w0 : Held} {l0 : Bool} (s : State) (hk : KeptOf w0 l0 s) :
    KeptOf w0 l0 (State.capture s) := by
  unfold State.capture
  repeat' first | (with_reducible first | assumption | apply State.modTel_kept | (apply keptIf <;> intro _)) | dsimp only [KeptOf] | split

theorem State.releaseTel_kept {w0 : Held} {l0 : Bool} (s : State) (hk : KeptOf w0 l0 s) :
    KeptOf w0 l0 (State.releaseTel s) := by
  unfold State.releaseTel
  repeat' first | (with_reducible first | assumption | apply State.modTel_kept | (apply keptIf <;> intro _)) | dsimp only [KeptOf] | split

theorem execCapture_kept {w0 : Held} {l0 : Bool} (s : State) (hk : KeptOf w0 l0 s) :
    KeptOut w0 l0 (execCapture s) := by
  unfold execCapture
  repeat' first | (with_reducible first | assumption | apply State.capture_kept | apply keptNext | (apply keptIfOut <;> intro _) | (apply keptIf <;> intro _)) | dsimp only [KeptOf] | split

theorem execRelease_kept {w0 : Held} {l0 : Bool} (s : State) (hk : KeptOf w0 l0 s) :
    KeptOut w0 l0 (execRelease s) := by
  unfold execRelease
  repeat' first | (with_reducible first | assumption | apply State.releaseTel_kept | apply keptNext | (apply keptIfOut <;> intro _) | (apply keptIf <;> intro _)) | dsimp only [KeptOf] | split

end Sys2Proof.Machine
end

