-- ==== Sys2Proof/Laws/KeptTimers.lean ====
section
/-! SUPPORT. What the operations of Machine/Timers keep (Laws/Kept.lean). -/

set_option linter.unusedTactic false
set_option linter.unreachableTactic false

namespace Sys2Proof.Machine

theorem State.modTimers_kept {w0 : Held} {l0 : Bool} (s : State) (f : TimerUnit → TimerUnit) (hk : KeptOf w0 l0 s) :
    KeptOf w0 l0 (State.modTimers s f) := by
  unfold State.modTimers
  repeat' first | (with_reducible first | assumption | (apply keptIf <;> intro _)) | dsimp only [KeptOf] | split

theorem State.finishTick_kept {w0 : Held} {l0 : Bool} (s : State) (hk : KeptOf w0 l0 s) :
    KeptOf w0 l0 (State.finishTick s) := by
  unfold State.finishTick
  repeat' first | (with_reducible first | assumption | apply State.modTimers_kept | (apply keptIf <;> intro _)) | dsimp only [KeptOf] | split

theorem State.oneEdge_kept {w0 : Held} {l0 : Bool} (s : State) (hk : KeptOf w0 l0 s) :
    KeptOf w0 l0 (State.oneEdge s) := by
  have e : (s.modTimers TimerUnit.edge).time.tick = s.time.tick := rfl
  have h := State.modTimers_kept s TimerUnit.edge hk
  unfold State.oneEdge
  dsimp only [KeptOf] at h ⊢
  rw [← e]
  exact h

theorem execTimerCompareMatch_kept {w0 : Held} {l0 : Bool} (c : Fin 16) (k : Fin 4) (s : State) (hk : KeptOf w0 l0 s) :
    KeptOut w0 l0 (execTimerCompareMatch c k s) := by
  unfold execTimerCompareMatch
  repeat' first | (with_reducible first | assumption | apply State.oneEdge_kept | apply keptNext | (apply keptIfOut <;> intro _) | (apply keptIf <;> intro _)) | dsimp only [KeptOf] | split

theorem execTimerOverflow_kept {w0 : Held} {l0 : Bool} (c : Fin 16) (s : State) (hk : KeptOf w0 l0 s) :
    KeptOut w0 l0 (execTimerOverflow c s) := by
  unfold execTimerOverflow
  repeat' first | (with_reducible first | assumption | apply State.oneEdge_kept | apply keptNext | (apply keptIfOut <;> intro _) | (apply keptIf <;> intro _)) | dsimp only [KeptOf] | split

theorem State.tmrCapture_kept {w0 : Held} {l0 : Bool} (s : State) (mask : Word) (hk : KeptOf w0 l0 s) :
    KeptOf w0 l0 (State.tmrCapture s mask) := by
  unfold State.tmrCapture
  repeat' first | (with_reducible first | assumption | apply State.modTimers_kept | (apply keptIf <;> intro _)) | dsimp only [KeptOf] | split

theorem execTmrCapture_kept {w0 : Held} {l0 : Bool} (v : Word) (s : State) (hk : KeptOf w0 l0 s) :
    KeptOut w0 l0 (execTmrCapture v s) := by
  unfold execTmrCapture
  repeat' first | (with_reducible first | assumption | apply State.tmrCapture_kept | apply keptNext | (apply keptIfOut <;> intro _) | (apply keptIf <;> intro _)) | dsimp only [KeptOf] | split

theorem State.modTmr_kept {w0 : Held} {l0 : Bool} (s : State) (c : Fin 16) (f : Tmr → Tmr) (hk : KeptOf w0 l0 s) :
    KeptOf w0 l0 (State.modTmr s c f) := by
  unfold State.modTmr
  repeat' first | (with_reducible first | assumption | apply State.modTimers_kept | (apply keptIf <;> intro _)) | dsimp only [KeptOf] | split

theorem State.modWdg_kept {w0 : Held} {l0 : Bool} (s : State) (f : Wdg → Wdg) (hk : KeptOf w0 l0 s) :
    KeptOf w0 l0 (State.modWdg s f) := by
  unfold State.modWdg
  repeat' first | (with_reducible first | assumption | (apply keptIf <;> intro _)) | dsimp only [KeptOf] | split

theorem execWdgCheckin_kept {w0 : Held} {l0 : Bool} (t : Fin 16) (s : State) (hk : KeptOf w0 l0 s) :
    KeptOut w0 l0 (execWdgCheckin t s) := by
  unfold execWdgCheckin
  repeat' first | (with_reducible first | assumption | apply State.modWdg_kept | apply keptNext | (apply keptIfOut <;> intro _) | (apply keptIf <;> intro _)) | dsimp only [KeptOf] | split

theorem execWdgKey_kept {w0 : Held} {l0 : Bool} (v : Half) (s : State) (hk : KeptOf w0 l0 s) :
    KeptOut w0 l0 (execWdgKey v s) := by
  unfold execWdgKey
  repeat' first | (with_reducible first | assumption | apply State.modWdg_kept | apply keptNext | (apply keptIfOut <;> intro _) | (apply keptIf <;> intro _)) | dsimp only [KeptOf] | split

theorem execWdgLock_kept {w0 : Held} {l0 : Bool} (v : Word) (s : State) (hk : KeptOf w0 l0 s) :
    KeptOut w0 l0 (execWdgLock v s) := by
  unfold execWdgLock
  repeat' first | (with_reducible first | assumption | apply State.modWdg_kept | apply keptNext | (apply keptIfOut <;> intro _) | (apply keptIf <;> intro _)) | dsimp only [KeptOf] | split

theorem execWatchdogExpiry_kept {w0 : Held} {l0 : Bool} (s : State) (hk : KeptOf w0 l0 s) :
    KeptOut w0 l0 (execWatchdogExpiry s) := by
  unfold execWatchdogExpiry
  repeat' first | (with_reducible first | assumption | apply State.hubReset_kept | apply State.modWdg_kept | apply keptNext | (apply keptIfOut <;> intro _) | (apply keptIf <;> intro _)) | dsimp only [KeptOf] | split

end Sys2Proof.Machine
end

