-- ==== Sys2Proof/Laws/KeptThermal.lean ====
section
/-! SUPPORT. What the operations of Machine/Thermal keep (Laws/Kept.lean). -/

set_option linter.unusedTactic false
set_option linter.unreachableTactic false

namespace Sys2Proof.Machine

theorem State.pendSlot_kept {w0 : Held} {l0 : Bool} (s : State) (sensor cause : Nat) (r : Option DegC) (count : Nat) (hk : KeptOf w0 l0 s) :
    KeptOf w0 l0 (State.pendSlot s sensor cause r count) := by
  unfold State.pendSlot
  repeat' first | (with_reducible first | assumption | (apply keptIf <;> intro _)) | dsimp only [KeptOf, State.modAon] | split

theorem State.noteShutdown_kept {w0 : Held} {l0 : Bool} (s : State) (x : Sensor) (src : EvSource) (r : Option DegC) (count : Nat) (hk : KeptOf w0 l0 s) :
    KeptOf w0 l0 (State.noteShutdown s x src r count) := by
  unfold State.noteShutdown
  repeat' first | (with_reducible first | assumption | apply State.stamp_kept | apply State.pendSlot_kept | (apply keptIf <;> intro _)) | dsimp only [KeptOf] | split

theorem State.laneShutdown_kept {w0 : Held} {l0 : Bool} (s : State) (n : Lane) (x : Sensor) (r : Option DegC) (hk : KeptOf w0 l0 s) :
    KeptOf w0 l0 (State.laneShutdown s n x r) := by
  unfold State.laneShutdown
  repeat' first | (with_reducible first | assumption | apply State.modLane_kept | apply State.stampLane_kept | apply State.fresh_kept | apply State.pendSlot_kept | apply State.noteShutdown_kept | (apply keptIf <;> intro _)) | dsimp only [KeptOf] | with_reducible apply State.fresh_kept | split

theorem State.portShutdown_kept {w0 : Held} {l0 : Bool} (s : State) (m : PortDie) (r : Option DegC) (hk : KeptOf w0 l0 s) :
    KeptOf w0 l0 (State.portShutdown s m r) := by
  unfold State.portShutdown
  repeat' first | (with_reducible first | assumption | apply State.modPort_kept | apply State.modPd_kept | apply State.modConn_kept | apply State.pdPut_kept | apply State.fresh_kept | apply State.openPair_kept | apply State.modeEnd_kept | apply State.hardNoted_kept | apply State.hardReset_kept | apply State.noteShutdown_kept | (apply keptIf <;> intro _) | (refine keptFold ?_ ?_ <;> [skip; intro s x hk])) | dsimp only [KeptOf] | with_reducible apply State.fresh_kept | split

theorem State.hubShutdown_kept {w0 : Held} {l0 : Bool} (s : State) (r : Option DegC) (hk : KeptOf w0 l0 s) :
    KeptOf w0 l0 (State.hubShutdown s r) := by
  unfold State.hubShutdown
  repeat' first | (with_reducible first | assumption | apply State.modHub_kept | apply State.hubReset_kept | apply State.noteShutdown_kept | (apply keptIf <;> intro _)) | dsimp only [KeptOf] | split

theorem State.flashShutdown_kept {w0 : Held} {l0 : Bool} (s : State) (r : Option DegC) (hk : KeptOf w0 l0 s) :
    KeptOf w0 l0 (State.flashShutdown s r) := by
  unfold State.flashShutdown
  repeat' first | (with_reducible first | assumption | apply State.noteShutdown_kept | (apply keptIf <;> intro _)) | dsimp only [KeptOf] | split

theorem execHousekeepingSlot_kept {w0 : Held} {l0 : Bool} (x : Sensor) (v : SlotValue) (s : State) (hk : KeptOf w0 l0 s) :
    KeptOut w0 l0 (execHousekeepingSlot x v s) := by
  unfold execHousekeepingSlot
  repeat' first | (with_reducible first | assumption | apply State.modLane_kept | apply State.modPd_kept | apply State.laneShutdown_kept | apply State.portShutdown_kept | apply State.hubShutdown_kept | apply State.flashShutdown_kept | apply keptNext | (apply keptIfOut <;> intro _) | (apply keptIf <;> intro _)) | dsimp only [KeptOf] | split

theorem State.countReleases_kept {w0 : Held} {l0 : Bool} (s : State) (hk : KeptOf w0 l0 s) :
    KeptOf w0 l0 (State.countReleases s) := by
  unfold State.countReleases
  repeat' first | (with_reducible first | assumption | (apply keptIf <;> intro _)) | dsimp only [KeptOf] | split

theorem execHousekeepingRound_kept {w0 : Held} {l0 : Bool} (r : RoundInfo) (s : State) (hk : KeptOf w0 l0 s) :
    KeptOut w0 l0 (execHousekeepingRound r s) := by
  unfold execHousekeepingRound
  repeat' first | (with_reducible first | assumption | apply State.stamp_kept | apply State.modHub_kept | apply State.countReleases_kept | apply keptNext | (apply keptIfOut <;> intro _) | (apply keptIf <;> intro _)) | dsimp only [KeptOf] | split

theorem State.resumePort_kept {w0 : Held} {l0 : Bool} (s : State) (p : Port) (hk : KeptOf w0 l0 s) :
    KeptOf w0 l0 (State.resumePort s p) := by
  unfold State.resumePort
  repeat' first | (with_reducible first | assumption | apply State.modPort_kept | apply State.startFeed_kept | apply State.sendCaps_kept | apply State.requestBest_kept | (apply keptIf <;> intro _)) | dsimp only [KeptOf] | split

theorem execShutdownRelease_kept {w0 : Held} {l0 : Bool} (d : Fin 8) (s : State) (hk : KeptOf w0 l0 s) :
    KeptOut w0 l0 (execShutdownRelease d s) := by
  unfold execShutdownRelease
  repeat' first | (with_reducible first | assumption | apply State.modLane_kept | apply State.modPd_kept | apply State.resumePort_kept | apply keptNext | (apply keptIfOut <;> intro _) | (apply keptIf <;> intro _) | (refine keptFold ?_ ?_ <;> [skip; intro s x hk])) | dsimp only [KeptOf] | split

theorem execShutdownSlotWrite_kept {w0 : Held} {l0 : Bool} (s : State) (hk : KeptOf w0 l0 s) :
    KeptOut w0 l0 (execShutdownSlotWrite s) := by
  unfold execShutdownSlotWrite
  repeat' first | (with_reducible first | assumption | apply keptNext | (apply keptIfOut <;> intro _) | (apply keptIf <;> intro _)) | dsimp only [KeptOf, State.modAon] | split

theorem State.copySlots_kept {w0 : Held} {l0 : Bool} (s : State) (hk : KeptOf w0 l0 s) :
    KeptOf w0 l0 (State.copySlots s) := by
  unfold State.copySlots
  repeat' first | (with_reducible first | assumption | apply State.record_kept | (apply keptIf <;> intro _) | (refine keptFold ?_ ?_ <;> [skip; intro s x hk])) | dsimp only [KeptOf, State.modAon] | split

theorem State.throttle_kept {w0 : Held} {l0 : Bool} (s : State) (hk : KeptOf w0 l0 s) :
    KeptOf w0 l0 (State.throttle s).1 := by
  unfold State.throttle
  repeat' first | (with_reducible first | assumption | (apply keptIf <;> intro _)) | dsimp only [KeptOf] | split

end Sys2Proof.Machine
end

