-- ==== Sys2Proof/Laws/KeptForecast.lean ====
section
/-! SUPPORT. What the operations of Machine/Forecast keep (Laws/Kept.lean). -/

set_option linter.unusedTactic false
set_option linter.unreachableTactic false

namespace Sys2Proof.Machine

theorem State.modFcst_kept {w0 : Held} {l0 : Bool} (s : State) (f : Forecast → Forecast) (hk : KeptOf w0 l0 s) :
    KeptOf w0 l0 (State.modFcst s f) := by
  unfold State.modFcst
  repeat' first | (with_reducible first | assumption | (apply keptIf <;> intro _)) | dsimp only [KeptOf] | split

theorem State.landDemands_kept {w0 : Held} {l0 : Bool} (s : State) (m : Nat) (hk : KeptOf w0 l0 s) :
    KeptOf w0 l0 (State.landDemands s m) := by
  unfold State.landDemands
  repeat' first | (with_reducible first | assumption | apply State.modFcst_kept | (apply keptIf <;> intro _) | (refine keptFold ?_ ?_ <;> [skip; intro s x hk])) | dsimp only [KeptOf] | split

theorem State.hdrmEval_kept {w0 : Held} {l0 : Bool} (s : State) (hk : KeptOf w0 l0 s) :
    KeptOf w0 l0 (State.hdrmEval s) := by
  unfold State.hdrmEval
  repeat' first | (with_reducible first | assumption | apply State.modFcst_kept | (apply keptIf <;> intro _)) | dsimp only [KeptOf] | split

theorem State.planStep_kept {w0 : Held} {l0 : Bool} (s : State) (d : Demand) (pre : Watt) (hk : KeptOf w0 l0 s) :
    KeptOf w0 l0 (State.planStep s d pre) := by
  unfold State.planStep
  repeat' first | (with_reducible first | assumption | apply State.modFcst_kept | (apply keptIf <;> intro _)) | dsimp only [KeptOf] | split

theorem State.planSteps_kept {w0 : Held} {l0 : Bool} (s : State) (hk : KeptOf w0 l0 s) :
    KeptOf w0 l0 (State.planSteps s) := by
  unfold State.planSteps
  repeat' first | (with_reducible first | assumption | apply State.planStep_kept | (apply keptIf <;> intro _) | (refine keptFold ?_ ?_ <;> [skip; intro s x hk])) | dsimp only [KeptOf] | split

theorem State.fcstSend_kept {w0 : Held} {l0 : Bool} (s : State) (n : Lane) (f : LaneOrder → LaneOrder) (hk : KeptOf w0 l0 s) :
    KeptOf w0 l0 (State.fcstSend s n f) := by
  unfold State.fcstSend
  repeat' first | (with_reducible first | assumption | apply State.modNode_kept | apply State.sendNode_kept | (apply keptIf <;> intro _)) | dsimp only [KeptOf] | split

theorem State.prepAct_kept {w0 : Held} {l0 : Bool} (s : State) (e : PrepEntry) (hk : KeptOf w0 l0 s) :
    KeptOf w0 l0 (State.prepAct s e) := by
  unfold State.prepAct
  repeat' first | (with_reducible first | assumption | apply State.modFcst_kept | apply State.fcstSend_kept | (apply keptIf <;> intro _)) | dsimp only [KeptOf] | split

theorem State.prepDue_kept {w0 : Held} {l0 : Bool} (s : State) (hk : KeptOf w0 l0 s) :
    KeptOf w0 l0 (State.prepDue s) := by
  unfold State.prepDue
  repeat' first | (with_reducible first | assumption | apply State.prepAct_kept | (apply keptIf <;> intro _) | (refine keptFold ?_ ?_ <;> [skip; intro s x hk])) | dsimp only [KeptOf] | split

theorem State.stepsEnd_kept {w0 : Held} {l0 : Bool} (s : State) (over_ : FcstStep → Bool) (hk : KeptOf w0 l0 s) :
    KeptOf w0 l0 (State.stepsEnd s over_) := by
  unfold State.stepsEnd
  repeat' first | (with_reducible first | assumption | apply State.modFcst_kept | apply State.fcstSend_kept | (apply keptIf <;> intro _) | (refine keptFold ?_ ?_ <;> [skip; intro s x hk])) | dsimp only [KeptOf] | split

theorem State.fcstUnlock_kept {w0 : Held} {l0 : Bool} (s : State) (hk : KeptOf w0 l0 s) :
    KeptOf w0 l0 (State.fcstUnlock s) := by
  unfold State.fcstUnlock
  repeat' first | (with_reducible first | assumption | apply State.fresh_kept | apply State.modFcst_kept | apply State.fcstSend_kept | (apply keptIf <;> intro _) | (refine keptFold ?_ ?_ <;> [skip; intro s x hk])) | dsimp only [KeptOf] | with_reducible apply State.fresh_kept | split

theorem State.fcstDecide_kept {w0 : Held} {l0 : Bool} (s : State) (m : Nat) (lowered : Bool) (hk : KeptOf w0 l0 s) :
    KeptOf w0 l0 (State.fcstDecide s m lowered) := by
  unfold State.fcstDecide
  repeat' first | (with_reducible first | assumption | apply State.modFcst_kept | apply State.landDemands_kept | apply State.hdrmEval_kept | apply State.planSteps_kept | apply State.prepDue_kept | apply State.stepsEnd_kept | apply State.fcstUnlock_kept | (apply keptIf <;> intro _) | (refine keptFold ?_ ?_ <;> [skip; intro s x hk])) | dsimp only [KeptOf] | split

theorem execForecastFrameStart_kept {w0 : Held} {l0 : Bool} (n : Fin 16) (s : State) (hk : KeptOf w0 l0 s) :
    KeptOut w0 l0 (execForecastFrameStart n s) := by
  unfold execForecastFrameStart
  repeat' first | (with_reducible first | assumption | apply State.modFcst_kept | apply State.hdrmEval_kept | apply keptNext | (apply keptIfOut <;> intro _) | (apply keptIf <;> intro _)) | dsimp only [KeptOf] | split

theorem State.fcstDiscard_kept {w0 : Held} {l0 : Bool} (s : State) (f : Forecast → Forecast) (hk : KeptOf w0 l0 s) :
    KeptOf w0 l0 (State.fcstDiscard s f) := by
  unfold State.fcstDiscard
  repeat' first | (with_reducible first | assumption | apply State.fresh_kept | apply State.modFcst_kept | (apply keptIf <;> intro _)) | dsimp only [KeptOf] | with_reducible apply State.fresh_kept | split

theorem execForecastFrameHandover_kept {w0 : Held} {l0 : Bool} (f : FdiFrame) (s : State) (hk : KeptOf w0 l0 s) :
    KeptOut w0 l0 (execForecastFrameHandover f s) := by
  unfold execForecastFrameHandover
  repeat' first | (with_reducible first | assumption | apply State.fresh_kept | apply State.ok_kept | apply State.modFcst_kept | apply State.fcstDiscard_kept | apply keptNext | (apply keptIfOut <;> intro _) | (apply keptIf <;> intro _)) | dsimp only [KeptOf] | with_reducible apply State.fresh_kept | split

theorem execBlockStart_kept {w0 : Held} {l0 : Bool} (s : State) (hk : KeptOf w0 l0 s) :
    KeptOut w0 l0 (execBlockStart s) := by
  unfold execBlockStart
  repeat' first | (with_reducible first | assumption | apply State.modFcst_kept | apply State.hdrmEval_kept | apply keptNext | (apply keptIfOut <;> intro _) | (apply keptIf <;> intro _)) | dsimp only [KeptOf] | split

theorem execForecastUnlock_kept {w0 : Held} {l0 : Bool} (s : State) (hk : KeptOf w0 l0 s) :
    KeptOut w0 l0 (execForecastUnlock s) := by
  unfold execForecastUnlock
  repeat' first | (with_reducible first | assumption | apply State.fcstUnlock_kept | apply keptNext | (apply keptIfOut <;> intro _) | (apply keptIf <;> intro _)) | dsimp only [KeptOf] | split

theorem execPrepositionAction_kept {w0 : Held} {l0 : Bool} (n : Lane) (a : PrepAction) (s : State) (hk : KeptOf w0 l0 s) :
    KeptOut w0 l0 (execPrepositionAction n a s) := by
  unfold execPrepositionAction
  repeat' first | (with_reducible first | assumption | apply State.prepAct_kept | apply keptNext | (apply keptIfOut <;> intro _) | (apply keptIf <;> intro _)) | dsimp only [KeptOf] | split

theorem execBiasHoldExpiry_kept {w0 : Held} {l0 : Bool} (s : State) (hk : KeptOf w0 l0 s) :
    KeptOut w0 l0 (execBiasHoldExpiry s) := by
  unfold execBiasHoldExpiry
  repeat' first | (with_reducible first | assumption | apply State.modFcst_kept | apply State.fcstSend_kept | apply keptNext | (apply keptIfOut <;> intro _) | (apply keptIf <;> intro _)) | dsimp only [KeptOf] | split

theorem execVioLost_kept {w0 : Held} {l0 : Bool} (s : State) (hk : KeptOf w0 l0 s) :
    KeptOut w0 l0 (execVioLost s) := by
  unfold execVioLost
  repeat' first | (with_reducible first | assumption | apply State.modHub_kept | apply State.fcstUnlock_kept | apply keptNext | (apply keptIfOut <;> intro _) | (apply keptIf <;> intro _)) | dsimp only [KeptOf, State.modAon] | split

theorem execVioReturn_kept {w0 : Held} {l0 : Bool} (intervalUs : Nat) (s : State) (hk : KeptOf w0 l0 s) :
    KeptOut w0 l0 (execVioReturn intervalUs s) := by
  unfold execVioReturn
  repeat' first | (with_reducible first | assumption | apply State.modHub_kept | apply keptNext | (apply keptIfOut <;> intro _) | (apply keptIf <;> intro _)) | dsimp only [KeptOf, State.modAon] | split

end Sys2Proof.Machine
end

