-- ==== Sys2Proof/Laws/KeptHostIf.lean ====
section
/-! SUPPORT. What the operations of Machine/HostIf keep (Laws/Kept.lean). -/

set_option linter.unusedTactic false
set_option linter.unreachableTactic false

namespace Sys2Proof.Machine

theorem State.checkAlert_kept {w0 : Held} {l0 : Bool} (s : State) (hk : KeptOf w0 l0 s) :
    KeptOf w0 l0 (State.checkAlert s) := by
  unfold State.checkAlert
  repeat' first | (with_reducible first | assumption | apply State.alert_kept | (apply keptIf <;> intro _)) | dsimp only [KeptOf] | split

theorem State.violate_kept {w0 : Held} {l0 : Bool} (s : State) (i : Iface) (a : Nat) (write : Bool) (kind : BitVec 2) (hk : KeptOf w0 l0 s) :
    KeptOf w0 l0 (State.violate s i a write kind) := by
  unfold State.violate
  repeat' first | (with_reducible first | assumption | (apply keptIf <;> intro _)) | dsimp only [KeptOf] | split

theorem State.latchRing_kept {w0 : Held} {l0 : Bool} (s : State) (c : HostChan) (b : RingBit) (hk : KeptOf w0 l0 s) :
    KeptOf w0 l0 (State.latchRing s c b) := by
  unfold State.latchRing
  repeat' first | (with_reducible first | assumption | (apply keptIf <;> intro _)) | dsimp only [KeptOf] | split

theorem State.ringPost_kept {w0 : Held} {l0 : Bool} (s : State) (c : HostChan) (hk : KeptOf w0 l0 s) :
    KeptOf w0 l0 (State.ringPost s c) := by
  unfold State.ringPost
  repeat' first | (with_reducible first | assumption | apply State.modChan_kept | apply State.overrun_kept | apply State.latchRing_kept | (apply keptIf <;> intro _)) | dsimp only [KeptOf] | split

theorem State.ringUrgent_kept {w0 : Held} {l0 : Bool} (s : State) (c : HostChan) (hk : KeptOf w0 l0 s) :
    KeptOf w0 l0 (State.ringUrgent s c) := by
  unfold State.ringUrgent
  repeat' first | (with_reducible first | assumption | apply State.modChan_kept | apply State.overrun_kept | apply State.latchRing_kept | (apply keptIf <;> intro _)) | dsimp only [KeptOf] | split

theorem State.ringClear_kept {w0 : Held} {l0 : Bool} (s : State) (c : HostChan) (b : RingBit) (hk : KeptOf w0 l0 s) :
    KeptOf w0 l0 (State.ringClear s c b) := by
  unfold State.ringClear
  repeat' first | (with_reducible first | assumption | apply State.latchRing_kept | (apply keptIf <;> intro _)) | dsimp only [KeptOf] | split

theorem State.ring_kept {w0 : Held} {l0 : Bool} (s : State) (c : HostChan) (b : RingBit) (hk : KeptOf w0 l0 s) :
    KeptOf w0 l0 (State.ring s c b) := by
  unfold State.ring
  repeat' first | (with_reducible first | assumption | apply State.ringPost_kept | apply State.ringUrgent_kept | apply State.ringClear_kept | (apply keptIf <;> intro _)) | dsimp only [KeptOf] | split

theorem State.writeDbIn_kept {w0 : Held} {l0 : Bool} (s : State) (i : Iface) (v : Word) (hk : KeptOf w0 l0 s) :
    KeptOf w0 l0 (State.writeDbIn s i v) := by
  unfold State.writeDbIn
  repeat' first | (with_reducible first | assumption | apply State.ring_kept | (apply keptIf <;> intro _) | (refine keptFold ?_ ?_ <;> [skip; intro s x hk])) | dsimp only [KeptOf] | split

theorem State.writeDbMask_kept {w0 : Held} {l0 : Bool} (s : State) (i : Iface) (v : Word) (hk : KeptOf w0 l0 s) :
    KeptOf w0 l0 (State.writeDbMask s i v) := by
  unfold State.writeDbMask
  repeat' first | (with_reducible first | assumption | (apply keptIf <;> intro _)) | dsimp only [KeptOf] | split

theorem State.writeHdbOut_kept {w0 : Held} {l0 : Bool} (s : State) (i : Iface) (v : Word) (hk : KeptOf w0 l0 s) :
    KeptOf w0 l0 (State.writeHdbOut s i v) := by
  unfold State.writeHdbOut
  repeat' first | (with_reducible first | assumption | (apply keptIf <;> intro _)) | dsimp only [KeptOf] | split

theorem State.writeHdbMask_kept {w0 : Held} {l0 : Bool} (s : State) (i : Iface) (v : Word) (hk : KeptOf w0 l0 s) :
    KeptOf w0 l0 (State.writeHdbMask s i v) := by
  unfold State.writeHdbMask
  repeat' first | (with_reducible first | assumption | (apply keptIf <;> intro _)) | dsimp only [KeptOf] | split

theorem State.clearViol_kept {w0 : Held} {l0 : Bool} (s : State) (hk : KeptOf w0 l0 s) :
    KeptOf w0 l0 (State.clearViol s) := by
  unfold State.clearViol
  repeat' first | (with_reducible first | assumption | (apply keptIf <;> intro _)) | dsimp only [KeptOf] | split

theorem State.queueHnd_kept {w0 : Held} {l0 : Bool} (s : State) (r : Nat) (v : Word) (hk : KeptOf w0 l0 s) :
    KeptOf w0 l0 (State.queueHnd s r v) := by
  unfold State.queueHnd
  repeat' first | (with_reducible first | assumption | (apply keptIf <;> intro _)) | dsimp only [KeptOf] | split

theorem State.applyWord_kept {w0 : Held} {l0 : Bool} (s : State) (i : Iface) (a : Nat) (v : Word) (hk : KeptOf w0 l0 s) :
    KeptOf w0 l0 (State.applyWord s i a v) := by
  unfold State.applyWord
  repeat' first | (with_reducible first | assumption | apply State.memWrite_kept | apply State.modTel_kept | apply State.capture_kept | apply State.releaseTel_kept | apply State.tmrCapture_kept | apply State.writeDbIn_kept | apply State.writeDbMask_kept | apply State.writeHdbOut_kept | apply State.writeHdbMask_kept | apply State.clearViol_kept | apply State.queueHnd_kept | (apply keptIf <;> intro _)) | dsimp only [KeptOf] | split

theorem State.hostWrite_kept {w0 : Held} {l0 : Bool} (s : State) (i : Iface) (a : Nat) (v : Word) (hk : KeptOf w0 l0 s) :
    KeptOf w0 l0 (State.hostWrite s i a v) := by
  unfold State.hostWrite
  repeat' first | (with_reducible first | assumption | apply State.violate_kept | apply State.applyWord_kept | (apply keptIf <;> intro _)) | dsimp only [KeptOf] | split

theorem State.readEffect_kept {w0 : Held} {l0 : Bool} (s : State) (a : Nat) (hk : KeptOf w0 l0 s) :
    KeptOf w0 l0 (State.readEffect s a) := by
  unfold State.readEffect
  repeat' first | (with_reducible first | assumption | apply State.modMbx_kept | apply State.overrun_kept | (apply keptIf <;> intro _)) | dsimp only [KeptOf] | split

theorem State.burstWord_kept {w0 : Held} {l0 : Bool} (s : State) (i : Iface) (first : Bool) (a : Nat) (hk : KeptOf w0 l0 s) :
    KeptOf w0 l0 (State.burstWord s i first a).2 := by
  unfold State.burstWord
  repeat' first | (with_reducible first | assumption | apply State.latchBlock_kept | apply State.readEffect_kept | (apply keptIf <;> intro _)) | dsimp only [KeptOf] | split

theorem State.burst_kept {w0 : Held} {l0 : Bool} (s : State) (i : Iface) (a : Nat) (first : Bool) (n : Nat)
    (hk : KeptOf w0 l0 s) : KeptOf w0 l0 (State.burst s i a first n).2 := by
  induction n generalizing s a first with
  | zero => exact hk
  | succ k ih => exact ih _ _ _ (State.burstWord_kept _ _ _ _ hk)

theorem State.setOut_kept {w0 : Held} {l0 : Bool} (s : State) (i : Iface) (b : List Byte) (hk : KeptOf w0 l0 s) :
    KeptOf w0 l0 (State.setOut s i b) := by
  unfold State.setOut
  repeat' first | (with_reducible first | assumption | (apply keptIf <;> intro _)) | dsimp only [KeptOf] | split

theorem State.hostFrame_kept {w0 : Held} {l0 : Bool} (s : State) (i : Iface) (b : List Byte) (hk : KeptOf w0 l0 s) :
    KeptOf w0 l0 (State.hostFrame s i b) := by
  unfold State.hostFrame
  repeat' first | (with_reducible first | assumption | apply State.violate_kept | apply State.applyWord_kept | apply State.burst_kept | apply State.setOut_kept | (apply keptIf <;> intro _) | (refine keptFold ?_ ?_ <;> [skip; intro s x hk])) | dsimp only [KeptOf] | split

theorem execSpiFrame_kept {w0 : Held} {l0 : Bool} (bytes : List Byte) (s : State) (hk : KeptOf w0 l0 s) :
    KeptOut w0 l0 (execSpiFrame bytes s) := by
  unfold execSpiFrame
  repeat' first | (with_reducible first | assumption | apply State.setOut_kept | apply State.hostFrame_kept | apply keptNext | (apply keptIfOut <;> intro _) | (apply keptIf <;> intro _)) | dsimp only [KeptOf] | split

theorem execUartFrame_kept {w0 : Held} {l0 : Bool} (bytes : List Byte) (s : State) (hk : KeptOf w0 l0 s) :
    KeptOut w0 l0 (execUartFrame bytes s) := by
  unfold execUartFrame
  repeat' first | (with_reducible first | assumption | apply State.hostFrame_kept | apply keptNext | (apply keptIfOut <;> intro _) | (apply keptIf <;> intro _)) | dsimp only [KeptOf] | split

theorem execUartFrameGap_kept {w0 : Held} {l0 : Bool} (s : State) (hk : KeptOf w0 l0 s) :
    KeptOut w0 l0 (execUartFrameGap s) := by
  unfold execUartFrameGap
  repeat' first | (with_reducible first | assumption | apply keptNext | (apply keptIfOut <;> intro _) | (apply keptIf <;> intro _)) | dsimp only [KeptOf] | split

theorem State.i2cWrite_kept {w0 : Held} {l0 : Bool} (s : State) (a n : Nat) (d : List Byte)
    (hk : KeptOf w0 l0 s) : KeptOf w0 l0 (State.i2cWrite s a n d).2 := by
  induction n generalizing s a d with
  | zero => exact hk
  | succ k ih =>
    cases d with
    | nil => exact hk
    | cons b r =>
      unfold State.i2cWrite
      split
      · exact State.violate_kept _ _ _ _ _ hk
      · split
        · exact hk
        · exact ih _ _ _ (State.hostWrite_kept _ _ _ _ hk)

theorem State.i2cRead_kept {w0 : Held} {l0 : Bool} (s : State) (a : Nat) (first : Bool) (n : Nat)
    (hk : KeptOf w0 l0 s) : KeptOf w0 l0 (State.i2cRead s a first n).2 := by
  induction n generalizing s a first with
  | zero => exact hk
  | succ k ih =>
    unfold State.i2cRead
    split
    · exact State.violate_kept _ _ _ _ _ hk
    · exact ih _ _ _ (State.burstWord_kept _ _ _ _ hk)

theorem execI2cTransfer_kept {w0 : Held} {l0 : Bool} (x : I2cTransfer) (s : State) (hk : KeptOf w0 l0 s) :
    KeptOut w0 l0 (execI2cTransfer x s) := by
  unfold execI2cTransfer
  repeat' first | (with_reducible first | assumption | apply State.violate_kept | apply State.setOut_kept | apply State.i2cWrite_kept | apply State.i2cRead_kept | apply keptNext | (apply keptIfOut <;> intro _) | (apply keptIf <;> intro _)) | dsimp only [KeptOf] | split

theorem execPost_kept {w0 : Held} {l0 : Bool} (c : HostChan) (s : State) (hk : KeptOf w0 l0 s) :
    KeptOut w0 l0 (execPost c s) := by
  unfold execPost
  repeat' first | (with_reducible first | assumption | apply State.ring_kept | apply keptNext | (apply keptIfOut <;> intro _) | (apply keptIf <;> intro _)) | dsimp only [KeptOf] | split

theorem execUrgent_kept {w0 : Held} {l0 : Bool} (c : HostChan) (s : State) (hk : KeptOf w0 l0 s) :
    KeptOut w0 l0 (execUrgent c s) := by
  unfold execUrgent
  repeat' first | (with_reducible first | assumption | apply State.ring_kept | apply keptNext | (apply keptIfOut <;> intro _) | (apply keptIf <;> intro _)) | dsimp only [KeptOf] | split

theorem execCancel_kept {w0 : Held} {l0 : Bool} (c : HostChan) (s : State) (hk : KeptOf w0 l0 s) :
    KeptOut w0 l0 (execCancel c s) := by
  unfold execCancel
  repeat' first | (with_reducible first | assumption | apply State.ring_kept | apply keptNext | (apply keptIfOut <;> intro _) | (apply keptIf <;> intro _)) | dsimp only [KeptOf] | split

theorem execResync_kept {w0 : Held} {l0 : Bool} (c : HostChan) (s : State) (hk : KeptOf w0 l0 s) :
    KeptOut w0 l0 (execResync c s) := by
  unfold execResync
  repeat' first | (with_reducible first | assumption | apply State.ring_kept | apply keptNext | (apply keptIfOut <;> intro _) | (apply keptIf <;> intro _)) | dsimp only [KeptOf] | split

theorem execDbMaskWrite_kept {w0 : Held} {l0 : Bool} (i : Iface) (v : Word) (s : State) (hk : KeptOf w0 l0 s) :
    KeptOut w0 l0 (execDbMaskWrite i v s) := by
  unfold execDbMaskWrite
  repeat' first | (with_reducible first | assumption | apply State.hostWrite_kept | apply keptNext | (apply keptIfOut <;> intro _) | (apply keptIf <;> intro _)) | dsimp only [KeptOf] | split

theorem execHdbOutClear_kept {w0 : Held} {l0 : Bool} (i : Iface) (v : Word) (s : State) (hk : KeptOf w0 l0 s) :
    KeptOut w0 l0 (execHdbOutClear i v s) := by
  unfold execHdbOutClear
  repeat' first | (with_reducible first | assumption | apply State.hostWrite_kept | apply keptNext | (apply keptIfOut <;> intro _) | (apply keptIf <;> intro _)) | dsimp only [KeptOf] | split

theorem execHdbMaskWrite_kept {w0 : Held} {l0 : Bool} (i : Iface) (v : Word) (s : State) (hk : KeptOf w0 l0 s) :
    KeptOut w0 l0 (execHdbMaskWrite i v s) := by
  unfold execHdbMaskWrite
  repeat' first | (with_reducible first | assumption | apply State.hostWrite_kept | apply keptNext | (apply keptIfOut <;> intro _) | (apply keptIf <;> intro _)) | dsimp only [KeptOf] | split

theorem execOverrunRead_kept {w0 : Held} {l0 : Bool} (i : Iface) (c : Fin 8) (s : State) (hk : KeptOf w0 l0 s) :
    KeptOut w0 l0 (execOverrunRead i c s) := by
  unfold execOverrunRead
  repeat' first | (with_reducible first | assumption | apply State.burstWord_kept | apply keptNext | (apply keptIfOut <;> intro _) | (apply keptIf <;> intro _)) | dsimp only [KeptOf] | with_reducible apply State.burstWord_kept | split

theorem execViolClear_kept {w0 : Held} {l0 : Bool} (s : State) (hk : KeptOf w0 l0 s) :
    KeptOut w0 l0 (execViolClear s) := by
  unfold execViolClear
  repeat' first | (with_reducible first | assumption | apply State.clearViol_kept | apply keptNext | (apply keptIfOut <;> intro _) | (apply keptIf <;> intro _)) | dsimp only [KeptOf] | split

theorem execRegisterWrite_kept {w0 : Held} {l0 : Bool} (w : RegWrite) (s : State) (hk : KeptOf w0 l0 s) :
    KeptOut w0 l0 (execRegisterWrite w s) := by
  unfold execRegisterWrite
  repeat' first | (with_reducible first | assumption | apply State.modTmr_kept | apply State.modWdg_kept | apply State.hostWrite_kept | apply keptNext | (apply keptIfOut <;> intro _) | (apply keptIf <;> intro _)) | dsimp only [KeptOf] | split

end Sys2Proof.Machine
end

