-- ==== Sys2Proof/Laws/KeptCommands.lean ====
section
/-! SUPPORT. What the operations of Machine/Commands keep (Laws/Kept.lean). -/

set_option linter.unusedTactic false
set_option linter.unreachableTactic false

namespace Sys2Proof.Machine

theorem State.dropPost_kept {w0 : Held} {l0 : Bool} (s : State) (c : HostChan) (tick : Nat) (hk : KeptOf w0 l0 s) :
    KeptOf w0 l0 (State.dropPost s c tick) := by
  unfold State.dropPost
  repeat' first | (with_reducible first | assumption | (apply keptIf <;> intro _)) | dsimp only [KeptOf] | split

theorem State.giveUp_kept {w0 : Held} {l0 : Bool} (s : State) (c : HostChan) (r : Running) (hk : KeptOf w0 l0 s) :
    KeptOf w0 l0 (State.giveUp s c r) := by
  unfold State.giveUp
  repeat' first | (with_reducible first | assumption | apply State.dropJobs_kept | apply State.abortRequest_kept | (apply keptIf <;> intro _)) | dsimp only [KeptOf] | split

theorem State.takeCancel_kept {w0 : Held} {l0 : Bool} (s : State) (c : HostChan) (tick : Nat) (hk : KeptOf w0 l0 s) :
    KeptOf w0 l0 (State.takeCancel s c tick) := by
  unfold State.takeCancel
  repeat' first | (with_reducible first | assumption | apply State.answerNormal_kept | apply State.dropPost_kept | apply State.giveUp_kept | (apply keptIf <;> intro _)) | dsimp only [KeptOf] | split

theorem State.takeResync_kept {w0 : Held} {l0 : Bool} (s : State) (c : HostChan) (tick : Nat) (hk : KeptOf w0 l0 s) :
    KeptOf w0 l0 (State.takeResync s c tick) := by
  unfold State.takeResync
  repeat' first | (with_reducible first | assumption | apply State.modChan_kept | apply State.setHdb_kept | apply State.clearHdbNibble_kept | apply State.dropPost_kept | apply State.giveUp_kept | (apply keptIf <;> intro _)) | dsimp only [KeptOf] | split

theorem State.serve_kept {w0 : Held} {l0 : Bool} (s : State) (op : Nat) (body : State → Res) (hk : KeptOf w0 l0 s) (hb : ∀ s, KeptOf w0 l0 s → KeptRes w0 l0 (body s)) :
    KeptRes w0 l0 (State.serve s op body) := by
  unfold State.serve
  repeat' first | (with_reducible first | assumption | apply State.fail_kept | apply keptReply | apply keptRun | apply hb | (apply keptIfRes <;> intro _)) | dsimp only [KeptOf]  | split

theorem cmdNop_kept {w0 : Held} {l0 : Bool} (d : Desc) (s : State) (hk : KeptOf w0 l0 s) :
    KeptRes w0 l0 (cmdNop d s) := by
  unfold cmdNop
  repeat' first | (with_reducible first | assumption | apply State.okWith_kept | apply keptReply | apply keptRun | (apply keptIfRes <;> intro _) | (apply keptIf <;> intro _)) | dsimp only [KeptOf] | split

theorem cmdReset_kept {w0 : Held} {l0 : Bool} (d : Desc) (s : State) (hk : KeptOf w0 l0 s) :
    KeptRes w0 l0 (cmdReset d s) := by
  unfold cmdReset
  repeat' first | (with_reducible first | assumption | apply State.ok_kept | apply State.fail_kept | apply State.modHub_kept | apply keptReply | apply keptRun | (apply keptIfRes <;> intro _) | (apply keptIf <;> intro _)) | dsimp only [KeptOf] | split

theorem cmdSafeEnter_kept {w0 : Held} {l0 : Bool} (s : State) (hk : KeptOf w0 l0 s) :
    KeptRes w0 l0 (cmdSafeEnter s) := by
  unfold cmdSafeEnter
  repeat' first | (with_reducible first | assumption | apply State.ok_kept | apply State.setSafe_kept | apply keptReply | apply keptRun | (apply keptIfRes <;> intro _) | (apply keptIf <;> intro _)) | dsimp only [KeptOf] | split

theorem cmdSafeClear_kept {w0 : Held} (s : State) (hk : KeptOf w0 false s) :
    KeptRes w0 false (cmdSafeClear s) := by
  unfold cmdSafeClear
  repeat' first | (with_reducible first | assumption | apply State.ok_kept | apply State.fail_kept | apply keptReply | apply keptRun | (apply keptIfRes <;> intro _) | (apply keptIf <;> intro _)) | dsimp only [KeptOf, State.modAon] | with_reducible apply keptFree | split

theorem State.awaitRecord_kept {w0 : Held} {l0 : Bool} (s : State) (c : HostChan) (before : Nat) (hk : KeptOf w0 l0 s) :
    KeptRes w0 l0 (State.awaitRecord s c before) := by
  unfold State.awaitRecord
  repeat' first | (with_reducible first | assumption | apply State.modChan_kept | apply State.ok_kept | apply keptReply | apply keptRun | (apply keptIfRes <;> intro _) | (apply keptIf <;> intro _)) | dsimp only [KeptOf] | split

theorem cmdShipEnter_kept {w0 : Held} {l0 : Bool} (c : HostChan) (s : State) (hk : KeptOf w0 l0 s) :
    KeptRes w0 l0 (cmdShipEnter c s) := by
  unfold cmdShipEnter
  repeat' first | (with_reducible first | assumption | apply State.fail_kept | apply State.pathRecord_kept | apply State.shipStart_kept | apply State.awaitRecord_kept | apply keptReply | apply keptRun | (apply keptIfRes <;> intro _) | (apply keptIf <;> intro _)) | dsimp only [KeptOf] | split

theorem cmdDormantEnter_kept {w0 : Held} {l0 : Bool} (c : HostChan) (s : State) (hk : KeptOf w0 l0 s) :
    KeptRes w0 l0 (cmdDormantEnter c s) := by
  unfold cmdDormantEnter
  repeat' first | (with_reducible first | assumption | apply State.fail_kept | apply State.pathRecord_kept | apply State.dormantStart_kept | apply State.awaitRecord_kept | apply keptReply | apply keptRun | (apply keptIfRes <;> intro _) | (apply keptIf <;> intro _)) | dsimp only [KeptOf] | split

theorem State.modCfg_kept {w0 : Held} {l0 : Bool} (s : State) (f : Cfg → Cfg) (hk : KeptOf w0 l0 s) :
    KeptOf w0 l0 (State.modCfg s f) := by
  unfold State.modCfg
  repeat' first | (with_reducible first | assumption | (apply keptIf <;> intro _)) | dsimp only [KeptOf] | split

theorem cmdFuncStop_kept {w0 : Held} {l0 : Bool} (c : HostChan) (d : Desc) (s : State) (hk : KeptOf w0 l0 s) :
    KeptRes w0 l0 (cmdFuncStop c d s) := by
  unfold cmdFuncStop
  repeat' first | (with_reducible first | assumption | apply State.ok_kept | apply State.fail_kept | apply State.modCfg_kept | apply keptReply | apply keptRun | (apply keptIfRes <;> intro _) | (apply keptIf <;> intro _)) | dsimp only [KeptOf] | split

theorem State.restartFuncs_kept {w0 : Held} {l0 : Bool} (s : State) (m : BitVec 15) (hk : KeptOf w0 l0 s) :
    KeptOf w0 l0 (State.restartFuncs s m) := by
  unfold State.restartFuncs
  repeat' first | (with_reducible first | assumption | apply State.modHub_kept | apply State.modCfg_kept | (apply keptIf <;> intro _)) | dsimp only [KeptOf] | split

theorem cmdFuncAbort_kept {w0 : Held} {l0 : Bool} (c : HostChan) (d : Desc) (s : State) (hk : KeptOf w0 l0 s) :
    KeptRes w0 l0 (cmdFuncAbort c d s) := by
  unfold cmdFuncAbort
  repeat' first | (with_reducible first | assumption | apply State.ok_kept | apply State.fail_kept | apply State.restartFuncs_kept | apply keptReply | apply keptRun | (apply keptIfRes <;> intro _) | (apply keptIf <;> intro _)) | dsimp only [KeptOf] | split

theorem cmdCfgWrite_kept {w0 : Held} {l0 : Bool} (c : HostChan) (d : Desc) (s : State) (hk : KeptOf w0 l0 s) :
    KeptRes w0 l0 (cmdCfgWrite c d s) := by
  unfold cmdCfgWrite
  repeat' first | (with_reducible first | assumption | apply State.ok_kept | apply State.modCfg_kept | apply keptReply | apply keptRun | (apply keptIfRes <;> intro _) | (apply keptIf <;> intro _) | (refine keptFold ?_ ?_ <;> [skip; intro s x hk])) | dsimp only [KeptOf] | split

theorem cmdCfgRead_kept {w0 : Held} {l0 : Bool} (d : Desc) (s : State) (hk : KeptOf w0 l0 s) :
    KeptRes w0 l0 (cmdCfgRead d s) := by
  unfold cmdCfgRead
  repeat' first | (with_reducible first | assumption | apply State.okWith_kept | apply keptReply | apply keptRun | (apply keptIfRes <;> intro _) | (apply keptIf <;> intro _)) | dsimp only [KeptOf] | split

theorem cmdFuncStart_kept {w0 : Held} {l0 : Bool} (c : HostChan) (d : Desc) (s : State) (hk : KeptOf w0 l0 s) :
    KeptRes w0 l0 (cmdFuncStart c d s) := by
  unfold cmdFuncStart
  repeat' first | (with_reducible first | assumption | apply State.addJob_kept | apply State.ok_kept | apply State.fail_kept | apply State.restartFuncs_kept | apply keptReply | apply keptRun | (apply keptIfRes <;> intro _) | (apply keptIf <;> intro _)) | dsimp only [KeptOf] | split

theorem State.roleCheck_kept {w0 : Held} {l0 : Bool} (s : State) (m : BitVec 15) (hk : KeptOf w0 l0 s) :
    KeptOf w0 l0 (State.roleCheck s m) := by
  unfold State.roleCheck
  repeat' first | (with_reducible first | assumption | apply State.errorRecovery_kept | (apply keptIf <;> intro _) | (refine keptFold ?_ ?_ <;> [skip; intro s x hk])) | dsimp only [KeptOf] | split

theorem State.portApplied_kept {w0 : Held} {l0 : Bool} (s : State) (has : Nat → Nat → Bool) (p : Port) (hk : KeptOf w0 l0 s) :
    KeptOf w0 l0 (State.portApplied s has p) := by
  unfold State.portApplied
  repeat' first | (with_reducible first | assumption | apply State.watchEnd_kept | apply State.sendCaps_kept | apply State.requestBest_kept | (apply keptIf <;> intro _)) | dsimp only [KeptOf] | split

theorem State.restApplied_kept {w0 : Held} {l0 : Bool} (s : State) (hk : KeptOf w0 l0 s) :
    KeptOf w0 l0 (State.restApplied s) := by
  unfold State.restApplied
  repeat' first | (with_reducible first | assumption | apply State.modPort_kept | (apply keptIf <;> intro _) | (refine keptFold ?_ ?_ <;> [skip; intro s x hk])) | dsimp only [KeptOf] | split

theorem State.acinTurned_kept {w0 : Held} {l0 : Bool} (s : State) (m : BitVec 15) (hk : KeptOf w0 l0 s) :
    KeptOf w0 l0 (State.acinTurned s m) := by
  unfold State.acinTurned
  repeat' first | (with_reducible first | assumption | apply State.modConn_kept | (apply keptIf <;> intro _)) | dsimp only [KeptOf] | split

theorem State.startDone_kept {w0 : Held} {l0 : Bool} (s : State) (c : HostChan) (r : CatRec) (hk : KeptOf w0 l0 s) :
    KeptOf w0 l0 (State.startDone s c r) := by
  unfold State.startDone
  repeat' first | (with_reducible first | assumption | apply State.record_kept | apply State.finish_kept | apply State.modCfg_kept | apply State.restartFuncs_kept | apply State.roleCheck_kept | apply State.restApplied_kept | apply State.acinTurned_kept | (apply keptIf <;> intro _)) | dsimp only [KeptOf] | split

theorem State.applySettings_kept {w0 : Held} {l0 : Bool} (s : State) (hk : KeptOf w0 l0 s) :
    KeptOf w0 l0 (State.applySettings s) := by
  unfold State.applySettings
  repeat' first | (with_reducible first | assumption | apply State.modPort_kept | apply State.sendSet_kept | apply State.pdSend_kept | apply State.modeEnd_kept | apply State.modHub_kept | apply State.trunkApplied_kept | apply State.modTel_kept | apply State.modCfg_kept | apply State.portApplied_kept | (apply keptIf <;> intro _) | (refine keptFold ?_ ?_ <;> [skip; intro s x hk])) | dsimp only [KeptOf] | split

theorem cmdLaneStop_kept {w0 : Held} {l0 : Bool} (d : Desc) (s : State) (hk : KeptOf w0 l0 s) :
    KeptRes w0 l0 (cmdLaneStop d s) := by
  unfold cmdLaneStop
  repeat' first | (with_reducible first | assumption | apply State.modPort_kept | apply State.modNode_kept | apply State.ok_kept | apply State.fail_kept | apply State.sendNode_kept | apply State.feedEnd_kept | apply State.watchEnd_kept | apply keptReply | apply keptRun | (apply keptIfRes <;> intro _) | (apply keptIf <;> intro _)) | dsimp only [KeptOf] | split

theorem cmdLaneStart_kept {w0 : Held} {l0 : Bool} (d : Desc) (s : State) (hk : KeptOf w0 l0 s) :
    KeptRes w0 l0 (cmdLaneStart d s) := by
  unfold cmdLaneStart
  repeat' first | (with_reducible first | assumption | apply State.modLane_kept | apply State.modNode_kept | apply State.ok_kept | apply State.fail_kept | apply keptReply | apply keptRun | (apply keptIfRes <;> intro _) | (apply keptIf <;> intro _)) | dsimp only [KeptOf] | split

theorem cmdLaneStatus_kept {w0 : Held} {l0 : Bool} (d : Desc) (s : State) (hk : KeptOf w0 l0 s) :
    KeptRes w0 l0 (cmdLaneStatus d s) := by
  unfold cmdLaneStatus
  repeat' first | (with_reducible first | assumption | apply State.ok_kept | apply State.okWith_kept | apply State.fail_kept | apply keptReply | apply keptRun | (apply keptIfRes <;> intro _) | (apply keptIf <;> intro _)) | dsimp only [KeptOf] | split

theorem State.awaitOut_kept {w0 : Held} {l0 : Bool} (s : State) (c : HostChan) (hk : KeptOf w0 l0 s) :
    KeptRes w0 l0 (State.awaitOut s c) := by
  unfold State.awaitOut
  repeat' first | (with_reducible first | assumption | apply State.addJob_kept | apply keptReply | apply keptRun | (apply keptIfRes <;> intro _) | (apply keptIf <;> intro _)) | dsimp only [KeptOf] | split

theorem State.setOutKind_kept {w0 : Held} {l0 : Bool} (s : State) (n : Lane) (p : Pos) (k : Option PhaseKind) (hk : KeptOf w0 l0 s) :
    KeptOf w0 l0 (State.setOutKind s n p k) := by
  unfold State.setOutKind
  repeat' first | (with_reducible first | assumption | (apply keptIf <;> intro _)) | dsimp only [KeptOf] | split

theorem cmdPhaseReturn_kept {w0 : Held} {l0 : Bool} (c : HostChan) (d : Desc) (s : State) (hk : KeptOf w0 l0 s) :
    KeptRes w0 l0 (cmdPhaseReturn c d s) := by
  unfold cmdPhaseReturn
  repeat' first | (with_reducible first | assumption | apply State.record_kept | apply State.fail_kept | apply State.awaitOut_kept | apply State.setOutKind_kept | apply keptReply | apply keptRun | (apply keptIfRes <;> intro _) | (apply keptIf <;> intro _) | (refine keptFold ?_ ?_ <;> [skip; intro s x hk])) | dsimp only [KeptOf] | split

theorem cmdPhaseRetire_kept {w0 : Held} {l0 : Bool} (c : HostChan) (d : Desc) (s : State) (hk : KeptOf w0 l0 s) :
    KeptRes w0 l0 (cmdPhaseRetire c d s) := by
  unfold cmdPhaseRetire
  repeat' first | (with_reducible first | assumption | apply State.modLane_kept | apply State.record_kept | apply State.fail_kept | apply State.awaitOut_kept | apply State.setOutKind_kept | apply keptReply | apply keptRun | (apply keptIfRes <;> intro _) | (apply keptIf <;> intro _)) | dsimp only [KeptOf] | split

theorem cmdChgSetCurrent_kept {w0 : Held} {l0 : Bool} (d : Desc) (s : State) (hk : KeptOf w0 l0 s) :
    KeptRes w0 l0 (cmdChgSetCurrent d s) := by
  unfold cmdChgSetCurrent
  repeat' first | (with_reducible first | assumption | apply State.ok_kept | apply State.fail_kept | apply State.modCharge_kept | apply State.chargeSetpoint_kept | apply keptReply | apply keptRun | (apply keptIfRes <;> intro _) | (apply keptIf <;> intro _)) | dsimp only [KeptOf] | split

theorem cmdChgHold_kept {w0 : Held} {l0 : Bool} (s : State) (hk : KeptOf w0 l0 s) :
    KeptRes w0 l0 (cmdChgHold s) := by
  unfold cmdChgHold
  repeat' first | (with_reducible first | assumption | apply State.ok_kept | apply State.fail_kept | apply State.setCause_kept | apply keptReply | apply keptRun | (apply keptIfRes <;> intro _) | (apply keptIf <;> intro _)) | dsimp only [KeptOf] | split

theorem cmdChgRestart_kept {w0 : Held} {l0 : Bool} (s : State) (hk : KeptOf w0 l0 s) :
    KeptRes w0 l0 (cmdChgRestart s) := by
  unfold cmdChgRestart
  repeat' first | (with_reducible first | assumption | apply State.ok_kept | apply State.fail_kept | apply State.clearCause_kept | apply State.clearLatched_kept | apply State.startCycle_kept | apply keptReply | apply keptRun | (apply keptIfRes <;> intro _) | (apply keptIf <;> intro _)) | dsimp only [KeptOf] | split

theorem cmdChgStatus_kept {w0 : Held} {l0 : Bool} (s : State) (hk : KeptOf w0 l0 s) :
    KeptRes w0 l0 (cmdChgStatus s) := by
  unfold cmdChgStatus
  repeat' first | (with_reducible first | assumption | apply State.okWith_kept | apply keptReply | apply keptRun | (apply keptIfRes <;> intro _) | (apply keptIf <;> intro _)) | dsimp only [KeptOf] | split

theorem cmdSrcUnlock_kept {w0 : Held} {l0 : Bool} (d : Desc) (s : State) (hk : KeptOf w0 l0 s) :
    KeptRes w0 l0 (cmdSrcUnlock d s) := by
  unfold cmdSrcUnlock
  repeat' first | (with_reducible first | assumption | apply State.modConn_kept | apply State.ok_kept | apply State.fail_kept | apply keptReply | apply keptRun | (apply keptIfRes <;> intro _) | (apply keptIf <;> intro _)) | dsimp only [KeptOf] | split

theorem cmdPortStatus_kept {w0 : Held} {l0 : Bool} (d : Desc) (s : State) (hk : KeptOf w0 l0 s) :
    KeptRes w0 l0 (cmdPortStatus d s) := by
  unfold cmdPortStatus
  repeat' first | (with_reducible first | assumption | apply State.okWith_kept | apply State.fail_kept | apply keptReply | apply keptRun | (apply keptIfRes <;> intro _) | (apply keptIf <;> intro _)) | dsimp only [KeptOf] | split

theorem cmdPortAction_kept {w0 : Held} {l0 : Bool} (d : Desc) (s : State) (hk : KeptOf w0 l0 s) :
    KeptRes w0 l0 (cmdPortAction d s) := by
  unfold cmdPortAction
  repeat' first | (with_reducible first | assumption | apply State.modPort_kept | apply State.pdSend_kept | apply State.ok_kept | apply State.fail_kept | apply State.hardReset_kept | apply State.errorRecovery_kept | apply State.softReset_kept | apply State.sendCaps_kept | apply State.requestBest_kept | apply keptReply | apply keptRun | (apply keptIfRes <;> intro _) | (apply keptIf <;> intro _)) | dsimp only [KeptOf] | split

theorem cmdTrkSend_kept {w0 : Held} {l0 : Bool} (d : Desc) (s : State) (hk : KeptOf w0 l0 s) :
    KeptRes w0 l0 (cmdTrkSend d s) := by
  unfold cmdTrkSend
  repeat' first | (with_reducible first | assumption | apply State.okWith_kept | apply State.fail_kept | apply State.originate_kept | apply keptReply | apply keptRun | (apply keptIfRes <;> intro _) | (apply keptIf <;> intro _)) | dsimp only [KeptOf] | split

theorem cmdTrkStatus_kept {w0 : Held} {l0 : Bool} (s : State) (hk : KeptOf w0 l0 s) :
    KeptRes w0 l0 (cmdTrkStatus s) := by
  unfold cmdTrkStatus
  repeat' first | (with_reducible first | assumption | apply State.okWith_kept | apply keptReply | apply keptRun | (apply keptIfRes <;> intro _) | (apply keptIf <;> intro _)) | dsimp only [KeptOf] | split

theorem cmdFcstStatus_kept {w0 : Held} {l0 : Bool} (s : State) (hk : KeptOf w0 l0 s) :
    KeptRes w0 l0 (cmdFcstStatus s) := by
  unfold cmdFcstStatus
  repeat' first | (with_reducible first | assumption | apply State.okWith_kept | apply keptReply | apply keptRun | (apply keptIfRes <;> intro _) | (apply keptIf <;> intro _)) | dsimp only [KeptOf] | split

theorem cmdTelSubscribe_kept {w0 : Held} {l0 : Bool} (c : HostChan) (d : Desc) (s : State) (hk : KeptOf w0 l0 s) :
    KeptRes w0 l0 (cmdTelSubscribe c d s) := by
  unfold cmdTelSubscribe
  lift_lets
  intros
  refine keptIfRes (fun _ => State.fail_kept _ _ hk) (fun _ => ?_)
  refine keptIfRes (fun _ => State.fail_kept _ _ hk) (fun _ => ?_)
  refine keptIfRes (fun _ => State.fail_kept _ _ hk) (fun _ => ?_)
  exact State.ok_kept _ (State.modTel_kept _ _ (State.memWrite_kept _ _ _ hk))

theorem cmdTelUnsubscribe_kept {w0 : Held} {l0 : Bool} (c : HostChan) (s : State) (hk : KeptOf w0 l0 s) :
    KeptRes w0 l0 (cmdTelUnsubscribe c s) := by
  unfold cmdTelUnsubscribe
  repeat' first | (with_reducible first | assumption | apply State.ok_kept | apply State.fail_kept | apply State.modTel_kept | apply keptReply | apply keptRun | (apply keptIfRes <;> intro _) | (apply keptIf <;> intro _)) | dsimp only [KeptOf] | split

theorem cmdLedgerInfo_kept {w0 : Held} {l0 : Bool} (s : State) (hk : KeptOf w0 l0 s) :
    KeptRes w0 l0 (cmdLedgerInfo s) := by
  unfold cmdLedgerInfo
  repeat' first | (with_reducible first | assumption | apply State.okWith_kept | apply State.fail_kept | apply keptReply | apply keptRun | (apply keptIfRes <;> intro _) | (apply keptIf <;> intro _) | (refine keptFold ?_ ?_ <;> [skip; intro s x hk])) | dsimp only [KeptOf] | split

theorem cmdLedgerRead_kept {w0 : Held} {l0 : Bool} (d : Desc) (s : State) (hk : KeptOf w0 l0 s) :
    KeptRes w0 l0 (cmdLedgerRead d s) := by
  unfold cmdLedgerRead
  repeat' first | (with_reducible first | assumption | apply State.okWith_kept | apply State.fail_kept | apply keptReply | apply keptRun | (apply keptIfRes <;> intro _) | (apply keptIf <;> intro _) | (refine keptFold ?_ ?_ <;> [skip; intro s x hk])) | dsimp only [KeptOf] | split

theorem execSysNop_kept {w0 : Held} {l0 : Bool} (c : HostChan) (slot : Slot) (d : Desc) (s : State) (hk : KeptOf w0 l0 s) :
    KeptOut w0 l0 (execSysNop c slot d s) := by
  exact keptNext (State.takeCmd_kept _ _ _ _ _ _ _ hk (fun s h => State.serve_kept s _ _ h
    (fun s h => by with_reducible apply cmdNop_kept; exact h)))

theorem execSysReset_kept {w0 : Held} {l0 : Bool} (c : HostChan) (slot : Slot) (d : Desc) (s : State) (hk : KeptOf w0 l0 s) :
    KeptOut w0 l0 (execSysReset c slot d s) := by
  exact keptNext (State.takeCmd_kept _ _ _ _ _ _ _ hk (fun s h => State.serve_kept s _ _ h
    (fun s h => by with_reducible apply cmdReset_kept; exact h)))

theorem execSafeEnter_kept {w0 : Held} {l0 : Bool} (c : HostChan) (slot : Slot) (d : Desc) (s : State) (hk : KeptOf w0 l0 s) :
    KeptOut w0 l0 (execSafeEnter c slot d s) := by
  exact keptNext (State.takeCmd_kept _ _ _ _ _ _ _ hk (fun s h => State.serve_kept s _ _ h
    (fun s h => by with_reducible apply cmdSafeEnter_kept; exact h)))

theorem execSafeClear_kept {w0 : Held} (c : HostChan) (slot : Slot) (d : Desc) (s : State) (hk : KeptOf w0 false s) :
    KeptOut w0 false (execSafeClear c slot d s) := by
  exact keptNext (State.takeCmd_kept _ _ _ _ _ _ _ hk (fun s h => State.serve_kept s _ _ h
    (fun s h => by with_reducible apply cmdSafeClear_kept; exact h)))

theorem execShipEnter_kept {w0 : Held} {l0 : Bool} (c : HostChan) (slot : Slot) (d : Desc) (s : State) (hk : KeptOf w0 l0 s) :
    KeptOut w0 l0 (execShipEnter c slot d s) := by
  exact keptNext (State.takeCmd_kept _ _ _ _ _ _ _ hk (fun s h => State.serve_kept s _ _ h
    (fun s h => by with_reducible apply cmdShipEnter_kept; exact h)))

theorem execDormantEnter_kept {w0 : Held} {l0 : Bool} (c : HostChan) (slot : Slot) (d : Desc) (s : State) (hk : KeptOf w0 l0 s) :
    KeptOut w0 l0 (execDormantEnter c slot d s) := by
  exact keptNext (State.takeCmd_kept _ _ _ _ _ _ _ hk (fun s h => State.serve_kept s _ _ h
    (fun s h => by with_reducible apply cmdDormantEnter_kept; exact h)))

theorem execFuncStop_kept {w0 : Held} {l0 : Bool} (c : HostChan) (slot : Slot) (d : Desc) (s : State) (hk : KeptOf w0 l0 s) :
    KeptOut w0 l0 (execFuncStop c slot d s) := by
  exact keptNext (State.takeCmd_kept _ _ _ _ _ _ _ hk (fun s h => State.serve_kept s _ _ h
    (fun s h => by with_reducible apply cmdFuncStop_kept; exact h)))

theorem execCfgWrite_kept {w0 : Held} {l0 : Bool} (c : HostChan) (slot : Slot) (d : Desc) (s : State) (hk : KeptOf w0 l0 s) :
    KeptOut w0 l0 (execCfgWrite c slot d s) := by
  exact keptNext (State.takeCmd_kept _ _ _ _ _ _ _ hk (fun s h => State.serve_kept s _ _ h
    (fun s h => by with_reducible apply cmdCfgWrite_kept; exact h)))

theorem execCfgRead_kept {w0 : Held} {l0 : Bool} (c : HostChan) (slot : Slot) (d : Desc) (s : State) (hk : KeptOf w0 l0 s) :
    KeptOut w0 l0 (execCfgRead c slot d s) := by
  exact keptNext (State.takeCmd_kept _ _ _ _ _ _ _ hk (fun s h => State.serve_kept s _ _ h
    (fun s h => by with_reducible apply cmdCfgRead_kept; exact h)))

theorem execFuncStart_kept {w0 : Held} {l0 : Bool} (c : HostChan) (slot : Slot) (d : Desc) (s : State) (hk : KeptOf w0 l0 s) :
    KeptOut w0 l0 (execFuncStart c slot d s) := by
  exact keptNext (State.takeCmd_kept _ _ _ _ _ _ _ hk (fun s h => State.serve_kept s _ _ h
    (fun s h => by with_reducible apply cmdFuncStart_kept; exact h)))

theorem execFuncAbort_kept {w0 : Held} {l0 : Bool} (c : HostChan) (slot : Slot) (d : Desc) (s : State) (hk : KeptOf w0 l0 s) :
    KeptOut w0 l0 (execFuncAbort c slot d s) := by
  exact keptNext (State.takeCmd_kept _ _ _ _ _ _ _ hk (fun s h => State.serve_kept s _ _ h
    (fun s h => by with_reducible apply cmdFuncAbort_kept; exact h)))

theorem execLaneStop_kept {w0 : Held} {l0 : Bool} (c : HostChan) (slot : Slot) (d : Desc) (s : State) (hk : KeptOf w0 l0 s) :
    KeptOut w0 l0 (execLaneStop c slot d s) := by
  exact keptNext (State.takeCmd_kept _ _ _ _ _ _ _ hk (fun s h => State.serve_kept s _ _ h
    (fun s h => by with_reducible apply cmdLaneStop_kept; exact h)))

theorem execLaneStart_kept {w0 : Held} {l0 : Bool} (c : HostChan) (slot : Slot) (d : Desc) (s : State) (hk : KeptOf w0 l0 s) :
    KeptOut w0 l0 (execLaneStart c slot d s) := by
  exact keptNext (State.takeCmd_kept _ _ _ _ _ _ _ hk (fun s h => State.serve_kept s _ _ h
    (fun s h => by with_reducible apply cmdLaneStart_kept; exact h)))

theorem execPhaseReturn_kept {w0 : Held} {l0 : Bool} (c : HostChan) (slot : Slot) (d : Desc) (s : State) (hk : KeptOf w0 l0 s) :
    KeptOut w0 l0 (execPhaseReturn c slot d s) := by
  exact keptNext (State.takeCmd_kept _ _ _ _ _ _ _ hk (fun s h => State.serve_kept s _ _ h
    (fun s h => by with_reducible apply cmdPhaseReturn_kept; exact h)))

theorem execPhaseRetire_kept {w0 : Held} {l0 : Bool} (c : HostChan) (slot : Slot) (d : Desc) (s : State) (hk : KeptOf w0 l0 s) :
    KeptOut w0 l0 (execPhaseRetire c slot d s) := by
  exact keptNext (State.takeCmd_kept _ _ _ _ _ _ _ hk (fun s h => State.serve_kept s _ _ h
    (fun s h => by with_reducible apply cmdPhaseRetire_kept; exact h)))

theorem execLaneStatus_kept {w0 : Held} {l0 : Bool} (c : HostChan) (slot : Slot) (d : Desc) (s : State) (hk : KeptOf w0 l0 s) :
    KeptOut w0 l0 (execLaneStatus c slot d s) := by
  exact keptNext (State.takeCmd_kept _ _ _ _ _ _ _ hk (fun s h => State.serve_kept s _ _ h
    (fun s h => by with_reducible apply cmdLaneStatus_kept; exact h)))

theorem execChgSetCurrent_kept {w0 : Held} {l0 : Bool} (c : HostChan) (slot : Slot) (d : Desc) (s : State) (hk : KeptOf w0 l0 s) :
    KeptOut w0 l0 (execChgSetCurrent c slot d s) := by
  exact keptNext (State.takeCmd_kept _ _ _ _ _ _ _ hk (fun s h => State.serve_kept s _ _ h
    (fun s h => by with_reducible apply cmdChgSetCurrent_kept; exact h)))

theorem execChgHold_kept {w0 : Held} {l0 : Bool} (c : HostChan) (slot : Slot) (d : Desc) (s : State) (hk : KeptOf w0 l0 s) :
    KeptOut w0 l0 (execChgHold c slot d s) := by
  exact keptNext (State.takeCmd_kept _ _ _ _ _ _ _ hk (fun s h => State.serve_kept s _ _ h
    (fun s h => by with_reducible apply cmdChgHold_kept; exact h)))

theorem execChgRestart_kept {w0 : Held} {l0 : Bool} (c : HostChan) (slot : Slot) (d : Desc) (s : State) (hk : KeptOf w0 l0 s) :
    KeptOut w0 l0 (execChgRestart c slot d s) := by
  exact keptNext (State.takeCmd_kept _ _ _ _ _ _ _ hk (fun s h => State.serve_kept s _ _ h
    (fun s h => by with_reducible apply cmdChgRestart_kept; exact h)))

theorem execChgStatus_kept {w0 : Held} {l0 : Bool} (c : HostChan) (slot : Slot) (d : Desc) (s : State) (hk : KeptOf w0 l0 s) :
    KeptOut w0 l0 (execChgStatus c slot d s) := by
  exact keptNext (State.takeCmd_kept _ _ _ _ _ _ _ hk (fun s h => State.serve_kept s _ _ h
    (fun s h => by with_reducible apply cmdChgStatus_kept; exact h)))

theorem execSrcUnlock_kept {w0 : Held} {l0 : Bool} (c : HostChan) (slot : Slot) (d : Desc) (s : State) (hk : KeptOf w0 l0 s) :
    KeptOut w0 l0 (execSrcUnlock c slot d s) := by
  exact keptNext (State.takeCmd_kept _ _ _ _ _ _ _ hk (fun s h => State.serve_kept s _ _ h
    (fun s h => by with_reducible apply cmdSrcUnlock_kept; exact h)))

theorem execPortStatus_kept {w0 : Held} {l0 : Bool} (c : HostChan) (slot : Slot) (d : Desc) (s : State) (hk : KeptOf w0 l0 s) :
    KeptOut w0 l0 (execPortStatus c slot d s) := by
  exact keptNext (State.takeCmd_kept _ _ _ _ _ _ _ hk (fun s h => State.serve_kept s _ _ h
    (fun s h => by with_reducible apply cmdPortStatus_kept; exact h)))

theorem execPortAction_kept {w0 : Held} {l0 : Bool} (c : HostChan) (slot : Slot) (d : Desc) (s : State) (hk : KeptOf w0 l0 s) :
    KeptOut w0 l0 (execPortAction c slot d s) := by
  exact keptNext (State.takeCmd_kept _ _ _ _ _ _ _ hk (fun s h => State.serve_kept s _ _ h
    (fun s h => by with_reducible apply cmdPortAction_kept; exact h)))

theorem execTrkSend_kept {w0 : Held} {l0 : Bool} (c : HostChan) (slot : Slot) (d : Desc) (s : State) (hk : KeptOf w0 l0 s) :
    KeptOut w0 l0 (execTrkSend c slot d s) := by
  exact keptNext (State.takeCmd_kept _ _ _ _ _ _ _ hk (fun s h => State.serve_kept s _ _ h
    (fun s h => by with_reducible apply cmdTrkSend_kept; exact h)))

theorem execTrkStatus_kept {w0 : Held} {l0 : Bool} (c : HostChan) (slot : Slot) (d : Desc) (s : State) (hk : KeptOf w0 l0 s) :
    KeptOut w0 l0 (execTrkStatus c slot d s) := by
  exact keptNext (State.takeCmd_kept _ _ _ _ _ _ _ hk (fun s h => State.serve_kept s _ _ h
    (fun s h => by with_reducible apply cmdTrkStatus_kept; exact h)))

theorem execFcstStatus_kept {w0 : Held} {l0 : Bool} (c : HostChan) (slot : Slot) (d : Desc) (s : State) (hk : KeptOf w0 l0 s) :
    KeptOut w0 l0 (execFcstStatus c slot d s) := by
  exact keptNext (State.takeCmd_kept _ _ _ _ _ _ _ hk (fun s h => State.serve_kept s _ _ h
    (fun s h => by with_reducible apply cmdFcstStatus_kept; exact h)))

theorem execTelSubscribe_kept {w0 : Held} {l0 : Bool} (c : HostChan) (slot : Slot) (d : Desc) (s : State) (hk : KeptOf w0 l0 s) :
    KeptOut w0 l0 (execTelSubscribe c slot d s) := by
  exact keptNext (State.takeCmd_kept _ _ _ _ _ _ _ hk (fun s h => State.serve_kept s _ _ h
    (fun s h => by with_reducible apply cmdTelSubscribe_kept; exact h)))

theorem execTelUnsubscribe_kept {w0 : Held} {l0 : Bool} (c : HostChan) (slot : Slot) (d : Desc) (s : State) (hk : KeptOf w0 l0 s) :
    KeptOut w0 l0 (execTelUnsubscribe c slot d s) := by
  exact keptNext (State.takeCmd_kept _ _ _ _ _ _ _ hk (fun s h => State.serve_kept s _ _ h
    (fun s h => by with_reducible apply cmdTelUnsubscribe_kept; exact h)))

theorem execLedgerInfo_kept {w0 : Held} {l0 : Bool} (c : HostChan) (slot : Slot) (d : Desc) (s : State) (hk : KeptOf w0 l0 s) :
    KeptOut w0 l0 (execLedgerInfo c slot d s) := by
  exact keptNext (State.takeCmd_kept _ _ _ _ _ _ _ hk (fun s h => State.serve_kept s _ _ h
    (fun s h => by with_reducible apply cmdLedgerInfo_kept; exact h)))

theorem execLedgerRead_kept {w0 : Held} {l0 : Bool} (c : HostChan) (slot : Slot) (d : Desc) (s : State) (hk : KeptOf w0 l0 s) :
    KeptOut w0 l0 (execLedgerRead c slot d s) := by
  exact keptNext (State.takeCmd_kept _ _ _ _ _ _ _ hk (fun s h => State.serve_kept s _ _ h
    (fun s h => by with_reducible apply cmdLedgerRead_kept; exact h)))

end Sys2Proof.Machine
end

