-- ==== Sys2Proof/Laws/KeptUpdates.lean ====
section
/-! SUPPORT. What the operations of Machine/Updates keep (Laws/Kept.lean). -/

set_option linter.unusedTactic false
set_option linter.unreachableTactic false

namespace Sys2Proof.Machine

theorem State.updJob_kept {w0 : Held} {l0 : Bool} (s : State) (c : HostChan) (op : Half) (hk : KeptOf w0 l0 s) :
    KeptRes w0 l0 (State.updJob s c op) := by
  unfold State.updJob
  repeat' first | (with_reducible first | assumption | apply State.addJob_kept | apply keptReply | apply keptRun | (apply keptIfRes <;> intro _) | (apply keptIf <;> intro _)) | dsimp only [KeptOf] | split

theorem cmdUpdOpen_kept {w0 : Held} {l0 : Bool} (c : HostChan) (d : Desc) (s : State) (hk : KeptOf w0 l0 s) :
    KeptRes w0 l0 (cmdUpdOpen c d s) := by
  unfold cmdUpdOpen
  repeat' first | (with_reducible first | assumption | apply State.fail_kept | apply State.updJob_kept | apply keptReply | apply keptRun | (apply keptIfRes <;> intro _) | (apply keptIf <;> intro _)) | dsimp only [KeptOf] | split

theorem cmdUpdBlock_kept {w0 : Held} {l0 : Bool} (c : HostChan) (d : Desc) (s : State) (hk : KeptOf w0 l0 s) :
    KeptRes w0 l0 (cmdUpdBlock c d s) := by
  unfold cmdUpdBlock
  repeat' first | (with_reducible first | assumption | apply State.fail_kept | apply State.updJob_kept | apply keptReply | apply keptRun | (apply keptIfRes <;> intro _) | (apply keptIf <;> intro _)) | dsimp only [KeptOf] | split

theorem cmdUpdSeal_kept {w0 : Held} {l0 : Bool} (c : HostChan) (s : State) (hk : KeptOf w0 l0 s) :
    KeptRes w0 l0 (cmdUpdSeal c s) := by
  unfold cmdUpdSeal
  repeat' first | (with_reducible first | assumption | apply State.fail_kept | apply State.updJob_kept | apply keptReply | apply keptRun | (apply keptIfRes <;> intro _) | (apply keptIf <;> intro _)) | dsimp only [KeptOf] | split

theorem cmdUpdKickoff_kept {w0 : Held} {l0 : Bool} (c : HostChan) (d : Desc) (s : State) (hk : KeptOf w0 l0 s) :
    KeptRes w0 l0 (cmdUpdKickoff c d s) := by
  unfold cmdUpdKickoff
  repeat' first | (with_reducible first | assumption | apply State.fail_kept | apply State.updJob_kept | apply keptReply | apply keptRun | (apply keptIfRes <;> intro _) | (apply keptIf <;> intro _)) | dsimp only [KeptOf] | split

theorem cmdUpdRelay_kept {w0 : Held} {l0 : Bool} (d : Desc) (s : State) (hk : KeptOf w0 l0 s) :
    KeptRes w0 l0 (cmdUpdRelay d s) := by
  unfold cmdUpdRelay
  repeat' first | (with_reducible first | assumption | apply State.ok_kept | apply State.fail_kept | apply State.modTrunk_kept | apply keptReply | apply keptRun | (apply keptIfRes <;> intro _) | (apply keptIf <;> intro _)) | dsimp only [KeptOf] | split

theorem cmdUpdConfirm_kept {w0 : Held} {l0 : Bool} (c : HostChan) (s : State) (hk : KeptOf w0 l0 s) :
    KeptRes w0 l0 (cmdUpdConfirm c s) := by
  unfold cmdUpdConfirm
  repeat' first | (with_reducible first | assumption | apply State.ok_kept | apply State.fail_kept | apply State.updJob_kept | apply keptReply | apply keptRun | (apply keptIfRes <;> intro _) | (apply keptIf <;> intro _)) | dsimp only [KeptOf] | split

theorem cmdUpdAbort_kept {w0 : Held} {l0 : Bool} (c : HostChan) (s : State) (hk : KeptOf w0 l0 s) :
    KeptRes w0 l0 (cmdUpdAbort c s) := by
  unfold cmdUpdAbort
  repeat' first | (with_reducible first | assumption | apply State.fail_kept | apply State.updJob_kept | apply keptReply | apply keptRun | (apply keptIfRes <;> intro _) | (apply keptIf <;> intro _)) | dsimp only [KeptOf] | split

theorem cmdUpdStatus_kept {w0 : Held} {l0 : Bool} (s : State) (hk : KeptOf w0 l0 s) :
    KeptRes w0 l0 (cmdUpdStatus s) := by
  unfold cmdUpdStatus
  repeat' first | (with_reducible first | assumption | apply State.okWith_kept | apply keptReply | apply keptRun | (apply keptIfRes <;> intro _) | (apply keptIf <;> intro _)) | dsimp only [KeptOf] | split

theorem State.storeBlock_kept {w0 : Held} {l0 : Bool} (s : State) (p : List Byte) (hk : KeptOf w0 l0 s) :
    KeptOf w0 l0 (State.storeBlock s p).2 := by
  unfold State.storeBlock
  repeat' first | (with_reducible first | assumption | apply State.modUpd_kept | apply State.journal_kept | (apply keptIf <;> intro _)) | dsimp only [KeptOf] | split

theorem State.updDone_kept {w0 : Held} {l0 : Bool} (s : State) (c : HostChan) (op : Nat) (hk : KeptOf w0 l0 s) :
    KeptOf w0 l0 (State.updDone s c op) := by
  unfold State.updDone
  repeat' first | (with_reducible first | assumption | apply State.addJob_kept | apply State.modChan_kept | apply State.finish_kept | apply State.modUpd_kept | apply State.updRecord_kept | apply State.closeSession_kept | apply State.rejectSession_kept | apply State.openSession_kept | apply State.setKickoff_kept | apply State.confirmUpdate_kept | apply State.modTrunk_kept | apply State.storeBlock_kept | (apply keptIf <;> intro _)) | dsimp only [KeptOf] | with_reducible apply State.storeBlock_kept | split

theorem cmdThermRelease_kept {w0 : Held} {l0 : Bool} (d : Desc) (s : State) (hk : KeptOf w0 l0 s) :
    KeptRes w0 l0 (cmdThermRelease d s) := by
  unfold cmdThermRelease
  repeat' first | (with_reducible first | assumption | apply State.modLane_kept | apply State.ok_kept | apply State.fail_kept | apply keptReply | apply keptRun | (apply keptIfRes <;> intro _) | (apply keptIf <;> intro _)) | dsimp only [KeptOf] | split

theorem State.hndRecord_kept {w0 : Held} {l0 : Bool} (s : State) (event : Byte) (hk : KeptOf w0 l0 s) :
    KeptOf w0 l0 (State.hndRecord s event) := by
  unfold State.hndRecord
  repeat' first | (with_reducible first | assumption | apply State.record_kept | (apply keptIf <;> intro _)) | dsimp only [KeptOf] | split

theorem cmdHndUnlock_kept {w0 : Held} {l0 : Bool} (d : Desc) (s : State) (hk : KeptOf w0 l0 s) :
    KeptRes w0 l0 (cmdHndUnlock d s) := by
  unfold cmdHndUnlock
  repeat' first | (with_reducible first | assumption | apply State.ok_kept | apply State.fail_kept | apply State.hndRecord_kept | apply keptReply | apply keptRun | (apply keptIfRes <;> intro _) | (apply keptIf <;> intro _)) | dsimp only [KeptOf] | split

theorem cmdHndLock_kept {w0 : Held} {l0 : Bool} (s : State) (hk : KeptOf w0 l0 s) :
    KeptRes w0 l0 (cmdHndLock s) := by
  unfold cmdHndLock
  repeat' first | (with_reducible first | assumption | apply State.ok_kept | apply State.hndRecord_kept | apply keptReply | apply keptRun | (apply keptIfRes <;> intro _) | (apply keptIf <;> intro _)) | dsimp only [KeptOf] | split

theorem cmdDiagRead_kept {w0 : Held} {l0 : Bool} (d : Desc) (s : State) (hk : KeptOf w0 l0 s) :
    KeptRes w0 l0 (cmdDiagRead d s) := by
  unfold cmdDiagRead
  repeat' first | (with_reducible first | assumption | apply State.modLane_kept | apply State.modPd_kept | apply State.okWith_kept | apply State.fail_kept | apply keptReply | apply keptRun | (apply keptIfRes <;> intro _) | (apply keptIf <;> intro _)) | dsimp only [KeptOf] | split

theorem execUpdOpen_kept {w0 : Held} {l0 : Bool} (c : HostChan) (slot : Slot) (d : Desc) (s : State) (hk : KeptOf w0 l0 s) :
    KeptOut w0 l0 (execUpdOpen c slot d s) := by
  exact keptNext (State.takeCmd_kept _ _ _ _ _ _ _ hk (fun s h => State.serve_kept s _ _ h
    (fun s h => by with_reducible apply cmdUpdOpen_kept; exact h)))

theorem execUpdBlock_kept {w0 : Held} {l0 : Bool} (c : HostChan) (slot : Slot) (d : Desc) (s : State) (hk : KeptOf w0 l0 s) :
    KeptOut w0 l0 (execUpdBlock c slot d s) := by
  exact keptNext (State.takeCmd_kept _ _ _ _ _ _ _ hk (fun s h => State.serve_kept s _ _ h
    (fun s h => by with_reducible apply cmdUpdBlock_kept; exact h)))

theorem execUpdSeal_kept {w0 : Held} {l0 : Bool} (c : HostChan) (slot : Slot) (d : Desc) (s : State) (hk : KeptOf w0 l0 s) :
    KeptOut w0 l0 (execUpdSeal c slot d s) := by
  exact keptNext (State.takeCmd_kept _ _ _ _ _ _ _ hk (fun s h => State.serve_kept s _ _ h
    (fun s h => by with_reducible apply cmdUpdSeal_kept; exact h)))

theorem execUpdKickoff_kept {w0 : Held} {l0 : Bool} (c : HostChan) (slot : Slot) (d : Desc) (s : State) (hk : KeptOf w0 l0 s) :
    KeptOut w0 l0 (execUpdKickoff c slot d s) := by
  exact keptNext (State.takeCmd_kept _ _ _ _ _ _ _ hk (fun s h => State.serve_kept s _ _ h
    (fun s h => by with_reducible apply cmdUpdKickoff_kept; exact h)))

theorem execUpdRelay_kept {w0 : Held} {l0 : Bool} (c : HostChan) (slot : Slot) (d : Desc) (s : State) (hk : KeptOf w0 l0 s) :
    KeptOut w0 l0 (execUpdRelay c slot d s) := by
  exact keptNext (State.takeCmd_kept _ _ _ _ _ _ _ hk (fun s h => State.serve_kept s _ _ h
    (fun s h => by with_reducible apply cmdUpdRelay_kept; exact h)))

theorem execUpdConfirm_kept {w0 : Held} {l0 : Bool} (c : HostChan) (slot : Slot) (d : Desc) (s : State) (hk : KeptOf w0 l0 s) :
    KeptOut w0 l0 (execUpdConfirm c slot d s) := by
  exact keptNext (State.takeCmd_kept _ _ _ _ _ _ _ hk (fun s h => State.serve_kept s _ _ h
    (fun s h => by with_reducible apply cmdUpdConfirm_kept; exact h)))

theorem execUpdAbort_kept {w0 : Held} {l0 : Bool} (c : HostChan) (slot : Slot) (d : Desc) (s : State) (hk : KeptOf w0 l0 s) :
    KeptOut w0 l0 (execUpdAbort c slot d s) := by
  exact keptNext (State.takeCmd_kept _ _ _ _ _ _ _ hk (fun s h => State.serve_kept s _ _ h
    (fun s h => by with_reducible apply cmdUpdAbort_kept; exact h)))

theorem execUpdStatus_kept {w0 : Held} {l0 : Bool} (c : HostChan) (slot : Slot) (d : Desc) (s : State) (hk : KeptOf w0 l0 s) :
    KeptOut w0 l0 (execUpdStatus c slot d s) := by
  exact keptNext (State.takeCmd_kept _ _ _ _ _ _ _ hk (fun s h => State.serve_kept s _ _ h
    (fun s h => by with_reducible apply cmdUpdStatus_kept; exact h)))

theorem execThermRelease_kept {w0 : Held} {l0 : Bool} (c : HostChan) (slot : Slot) (d : Desc) (s : State) (hk : KeptOf w0 l0 s) :
    KeptOut w0 l0 (execThermRelease c slot d s) := by
  exact keptNext (State.takeCmd_kept _ _ _ _ _ _ _ hk (fun s h => State.serve_kept s _ _ h
    (fun s h => by with_reducible apply cmdThermRelease_kept; exact h)))

theorem execHndUnlock_kept {w0 : Held} {l0 : Bool} (c : HostChan) (slot : Slot) (d : Desc) (s : State) (hk : KeptOf w0 l0 s) :
    KeptOut w0 l0 (execHndUnlock c slot d s) := by
  exact keptNext (State.takeCmd_kept _ _ _ _ _ _ _ hk (fun s h => State.serve_kept s _ _ h
    (fun s h => by with_reducible apply cmdHndUnlock_kept; exact h)))

theorem execHndLock_kept {w0 : Held} {l0 : Bool} (c : HostChan) (slot : Slot) (d : Desc) (s : State) (hk : KeptOf w0 l0 s) :
    KeptOut w0 l0 (execHndLock c slot d s) := by
  exact keptNext (State.takeCmd_kept _ _ _ _ _ _ _ hk (fun s h => State.serve_kept s _ _ h
    (fun s h => by with_reducible apply cmdHndLock_kept; exact h)))

theorem execDiagRead_kept {w0 : Held} {l0 : Bool} (c : HostChan) (slot : Slot) (d : Desc) (s : State) (hk : KeptOf w0 l0 s) :
    KeptOut w0 l0 (execDiagRead c slot d s) := by
  exact keptNext (State.takeCmd_kept _ _ _ _ _ _ _ hk (fun s h => State.serve_kept s _ _ h
    (fun s h => by with_reducible apply cmdDiagRead_kept; exact h)))

theorem cmdOf_kept {w0 : Held} (op : Nat) (c : HostChan) (d : Desc) (s : State) (hk : KeptOf w0 false s) :
    KeptRes w0 false (cmdOf op c d s) := by
  unfold cmdOf
  repeat' first | (with_reducible first | assumption | apply State.fail_kept | apply cmdNop_kept | apply cmdReset_kept | apply cmdSafeEnter_kept | apply cmdSafeClear_kept | apply cmdShipEnter_kept | apply cmdDormantEnter_kept | apply cmdFuncStop_kept | apply cmdFuncAbort_kept | apply cmdCfgWrite_kept | apply cmdCfgRead_kept | apply cmdFuncStart_kept | apply cmdLaneStop_kept | apply cmdLaneStart_kept | apply cmdLaneStatus_kept | apply cmdPhaseReturn_kept | apply cmdPhaseRetire_kept | apply cmdChgSetCurrent_kept | apply cmdChgHold_kept | apply cmdChgRestart_kept | apply cmdChgStatus_kept | apply cmdSrcUnlock_kept | apply cmdPortStatus_kept | apply cmdPortAction_kept | apply cmdTrkSend_kept | apply cmdTrkStatus_kept | apply cmdFcstStatus_kept | apply cmdTelSubscribe_kept | apply cmdTelUnsubscribe_kept | apply cmdLedgerInfo_kept | apply cmdLedgerRead_kept | apply cmdUpdOpen_kept | apply cmdUpdBlock_kept | apply cmdUpdSeal_kept | apply cmdUpdKickoff_kept | apply cmdUpdRelay_kept | apply cmdUpdConfirm_kept | apply cmdUpdAbort_kept | apply cmdUpdStatus_kept | apply cmdThermRelease_kept | apply cmdHndUnlock_kept | apply cmdHndLock_kept | apply cmdDiagRead_kept | apply keptReply | apply keptRun | (apply keptIfRes <;> intro _) | (apply keptIf <;> intro _)) | dsimp only [KeptOf] | split

theorem State.takeSlot_kept {w0 : Held} (s : State) (c : HostChan) (slot : Slot) (bell : Nat) (hk : KeptOf w0 false s) :
    KeptOf w0 false (State.takeSlot s c slot bell) := by
  exact State.takeCmd_kept _ _ _ _ _ _ _ hk (fun s h => State.serve_kept s _ _ h
    (fun s h => by with_reducible apply cmdOf_kept; exact h))

theorem execHndRegisterWrite_kept {w0 : Held} {l0 : Bool} (i : Iface) (r : Fin 7) (v : Word) (s : State) (hk : KeptOf w0 l0 s) :
    KeptOut w0 l0 (execHndRegisterWrite i r v s) := by
  unfold execHndRegisterWrite
  repeat' first | (with_reducible first | assumption | apply State.hostWrite_kept | apply keptNext | (apply keptIfOut <;> intro _) | (apply keptIf <;> intro _)) | dsimp only [KeptOf] | split

theorem execHandicapDivCycle_kept {w0 : Held} {l0 : Bool} (s : State) (hk : KeptOf w0 l0 s) :
    KeptOut w0 l0 (execHandicapDivCycle s) := by
  unfold execHandicapDivCycle
  repeat' first | (with_reducible first | assumption | apply keptNext | (apply keptIfOut <;> intro _) | (apply keptIf <;> intro _)) | dsimp only [KeptOf] | split

end Sys2Proof.Machine
end

