-- ==== Sys2Proof/Laws/KeptFlashRows.lean ====
section
/-! SUPPORT. What the operations of Machine/FlashRows keep (Laws/Kept.lean). -/

set_option linter.unusedTactic false
set_option linter.unreachableTactic false

namespace Sys2Proof.Machine

theorem State.ledgerDone_kept {w0 : Held} {l0 : Bool} (s : State) (r : LedgerRec) (hk : KeptOf w0 l0 s) :
    KeptOf w0 l0 (State.ledgerDone s r) := by
  unfold State.ledgerDone
  repeat' first | (with_reducible first | assumption | apply State.finish_kept | (apply keptIf <;> intro _) | (refine keptFold ?_ ?_ <;> [skip; intro s x hk])) | dsimp only [KeptOf] | with_reducible apply keptDrop | split

theorem State.jobDone_kept {w0 : Held} {l0 : Bool} (s : State) (j : FlashJob) (hk : KeptOf w0 l0 s) :
    KeptOf w0 l0 (State.jobDone s j) := by
  unfold State.jobDone
  repeat' first | (with_reducible first | assumption | apply State.record_kept | apply State.finish_kept | apply State.sealSession_kept | apply State.startDone_kept | apply State.updDone_kept | apply State.ledgerDone_kept | (apply keptIf <;> intro _)) | dsimp only [KeptOf] | split

theorem State.backgroundDone_kept {w0 : Held} {l0 : Bool} (s : State) (b : BgJob) (hk : KeptOf w0 l0 s) :
    KeptOf w0 l0 (State.backgroundDone s b) := by
  unfold State.backgroundDone
  repeat' first | (with_reducible first | assumption | apply State.journal_kept | apply State.builtSector_kept | apply State.sealRelayed_kept | (apply keptIf <;> intro _)) | dsimp only [KeptOf] | split

theorem State.kickFlash_kept {w0 : Held} {l0 : Bool} (s : State) (hk : KeptOf w0 l0 s) :
    KeptOf w0 l0 (State.kickFlash s) := by
  unfold State.kickFlash
  repeat' first | (with_reducible first | assumption | (apply keptIf <;> intro _)) | dsimp only [KeptOf] | split

theorem execFlashOperationComplete_kept {w0 : Held} {l0 : Bool} (s : State) (hk : KeptOf w0 l0 s) :
    KeptOut w0 l0 (execFlashOperationComplete s) := by
  unfold execFlashOperationComplete
  repeat' first | (with_reducible first | assumption | apply State.jobDone_kept | apply State.backgroundDone_kept | apply State.kickFlash_kept | apply keptNext | (apply keptIfOut <;> intro _) | (apply keptIf <;> intro _)) | dsimp only [KeptOf] | split

theorem execLedgerWrite_kept {w0 : Held} {l0 : Bool} (s : State) (hk : KeptOf w0 l0 s) :
    KeptOut w0 l0 (execLedgerWrite s) := by
  unfold execLedgerWrite
  repeat' first | (with_reducible first | assumption | apply State.addJob_kept | apply keptNext | (apply keptIfOut <;> intro _) | (apply keptIf <;> intro _)) | dsimp only [KeptOf] | split

theorem State.startBackground_kept {w0 : Held} {l0 : Bool} (s : State) (b : BgJob) (hk : KeptOf w0 l0 s) :
    KeptOf w0 l0 (State.startBackground s b) := by
  unfold State.startBackground
  repeat' first | (with_reducible first | assumption | (apply keptIf <;> intro _)) | dsimp only [KeptOf] | split

theorem execLedgerSectorErase_kept {w0 : Held} {l0 : Bool} (s : State) (hk : KeptOf w0 l0 s) :
    KeptOut w0 l0 (execLedgerSectorErase s) := by
  unfold execLedgerSectorErase
  repeat' first | (with_reducible first | assumption | apply State.startBackground_kept | apply keptNext | (apply keptIfOut <;> intro _) | (apply keptIf <;> intro _)) | dsimp only [KeptOf] | split

theorem execShelfSectorBuild_kept {w0 : Held} {l0 : Bool} (sector : Fin 512) (s : State) (hk : KeptOf w0 l0 s) :
    KeptOut w0 l0 (execShelfSectorBuild sector s) := by
  unfold execShelfSectorBuild
  repeat' first | (with_reducible first | assumption | apply State.startBackground_kept | apply keptNext | (apply keptIfOut <;> intro _) | (apply keptIf <;> intro _)) | dsimp only [KeptOf] | split

theorem execStagingErase_kept {w0 : Held} {l0 : Bool} (s : State) (hk : KeptOf w0 l0 s) :
    KeptOut w0 l0 (execStagingErase s) := by
  unfold execStagingErase
  repeat' first | (with_reducible first | assumption | apply State.startBackground_kept | apply keptNext | (apply keptIfOut <;> intro _) | (apply keptIf <;> intro _)) | dsimp only [KeptOf] | split

theorem execKickoffTimeReached_kept {w0 : Held} {l0 : Bool} (s : State) (hk : KeptOf w0 l0 s) :
    KeptOut w0 l0 (execKickoffTimeReached s) := by
  unfold execKickoffTimeReached
  split
  · exact keptNext hk
  · refine keptIfOut (fun _ => keptNext hk) (fun _ => ?_)
    split
    · apply keptNext
      repeat with_reducible first | assumption | apply State.updRecord_kept | apply State.modUpd_kept
    · apply keptNext
      repeat with_reducible first | assumption | apply State.hubReset_kept | apply State.updRecord_kept | apply State.journal_kept | apply State.modUpd_kept | apply State.modShelf_kept

theorem execHealthWindowEnd_kept {w0 : Held} {l0 : Bool} (s : State) (hk : KeptOf w0 l0 s) :
    KeptOut w0 l0 (execHealthWindowEnd s) := by
  unfold execHealthWindowEnd
  repeat' first | (with_reducible first | assumption | apply State.confirmUpdate_kept | apply State.retireShelf_kept | apply State.hubReset_kept | apply keptNext | (apply keptIfOut <;> intro _) | (apply keptIf <;> intro _)) | dsimp only [KeptOf] | split

end Sys2Proof.Machine
end

