-- ==== Sys2Proof/Laws/KeptTrunkRows.lean ====
section
/-! SUPPORT. What the operations of Machine/TrunkRows keep (Laws/Kept.lean). -/

set_option linter.unusedTactic false
set_option linter.unreachableTactic false

namespace Sys2Proof.Machine

theorem execPassPairJoin_kept {w0 : Held} {l0 : Bool} (t : TrunkPort) (conn bus : Volt) (s : State) (hk : KeptOf w0 l0 s) :
    KeptOut w0 l0 (execPassPairJoin t conn bus s) := by
  unfold execPassPairJoin
  repeat' first | (with_reducible first | assumption | apply State.modConn_kept | apply State.closePair_kept | apply keptNext | (apply keptIfOut <;> intro _) | (apply keptIf <;> intro _)) | dsimp only [KeptOf] | split

theorem execEnergiseTimeout_kept {w0 : Held} {l0 : Bool} (t : TrunkPort) (s : State) (hk : KeptOf w0 l0 s) :
    KeptOut w0 l0 (execEnergiseTimeout t s) := by
  unfold execEnergiseTimeout
  repeat' first | (with_reducible first | assumption | apply State.modConn_kept | apply State.record_kept | apply keptNext | (apply keptIfOut <;> intro _) | (apply keptIf <;> intro _)) | dsimp only [KeptOf] | split

theorem execJoinRetry_kept {w0 : Held} {l0 : Bool} (t : TrunkPort) (s : State) (hk : KeptOf w0 l0 s) :
    KeptOut w0 l0 (execJoinRetry t s) := by
  unfold execJoinRetry
  repeat' first | (with_reducible first | assumption | apply State.modConn_kept | apply keptNext | (apply keptIfOut <;> intro _) | (apply keptIf <;> intro _)) | dsimp only [KeptOf] | split

theorem execTrunkFrameReceived_kept {w0 : Held} {l0 : Bool} (t : TrunkPort) (x : FrameStart) (bytes : List Byte) (s : State) (hk : KeptOf w0 l0 s) :
    KeptOut w0 l0 (execTrunkFrameReceived t x bytes s) := by
  unfold execTrunkFrameReceived
  repeat' first | (with_reducible first | assumption | apply State.modPd_kept | apply State.modLink_kept | apply State.stamp_kept | apply State.takeHello_kept | apply State.repeatFrame_kept | apply keptNext | (apply keptIfOut <;> intro _) | (apply keptIf <;> intro _)) | dsimp only [KeptOf] | split

theorem execHelloReceived_kept {w0 : Held} {l0 : Bool} (a : TrunkArrival) (f : TrunkFrame) (s : State) (hk : KeptOf w0 l0 s) :
    KeptOut w0 l0 (execHelloReceived a f s) := by
  unfold execHelloReceived
  repeat' first | (with_reducible first | assumption | apply State.takeHello_kept | apply keptNext | (apply keptIfOut <;> intro _) | (apply keptIf <;> intro _)) | dsimp only [KeptOf] | split

theorem State.consume_kept {w0 : Held} {l0 : Bool} (s : State) (type : Byte) (a : TrunkArrival) (f : TrunkFrame) (hk : KeptOf w0 l0 s) :
    KeptOf w0 l0 (State.consume s type a f) := by
  unfold State.consume
  repeat' first | (with_reducible first | assumption | apply State.stamp_kept | (apply keptIf <;> intro _)) | dsimp only [KeptOf] | split

theorem execBeaconReceived_kept {w0 : Held} {l0 : Bool} (a : TrunkArrival) (f : TrunkFrame) (s : State) (hk : KeptOf w0 l0 s) :
    KeptOut w0 l0 (execBeaconReceived a f s) := by
  unfold execBeaconReceived
  repeat' first | (with_reducible first | assumption | apply State.consume_kept | apply keptNext | (apply keptIfOut <;> intro _) | (apply keptIf <;> intro _)) | dsimp only [KeptOf] | split

theorem execBulletinReceived_kept {w0 : Held} {l0 : Bool} (x : TrunkRx) (s : State) (hk : KeptOf w0 l0 s) :
    KeptOut w0 l0 (execBulletinReceived x s) := by
  unfold execBulletinReceived
  repeat' first | (with_reducible first | assumption | apply State.consume_kept | apply keptNext | (apply keptIfOut <;> intro _) | (apply keptIf <;> intro _)) | dsimp only [KeptOf] | split

theorem execReportReceived_kept {w0 : Held} {l0 : Bool} (x : TrunkRx) (s : State) (hk : KeptOf w0 l0 s) :
    KeptOut w0 l0 (execReportReceived x s) := by
  unfold execReportReceived
  repeat' first | (with_reducible first | assumption | apply State.consume_kept | apply keptNext | (apply keptIfOut <;> intro _) | (apply keptIf <;> intro _)) | dsimp only [KeptOf] | split

theorem execGrantReceived_kept {w0 : Held} {l0 : Bool} (x : TrunkRx) (s : State) (hk : KeptOf w0 l0 s) :
    KeptOut w0 l0 (execGrantReceived x s) := by
  unfold execGrantReceived
  repeat' first | (with_reducible first | assumption | apply State.consume_kept | apply keptNext | (apply keptIfOut <;> intro _) | (apply keptIf <;> intro _)) | dsimp only [KeptOf] | split

theorem execClaimReceived_kept {w0 : Held} {l0 : Bool} (x : TrunkRx) (s : State) (hk : KeptOf w0 l0 s) :
    KeptOut w0 l0 (execClaimReceived x s) := by
  unfold execClaimReceived
  repeat' first | (with_reducible first | assumption | apply State.consume_kept | apply keptNext | (apply keptIfOut <;> intro _) | (apply keptIf <;> intro _)) | dsimp only [KeptOf] | split

theorem execUpdateFrameReceived_kept {w0 : Held} {l0 : Bool} (x : TrunkRx) (s : State) (hk : KeptOf w0 l0 s) :
    KeptOut w0 l0 (execUpdateFrameReceived x s) := by
  unfold execUpdateFrameReceived
  repeat' first | (with_reducible first | assumption | apply State.consume_kept | apply keptNext | (apply keptIfOut <;> intro _) | (apply keptIf <;> intro _)) | dsimp only [KeptOf] | split

theorem execUpdateAckReceived_kept {w0 : Held} {l0 : Bool} (x : TrunkRx) (s : State) (hk : KeptOf w0 l0 s) :
    KeptOut w0 l0 (execUpdateAckReceived x s) := by
  unfold execUpdateAckReceived
  repeat' first | (with_reducible first | assumption | apply State.consume_kept | apply keptNext | (apply keptIfOut <;> intro _) | (apply keptIf <;> intro _)) | dsimp only [KeptOf] | split

theorem execMessageReceived_kept {w0 : Held} {l0 : Bool} (x : TrunkRx) (s : State) (hk : KeptOf w0 l0 s) :
    KeptOut w0 l0 (execMessageReceived x s) := by
  unfold execMessageReceived
  repeat' first | (with_reducible first | assumption | apply State.consume_kept | apply keptNext | (apply keptIfOut <;> intro _) | (apply keptIf <;> intro _)) | dsimp only [KeptOf] | split

theorem execKickoffReceived_kept {w0 : Held} {l0 : Bool} (x : TrunkRx) (s : State) (hk : KeptOf w0 l0 s) :
    KeptOut w0 l0 (execKickoffReceived x s) := by
  unfold execKickoffReceived
  repeat' first | (with_reducible first | assumption | apply State.consume_kept | apply keptNext | (apply keptIfOut <;> intro _) | (apply keptIf <;> intro _)) | dsimp only [KeptOf] | split

theorem execLinkDown_kept {w0 : Held} {l0 : Bool} (t : TrunkPort) (s : State) (hk : KeptOf w0 l0 s) :
    KeptOut w0 l0 (execLinkDown t s) := by
  unfold execLinkDown
  repeat' first | (with_reducible first | assumption | apply State.modLink_kept | apply State.stamp_kept | apply keptNext | (apply keptIfOut <;> intro _) | (apply keptIf <;> intro _)) | dsimp only [KeptOf] | split

theorem execHelloSend_kept {w0 : Held} {l0 : Bool} (t : TrunkPort) (s : State) (hk : KeptOf w0 l0 s) :
    KeptOut w0 l0 (execHelloSend t s) := by
  unfold execHelloSend
  repeat' first | (with_reducible first | assumption | apply State.modLink_kept | apply State.originate_kept | apply State.takeNodeId_kept | apply keptNext | (apply keptIfOut <;> intro _) | (apply keptIf <;> intro _)) | dsimp only [KeptOf] | split

theorem execTrunkQueueSend_kept {w0 : Held} {l0 : Bool} (t : TrunkPort) (x : SendMoment) (s : State) (hk : KeptOf w0 l0 s) :
    KeptOut w0 l0 (execTrunkQueueSend t x s) := by
  unfold execTrunkQueueSend
  repeat' first | (with_reducible first | assumption | apply State.modLink_kept | apply keptNext | (apply keptIfOut <;> intro _) | (apply keptIf <;> intro _)) | dsimp only [KeptOf] | split

theorem execBeaconSend_kept {w0 : Held} {l0 : Bool} (s : State) (hk : KeptOf w0 l0 s) :
    KeptOut w0 l0 (execBeaconSend s) := by
  unfold execBeaconSend
  repeat' first | (with_reducible first | assumption | apply State.sendBeacon_kept | apply keptNext | (apply keptIfOut <;> intro _) | (apply keptIf <;> intro _)) | dsimp only [KeptOf] | split

theorem execBulletinSend_kept {w0 : Held} {l0 : Bool} (s : State) (hk : KeptOf w0 l0 s) :
    KeptOut w0 l0 (execBulletinSend s) := by
  unfold execBulletinSend
  repeat' first | (with_reducible first | assumption | apply State.sendBulletin_kept | apply keptNext | (apply keptIfOut <;> intro _) | (apply keptIf <;> intro _)) | dsimp only [KeptOf] | split

theorem execReportSend_kept {w0 : Held} {l0 : Bool} (s : State) (hk : KeptOf w0 l0 s) :
    KeptOut w0 l0 (execReportSend s) := by
  unfold execReportSend
  repeat' first | (with_reducible first | assumption | apply State.modDue_kept | apply State.originate_kept | apply State.takeReport_kept | apply keptNext | (apply keptIfOut <;> intro _) | (apply keptIf <;> intro _)) | dsimp only [KeptOf] | split

theorem execUnrosteredGrantSend_kept {w0 : Held} {l0 : Bool} (s : State) (hk : KeptOf w0 l0 s) :
    KeptOut w0 l0 (execUnrosteredGrantSend s) := by
  unfold execUnrosteredGrantSend
  repeat' first | (with_reducible first | assumption | apply State.modTrunk_kept | apply State.modDue_kept | apply State.sendGrant_kept | apply keptNext | (apply keptIfOut <;> intro _) | (apply keptIf <;> intro _) | (refine keptFold ?_ ?_ <;> [skip; intro s x hk])) | dsimp only [KeptOf] | split

theorem execClaimSend_kept {w0 : Held} {l0 : Bool} (s : State) (hk : KeptOf w0 l0 s) :
    KeptOut w0 l0 (execClaimSend s) := by
  unfold execClaimSend
  repeat' first | (with_reducible first | assumption | apply State.modDue_kept | apply State.originate_kept | apply State.startClaim_kept | apply keptNext | (apply keptIfOut <;> intro _) | (apply keptIf <;> intro _)) | dsimp only [KeptOf] | split

theorem execCaptainElected_kept {w0 : Held} {l0 : Bool} (s : State) (hk : KeptOf w0 l0 s) :
    KeptOut w0 l0 (execCaptainElected s) := by
  unfold execCaptainElected
  repeat' first | (with_reducible first | assumption | apply State.electCaptain_kept | apply keptNext | (apply keptIfOut <;> intro _) | (apply keptIf <;> intro _)) | dsimp only [KeptOf] | split

theorem execCaptainLost_kept {w0 : Held} {l0 : Bool} (s : State) (hk : KeptOf w0 l0 s) :
    KeptOut w0 l0 (execCaptainLost s) := by
  unfold execCaptainLost
  repeat' first | (with_reducible first | assumption | apply State.modTrunk_kept | apply State.startClaim_kept | apply keptNext | (apply keptIfOut <;> intro _) | (apply keptIf <;> intro _)) | dsimp only [KeptOf] | split

theorem execCaptainStepDown_kept {w0 : Held} {l0 : Bool} (s : State) (hk : KeptOf w0 l0 s) :
    KeptOut w0 l0 (execCaptainStepDown s) := by
  unfold execCaptainStepDown
  repeat' first | (with_reducible first | assumption | apply State.stepDown_kept | apply keptNext | (apply keptIfOut <;> intro _) | (apply keptIf <;> intro _)) | dsimp only [KeptOf] | split

theorem execGrantEffective_kept {w0 : Held} {l0 : Bool} (s : State) (hk : KeptOf w0 l0 s) :
    KeptOut w0 l0 (execGrantEffective s) := by
  unfold execGrantEffective
  repeat' first | (with_reducible first | assumption | apply State.modTrunk_kept | apply keptNext | (apply keptIfOut <;> intro _) | (apply keptIf <;> intro _)) | dsimp only [KeptOf] | split

theorem execLeaseEnd_kept {w0 : Held} {l0 : Bool} (s : State) (hk : KeptOf w0 l0 s) :
    KeptOut w0 l0 (execLeaseEnd s) := by
  unfold execLeaseEnd
  repeat' first | (with_reducible first | assumption | apply State.modTrunk_kept | apply keptNext | (apply keptIfOut <;> intro _) | (apply keptIf <;> intro _)) | dsimp only [KeptOf] | split

theorem execRosterEntryStale_kept {w0 : Held} {l0 : Bool} (slot : Fin 512) (s : State) (hk : KeptOf w0 l0 s) :
    KeptOut w0 l0 (execRosterEntryStale slot s) := by
  unfold execRosterEntryStale
  repeat' first | (with_reducible first | assumption | apply State.modTrunk_kept | apply keptNext | (apply keptIfOut <;> intro _) | (apply keptIf <;> intro _)) | dsimp only [KeptOf] | split

theorem execTrunkFeedStart_kept {w0 : Held} {l0 : Bool} (s : State) (hk : KeptOf w0 l0 s) :
    KeptOut w0 l0 (execTrunkFeedStart s) := by
  unfold execTrunkFeedStart
  repeat' first | (with_reducible first | assumption | apply State.changeTo_kept | apply State.modTrunk_kept | apply keptNext | (apply keptIfOut <;> intro _) | (apply keptIf <;> intro _)) | dsimp only [KeptOf] | split

theorem execTrunkFeedStop_kept {w0 : Held} {l0 : Bool} (s : State) (hk : KeptOf w0 l0 s) :
    KeptOut w0 l0 (execTrunkFeedStop s) := by
  unfold execTrunkFeedStop
  repeat' first | (with_reducible first | assumption | apply State.modTrunk_kept | apply keptNext | (apply keptIfOut <;> intro _) | (apply keptIf <;> intro _)) | dsimp only [KeptOf] | split

theorem execTrunkBusQualified_kept {w0 : Held} {l0 : Bool} (v : Volt) (s : State) (hk : KeptOf w0 l0 s) :
    KeptOut w0 l0 (execTrunkBusQualified v s) := by
  unfold execTrunkBusQualified
  repeat' first | (with_reducible first | assumption | apply State.stamp_kept | apply State.modTrunk_kept | apply keptNext | (apply keptIfOut <;> intro _) | (apply keptIf <;> intro _)) | dsimp only [KeptOf] | split

theorem execDroopOnset_kept {w0 : Held} {l0 : Bool} (v : Volt) (s : State) (hk : KeptOf w0 l0 s) :
    KeptOut w0 l0 (execDroopOnset v s) := by
  unfold execDroopOnset
  repeat' first | (with_reducible first | assumption | apply State.modLane_kept | apply State.stamp_kept | apply keptNext | (apply keptIfOut <;> intro _) | (apply keptIf <;> intro _)) | dsimp only [KeptOf] | split

theorem execDroopClear_kept {w0 : Held} {l0 : Bool} (v : Volt) (s : State) (hk : KeptOf w0 l0 s) :
    KeptOut w0 l0 (execDroopClear v s) := by
  unfold execDroopClear
  repeat' first | (with_reducible first | assumption | apply State.modLane_kept | apply State.stamp_kept | apply keptNext | (apply keptIfOut <;> intro _) | (apply keptIf <;> intro _)) | dsimp only [KeptOf] | split

theorem State.sendFragment_kept {w0 : Held} {l0 : Bool} (s : State) (i : Nat) (hk : KeptOf w0 l0 s) :
    KeptOf w0 l0 (State.sendFragment s i) := by
  unfold State.sendFragment
  repeat' first | (with_reducible first | assumption | apply State.modDue_kept | apply State.originate_kept | (apply keptIf <;> intro _)) | dsimp only [KeptOf] | split

theorem execUpdateFragmentSend_kept {w0 : Held} {l0 : Bool} (s : State) (hk : KeptOf w0 l0 s) :
    KeptOut w0 l0 (execUpdateFragmentSend s) := by
  unfold execUpdateFragmentSend
  repeat' first | (with_reducible first | assumption | apply State.modTrunk_kept | apply State.sendFragment_kept | apply keptNext | (apply keptIfOut <;> intro _) | (apply keptIf <;> intro _)) | dsimp only [KeptOf] | split

theorem execUpdateAckSend_kept {w0 : Held} {l0 : Bool} (s : State) (hk : KeptOf w0 l0 s) :
    KeptOut w0 l0 (execUpdateAckSend s) := by
  unfold execUpdateAckSend
  repeat' first | (with_reducible first | assumption | apply State.modDue_kept | apply State.originate_kept | apply keptNext | (apply keptIfOut <;> intro _) | (apply keptIf <;> intro _)) | dsimp only [KeptOf] | split

theorem execKickoffSend_kept {w0 : Held} {l0 : Bool} (s : State) (hk : KeptOf w0 l0 s) :
    KeptOut w0 l0 (execKickoffSend s) := by
  unfold execKickoffSend
  repeat' first | (with_reducible first | assumption | apply State.modDue_kept | apply State.originate_kept | apply keptNext | (apply keptIfOut <;> intro _) | (apply keptIf <;> intro _)) | dsimp only [KeptOf] | split

end Sys2Proof.Machine
end

