-- ==== Sys2Proof/Laws/KeptEvents.lean ====
section
/-! SUPPORT. What the operations of Machine/Events keep (Laws/Kept.lean). -/

set_option linter.unusedTactic false
set_option linter.unreachableTactic false

namespace Sys2Proof.Machine

theorem State.snapshot_kept {w0 : Held} {l0 : Bool} (s : State) (cause : Nat) (hk : KeptOf w0 l0 s) :
    KeptOf w0 l0 (State.snapshot s cause) := by
  unfold State.snapshot
  repeat' first | (with_reducible first | assumption | (apply keptIf <;> intro _)) | dsimp only [KeptOf] | split

theorem State.lower_kept {w0 : Held} {l0 : Bool} (s : State) (hk : KeptOf w0 l0 s) :
    KeptOf w0 l0 (State.lower s) := by
  unfold State.lower
  repeat' first | (with_reducible first | assumption | apply State.modFcst_kept | (apply keptIf <;> intro _)) | dsimp only [KeptOf] | split

theorem State.tripConsequence_kept {w0 : Held} {l0 : Bool} (s : State) (c : Src) (p : Protection) (hk : KeptOf w0 l0 s) :
    KeptOf w0 l0 (State.tripConsequence s c p) := by
  unfold State.tripConsequence
  repeat' first | (with_reducible first | assumption | apply State.feedEnd_kept | apply State.hardReset_kept | apply State.errorRecovery_kept | apply State.softReset_kept | (apply keptIf <;> intro _)) | dsimp only [KeptOf] | split

theorem State.useTrip_kept {w0 : Held} {l0 : Bool} (s : State) (c : Src) (p : Protection) (v : Volt) (i : Amp) (first lockout : Bool) (hk : KeptOf w0 l0 s) :
    KeptOf w0 l0 (State.useTrip s c p v i first lockout) := by
  unfold State.useTrip
  repeat' first | (with_reducible first | assumption | apply State.modConn_kept | apply State.record_kept | apply State.changeLost_kept | apply State.lower_kept | apply State.tripConsequence_kept | (apply keptIf <;> intro _)) | dsimp only [KeptOf] | split

theorem State.safeFlags_kept {w0 : Held} {l0 : Bool} (s : State) (r : RoundInfo) (hk : KeptOf w0 l0 s) :
    KeptOf w0 l0 (State.safeFlags s r) := by
  unfold State.safeFlags
  repeat' first | (with_reducible first | assumption | (apply keptIf <;> intro _)) | dsimp only [KeptOf, State.modAon] | split

theorem State.dormRound_kept {w0 : Held} {l0 : Bool} (s : State) (hk : KeptOf w0 l0 s) :
    KeptOf w0 l0 (State.dormRound s) := by
  unfold State.dormRound
  repeat' first | (with_reducible first | assumption | apply State.modHub_kept | (apply keptIf <;> intro _)) | dsimp only [KeptOf] | split

theorem State.useRound_kept {w0 : Held} {l0 : Bool} (s : State) (hk : KeptOf w0 l0 s) :
    KeptOf w0 l0 (State.useRound s) := by
  unfold State.useRound
  repeat' first | (with_reducible first | assumption | apply State.correctDemand_kept | apply State.correctSource_kept | apply State.countRound_kept | apply State.readBatid_kept | apply State.windowRound_kept | apply State.chargeRound_kept | apply State.ntcRound_kept | apply State.throttle_kept | apply State.lower_kept | apply State.safeFlags_kept | apply State.dormRound_kept | (apply keptIf <;> intro _) | (refine keptFold ?_ ?_ <;> [skip; intro s x hk])) | dsimp only [KeptOf, State.modAon] | with_reducible apply State.throttle_kept | split

theorem State.useFrsVbus_kept {w0 : Held} {l0 : Bool} (s : State) (p : Port) (hk : KeptOf w0 l0 s) :
    KeptOf w0 l0 (State.useFrsVbus s p) := by
  unfold State.useFrsVbus
  repeat' first | (with_reducible first | assumption | apply State.modPort_kept | apply State.swapStep_kept | (apply keptIf <;> intro _)) | dsimp only [KeptOf] | split

theorem State.useQualified_kept {w0 : Held} {l0 : Bool} (s : State) (c : Src) (locked : Bool) (hk : KeptOf w0 l0 s) :
    KeptOf w0 l0 (State.useQualified s c locked) := by
  unfold State.useQualified
  repeat' first | (with_reducible first | assumption | apply State.modConn_kept | apply State.modTrunk_kept | (apply keptIf <;> intro _)) | dsimp only [KeptOf] | split

theorem State.useLost_kept {w0 : Held} {l0 : Bool} (s : State) (c : Src) (hk : KeptOf w0 l0 s) :
    KeptOf w0 l0 (State.useLost s c) := by
  unfold State.useLost
  repeat' first | (with_reducible first | assumption | apply State.modConn_kept | apply State.modTrunk_kept | apply State.lower_kept | (apply keptIf <;> intro _)) | dsimp only [KeptOf] | split

theorem State.usePortDown_kept {w0 : Held} {l0 : Bool} (s : State) (m : PortDie) (hk : KeptOf w0 l0 s) :
    KeptOf w0 l0 (State.usePortDown s m) := by
  unfold State.usePortDown
  repeat' first | (with_reducible first | assumption | apply State.modConn_kept | apply State.lower_kept | (apply keptIf <;> intro _) | (refine keptFold ?_ ?_ <;> [skip; intro s x hk])) | dsimp only [KeptOf] | split

theorem State.useAttach_kept {w0 : Held} {l0 : Bool} (s : State) (p : Port) (hk : KeptOf w0 l0 s) :
    KeptOf w0 l0 (State.useAttach s p) := by
  unfold State.useAttach
  repeat' first | (with_reducible first | assumption | apply State.modPort_kept | apply State.record_kept | apply State.pdSend_kept | apply State.sendMux_kept | apply State.unsupported_kept | (apply keptIf <;> intro _)) | dsimp only [KeptOf] | split

theorem State.useBc_kept {w0 : Held} {l0 : Bool} (s : State) (p : Port) (r : Bc12) (hk : KeptOf w0 l0 s) :
    KeptOf w0 l0 (State.useBc s p r) := by
  unfold State.useBc
  repeat' first | (with_reducible first | assumption | apply State.modPort_kept | apply State.sendMux_kept | (apply keptIf <;> intro _)) | dsimp only [KeptOf] | split

theorem State.useEvent_kept {w0 : Held} {l0 : Bool} (s : State) (e : Event) (hk : KeptOf w0 l0 s) :
    KeptOf w0 l0 (State.useEvent s e) := by
  unfold State.useEvent
  repeat' first | (with_reducible first | assumption | apply State.modConn_kept | apply State.modNode_kept | apply State.record_kept | apply State.saveOut_kept | apply State.sendMux_kept | apply State.modeEnter_kept | apply State.offerSink_kept | apply State.pdPolicy_kept | apply State.changeLost_kept | apply State.useGauge_kept | apply State.setCause_kept | apply State.chargeSetpoint_kept | apply State.removeBattery_kept | apply State.onTimer_kept | apply State.onFeedReached_kept | apply State.onDischarged_kept | apply State.modHub_kept | apply State.setSafe_kept | apply State.abortRequest_kept | apply State.diodeOpen_kept | apply State.takeFrame_kept | apply State.setOutKind_kept | apply State.snapshot_kept | apply State.lower_kept | apply State.useTrip_kept | apply State.useRound_kept | apply State.useFrsVbus_kept | apply State.useQualified_kept | apply State.useLost_kept | apply State.usePortDown_kept | apply State.useAttach_kept | apply State.useBc_kept | (apply keptIf <;> intro _) | (refine keptFold ?_ ?_ <;> [skip; intro s x hk])) | dsimp only [KeptOf, State.modAon] | split

end Sys2Proof.Machine
end

