-- ==== Sys2Proof/Laws/KeptOrders.lean ====
section
/-! SUPPORT. What the operations of Machine/Orders keep (Laws/Kept.lean). -/

set_option linter.unusedTactic false
set_option linter.unreachableTactic false

namespace Sys2Proof.Machine

theorem State.moveTarget_kept {w0 : Held} {l0 : Bool} (s : State) (hk : KeptOf w0 l0 s) :
    KeptOf w0 l0 (State.moveTarget s) := by
  unfold State.moveTarget
  repeat' first | (with_reducible first | assumption | apply State.modHub_kept | (apply keptIf <;> intro _)) | dsimp only [KeptOf] | split

theorem State.sendKeep_kept {w0 : Held} {l0 : Bool} (s : State) (n : Lane) (eff : Nat) (force : Bool) (o : LaneOrder) (hk : KeptOf w0 l0 s) :
    KeptOf w0 l0 (State.sendKeep s n eff force o) := by
  unfold State.sendKeep
  repeat' first | (with_reducible first | assumption | apply State.sendNode_kept | (apply keptIf <;> intro _)) | dsimp only [KeptOf] | split

theorem State.sendDroop_kept {w0 : Held} {l0 : Bool} (s : State) (n : Lane) (eff : Nat) (force : Bool) (hk : KeptOf w0 l0 s) :
    KeptOf w0 l0 (State.sendDroop s n eff force) := by
  unfold State.sendDroop
  repeat' first | (with_reducible first | assumption | apply State.sendKeep_kept | (apply keptIf <;> intro _)) | dsimp only [KeptOf] | split

theorem State.sendStop_kept {w0 : Held} {l0 : Bool} (s : State) (n : Lane) (eff : Nat) (ramp : Bool) (hk : KeptOf w0 l0 s) :
    KeptOf w0 l0 (State.sendStop s n eff ramp) := by
  unfold State.sendStop
  repeat' first | (with_reducible first | assumption | apply State.sendNode_kept | (apply keptIf <;> intro _)) | dsimp only [KeptOf] | split

theorem State.stopTurn_kept {w0 : Held} {l0 : Bool} (s : State) (n : Lane) (eff : Nat) (slowly : Bool) (hk : KeptOf w0 l0 s) :
    KeptOf w0 l0 (State.stopTurn s n eff slowly) := by
  unfold State.stopTurn
  repeat' first | (with_reducible first | assumption | apply State.sendPort_kept | apply State.openPair_kept | apply State.sendStop_kept | (apply keptIf <;> intro _) | (refine keptFold ?_ ?_ <;> [skip; intro s x hk])) | dsimp only [KeptOf] | split

theorem State.steer_kept {w0 : Held} {l0 : Bool} (s : State) (n : Lane) (eff : Nat) (force : Bool) (a : Aim) (hk : KeptOf w0 l0 s) :
    KeptOf w0 l0 (State.steer s n eff force a) := by
  unfold State.steer
  repeat' first | (with_reducible first | assumption | apply State.sendNode_kept | apply State.sendKeep_kept | apply State.sendDroop_kept | apply State.sendStop_kept | apply State.stopTurn_kept | (apply keptIf <;> intro _)) | dsimp only [KeptOf] | split

theorem State.noteRestart_kept {w0 : Held} {l0 : Bool} (s : State) (hk : KeptOf w0 l0 s) :
    KeptOf w0 l0 (State.noteRestart s) := by
  unfold State.noteRestart
  repeat' first | (with_reducible first | assumption | apply State.modHub_kept | (apply keptIf <;> intro _)) | dsimp only [KeptOf] | split

theorem State.orders_kept {w0 : Held} {l0 : Bool} (s : State) (force : Bool) (hk : KeptOf w0 l0 s) :
    KeptOf w0 l0 (State.orders s force) := by
  unfold State.orders
  repeat' first | (with_reducible first | assumption | apply State.steer_kept | apply State.noteRestart_kept | (apply keptIf <;> intro _) | (refine keptFold ?_ ?_ <;> [skip; intro s x hk])) | dsimp only [KeptOf] | split

theorem State.moveTrims_kept {w0 : Held} {l0 : Bool} (s : State) (hk : KeptOf w0 l0 s) :
    KeptOf w0 l0 (State.moveTrims s) := by
  unfold State.moveTrims
  repeat' first | (with_reducible first | assumption | apply State.modHub_kept | (apply keptIf <;> intro _)) | dsimp only [KeptOf] | split

theorem State.diodePolicy_kept {w0 : Held} {l0 : Bool} (s : State) (hk : KeptOf w0 l0 s) :
    KeptOf w0 l0 (State.diodePolicy s) := by
  unfold State.diodePolicy
  repeat' first | (with_reducible first | assumption | apply State.diodeOpen_kept | (apply keptIf <;> intro _)) | dsimp only [KeptOf, State.modAon] | split

theorem State.pgoodPolicy_kept {w0 : Held} {l0 : Bool} (s : State) (hk : KeptOf w0 l0 s) :
    KeptOf w0 l0 (State.pgoodPolicy s) := by
  unfold State.pgoodPolicy
  repeat' first | (with_reducible first | assumption | apply State.modHub_kept | (apply keptIf <;> intro _)) | dsimp only [KeptOf, State.modAon] | split

end Sys2Proof.Machine
end

