-- ==== Sys2Proof/Laws/KeptStack.lean ====
section
/-! SUPPORT. What the operations of Machine/Stack keep (Laws/Kept.lean). -/

set_option linter.unusedTactic false
set_option linter.unreachableTactic false

namespace Sys2Proof.Machine

theorem State.modStack_kept {w0 : Held} {l0 : Bool} (s : State) (f : Stack → Stack) (hk : KeptOf w0 l0 s) :
    KeptOf w0 l0 (State.modStack s f) := by
  unfold State.modStack
  repeat' first | (with_reducible first | assumption | (apply keptIf <;> intro _)) | dsimp only [KeptOf] | split

theorem State.stackRecord_kept {w0 : Held} {l0 : Bool} (s : State) (cause masterSize : Nat) (hk : KeptOf w0 l0 s) :
    KeptOf w0 l0 (State.stackRecord s cause masterSize) := by
  unfold State.stackRecord
  repeat' first | (with_reducible first | assumption | apply State.record_kept | (apply keptIf <;> intro _)) | dsimp only [KeptOf] | split

theorem State.becomeMasterless_kept {w0 : Held} {l0 : Bool} (s : State) (cause masterSize : Nat) (hk : KeptOf w0 l0 s) :
    KeptOf w0 l0 (State.becomeMasterless s cause masterSize) := by
  unfold State.becomeMasterless
  repeat' first | (with_reducible first | assumption | apply State.modStack_kept | apply State.stackRecord_kept | (apply keptIf <;> intro _)) | dsimp only [KeptOf] | split

theorem State.takeState_kept {w0 : Held} {l0 : Bool} (s : State) (f : StackStateFrame) (hk : KeptOf w0 l0 s) :
    KeptOf w0 l0 (State.takeState s f) := by
  unfold State.takeState
  repeat' first | (with_reducible first | assumption | apply State.stamp_kept | apply State.modStack_kept | (apply keptIf <;> intro _) | (refine keptFold ?_ ?_ <;> [skip; intro s x hk])) | dsimp only [KeptOf] | split

theorem execStackStateFrame_kept {w0 : Held} {l0 : Bool} (f : StackStateFrame) (s : State) (hk : KeptOf w0 l0 s) :
    KeptOut w0 l0 (execStackStateFrame f s) := by
  unfold execStackStateFrame
  repeat' first | (with_reducible first | assumption | apply State.takeState_kept | apply keptNext | (apply keptIfOut <;> intro _) | (apply keptIf <;> intro _)) | dsimp only [KeptOf] | split

theorem execStackMemberLost_kept {w0 : Held} {l0 : Bool} (p : Fin 4) (s : State) (hk : KeptOf w0 l0 s) :
    KeptOut w0 l0 (execStackMemberLost p s) := by
  unfold execStackMemberLost
  repeat' first | (with_reducible first | assumption | apply State.record_kept | apply State.lower_kept | apply State.modStack_kept | apply keptNext | (apply keptIfOut <;> intro _) | (apply keptIf <;> intro _)) | dsimp only [KeptOf] | split

theorem State.sendControls_kept {w0 : Held} {l0 : Bool} (s : State) (hk : KeptOf w0 l0 s) :
    KeptOf w0 l0 (State.sendControls s) := by
  unfold State.sendControls
  repeat' first | (with_reducible first | assumption | apply State.modStack_kept | (apply keptIf <;> intro _)) | dsimp only [KeptOf] | split

theorem State.returnState_kept {w0 : Held} {l0 : Bool} (s : State) (hk : KeptOf w0 l0 s) :
    KeptOf w0 l0 (State.returnState s) := by
  unfold State.returnState
  repeat' first | (with_reducible first | assumption | apply State.modStack_kept | (apply keptIf <;> intro _)) | dsimp only [KeptOf] | split

theorem State.takeControl_kept {w0 : Held} {l0 : Bool} (s : State) (f : StackControl) (hk : KeptOf w0 l0 s) :
    KeptOf w0 l0 (State.takeControl s f) := by
  unfold State.takeControl
  repeat' first | (with_reducible first | assumption | apply State.modStack_kept | apply State.stackRecord_kept | apply State.becomeMasterless_kept | (apply keptIf <;> intro _)) | dsimp only [KeptOf] | split

theorem execStackControlFrame_kept {w0 : Held} {l0 : Bool} (f : StackControl) (s : State) (hk : KeptOf w0 l0 s) :
    KeptOut w0 l0 (execStackControlFrame f s) := by
  unfold execStackControlFrame
  repeat' first | (with_reducible first | assumption | apply State.becomeMasterless_kept | apply State.takeControl_kept | apply keptNext | (apply keptIfOut <;> intro _) | (apply keptIf <;> intro _)) | dsimp only [KeptOf] | split

theorem execMasterLost_kept {w0 : Held} {l0 : Bool} (s : State) (hk : KeptOf w0 l0 s) :
    KeptOut w0 l0 (execMasterLost s) := by
  unfold execMasterLost
  repeat' first | (with_reducible first | assumption | apply State.record_kept | apply State.limpDies_kept | apply State.modStack_kept | apply keptNext | (apply keptIfOut <;> intro _) | (apply keptIf <;> intro _)) | dsimp only [KeptOf] | split

theorem execMasterlessTimeout_kept {w0 : Held} {l0 : Bool} (s : State) (hk : KeptOf w0 l0 s) :
    KeptOut w0 l0 (execMasterlessTimeout s) := by
  unfold execMasterlessTimeout
  repeat' first | (with_reducible first | assumption | apply State.becomeMasterless_kept | apply keptNext | (apply keptIfOut <;> intro _) | (apply keptIf <;> intro _)) | dsimp only [KeptOf] | split

theorem State.memberPairs_kept {w0 : Held} {l0 : Bool} (s : State) (eff : Nat) (pairs : Vector Bool 7) (n : Lane) (hk : KeptOf w0 l0 s) :
    KeptOf w0 l0 (State.memberPairs s eff pairs n) := by
  unfold State.memberPairs
  repeat' first | (with_reducible first | assumption | apply State.modNode_kept | apply State.sendPort_kept | apply State.closePair_kept | apply State.openPair_kept | (apply keptIf <;> intro _) | (refine keptFold ?_ ?_ <;> [skip; intro s x hk])) | dsimp only [KeptOf] | split

theorem State.applyControl_kept {w0 : Held} {l0 : Bool} (s : State) (stamp : Nat) (f : StackControl) (hk : KeptOf w0 l0 s) :
    KeptOf w0 l0 (State.applyControl s stamp f) := by
  unfold State.applyControl
  repeat' first | (with_reducible first | assumption | apply State.stamp_kept | apply State.setMode_kept | apply State.modCharge_kept | apply State.modHub_kept | apply State.steer_kept | apply State.modStack_kept | apply State.memberPairs_kept | (apply keptIf <;> intro _) | (refine keptFold ?_ ?_ <;> [skip; intro s x hk])) | dsimp only [KeptOf] | split

theorem State.applyControls_kept {w0 : Held} {l0 : Bool} (s : State) (m : Nat) (hk : KeptOf w0 l0 s) :
    KeptOf w0 l0 (State.applyControls s m) := by
  unfold State.applyControls
  repeat' first | (with_reducible first | assumption | apply State.modStack_kept | apply State.applyControl_kept | (apply keptIf <;> intro _) | (refine keptFold ?_ ?_ <;> [skip; intro s x hk])) | dsimp only [KeptOf] | split

theorem State.masterlessPairs_kept {w0 : Held} {l0 : Bool} (s : State) (hk : KeptOf w0 l0 s) :
    KeptOf w0 l0 (State.masterlessPairs s) := by
  unfold State.masterlessPairs
  repeat' first | (with_reducible first | assumption | apply State.sendPort_kept | apply State.openPair_kept | (apply keptIf <;> intro _) | (refine keptFold ?_ ?_ <;> [skip; intro s x hk])) | dsimp only [KeptOf] | split

end Sys2Proof.Machine
end

