-- ==== Sys2Proof/Laws/KeptDecision.lean ====
section
/-! SUPPORT. What the operations of Machine/Decision keep (Laws/Kept.lean). -/

set_option linter.unusedTactic false
set_option linter.unreachableTactic false

namespace Sys2Proof.Machine

theorem State.noteLate_kept {w0 : Held} {l0 : Bool} (s : State) (late : List Die) (hk : KeptOf w0 l0 s) :
    KeptOf w0 l0 (State.noteLate s late) := by
  unfold State.noteLate
  repeat' first | (with_reducible first | assumption | (apply keptIf <;> intro _)) | dsimp only [KeptOf] | split

theorem State.perturb_kept {w0 : Held} {l0 : Bool} (s : State) (hk : KeptOf w0 l0 s) :
    KeptOf w0 l0 (State.perturb s) := by
  unfold State.perturb
  repeat' first | (with_reducible first | assumption | (apply keptIf <;> intro _)) | dsimp only [KeptOf] | split

theorem State.strobe_kept {w0 : Held} {l0 : Bool} (s : State) (hk : KeptOf w0 l0 s) :
    KeptOf w0 l0 (State.strobe s) := by
  unfold State.strobe
  repeat' first | (with_reducible first | assumption | (apply keptIf <;> intro _)) | dsimp only [KeptOf] | split

theorem State.endTick_kept {w0 : Held} {l0 : Bool} (s : State) (hk : KeptOf w0 l0 s) :
    KeptOf (w0.goTo (w0.2.1 + 1)) l0 (State.endTick s) := by
  have hk : KeptOf w0 l0 s.finishTick.perturb := State.perturb_kept _ (State.finishTick_kept _ hk)
  have e : s.finishTick.perturb.time.tick = w0.2.1 := by rw [← hk.1]
  have h := keptGoTo (w0.2.1 + 1) hk
  rw [← e] at h ⊢
  unfold State.endTick
  extract_lets s1 t s2 w s3
  have h2 : KeptOf (w0.goTo (s.finishTick.perturb.time.tick + 1)) l0 s2 := h
  have h3 : KeptOf (w0.goTo (s.finishTick.perturb.time.tick + 1)) l0 s3 := State.strobe_kept _ h2
  exact keptIf (fun _ => h3) (fun _ => h3)

theorem State.acceptVsel_kept {w0 : Held} {l0 : Bool} (s : State) (m : Nat) (hk : KeptOf w0 l0 s) :
    KeptOf w0 l0 (State.acceptVsel s m) := by
  unfold State.acceptVsel
  repeat' first | (with_reducible first | assumption | apply State.modHub_kept | (apply keptIf <;> intro _)) | dsimp only [KeptOf] | split

theorem State.sampleVsel_kept {w0 : Held} {l0 : Bool} (s : State) (v : Fin 8) (hk : KeptOf w0 l0 s) :
    KeptOf w0 l0 (State.sampleVsel s v) := by
  unfold State.sampleVsel
  repeat' first | (with_reducible first | assumption | apply State.modHub_kept | (apply keptIf <;> intro _)) | dsimp only [KeptOf] | split

theorem State.chooseMode_kept {w0 : Held} {l0 : Bool} (s : State) (hk : KeptOf w0 l0 s) :
    KeptOf w0 l0 (State.chooseMode s) := by
  unfold State.chooseMode
  repeat' first | (with_reducible first | assumption | apply State.setMode_kept | apply State.abortRequest_kept | (apply keptIf <;> intro _)) | dsimp only [KeptOf] | split

theorem State.chargeMode_kept {w0 : Held} {l0 : Bool} (s : State) (hk : KeptOf w0 l0 s) :
    KeptOf w0 l0 (State.chargeMode s) := by
  unfold State.chargeMode
  repeat' first | (with_reducible first | assumption | apply State.clearLatched_kept | apply State.startCycle_kept | apply State.endCycle_kept | apply State.modHub_kept | (apply keptIf <;> intro _)) | dsimp only [KeptOf] | split

theorem State.reattached_kept {w0 : Held} {l0 : Bool} (s : State) (hk : KeptOf w0 l0 s) :
    KeptOf w0 l0 (State.reattached s) := by
  unfold State.reattached
  repeat' first | (with_reducible first | assumption | apply State.modConn_kept | apply State.clearLatched_kept | apply State.startCycle_kept | (apply keptIf <;> intro _) | (refine keptFold ?_ ?_ <;> [skip; intro s x hk])) | dsimp only [KeptOf] | split

theorem State.feedPolicy_kept {w0 : Held} {l0 : Bool} (s : State) (hk : KeptOf w0 l0 s) :
    KeptOf w0 l0 (State.feedPolicy s) := by
  unfold State.feedPolicy
  repeat' first | (with_reducible first | assumption | apply State.feedClose_kept | apply State.startFeed_kept | apply State.watchEnd_kept | apply State.preempt_kept | apply State.watchBegin_kept | (apply keptIf <;> intro _) | (refine keptFold ?_ ?_ <;> [skip; intro s x hk])) | dsimp only [KeptOf] | split

theorem State.selectAll_kept {w0 : Held} {l0 : Bool} (s : State) (only : Option Lane) (hk : KeptOf w0 l0 s) :
    KeptOf w0 l0 (State.selectAll s only) := by
  unfold State.selectAll
  repeat' first | (with_reducible first | assumption | apply State.selectNode_kept | apply State.changeStep_kept | (apply keptIf <;> intro _) | (refine keptFold ?_ ?_ <;> [skip; intro s x hk])) | dsimp only [KeptOf] | split

theorem State.trunkFeedHolds_kept {w0 : Held} {l0 : Bool} (s : State) (hk : KeptOf w0 l0 s) :
    KeptOf w0 l0 (State.trunkFeedHolds s) := by
  unfold State.trunkFeedHolds
  repeat' first | (with_reducible first | assumption | apply State.modTrunk_kept | (apply keptIf <;> intro _)) | dsimp only [KeptOf] | split

theorem State.recordLost_kept {w0 : Held} {l0 : Bool} (s : State) (x : Src × Bool) (hk : KeptOf w0 l0 s) :
    KeptOf w0 l0 (State.recordLost s x) := by
  unfold State.recordLost
  repeat' first | (with_reducible first | assumption | apply State.record_kept | (apply keptIf <;> intro _)) | dsimp only [KeptOf] | split

theorem State.endTransitions_kept {w0 : Held} {l0 : Bool} (s : State) (hk : KeptOf w0 l0 s) :
    KeptOf w0 l0 (State.endTransitions s) := by
  unfold State.endTransitions
  repeat' first | (with_reducible first | assumption | apply State.modPort_kept | apply State.modConn_kept | (apply keptIf <;> intro _) | (refine keptFold ?_ ?_ <;> [skip; intro s x hk])) | dsimp only [KeptOf] | split

theorem State.capCharge_kept {w0 : Held} {l0 : Bool} (s : State) (hk : KeptOf w0 l0 s) :
    KeptOf w0 l0 (State.capCharge s) := by
  unfold State.capCharge
  repeat' first | (with_reducible first | assumption | apply State.modCharge_kept | (apply keptIf <;> intro _)) | dsimp only [KeptOf] | split

theorem State.sourcePolicy_kept {w0 : Held} {l0 : Bool} (s : State) (only : Option Lane) (lost : List (Src × Bool)) (hk : KeptOf w0 l0 s) :
    KeptOf w0 l0 (State.sourcePolicy s only lost) := by
  unfold State.sourcePolicy
  repeat' first | (with_reducible first | assumption | apply State.allocate_kept | apply State.feedPolicy_kept | apply State.selectAll_kept | apply State.trunkFeedHolds_kept | apply State.recordLost_kept | apply State.endTransitions_kept | apply State.capCharge_kept | (apply keptIf <;> intro _) | (refine keptFold ?_ ?_ <;> [skip; intro s x hk])) | dsimp only [KeptOf] | split

theorem State.useRing_kept {w0 : Held} (s : State) (r : Ring) (hk : KeptOf w0 false s) :
    KeptOf w0 false (State.useRing s r) := by
  unfold State.useRing
  repeat' first | (with_reducible first | assumption | apply State.takeCancel_kept | apply State.takeResync_kept | apply State.takeSlot_kept | (apply keptIf <;> intro _)) | dsimp only [KeptOf] | split

theorem State.useRings_kept {w0 : Held} (s : State) (m : Nat) (hk : KeptOf w0 false s) :
    KeptOf w0 false (State.useRings s m) := by
  unfold State.useRings
  repeat' first | (with_reducible first | assumption | apply State.useRing_kept | (apply keptIf <;> intro _) | (refine keptFold ?_ ?_ <;> [skip; intro s x hk])) | dsimp only [KeptOf] | split

theorem State.releaseRd_kept {w0 : Held} {l0 : Bool} (s : State) (hk : KeptOf w0 l0 s) :
    KeptOf w0 l0 (State.releaseRd s) := by
  unfold State.releaseRd
  repeat' first | (with_reducible first | assumption | apply State.modPort_kept | (apply keptIf <;> intro _) | (refine keptFold ?_ ?_ <;> [skip; intro s x hk])) | dsimp only [KeptOf] | split

theorem State.vioRecord_kept {w0 : Held} {l0 : Bool} (s : State) (hk : KeptOf w0 l0 s) :
    KeptOf w0 l0 (State.vioRecord s) := by
  unfold State.vioRecord
  repeat' first | (with_reducible first | assumption | apply State.record_kept | (apply keptIf <;> intro _)) | dsimp only [KeptOf, State.modAon] | split

theorem State.hndChanged_kept {w0 : Held} {l0 : Bool} (s : State) (hk : KeptOf w0 l0 s) :
    KeptOf w0 l0 (State.hndChanged s) := by
  unfold State.hndChanged
  repeat' first | (with_reducible first | assumption | apply State.hndRecord_kept | (apply keptIf <;> intro _)) | dsimp only [KeptOf] | split

theorem State.captainWatch_kept {w0 : Held} {l0 : Bool} (s : State) (hk : KeptOf w0 l0 s) :
    KeptOf w0 l0 (State.captainWatch s) := by
  unfold State.captainWatch
  repeat' first | (with_reducible first | assumption | apply State.modTrunk_kept | (apply keptIf <;> intro _)) | dsimp only [KeptOf] | split

theorem State.mirror_kept {w0 : Held} {l0 : Bool} (s : State) (hk : KeptOf w0 l0 s) :
    KeptOf w0 l0 (State.mirror s) := by
  unfold State.mirror
  repeat' first | (with_reducible first | assumption | (apply keptIf <;> intro _)) | dsimp only [KeptOf, State.modAon] | split

theorem State.dueReset_kept {w0 : Held} {l0 : Bool} (s : State) (hk : KeptOf w0 l0 s) :
    KeptOf w0 l0 (State.dueReset s) := by
  unfold State.dueReset
  repeat' first | (with_reducible first | assumption | apply State.hubReset_kept | (apply keptIf <;> intro _)) | dsimp only [KeptOf] | split

theorem State.upkeep_kept {w0 : Held} {l0 : Bool} (s : State) (hk : KeptOf w0 l0 s) :
    KeptOf w0 l0 (State.upkeep s) := by
  unfold State.upkeep
  repeat' first | (with_reducible first | assumption | apply State.ccRefresh_kept | apply State.copySlots_kept | apply State.checkAlert_kept | apply State.releaseRd_kept | apply State.vioRecord_kept | apply State.hndChanged_kept | apply State.captainWatch_kept | apply State.mirror_kept | (apply keptIf <;> intro _)) | dsimp only [KeptOf] | split

theorem State.takeEvents_kept {w0 : Held} {l0 : Bool} (s : State) (m : Nat) (hk : KeptOf w0 l0 s) :
    KeptOf w0 l0 (State.takeEvents s m).1 := by
  unfold State.takeEvents
  repeat' first | (with_reducible first | assumption | (apply keptIf <;> intro _)) | dsimp only [KeptOf] | split

theorem State.allowances_kept {w0 : Held} {l0 : Bool} (s : State) (m : Nat) (hk : KeptOf w0 l0 s) :
    KeptOf w0 l0 (State.allowances s m) := by
  unfold State.allowances
  repeat' first | (with_reducible first | assumption | apply State.modFcst_kept | apply State.fcstDecide_kept | (apply keptIf <;> intro _)) | dsimp only [KeptOf] | split

theorem State.policy_kept {w0 : Held} {l0 : Bool} (s : State) (m : Nat) (force : Bool) (only : Option Lane) (lost : List (Src × Bool)) (hk : KeptOf w0 l0 s) :
    KeptOf w0 l0 (State.policy s m force only lost) := by
  unfold State.policy
  repeat' first | (with_reducible first | assumption | apply State.moveTarget_kept | apply State.orders_kept | apply State.moveTrims_kept | apply State.diodePolicy_kept | apply State.acceptVsel_kept | apply State.chooseMode_kept | apply State.chargeMode_kept | apply State.reattached_kept | apply State.sourcePolicy_kept | (apply keptIf <;> intro _)) | dsimp only [KeptOf] | split

theorem State.memberMode_kept {w0 : Held} {l0 : Bool} (s : State) (hk : KeptOf w0 l0 s) :
    KeptOf w0 l0 (State.memberMode s) := by
  unfold State.memberMode
  repeat' first | (with_reducible first | assumption | apply State.setMode_kept | apply State.chooseMode_kept | (apply keptIf <;> intro _)) | dsimp only [KeptOf] | split

theorem State.decide_kept {w0 : Held} (s : State) (m : Nat) (force : Bool) (only : Option Lane) (hk : KeptOf w0 false s) :
    KeptOf w0 false (State.decide s m force only) := by
  unfold State.decide
  repeat' first | (with_reducible first | assumption | apply State.applySettings_kept | apply State.useEvent_kept | apply State.orders_kept | apply State.diodePolicy_kept | apply State.pgoodPolicy_kept | apply State.sendControls_kept | apply State.returnState_kept | apply State.applyControls_kept | apply State.masterlessPairs_kept | apply State.recordLost_kept | apply State.endTransitions_kept | apply State.useRings_kept | apply State.dueReset_kept | apply State.upkeep_kept | apply State.takeEvents_kept | apply State.allowances_kept | apply State.policy_kept | apply State.memberMode_kept | (apply keptIf <;> intro _) | (refine keptFold ?_ ?_ <;> [skip; intro s x hk])) | dsimp only [KeptOf, State.modAon] | with_reducible apply State.takeEvents_kept | split

theorem State.decideDue_kept {w0 : Held} (s : State) (hk : KeptOf w0 false s) :
    KeptOf w0 false (State.decideDue s) := by
  unfold State.decideDue
  repeat' first | (with_reducible first | assumption | apply State.modHub_kept | apply State.decide_kept | (apply keptIf <;> intro _) | (refine keptFold ?_ ?_ <;> [skip; intro s x hk])) | dsimp only [KeptOf] | split

theorem execDecisionTick_kept {w0 : Held} (vsel : Fin 8) (late : List Die) (s : State) (hk : KeptOf w0 false s) :
    KeptMoved w0 false (execDecisionTick vsel late s) := by
  unfold execDecisionTick
  split
  · exact keptMoved_stay hk
  · exact keptMoved_next _ (State.endTick_kept s hk)
  · exact keptMoved_next _ (State.endTick_kept s hk)
  · exact keptMoved_next _ (State.endTick_kept _ (State.sampleVsel_kept s vsel hk))
  · have h1 := State.noteLate_kept _ late (State.sampleVsel_kept s vsel hk)
    exact keptMoved_next _ (State.endTick_kept _ (keptIf (fun _ => h1) (fun _ => State.decideDue_kept _ h1)))

theorem State.writeDeferred_kept {w0 : Held} {l0 : Bool} (s : State) (hk : KeptOf w0 l0 s) :
    KeptOf w0 l0 (State.writeDeferred s) := by
  unfold State.writeDeferred
  repeat' first | (with_reducible first | assumption | apply State.createRecord_kept | (apply keptIf <;> intro _) | (refine keptFold ?_ ?_ <;> [skip; intro s x hk])) | dsimp only [KeptOf] | split

theorem State.wdgRecord_kept {w0 : Held} {l0 : Bool} (s : State) (hk : KeptOf w0 l0 s) :
    KeptOf w0 l0 (State.wdgRecord s) := by
  unfold State.wdgRecord
  repeat' first | (with_reducible first | assumption | apply State.record_kept | apply State.snapshot_kept | (apply keptIf <;> intro _)) | dsimp only [KeptOf] | split

theorem State.bootRecord_kept {w0 : Held} {l0 : Bool} (s : State) (cause : Nat) (warm : Bool) (hk : KeptOf w0 l0 s) :
    KeptOf w0 l0 (State.bootRecord s cause warm) := by
  unfold State.bootRecord
  repeat' first | (with_reducible first | assumption | apply State.record_kept | (apply keptIf <;> intro _)) | dsimp only [KeptOf] | split

theorem State.strapRecords_kept {w0 : Held} {l0 : Bool} (s : State) (hk : KeptOf w0 l0 s) :
    KeptOf w0 l0 (State.strapRecords s) := by
  unfold State.strapRecords
  repeat' first | (with_reducible first | assumption | apply State.modStack_kept | apply State.stackRecord_kept | apply State.becomeMasterless_kept | (apply keptIf <;> intro _)) | dsimp only [KeptOf] | split

theorem State.countLimp_kept {w0 : Held} {l0 : Bool} (s : State) (hk : KeptOf w0 l0 s) :
    KeptOf w0 l0 (State.countLimp s) := by
  unfold State.countLimp
  repeat' first | (with_reducible first | assumption | apply State.modCharge_kept | (apply keptIf <;> intro _)) | dsimp only [KeptOf, State.modAon] | split

theorem State.bootPresence_kept {w0 : Held} {l0 : Bool} (s : State) (vbat : Volt) (hk : KeptOf w0 l0 s) :
    KeptOf w0 l0 (State.bootPresence s vbat) := by
  unfold State.bootPresence
  repeat' first | (with_reducible first | assumption | apply State.presenceAnchor_kept | apply State.modCharge_kept | (apply keptIf <;> intro _)) | dsimp only [KeptOf] | split

theorem State.bootWdg_kept {w0 : Held} {l0 : Bool} (s : State) (hk : KeptOf w0 l0 s) :
    KeptOf w0 l0 (State.bootWdg s) := by
  unfold State.bootWdg
  repeat' first | (with_reducible first | assumption | (apply keptIf <;> intro _)) | dsimp only [KeptOf] | split

theorem State.bootRequest_kept {w0 : Held} {l0 : Bool} (s : State) (hk : KeptOf w0 l0 s) :
    KeptOf w0 l0 (State.bootRequest s) := by
  unfold State.bootRequest
  repeat' first | (with_reducible first | assumption | apply State.dormantStart_kept | apply State.abortRequest_kept | (apply keptIf <;> intro _)) | dsimp only [KeptOf, State.modAon] | split

theorem State.bootMigrate_kept {w0 : Held} {l0 : Bool} (s : State) (hk : KeptOf w0 l0 s) :
    KeptOf w0 l0 (State.bootMigrate s) := by
  unfold State.bootMigrate
  repeat' first | (with_reducible first | assumption | apply State.addJob_kept | (apply keptIf <;> intro _)) | dsimp only [KeptOf] | split

theorem State.readSources_kept {w0 : Held} {l0 : Bool} (s : State) (hk : KeptOf w0 l0 s) :
    KeptOf w0 l0 (State.readSources s) := by
  unfold State.readSources
  repeat' first | (with_reducible first | assumption | (apply keptIf <;> intro _)) | dsimp only [KeptOf] | split

theorem State.firstWork_kept {w0 : Held} {l0 : Bool} (s : State) (cause : Nat) (warm : Bool) (vbat sys : Volt) (hk : KeptOf w0 l0 s) :
    KeptOf w0 l0 (State.firstWork s cause warm vbat sys) := by
  unfold State.firstWork
  repeat' first | (with_reducible first | assumption | apply State.record_kept | apply State.sendPort_kept | apply State.dueTrims_kept | apply State.alert_kept | apply State.sendMux_kept | apply State.modHub_kept | apply State.setSafe_kept | apply State.resumeCaptain_kept | apply State.resumePort_kept | apply State.copySlots_kept | apply State.fcstUnlock_kept | apply State.writeDeferred_kept | apply State.wdgRecord_kept | apply State.bootRecord_kept | apply State.strapRecords_kept | apply State.countLimp_kept | apply State.bootPresence_kept | apply State.bootWdg_kept | apply State.bootRequest_kept | apply State.bootMigrate_kept | apply State.readSources_kept | (apply keptIf <;> intro _) | (refine keptFold ?_ ?_ <;> [skip; intro s x hk])) | dsimp only [KeptOf] | split

theorem execFirstDecision_kept {w0 : Held} (vsel : Fin 8) (vbat sys : Volt) (s : State) (hk : KeptOf w0 false s) :
    KeptMoved w0 false (execFirstDecision vsel vbat sys s) := by
  unfold execFirstDecision
  split
  · rename_i cause warm _
    have h0 := State.sampleVsel_kept _ vsel (State.firstWork_kept s cause warm vbat sys hk)
    have h1 := State.decide_kept _ ((s.firstWork cause warm vbat sys).sampleVsel vsel).now true
      (((s.firstWork cause warm vbat sys).sampleVsel vsel).deadStart cause) h0
    dsimp only
    generalize State.decide _ _ true _ = u at h1 ⊢
    have h2 : KeptOf w0 false { u with host := { u.host with lastStatus := u.alertFields } } := h1
    exact keptMoved_next _ (State.endTick_kept _ (State.modHub_kept _ _ h2))
  · exact keptMoved_stay hk

end Sys2Proof.Machine
end

