-- ==== Sys2Proof/Laws/LanePeriods.lean ====
section
/-! SUPPORT. Laws about a lane stop, a frame taken, a period boundary. -/

namespace Sys2Proof.Machine

@[simp] theorem lane_stamp (s : State) (n c so i k) : (s.stamp c so i k).lane n = s.lane n := rfl

@[simp] theorem lane_stampLane (s : State) (n m k) : (s.stampLane m k).lane n = s.lane n := rfl

theorem stop_fields (l : LaneDie) : l.stop.run = .stopped ∧ l.stop.psen = false ∧ l.stop.loop.iCmd = 0 := by
  unfold LaneDie.stop; exact ⟨rfl, rfl, rfl⟩

theorem stop_faults (l : LaneDie) : l.stop.faults = l.faults := by
  unfold LaneDie.stop LaneDie.mapPhases
  rcases hs : l.field.shed with _ | ⟨p, m, _ | _⟩ <;> cases hr : l.field.retireNext <;> simp

theorem addJob_same (s : State) (j) : (s.addJob j).lanes = s.lanes ∧ (s.addJob j).events = s.events ∧ (s.addJob j).time = s.time ∧ (s.addJob j).keep = s.keep ∧ s.addJob j = { s with flash := (s.addJob j).flash } := by
  unfold State.addJob; exact ⟨rfl, rfl, rfl, rfl, rfl⟩

theorem saveTrims_same (s : State) (n t) : (s.saveTrims n t).lanes = s.lanes ∧ (s.saveTrims n t).events = s.events ∧ (s.saveTrims n t).time = s.time := by
  have g : ∀ (c d : Bool) (a b : State), (a.lanes = s.lanes ∧ a.events = s.events ∧ a.time = s.time) → (b.lanes = s.lanes ∧ b.events = s.events ∧ b.time = s.time) → 
     ((if c then a else b).lanes = s.lanes ∧ (if c then a else b).events = s.events ∧ (if c then a else b).time = s.time) := by
    intro c d a b ha hb; split <;> assumption
  unfold State.saveTrims
  refine g _ false _ _ (g _ false _ _ ⟨rfl, rfl, rfl⟩ ⟨rfl, rfl, rfl⟩) ⟨rfl, rfl, rfl⟩

theorem takeOrder_keeps (l : LaneDie) (o h now) : let x := ((l.takeOrder o h).warmUp).notice now
    x.frames = l.frames ∧ x.keeper = none ∧ x.got = true := by
  intro x
  have a : (l.takeOrder o h).frames = l.frames ∧ (l.takeOrder o h).keeper = none ∧ (l.takeOrder o h).got = true := ⟨rfl, rfl, rfl⟩
  have b : ∀ y : LaneDie, y.warmUp.frames = y.frames ∧ y.warmUp.keeper = y.keeper ∧ y.warmUp.got = y.got := by
    intro y; unfold LaneDie.warmUp; split <;> exact ⟨rfl, rfl, rfl⟩
  have c : ∀ y : LaneDie, (y.notice now).frames = y.frames ∧ (y.notice now).keeper = y.keeper ∧ (y.notice now).got = y.got := by
    intro y; unfold LaneDie.notice; split
    · split <;> exact ⟨rfl, rfl, rfl⟩
    · exact ⟨rfl, rfl, rfl⟩
  exact ⟨(c _).1.trans ((b _).1.trans a.1), (c _).2.1.trans ((b _).2.1.trans a.2.1), (c _).2.2.trans ((b _).2.2.trans a.2.2)⟩

theorem noteAbort_lane (s : State) (n b) : (∀ m, m ≠ n → (s.noteAbort n b).lane m = s.lane m) ∧ ∃ d, (s.noteAbort n b).lane n = { s.lane n with diag := d } := by
  unfold State.noteAbort; split
  · exact ⟨fun m hm => State.modLane_other _ _ _ _ hm, _, by rw [lane_stampLane, State.modLane_lane]⟩
  · exact ⟨fun _ _ => rfl, _, rfl⟩

/-- What a hub frame brings to a lane die. -/
abbrev framePart (l : LaneDie) := (l.frames, l.keeper, l.got, l.order, l.newSet)

theorem stop_frame (l : LaneDie) : framePart l.stop = framePart l := by
  unfold LaneDie.stop LaneDie.mapPhases
  rcases hs : l.field.shed with _ | ⟨p, m, _ | _⟩ <;> cases hr : l.field.retireNext <;> simp [framePart]

theorem standby_frame (l : LaneDie) : framePart l.toStandby = framePart l := by
  show framePart l.stop = _; exact stop_frame l

theorem noteAbort_frame (s : State) (n b) : framePart ((s.noteAbort n b).lane n) = framePart (s.lane n) := by
  obtain ⟨-, d, e⟩ := noteAbort_lane s n b; rw [e]

theorem laneEnable_frame (s : State) (n : Lane) (r : LaneRun) :
    framePart ((s.laneEnable n r).lane n) = framePart (s.lane n) ∧ ∀ m, m ≠ n → (s.laneEnable n r).lane m = s.lane m := by
  have g : ∀ (c : Prop) [Decidable c] (a b : State) (m : Lane) (x : LaneDie), a.lane m = x → b.lane m = x → (if c then a else b).lane m = x := by
    intro c _ a b m x ha hb; split <;> assumption
  have lr : ∀ (s : State) (m : Lane) (a b), (s.record a b).lane m = s.lane m := by intro s m a b; unfold State.lane; rw [record_lanes]
  unfold State.laneEnable
  generalize (s.cfg.pending.any _) = fresh
  refine ⟨?_, fun m hm => ?_⟩
  · have q : ∀ (c : Prop) [Decidable c] (a b : State) (x), framePart (a.lane n) = x → framePart (b.lane n) = x → framePart ((if c then a else b).lane n) = x := by
      intro c _ a b x ha hb; split <;> assumption
    refine q _ _ _ _ ?_ ?_
    · rw [lr]; refine q _ _ _ _ ?_ ?_ <;> (try rw [lane_stampLane]) <;> rw [State.modLane_lane] <;> rfl
    · refine q _ _ _ _ ?_ ?_ <;> (try rw [lane_stampLane]) <;> rw [State.modLane_lane] <;> rfl
  · refine g _ _ _ _ _ ?_ ?_
    · rw [lr]; refine g _ _ _ _ _ ?_ ?_ <;> (try rw [lane_stampLane]) <;> rw [State.modLane_other _ _ _ _ hm] <;> rfl
    · refine g _ _ _ _ _ ?_ ?_ <;> (try rw [lane_stampLane]) <;> rw [State.modLane_other _ _ _ _ hm] <;> rfl

theorem laneGo_frame (s : State) (n : Lane) (go : LaneGo) :
    framePart ((s.laneGo n go).lane n) = framePart (s.lane n) ∧ ∀ m, m ≠ n → (s.laneGo n go).lane m = s.lane m := by
  have md : ∀ (f : LaneDie → LaneDie), framePart (f (s.lane n)) = framePart (s.lane n) →
      framePart ((s.modLane n f).lane n) = framePart (s.lane n) ∧ ∀ m, m ≠ n → (s.modLane n f).lane m = s.lane m := by
    intro f h; rw [State.modLane_lane]; exact ⟨h, fun m hm => State.modLane_other _ _ _ _ hm⟩
  have id_ : framePart (s.lane n) = framePart (s.lane n) ∧ ∀ m, m ≠ n → s.lane m = s.lane m := ⟨rfl, fun _ _ => rfl⟩
  have g : ∀ (c : Prop) [Decidable c] (a b : State), (framePart (a.lane n) = framePart (s.lane n) ∧ ∀ m, m ≠ n → a.lane m = s.lane m) →
      (framePart (b.lane n) = framePart (s.lane n) ∧ ∀ m, m ≠ n → b.lane m = s.lane m) →
      framePart ((if c then a else b).lane n) = framePart (s.lane n) ∧ ∀ m, m ≠ n → (if c then a else b).lane m = s.lane m := by
    intro c _ a b ha hb; split <;> assumption
  cases go with
  | keep => exact id_
  | start => exact g _ _ _ id_ (g _ _ _ (laneEnable_frame _ _ _) (g _ _ _ (md _ rfl) (g _ _ _ (md _ rfl) id_)))
  | standby => exact g _ _ _ id_ (g _ _ _ (laneEnable_frame _ _ _) (md _ (standby_frame _)))
  | join => exact g _ _ _ (md _ rfl) id_
  | stopRamp a => exact g _ _ _ (md _ rfl) (md _ (stop_frame _))
  | stopNow => exact md _ (stop_frame _)

/-- Everything a frame leaves in its die, whatever it asks (R6, R7). -/
theorem applyLane_is (s : State) (n : Lane) (f : LaneFrame) :
    framePart ((s.applyLane n f).lane n) = ((s.lane n).frames, none, true, f.order, (s.lane n).newSet ++ f.set) ∧
    (∀ m, m ≠ n → (s.applyLane n f).lane m = s.lane m) ∧ (f.go = .stopNow → ((s.applyLane n f).lane n).run = .stopped) := by
  have a : ∀ (o h now), (((s.lane n).takeOrder o h).warmUp.notice now).order = o := by
    intro o h now; unfold LaneDie.notice LaneDie.warmUp; repeat' split
    all_goals rfl
  have t := takeOrder_keeps (s.lane n) f.order s.cfg.keeperHold s.now
  unfold State.applyLane
  refine ⟨?_, ?_, ?_⟩
  · rw [(laneGo_frame _ _ _).1, noteAbort_frame, State.modLane_lane]
    simp only [framePart, t.1, t.2.1, t.2.2, a]
  · intro m hm; rw [(laneGo_frame _ _ _).2 m hm, (noteAbort_lane _ _ _).1 m hm, State.modLane_other _ _ _ _ hm]
  · intro h; simp only [h, State.laneGo, lane_stampLane, State.modLane_lane]; exact (stop_fields _).1

/-- Measured means, period count and run state of a lane die. -/
abbrev periodPart (l : LaneDie) := (l.loop.sys, l.loop.vinl, l.field.periods, l.run)

theorem q4_adm (l : LaneDie) : periodPart l.admissions = periodPart l := by
  unfold LaneDie.admissions
  rcases hs : l.field.shed with _ | ⟨p, m, _ | _⟩ <;> cases ha : l.field.shedAbort <;> simp [periodPart, LaneDie.mapPhases, hs]

theorem q4_region (l : LaneDie) (m) : periodPart (regionStep l m) = periodPart l := rfl

theorem q4_step (l : LaneDie) (now) : periodPart (stepBranch now l) = periodPart l := rfl

theorem q4_addShed (s : State) (n) (l : LaneDie) (b) : periodPart (s.addShed n l b) = periodPart l := by
  unfold State.addShed
  dsimp only
  repeat' split
  all_goals rfl

theorem q4_rule (s : State) (n) (l : LaneDie) (b) : periodPart (s.fieldRule n l b) = periodPart l := by
  have h := q4_addShed s n { l with field := { l.field with sinceAdd := l.field.sinceAdd + 1, sinceShed := l.field.sinceShed + 1 } } b
  have h : periodPart (s.addShed n { l with field := { l.field with sinceAdd := l.field.sinceAdd + 1, sinceShed := l.field.sinceShed + 1 } } b) =
      periodPart l := h.trans rfl
  have g : ∀ (c : Prop) [Decidable c] (a b : LaneDie), periodPart a = periodPart l → periodPart b = periodPart l →
      periodPart (if c then a else b) = periodPart l := by
    intro c _ a b ha hb; split <;> assumption
  unfold State.fieldRule
  exact g _ _ _ (Eq.trans rfl h) (Eq.trans rfl h)

theorem lanePeriod_active (s : State) (n) (m : PeriodSample) (h1 : (s.lane n).up = true) (h2 : (s.lane n).active = true) :
   periodPart (s.lanePeriod n m).1 = (adcV m.sysAvg, adcV m.vinlAvg, (s.lane n).field.periods + 1, (s.lane n).run) := by
  have e1 : (s.takeMeans n (digitised m) (s.lane n)).up = true := h1
  have e2 : (s.takeMeans n (digitised m) (s.lane n)).active = true := h2
  unfold State.lanePeriod
  simp only [e1, e2, Bool.not_true, Bool.false_eq_true, if_false]
  rw [q4_rule]
  have e3 : ∀ l : LaneDie, periodPart (s.laneControl n (digitised m) l) = periodPart l := by
    intro l
    unfold State.laneControl; dsimp only
    have a1 : ∀ l : LaneDie, periodPart (s.peakCommands n l) = periodPart l := fun l => rfl
    have a2 : ∀ l : LaneDie, periodPart (s.laneLoop n l) = periodPart l := fun l => rfl
    have a3 : ∀ l : LaneDie, periodPart (s.floorCeil l) = periodPart l := fun l => rfl
    have a4 : ∀ l : LaneDie, periodPart (s.sourceCeil n l) = periodPart l := fun l => rfl
    have a5 : ∀ l : LaneDie, periodPart (s.slewLane n l) = periodPart l := fun l => rfl
    have a6 : ∀ l : LaneDie, periodPart l.command = periodPart l := fun l => rfl
    rw [a1, a2, q4_region, a3, a4, a5, a6, q4_adm]
  have e4 : ∀ l old, periodPart (s.laneClose n (digitised m) old l) = ((periodPart l).1, (periodPart l).2.1, (periodPart l).2.2.1 + 1, (periodPart l).2.2.2) := fun l old => rfl
  rw [e4, e3]; rfl

theorem lanePeriod_stopped (s : State) (n) (m : PeriodSample) (h1 : (s.lane n).up = true) (h2 : (s.lane n).run = .stopped) :
   (s.lanePeriod n m).1.loop.iLane = 0 ∧ ∀ p, ((s.lanePeriod n m).1.phases.get p).drive = .mid := by
  have h3 : (s.lane n).active = false := by simp [LaneDie.active, h2]
  have e1 : (s.takeMeans n (digitised m) (s.lane n)).up = true := h1
  have e2 : (s.takeMeans n (digitised m) (s.lane n)).active = false := h3
  unfold State.lanePeriod
  simp only [e1, e2, Bool.not_true, Bool.not_false, Bool.false_eq_true, if_false, if_true]
  simp [LaneDie.idlePeriod, State.takeMeans, h3]

theorem samplePeriod_is (s : State) (n) : s.samplePeriod n = { s with tel := (s.samplePeriod n).tel } := by
  unfold State.samplePeriod; dsimp only; split <;> rfl

theorem fl_trans {s u v : State} (hu : u = { s with lanes := u.lanes }) (hv : v = { u with lanes := v.lanes }) : v = { s with lanes := v.lanes } :=
  hv.trans (by rw [hu])

theorem fle_trans {s u v : State} (hu : u = { s with lanes := u.lanes, events := u.events }) (hv : v = { u with lanes := v.lanes, events := v.events }) : v = { s with lanes := v.lanes, events := v.events } :=
  hv.trans (by rw [hu])

theorem fold4_lane (g : State → Lane → State) (F : Lane → LaneDie → LaneDie) (P : State → Prop) (s : State) (hP : P s)
   (hg : ∀ u n, P u → P (g u n) ∧ (g u n).lane n = F n (u.lane n) ∧ ∀ m, m ≠ n → (g u n).lane m = u.lane m) :
   ∀ n, ((List.finRange 4).foldl g s).lane n = F n (s.lane n) := by
  have e : List.finRange 4 = [0,1,2,3] := by decide
  rw [e]; simp only [List.foldl]
  have p0 := hg s 0 hP
  have p1 := hg _ 1 p0.1
  have p2 := hg _ 2 p1.1
  have p3 := hg _ 3 p2.1
  intro n; fin_cases n
  · rw [p3.2.2 _ (by decide), p2.2.2 _ (by decide), p1.2.2 _ (by decide)]; exact p0.2.1
  · rw [p3.2.2 _ (by decide), p2.2.2 _ (by decide)]; exact p1.2.1.trans (by rw [p0.2.2 _ (by decide)]; rfl)
  · rw [p3.2.2 _ (by decide)]; exact p2.2.1.trans (by rw [p1.2.2 _ (by decide), p0.2.2 _ (by decide)]; rfl)
  · exact p3.2.1.trans (by rw [p2.2.2 _ (by decide), p1.2.2 _ (by decide), p0.2.2 _ (by decide)]; rfl)

/-- Whether a lane die follows the stack, on the die itself. -/
def fol (s : State) (n : Lane) (l : LaneDie) : Bool := s.inStack n && s.stack.position != 0 && l.up

theorem fol_eq (s u : State) (n) (h : u.cfg = s.cfg ∧ u.stack = s.stack) : u.follows n = fol s n (u.lane n) := by
  unfold State.follows fol State.inStack State.fsw State.laneQ State.laneFn; rw [h.1, h.2]

end Sys2Proof.Machine
end

