-- ==== Sys2Proof/Laws/Resets.lean ====
section
/-! SUPPORT. Laws about LIMP, hub reset, the common part of a boot, the update journal. -/

namespace Sys2Proof.Machine

theorem limpMode_is (s : State) : ∃ A L, s.limpMode = { s with aon := A, ledger := L } ∧ ((s.aon.mode = some .supply ∨ s.aon.mode = some .battery) → A.mode = some .limp) ∧
    A = { s.aon with mode := A.mode, limpFrom := A.limpFrom } := by
  unfold State.limpMode; split
  · have k := setMode_mode s (some .limp) 2
    have hd : ∃ L, s.setMode (some .limp) 2 = { s with aon := { s.aon with mode := some .limp }, ledger := L } := by
      unfold State.setMode State.record State.createRecord; split
      · rename_i h; exact ⟨s.ledger, by rw [← h]⟩
      · dsimp only; split <;> exact ⟨_, rfl⟩
    obtain ⟨L, h⟩ := hd
    rw [h]; exact ⟨_, L, rfl, fun _ => rfl, rfl⟩
  · rename_i h
    refine ⟨s.aon, s.ledger, rfl, fun hm => ?_, rfl⟩
    rcases hm with hm | hm <;> simp [State.modeIs, hm] at h

theorem limpDies_is (s : State) : ∃ l d q, s.limpDies = { s with lanes := l, portDies := d, ports := q } ∧ (∀ n, s.aon.safeLatch = false → (s.lane n).up = true → (s.lane n).got = true → (s.lane n).keeper = none → l.get n = { s.lane n with keeper := some { entry := s.now, expired := false } }) := by
  unfold State.limpDies; split
  · rename_i h; exact ⟨s.lanes, s.portDies, s.ports, rfl, fun n h1 => by rw [h1] at h; cases h⟩
  · refine ⟨_, _, _, rfl, fun n h1 h2 h3 h4 => ?_⟩
    rw [vget_map]
    show (if ((s.lane n).up && (s.lane n).got && (s.lane n).keeper.isNone) = true then _ else _) = _
    rw [if_pos (by rw [h2, h3, h4]; rfl)]; rfl

theorem hubReset_is (s : State) (c : Nat) (h0 : s.hub.hub ≠ .off) (h : ∀ k w, s.hub.hub ≠ .held k w) : ∃ A L l d q, s.hubReset c = { s with aon := A, ledger := L, lanes := l, portDies := d, ports := q, hub := { s.hub with hub := .held c (s.warmChosen c), resetAt := none, vsel := [] }, host := s.host.atReset, tel := s.tel.atReset, timers := .zero, wdg := s.wdg.held, flash := { s.flash with queue := [] } } ∧ ((s.aon.mode = some .supply ∨ s.aon.mode = some .battery) → A.mode = some .limp) ∧ (∀ n, s.aon.safeLatch = false → (s.lane n).up = true → (s.lane n).got = true → (s.lane n).keeper = none → l.get n = { s.lane n with keeper := some { entry := s.now, expired := false } }) ∧
    A = { s.aon with mode := A.mode, limpFrom := A.limpFrom } := by
  unfold State.hubReset
  split
  · rename_i e; exact absurd e h0
  · rename_i k w e; exact absurd e (h k w)
  dsimp only
  obtain ⟨l, d, q, e, he⟩ := limpDies_is s
  rw [e]
  obtain ⟨A, L, e2, he2, hA⟩ := limpMode_is (State.modHub { s with lanes := l, portDies := d, ports := q } (fun h => { h with hub := .held c (s.warmChosen c), resetAt := none, vsel := [] }))
  rw [e2]; exact ⟨A, L, l, d, q, rfl, he2, he, hA⟩

theorem bootCommon_is (s : State) (c w) : ∃ U T, s.bootCommon c w = { s with update := U, trunk := T, flash := { s.flash with stagingErased := (s.bootCommon c w).flash.stagingErased }, cfg := s.cfg.atBoot, wdg := { s.wdg.held with elapsed := some 0 }, charge := (s.aon.chargeMirror).getD s.charge, tel := { s.tel with chans := s.tel.chans.map (fun (c : Channel) => { c with sum := 0, n := 0, last := none }) }, timers := { TimerUnit.zero with tmr := vmod TimerUnit.zero.tmr 0 (fun t => { t with ctl := 0x21 }) }, hub := { s.hub with hub := .booted c w, cause := c, warmBoot := w, boots := s.hub.boots + 1, resetAt := none } } := by
  unfold State.bootCommon; dsimp only
  have k : ∃ U T f, s.replayJournal = { s with update := U, trunk := T, flash := { s.flash with stagingErased := f } } := by
    unfold State.replayJournal; dsimp only; split
    · split
      · exact ⟨s.update, s.trunk, s.flash.stagingErased, rfl⟩
      · split
        · exact ⟨_, _, _, rfl⟩
        · exact ⟨s.update, s.trunk, s.flash.stagingErased, rfl⟩
    · exact ⟨s.update, s.trunk, s.flash.stagingErased, rfl⟩
  obtain ⟨U, T, f, e⟩ := k
  rw [e]; exact ⟨U, T, rfl⟩

theorem journal_is (s : State) (k a b) : (s.journal k a b) = { s with flash := (s.journal k a b).flash } ∧ (s.journal k a b).flash.shelves = s.flash.shelves := ⟨rfl, rfl⟩

theorem updRecord_is (s : State) (k a b) : (s.updRecord k a b) = { s with ledger := (s.updRecord k a b).ledger } := record_is ..

/-! ### The dies' own reset, the factory test state, the wake -/

@[simp] theorem diesReset_lane (s : State) (up k : Bool) (n : Lane) : (s.diesReset up k).lane n = (s.lane n).rebooted up k := vget_map ..
@[simp] theorem diesReset_pdie (s : State) (up k : Bool) (m : Fin 2) : (s.diesReset up k).pdie m = (s.pdie m).rebooted up k := vget_map ..
@[simp] theorem diesReset_conn (s : State) (up k : Bool) (c : Src) :
    (s.diesReset up k).conn c = { Conn.zero with lockedOut := (s.conn c).lockedOut, trips := (s.conn c).trips, joinFails := (s.conn c).joinFails } := vget_map ..
@[simp] theorem diesReset_port (s : State) (up k : Bool) (p : Port) :
    (s.diesReset up k).port p = { PortSt.zero with deadRd := (s.port p).deadRd } := vget_map ..
@[simp] theorem diesReset_aon (s : State) (up k : Bool) : (s.diesReset up k).aon = s.aon := rfl
@[simp] theorem diesReset_hub (s : State) (up k : Bool) : (s.diesReset up k).hub = s.hub := rfl
@[simp] theorem diesReset_time (s : State) (up k : Bool) : (s.diesReset up k).time = s.time := rfl
@[simp] theorem diesReset_flash (s : State) (up k : Bool) : (s.diesReset up k).flash = s.flash := rfl
@[simp] theorem diesReset_ledger (s : State) (up k : Bool) : (s.diesReset up k).ledger = s.ledger := rfl
@[simp] theorem diesReset_host (s : State) (up k : Bool) : (s.diesReset up k).host = s.host := rfl
@[simp] theorem diesReset_events (s : State) (up k : Bool) : (s.diesReset up k).events = s.events := rfl

/-- The dies run, each with the index of the strobe, unless a rail is held down. -/
theorem diesUp_is (s : State) (h : s.railsUp = true) : s.diesUp = { s with
    lanes := s.lanes.map (fun (l : LaneDie) => { l with up := true, tick := s.tickWord })
    portDies := s.portDies.map (fun (d : PortDieSt) => { d with up := true, tick := s.tickWord }) } := by
  unfold State.diesUp; rw [h]; rfl

theorem diesUp_more (s : State) : s.diesUp = { s with lanes := s.diesUp.lanes, portDies := s.diesUp.portDies } := by
  unfold State.diesUp; split <;> rfl

/-- The factory test state starts neither the hub nor a power die and enters no mode (R50). -/
theorem factoryState_is (s : State) : s.factoryState.aon = { s.aon with mode := none, factoryTest := true } ∧
    s.factoryState.hub.hub = .off ∧ s.factoryState.time = s.time ∧ s.factoryState.flash = s.flash ∧
    (∀ n, (s.factoryState.lane n).up = false ∧ (s.factoryState.lane n).run = .stopped) ∧ (∀ m, (s.factoryState.pdie m).up = false) := by
  have h := setMode_mode s none 3
  have k := setMode_same s none 3
  have e : s.setMode none 3 = { s with aon := (s.setMode none 3).aon, ledger := (s.setMode none 3).ledger } := by
    unfold State.setMode State.record State.createRecord; split
    · rfl
    · dsimp only; split <;> rfl
  refine ⟨?_, rfl, ?_, ?_, fun n => ?_, fun m => ?_⟩
  · show { (s.setMode none 3).aon with factoryTest := true } = _; rw [h]
  · show (s.setMode none 3).time = _; rw [e]
  · show (s.setMode none 3).flash = _; rw [e]
  · show (((s.setMode none 3).diesReset false false).lane n).up = _ ∧ (((s.setMode none 3).diesReset false false).lane n).run = _
    rw [diesReset_lane]; exact ⟨rfl, rfl⟩
  · show (((s.setMode none 3).diesReset false false).pdie m).up = _
    rw [diesReset_pdie]; unfold PortDieSt.rebooted; rfl

/-- The tick index after a wake is carried forward by the slept interval in ticks of 10 us (R373). -/
theorem wake_tick (s : State) (c : Nat) (w : WakeInfo) : (s.wake c w).time.tick = s.time.tick + w.intervalUs / 10 := by
  unfold State.wake; dsimp only
  split
  · rw [(factoryState_is _).2.2.1]; rfl
  · show (State.diesUp _).time.tick = _; rw [diesUp_more]

/-- What a wake with FT low does: the hub waits for its cold boot, the ship FET and the control are on, the power dies start
unless a rail is held down (R71, R75, R373). -/
theorem wake_is (s : State) (c : Nat) (w : WakeInfo) (h : w.pins.ftHigh = false) :
    (s.wake c w).hub = { s.hub with hub := .held c false, boots := 0 } ∧
    (s.wake c w).aon = { s.aon with shipFet := true, diodeOn := true, intervalUs := w.intervalUs, pins := w.pins, softAbandoned := false } ∧
    (s.railsUp = true → (∀ n, ((s.wake c w).lane n).up = true) ∧ ∀ m, ((s.wake c w).pdie m).up = true) := by
  unfold State.wake; dsimp only
  simp only [h, Bool.false_eq_true, if_false]
  refine ⟨by rw [diesUp_more]; rfl, by rw [diesUp_more]; rfl, fun hr => ?_⟩
  · refine ⟨fun n => ?_, fun m => ?_⟩
    · show ((State.diesUp _).lane n).up = true
      rw [diesUp_is]
      · exact congrArg LaneDie.up (vget_map ..)
      · exact hr
    · show ((State.diesUp _).pdie m).up = true
      rw [diesUp_is]
      · exact congrArg PortDieSt.up (vget_map ..)
      · exact hr

/-- With an FT ball high a wake ends in the factory test state (R50, R412). -/
theorem wake_factory (s : State) (c : Nat) (w : WakeInfo) (h : w.pins.ftHigh = true) :
    (s.wake c w).hub.hub = .off ∧ (s.wake c w).aon.factoryTest = true := by
  unfold State.wake; dsimp only
  simp only [h, if_true]
  exact ⟨(factoryState_is _).2.1, by rw [(factoryState_is _).1]⟩

end Sys2Proof.Machine
end

