-- ==== Sys2Proof/Laws/Ticks.lean ====
section
/-! SUPPORT. Laws about the end of a tick, the VSEL sample and the mode of a decision. -/

namespace Sys2Proof.Machine

/-- All that the end of a tick can do: time, timers, watchdog, handicap unit, and each running die's copy of the index. -/
theorem endTick_is (s : State) : ∃ F T W H, s.endTick = { s with
    time := { s.time with tick := s.time.tick + 1, edges := 0, fleetNs := F }, timers := T, wdg := W, hnd := H
    lanes := s.lanes.map (fun (l : LaneDie) => if l.up then { l with tick := BitVec.ofNat 32 (s.time.tick + 1) } else l)
    portDies := s.portDies.map (fun (d : PortDieSt) => if d.up then { d with tick := BitVec.ofNat 32 (s.time.tick + 1) } else d) } := by
  have h1 : ∀ u : State, ∃ H, u.perturb = { u with hnd := H } := by
    intro u; unfold State.perturb; dsimp only; split
    · exact ⟨u.hnd, rfl⟩
    · exact ⟨_, rfl⟩
  have h2 : ∀ u : State, ∃ T, u.finishTick = { u with timers := T } := by
    intro u; unfold State.finishTick; split
    · exact ⟨_, rfl⟩
    · exact ⟨u.timers, rfl⟩
  obtain ⟨T, hT⟩ := h2 s
  obtain ⟨H, hH⟩ := h1 s.finishTick
  unfold State.endTick; dsimp only
  rw [hH, hT]
  split <;> exact ⟨_, _, _, _, rfl⟩

theorem endTick_tick (s : State) : s.endTick.time.tick = s.time.tick + 1 := by obtain ⟨F, T, W, H, h⟩ := endTick_is s; rw [h]
theorem endTick_edges (s : State) : s.endTick.time.edges = 0 := by obtain ⟨F, T, W, H, h⟩ := endTick_is s; rw [h]
theorem endTick_word (s : State) : s.endTick.tickWord = BitVec.ofNat 32 (s.time.tick + 1) := by
  obtain ⟨F, T, W, H, h⟩ := endTick_is s; rw [h]; rfl
theorem endTick_lane (s : State) (n : Lane) :
    s.endTick.lane n = { s.lane n with tick := if (s.lane n).up then s.endTick.tickWord else (s.lane n).tick } := by
  rw [endTick_word]
  obtain ⟨F, T, W, H, h⟩ := endTick_is s
  have : s.endTick.lane n = if (s.lane n).up then { s.lane n with tick := BitVec.ofNat 32 (s.time.tick + 1) } else s.lane n := by
    rw [h]; exact vget_map ..
  rw [this]; split <;> rfl
theorem endTick_pdie (s : State) (m : Fin 2) :
    s.endTick.pdie m = { s.pdie m with tick := if (s.pdie m).up then s.endTick.tickWord else (s.pdie m).tick } := by
  rw [endTick_word]
  obtain ⟨F, T, W, H, h⟩ := endTick_is s
  have : s.endTick.pdie m = if (s.pdie m).up then { s.pdie m with tick := BitVec.ofNat 32 (s.time.tick + 1) } else s.pdie m := by
    rw [h]; exact vget_map ..
  rw [this]; split <;> rfl
theorem endTick_same (s : State) : s.endTick.conns = s.conns ∧ s.endTick.aon = s.aon ∧ s.endTick.events = s.events ∧
    s.endTick.host = s.host ∧ s.endTick.hub = s.hub := by
  obtain ⟨F, T, W, H, h⟩ := endTick_is s; rw [h]; exact ⟨rfl, rfl, rfl, rfl, rfl⟩

/-- The VSEL sample writes the hub's list of samples, and that only with VIO up (R43, R63). -/
theorem sampleVsel_is (s : State) (v : Fin 8) : s.sampleVsel v =
    { s with hub := { s.hub with vsel := if s.aon.vio then ((s.now, v) :: s.hub.vsel).take 64 else s.hub.vsel } } := by
  unfold State.sampleVsel; split <;> rfl

/-- Without a held request the mode of a decision follows R23, and no lane is touched. -/
theorem chooseMode_free (s : State) (h : s.aon.request = none) :
    s.chooseMode.aon = { s.aon with mode := if s.aon.safeLatch then some .safe else if s.validSource then some .supply
      else if s.charge.present then some .battery else s.aon.mode } ∧ s.chooseMode.lanes = s.lanes := by
  have ha : s.abortRequest = s := by unfold State.abortRequest; rw [h]
  unfold State.chooseMode
  rw [ha, ite_self]
  dsimp only
  by_cases h1 : s.aon.safeLatch = true
  · rw [if_pos h1, if_pos h1]; exact ⟨setMode_mode .., (setMode_same ..).2.1⟩
  · rw [if_neg h1, if_neg h1]
    by_cases h2 : s.validSource = true
    · rw [if_pos h2, if_pos h2]; exact ⟨setMode_mode .., (setMode_same ..).2.1⟩
    · rw [if_neg h2, if_neg h2]
      by_cases h3 : s.charge.present = true
      · rw [if_pos h3, if_pos h3]; exact ⟨setMode_mode .., (setMode_same ..).2.1⟩
      · rw [if_neg h3, if_neg h3]; exact ⟨rfl, rfl⟩

end Sys2Proof.Machine
end

