-- ==== Sys2Proof/Laws/TrunkFrames.lean ====
section
/-! SUPPORT. Laws about queued and originated trunk frames, the grant layer. -/

namespace Sys2Proof.Machine

theorem enqueue_is (s : State) (t : TrunkPort) (f) : ∃ L d, s.enqueue t f = { s with trunk := { s.trunk with links := L }, portDies := d } := by
  unfold State.enqueue; dsimp only; split
  · exact ⟨_, _, rfl⟩
  · exact ⟨_, _, rfl⟩

theorem modLink_other (s : State) (t k : TrunkPort) (f) (h : k ≠ t) : (s.modLink t f).link k = s.link k := vmod_get_other _ _ _ _ h

theorem enqueue_link (s : State) (t : TrunkPort) (f) (h : (s.link t).queue.length < 16) : (s.enqueue t f).link t = { s.link t with queue := (s.link t).queue ++ [f] } := by
  unfold State.enqueue; dsimp only; rw [if_pos h]; simp

/-- A frame that joins a queue stands in it, whether or not another was dropped for it (R268). -/
theorem enqueue_mem (s : State) (t : TrunkPort) (f) : f ∈ ((s.enqueue t f).link t).queue := by
  unfold State.enqueue; dsimp only; split
  · rw [State.modLink_link]; exact List.mem_append_right _ (List.mem_singleton.mpr rfl)
  · show f ∈ ((State.modLink _ _ _).link t).queue
    rw [State.modLink_link]; exact List.mem_append_right _ (List.mem_singleton.mpr rfl)

theorem enqueue_other (s : State) (t k : TrunkPort) (f) (h : k ≠ t) : (s.enqueue t f).link k = s.link k := by
  unfold State.enqueue; dsimp only; split
  · exact modLink_other _ _ _ _ h
  · exact modLink_other _ _ _ _ h

theorem enqueueFold_is (f : TrunkFrame) (l : List TrunkPort) : ∀ s : State, ∃ L d, l.foldl (fun s t => s.enqueue t f) s = { s with trunk := { s.trunk with links := L }, portDies := d } := by
  induction l with
  | nil => intro s; exact ⟨s.trunk.links, s.portDies, rfl⟩
  | cons x r ih =>
    intro s; rw [List.foldl_cons]
    obtain ⟨L, d, h⟩ := ih (s.enqueue x f)
    obtain ⟨L', d', h'⟩ := enqueue_is s x f
    exact ⟨L, d, by rw [h, h']⟩

theorem originate_is (s : State) (ports ty dst p) : ∃ L d, s.originate ports ty dst p = { s with trunk := { s.trunk with seq := s.trunk.seq + 1, links := L }, portDies := d } := by
  unfold State.originate; dsimp only
  obtain ⟨L, d, h⟩ := enqueueFold_is (s.newFrame ty dst p) ports (s.modTrunk (fun t => { t with seq := t.seq + 1 }))
  exact ⟨L, d, by rw [h]; rfl⟩

theorem enqueueFold_other (f : TrunkFrame) (l : List TrunkPort) (k : TrunkPort) (h : k ∉ l) : ∀ s : State, (l.foldl (fun s t => s.enqueue t f) s).link k = s.link k := by
  induction l with
  | nil => intro s; rfl
  | cons x r ih =>
    intro s; rw [List.foldl_cons, ih (fun h' => h (List.mem_cons_of_mem _ h')), enqueue_other _ _ _ _ (fun e => h (by rw [e]; exact List.mem_cons_self ..))]

theorem enqueueFold_link (f : TrunkFrame) (l : List TrunkPort) (hn : l.Nodup) (k : TrunkPort) (hk : k ∈ l) : ∀ s : State, (s.link k).queue.length < 16 → (l.foldl (fun s t => s.enqueue t f) s).link k = { s.link k with queue := (s.link k).queue ++ [f] } := by
  induction l with
  | nil => cases hk
  | cons x r ih =>
    intro s h
    rw [List.foldl_cons]
    rw [List.nodup_cons] at hn
    rcases List.mem_cons.mp hk with rfl | hk
    · rw [enqueueFold_other f r k hn.1, enqueue_link _ _ _ h]
    · have hx : k ≠ x := fun e => hn.1 (e ▸ hk)
      have e := enqueue_other s x k f hx
      rw [ih hn.2 hk _ (by rw [e]; exact h), e]

theorem originate_link (s : State) (ports ty dst p) (hn : ports.Nodup) (k : TrunkPort) (hk : k ∈ ports) (h : (s.link k).queue.length < 16) :
   (s.originate ports ty dst p).link k = { s.link k with queue := (s.link k).queue ++ [s.newFrame ty dst p] } := by
  unfold State.originate; dsimp only
  exact enqueueFold_link _ ports hn k hk (s.modTrunk (fun t => { t with seq := t.seq + 1 })) h

/-- An originated frame stands in the queue of every port it was meant for. -/
theorem originate_mem (s : State) (ports ty dst p) (k : TrunkPort) (hk : k ∈ ports) (hn : ports.Nodup) :
    s.newFrame ty dst p ∈ ((s.originate ports ty dst p).link k).queue := by
  have go : ∀ (f : TrunkFrame) (l : List TrunkPort), l.Nodup → k ∈ l → ∀ u : State, f ∈ ((l.foldl (fun s t => s.enqueue t f) u).link k).queue := by
    intro f l
    induction l with
    | nil => intro _ h; cases h
    | cons x r ih =>
      intro hn h u
      rw [List.foldl_cons]
      rw [List.nodup_cons] at hn
      rcases List.mem_cons.mp h with rfl | h
      · rw [enqueueFold_other f r k hn.1]; exact enqueue_mem ..
      · exact ih hn.2 h _
  unfold State.originate; exact go _ ports hn hk _

theorem upPorts_nodup (s : State) : s.upPorts.Nodup := List.Nodup.filter _ (by decide)

theorem mem_upPorts (s : State) (t) (h : (s.link t).up = true) : t ∈ s.upPorts := by simp [State.upPorts, h]

theorem noteSeen_id (s : State) (t f r) : (s.noteSeen t f r).trunk.nodeId = s.trunk.nodeId := rfl

theorem repeatFrame_is (s : State) (t f) : ∃ T d, s.repeatFrame t f = { s with trunk := T, portDies := d } ∧ T.nodeId = s.trunk.nodeId ∧
    T.links.get t = s.link t := by
  unfold State.repeatFrame; dsimp only; split
  · generalize hg : ({ f with hops := f.hops + 1, payload := if f.type = 2 then addCorr f.payload (s.link t).delay else f.payload } : TrunkFrame) = g
    obtain ⟨L, d, h⟩ := enqueue_is (s.noteSeen t f (s.repeats t f)) (otherPort t) g
    refine ⟨{ (s.noteSeen t f (s.repeats t f)).trunk with links := L }, d, h.trans rfl, rfl, ?_⟩
    have ot : ∀ k : TrunkPort, k ≠ otherPort k := by decide
    have e := enqueue_other (s.noteSeen t f (s.repeats t f)) (otherPort t) t g (ot t)
    rw [h] at e; exact e
  · exact ⟨_, s.portDies, rfl, rfl, rfl⟩

/-- The rank that goes first is that of a queued frame, and no queued frame ranks before it (R268). -/
theorem bestRank_is (q : List TrunkFrame) (h : q ≠ []) :
    (∃ f ∈ q, frameRank f.type = bestRank q) ∧ ∀ f ∈ q, bestRank q ≤ frameRank f.type := by
  have b : ∀ x : Byte, frameRank x ≤ 8 := by intro x; unfold frameRank; split_ifs <;> omega
  have go : ∀ (l : List Nat) (a : Nat), (l.foldl min a = a ∨ l.foldl min a ∈ l) ∧ l.foldl min a ≤ a ∧ ∀ x ∈ l, l.foldl min a ≤ x := by
    intro l
    induction l with
    | nil => intro a; exact ⟨.inl rfl, Nat.le_refl _, fun x hx => nomatch hx⟩
    | cons y r ih =>
      intro a
      obtain ⟨h1, h2, h3⟩ := ih (min a y)
      rw [List.foldl_cons]
      refine ⟨?_, by omega, fun x hx => ?_⟩
      · rcases h1 with h1 | h1
        · rcases Nat.le_total a y with e | e
          · exact .inl (by rw [h1]; omega)
          · exact .inr (by rw [h1, Nat.min_eq_right e]; exact List.mem_cons_self ..)
        · exact .inr (List.mem_cons_of_mem _ h1)
      · rcases List.mem_cons.mp hx with rfl | hx
        · omega
        · exact h3 x hx
  obtain ⟨h1, h2, h3⟩ := go (q.map (fun f => frameRank f.type)) 8
  refine ⟨?_, fun f hf => h3 _ (List.mem_map_of_mem hf)⟩
  have hb : bestRank q = (q.map (fun f => frameRank f.type)).foldl min 8 := rfl
  rcases h1 with h1 | h1
  · obtain ⟨f, r, rfl⟩ := List.exists_cons_of_ne_nil h
    refine ⟨f, List.mem_cons_self .., ?_⟩
    have := h3 (frameRank f.type) (by simp)
    have := b f.type
    rw [hb]; omega
  · obtain ⟨f, hf, e⟩ := List.mem_map.mp h1
    exact ⟨f, hf, by rw [hb]; exact e⟩

theorem discipline_is (s : State) (a f e) : ∃ T L, s.discipline a f e = { s with time := T, ledger := L } ∧ T.tick = s.time.tick := by
  unfold State.discipline; dsimp only; split
  · rw [record_is]; exact ⟨_, _, rfl, rfl⟩
  · exact ⟨_, s.ledger, rfl, rfl⟩

theorem startClaim_is (s : State) : ∃ c d, s.startClaim = { s with trunk := { s.trunk with claiming := c, due := d } } := by
  unfold State.startClaim; split
  · exact ⟨s.trunk.claiming, s.trunk.due, rfl⟩
  · exact ⟨_, _, rfl⟩

theorem sendBeacon_is (s : State) : ∃ L d, s.sendBeacon = { s with trunk := { s.trunk with beaconNo := s.trunk.beaconNo + 1, due := { s.trunk.due with beacon := s.now + 5000 }, seq := s.trunk.seq + 1, links := L }, portDies := d } := by
  unfold State.sendBeacon; dsimp only
  obtain ⟨L, d, h⟩ := originate_is (s.modTrunk (fun t => { t with beaconNo := t.beaconNo + 1, due := { t.due with beacon := s.now + msTicks 50 } })) (s.modTrunk (fun t => { t with beaconNo := t.beaconNo + 1, due := { t.due with beacon := s.now + msTicks 50 } })).upPorts 2 0xFFF (s.modTrunk (fun t => { t with beaconNo := t.beaconNo + 1, due := { t.due with beacon := s.now + msTicks 50 } })).beaconPayload
  exact ⟨L, d, by rw [h]; rfl⟩

theorem insertSlot_mem (e : RosterEntry) (l) : e ∈ insertSlot e l := by
  induction l with
  | nil => simp [insertSlot]
  | cons x r ih => unfold insertSlot; split <;> [simp; (split <;> simp [ih])]

/-- The lanes, the pairs and the bulletin epoch are as before. -/
structure LanePartKept (s t : State) : Prop where
  lanes : t.lanes = s.lanes
  conns : t.conns = s.conns
  epoch : t.trunk.epoch = s.trunk.epoch

theorem LanePartKept.tr {s t u : State} (h : LanePartKept s t) (k : LanePartKept t u) : LanePartKept s u := ⟨k.1.trans h.1, k.2.trans h.2, k.3.trans h.3⟩

theorem LanePartKept.fold {α : Type} (f : State → α → State) (hf : ∀ s x, LanePartKept s (f s x)) (l : List α) (s : State) : LanePartKept s (l.foldl f s) := 
  foldl_inv (LanePartKept s) f l s ⟨rfl, rfl, rfl⟩ (fun b x h => h.tr (hf b x))

theorem LanePartKept.orig (s : State) (a b c d) : LanePartKept s (s.originate a b c d) := by
  obtain ⟨L, d, e⟩ := originate_is s a b c d; rw [e]; exact ⟨rfl, rfl, rfl⟩

theorem LanePartKept.held (s : State) (b c d) : LanePartKept s (s.originateHeld b c d) := by
  unfold State.originateHeld; dsimp only
  refine LanePartKept.tr (t := s.modTrunk (fun t => { t with seq := t.seq + 1 })) ⟨rfl, rfl, rfl⟩ (LanePartKept.fold _ (fun s x => ?_) _ _)
  split
  · obtain ⟨L, d, e⟩ := enqueue_is s x _; rw [e]; exact ⟨rfl, rfl, rfl⟩
  · exact ⟨rfl, rfl, rfl⟩

theorem LanePartKept.lose (s : State) (p) : LanePartKept s (s.loseId p) := by
  unfold State.loseId; dsimp only; split
  · unfold State.takeNodeId; dsimp only; split_ifs <;> exact ⟨rfl, rfl, rfl⟩
  · split
    · exact ⟨rfl, rfl, rfl⟩
    · rw [record_is]; exact ⟨rfl, rfl, rfl⟩

theorem LanePartKept.grant (s : State) (n p) : LanePartKept s (s.sendGrant n p) := by
  unfold State.sendGrant; split
  · unfold State.takeGrant; dsimp only; split
    · exact ⟨rfl, rfl, rfl⟩
    · split
      · split <;> exact ⟨rfl, rfl, rfl⟩
      · exact ⟨rfl, rfl, rfl⟩
      · exact ⟨rfl, rfl, rfl⟩
      · exact LanePartKept.lose ..
      · exact ⟨rfl, rfl, rfl⟩
  · exact LanePartKept.held ..

theorem LanePartKept.closeGrant (s : State) (x us) : LanePartKept s (s.closeGrant x us) := by
  unfold State.closeGrant; dsimp only; split
  · refine LanePartKept.tr ?_ (LanePartKept.grant ..); exact ⟨rfl, rfl, rfl⟩
  · exact ⟨rfl, rfl, rfl⟩

theorem LanePartKept.openOrRenew (s : State) (x g us) : LanePartKept s (s.openOrRenew x g us) := by
  unfold State.openOrRenew; dsimp only
  refine LanePartKept.tr ?_ (LanePartKept.grant ..)
  split <;> exact ⟨rfl, rfl, rfl⟩

theorem LanePartKept.bul (u : State) (out : List Session) (gr : List (RosterEntry × Nat)) (us : Nat) :
    LanePartKept u (gr.foldl (fun s g => s.openOrRenew g.1 g.2 us) (out.foldl (fun s x => s.closeGrant x us) u)) :=
  LanePartKept.tr (LanePartKept.fold _ (fun s x => LanePartKept.closeGrant ..) _ u) (LanePartKept.fold _ (fun s x => LanePartKept.openOrRenew ..) _ _)

theorem ringPut_is {s w : State} {b n l} (h : s.ringPut b n l = some w) : ∃ H, w = { s with host := { s.host with mem := H } } := by
  unfold State.ringPut at h; dsimp only at h
  split at h
  · split at h
    · cases h; exact ⟨_, rfl⟩
    · cases h
  · split at h
    · split at h <;> (cases h; exact ⟨_, rfl⟩)
    · cases h

end Sys2Proof.Machine
end

