-- ==== Sys2Proof/Machine/Pwm.lean ====
section
/-! DEFINITION. The three-level outputs PWMA_k and PWMB_k of a phase, as its drive and its lane's region give them
(R39, R90-R92, R112). -/

namespace Sys2Proof.Machine

/-- A three-level output (R28, R90): the leg's upper FET on, its lower FET on, or both off. -/
inductive Level where
  | high | low | mid
  deriving DecidableEq, Repr

/-- The level of the modulated leg: an energy-storing interval has the input-side leg high in the buck form and the
output-side leg low in the boost form; freewheeling is the opposite (R91). -/
def Drive.modulated (d : Drive) (boost : Bool) : Level :=
  match d with
  | .mid => .mid
  | .refresh => .low
  | .storing => if boost then .low else .high
  | .freewheel => if boost then .high else .low

/-- The level of the other leg at a fraction `x` of the period: held high, except for the fixed 8% in buck-boost low and the
8% that the fixed 92% leaves in buck-boost high (R91). R91 does not place these in the period; the low part of the output-side
leg comes first, that of the input-side leg last (DESIGN CHOICE, log entry 132). A leg that is mid or low for a refresh is so
on both sides. -/
def Drive.other (d : Drive) (r : Region) (x : Rat) : Level :=
  match d, r with
  | .mid, _ => .mid
  | .refresh, _ => .low
  | _, .buck => .high
  | _, .boost => .high
  | _, .bbLow => if x < 8 / 100 then .low else .high
  | _, .bbHigh => if x < 92 / 100 then .high else .low

/-- Levels of a phase's input-side and output-side legs at a fraction of its period. -/
def Phase.legs (p : Phase) (r : Region) (x : Rat) : Level × Level :=
  match r with
  | .buck | .bbLow => (p.drive.modulated false, p.drive.other r x)
  | .bbHigh | .boost => (p.drive.other r x, p.drive.modulated true)

/-- PWMA_k drives the far-node leg, PWMB_k the SYS leg; the input side is the far node's while the current flows toward SYS, and
the legs exchange their roles where it flows the other way (R90, R91). A die that is down leaves both undriven, which a stage
reads as mid (R39, R41). -/
def State.pwm (s : State) (k : PhaseNo) (x : Rat) : Level × Level :=
  let l := s.lane (phaseLane k)
  let p := l.phases.get (phasePos k)
  if !l.up then (.mid, .mid)
  else
    let y := p.legs l.region x
    if p.fwd then y else (y.2, y.1)

/-- What a ball shows `ns` after the engine has turned from one level to another: between high and low it passes through mid for
DEADTIME (R90). -/
def State.turning (s : State) (n : Lane) (before after : Level) (ns : Rat) : Level :=
  if before = after || before = .mid || after = .mid then after
  else if ns < s.laneQ n 5 (5 / 16) then .mid else after

end Sys2Proof.Machine
end

