-- ==== Sys2Proof/Machine/Pins.lean ====
section
/-! DEFINITION. Levels of the device's outputs, unpowered, in reset, in LIMP and while it runs (R33, R39, R40, R43, R133, R214,
R326). The three-level PWM outputs stand in Machine/Pwm.lean. -/

namespace Sys2Proof.Machine

/-- What an output does with its ball. An open-drain output that is released is `.hiZ`. -/
inductive Ball where
  | high | low | hiZ
  deriving DecidableEq, Repr

def driven (up level : Bool) : Ball := if !up then .hiZ else if level then .high else .low

/-- An open-drain output. -/
def openDrain (low : Bool) : Ball := if low then .low else .hiZ

/-- PSEN_n (R39, R100): the keeper of a lane die holds it in LIMP. -/
def State.psenBall (s : State) (n : Lane) : Ball := driven (s.lane n).up (s.lane n).psen

/-- The gates of an input or pass pair (R39): charged while the pair closes or is closed. -/
def State.gateBall (s : State) (c : Src) : Ball := driven (s.pdie (dieOfSrc c)).up ((s.conn c).pair != .opened)

/-- BGA1 and BGA2 (R39, R58): the ideal-diode control drives them, in LIMP too. -/
def State.bgaBall (s : State) : Ball := driven s.aon.vaon (s.aon.batfet != .off)

/-- SHIPG (R39, R72, R75). -/
def State.shipgBall (s : State) : Ball := driven s.aon.vaon s.aon.shipFet

/-- DISCH of a port (R39, R177). -/
def State.dischBall (s : State) (p : Port) : Ball := driven (s.pdie (portDie p)).up (s.port p).disch

/-- ACIN_DIS (R39). No rule says when port die 0 drives it high: it stays low (DESIGN CHOICE, log entry 139). -/
def State.acinDisBall (s : State) : Ball := driven (s.pdie 0).up false

/-- The code the multiplexer of a port sees (R33, R39): 0b00 by the board's resistors while its die is down. -/
def State.muxCode (s : State) (p : Port) : BitVec 2 := if (s.pdie (portDie p)).up then (s.port p).mux else 0

/-- The termination on CC1 and CC2 (R40): dead-battery Rd while the port die is down. -/
def State.ccBall (s : State) (p : Port) : CcTerm := if (s.pdie (portDie p)).up then (s.port p).cc else .rd

/-- The trunk data logic inverts TXD and RXD of a stand-in whose orientation is flipped (R190). -/
def State.dataInverted (s : State) (p : Port) : Bool := (s.port p).tmode && (s.port p).cc2

/-- DP and DM are driven only in a BC 1.2 detection, which the hub's absence ends (R39, R169). -/
def State.dpDriven (s : State) (p : Port) : Bool := (s.pdie (portDie p)).up && s.hubUp && (s.port p).bcRunning

/-- TA_DE and TB_DE between frames: low, and high only while a frame goes out, which one command does whole (R39, R259). -/
def State.deBall (s : State) : Ball := driven (s.pdie 1).up false

/-- TA_TXD and TB_TXD between frames: the idle line is high (R39, R259). -/
def State.txdBall (s : State) : Ball := driven (s.pdie 1).up true

/-- TXD of a trunk port while its last frame goes out (R259). -/
def State.txdWave (s : State) (t : TrunkPort) : List Bool := lineCode (s.link t).out

/-- STK_SYNC between its pulses (R39, R133): the master's lane die 0 drives it, in LIMP too; any other device reads it. -/
def State.stkSyncBall (s : State) : Ball :=
  driven ((s.lane 0).up && 2 ≤ s.stack.size && s.stack.position == 0 && s.stack.masterless.isNone) false

/-- STAT0 and STAT1 (R39, R214). -/
def State.statBalls (s : State) : Ball × Ball := (openDrain (s.aon.vaon && s.statLow.1), openDrain (s.aon.vaon && s.statLow.2))

/-- HDRM_N (R39, R249). -/
def State.hdrmBall (s : State) : Ball := openDrain (s.aon.vaon && s.hdrmLow)

/-- PGOOD (R39, R67): its driver stands in the always-on domain; a hub that is off does not release it. -/
def State.pgoodBall (s : State) : Ball := openDrain (s.aon.vaon && !s.aon.pgood)

/-- IRQ_N (R39, R43, R326). -/
def State.irqBall (s : State) : Ball := openDrain (!s.irqN)

/-- SPI_SDO, FDO and UART_TX are driven at all (R39, R43). -/
def State.ioDriven (s : State) : Bool := s.hostUp

/-- The stack link's transmitter is driven (R39). -/
def State.stackDriven (s : State) : Bool := s.hubUp

/-- XOUT runs with VPWR, through every hub reset (R35, R39). -/
def State.xoutRuns (s : State) : Bool := s.aon.vpwr && !s.aon.xtalLost

end Sys2Proof.Machine
end

