-- ==== Sys2Proof/WellFormed.lean ====
section
/-! DEFINITION. Which terms of `Instr` are commands the outside can send: the bounds the manual gives their operands. The
meanings are total and do not read this check; it says which terms stand for something that can happen. -/

namespace Sys2Proof

/-- A diode slot carries a temperature, an NTC slot a ratio between 0 and 1 (R292, R293). -/
def slotFits (x : Sensor) (v : SlotValue) : Bool :=
  match x, v with
  | .tsl _, .ratio r => decide (0 ≤ r ∧ r ≤ 1)
  | .tb _, .ratio r => decide (0 ≤ r ∧ r ≤ 1)
  | .tsl _, .diode _ => false
  | .tb _, .diode _ => false
  | .hub, .diode _ => true
  | .laneDie _, .diode _ => true
  | .portDie _, .diode _ => true
  | .flash, .diode _ => true
  | .hub, .ratio _ => false
  | .laneDie _, .ratio _ => false
  | .portDie _, .ratio _ => false
  | .flash, .ratio _ => false

/-- A consumed trunk frame is of its row's type and its payload is at most 272 bytes (R260, R261). -/
def frameFits (type : Nat) (f : TrunkFrame) : Bool := f.type.toNat == type && decide (f.payload.length ≤ 272)

/-- Four address bytes come first; data or a read follows them, not both (R323). -/
def transferFits (x : I2cTransfer) : Bool :=
  decide (x.addr.length ≤ 4) && (x.addr.length == 4 || (x.data.isEmpty && x.readBytes == 0)) && (x.data.isEmpty || x.readBytes == 0)

/-- The parameter length fits its 16-bit field; a length the slot does not allow is answered, not impossible (R328, R331). -/
def descFits (d : Desc) : Bool := decide (d.params.length < 65536)

/-- Late dies are named once (R14); a storing interval is not negative (R78, R90); a
forecast frame has at most 19 units (R238); a trunk frame on the wire at most 288 bytes (R260); stack positions and sizes
(R422, R423); thermal factors (R295). -/
def Instr.wf (i : Instr) : Bool :=
  match i with
  | .powerOn _ _ => true
  | .packConnect _ => true
  | .vpwrLoss _ => true
  | .railOverload _ => true
  | .vioLost => true
  | .vioReturn _ => true
  | .xtalLost => true
  | .xtalRestored => true
  | .decisionTick _ late => late.Nodup
  | .swapHoldExpiry _ _ => true
  | .dieFrameApply _ => true
  | .dieUnresponsive _ => true
  | .safeLatchSet _ => true
  | .sysOvershootSafe _ _ => true
  | .batteryOvSafe _ _ => true
  | .batfetCurrentSafe _ => true
  | .wakeNShipWake _ => true
  | .connectorWake _ _ _ => true
  | .dormantExit _ _ => true
  | .spuriousWake => true
  | .dormantAutoEntry _ => true
  | .dormantSequenceContinue _ => true
  | .dormantPowerDown => true
  | .shipDelayExpiry => true
  | .shipBatfetOpen => true
  | .shipFetOpen => true
  | .idealDiodeClose _ _ => true
  | .idealDiodeOpen _ _ _ => true
  | .softConnectTimeout _ _ => true
  | .softConnectComplete _ _ => true
  | .limpBackstopClose _ _ => true
  | .diodeControlEnable _ _ => true
  | .lanePeriodBoundary _ m => (List.finRange 4).all (fun p => decide (0 ≤ (m.phases.get p).tEs))
  | .balanceTrimUpdate _ => true
  | .peakLimitTrip _ _ => true
  | .currentLimitEvent _ => true
  | .negCurrentLimit _ x => decide (0 ≤ x.tNs)
  | .stageFault _ => true
  | .truncation _ _ => true
  | .truncationRelease _ _ => true
  | .skipEntry _ => true
  | .skipExitComparator _ _ => true
  | .skipExit _ => true
  | .laneFirstPulses _ _ _ _ => true
  | .inRegulation _ => true
  | .laneStopComplete _ => true
  | .warmRefresh _ _ _ => true
  | .coldAdmissionComplete _ _ => true
  | .shedBegin _ => true
  | .shedEnd _ => true
  | .shedInhibitExpiry _ => true
  | .benchGoCold _ => true
  | .fillPeriodEnd _ => true
  | .trimSave _ => true
  | .phaseOut _ _ => true
  | .headroomHoldRelease _ => true
  | .stackSyncEdge _ => true
  | .stackSyncLocked _ => true
  | .syncLoss => true
  | .acinQualified _ => true
  | .pairClosed _ _ _ => true
  | .farNodeDrainDone _ _ => true
  | .drainTimeout _ => true
  | .sagLimitLearned _ _ => true
  | .sagProbe _ => true
  | .panelTrack _ _ => true
  | .panelScan _ => true
  | .protectionTrip _ _ _ _ => true
  | .requalifyAfterTrip _ => true
  | .lockoutEndLowVoltage _ _ => true
  | .sourceLost _ _ => true
  | .farNodeLost _ _ => true
  | .ccAttach _ _ => true
  | .sinkDetach _ _ => true
  | .sourceDetach _ => true
  | .drpToggle _ => true
  | .trySnkTimeout _ => true
  | .errorRecoveryEnd _ => true
  | .bc12DetectionDone _ _ => true
  | .pdMessageReceived _ _ => true
  | .sourceCapabilitiesReceived _ _ => true
  | .requestReceived _ _ _ _ => true
  | .voltageTransitionAccept _ => true
  | .vendorModeEntry _ => true
  | .pdResponseTimeout _ => true
  | .sinkWaitCapTimeout _ => true
  | .noResponseTimeout _ => true
  | .sourceCapResend _ => true
  | .ppsRequestRepeat _ => true
  | .eprKeepalive _ => true
  | .eprEntryTimeout _ => true
  | .cableDiscoverRetry _ => true
  | .vconnLimit _ _ => true
  | .sourceTransitionStart _ => true
  | .feedTargetReached _ _ => true
  | .vbusDischargeDone _ _ => true
  | .hardResetReceived _ => true
  | .sourceRecover _ => true
  | .frsSignalDetected _ => true
  | .frsVbusFall _ _ => true
  | .frsSignalEnd _ => true
  | .housekeepingSlot x v => slotFits x v
  | .housekeepingRound r => decide (0 ≤ r.hdrmShare ∧ r.hdrmShare ≤ 1)
  | .shutdownRelease _ => true
  | .shutdownSlotWrite => true
  | .chargePhaseAdvance _ _ _ => true
  | .preTimerExpiry => true
  | .fastTimerExpiry => true
  | .thermalRestart => true
  | .backstopInterval _ _ => true
  | .backstopTrip _ => true
  | .backstopReset _ => true
  | .batOvSuspend _ => true
  | .presenceQualified _ => true
  | .removalIndication _ _ _ => true
  | .statPatternTimer => true
  | .gaugeSample _ => true
  | .restAnchor _ => true
  | .gaugeRecordPeriodic => true
  | .learnedStateCompaction => true
  | .forecastFrameStart _ => true
  | .forecastFrameHandover f => decide (f.words.length ≤ 19)
  | .blockStart => true
  | .forecastUnlock => true
  | .prepositionAction _ _ => true
  | .biasHoldExpiry => true
  | .sysDroopTrip _ _ => true
  | .hdrmDroopRelease _ _ => true
  | .passPairJoin _ _ _ => true
  | .energiseTimeout _ => true
  | .joinRetry _ => true
  | .trunkFrameReceived _ _ bytes => decide (bytes.length ≤ 288)
  | .helloReceived _ f => frameFits 1 f
  | .beaconReceived _ f => frameFits 2 f
  | .bulletinReceived x => frameFits 3 x.frame
  | .reportReceived x => frameFits 4 x.frame
  | .grantReceived x => frameFits 5 x.frame
  | .claimReceived x => frameFits 6 x.frame
  | .updateFrameReceived x => frameFits 7 x.frame
  | .updateAckReceived x => frameFits 8 x.frame
  | .kickoffReceived x => frameFits 10 x.frame
  | .messageReceived x => frameFits 9 x.frame
  | .helloSend _ => true
  | .beaconSend => true
  | .bulletinSend => true
  | .reportSend => true
  | .unrosteredGrantSend => true
  | .claimSend => true
  | .captainElected => true
  | .captainLost => true
  | .captainStepDown => true
  | .linkDown _ => true
  | .grantEffective => true
  | .leaseEnd => true
  | .rosterEntryStale _ => true
  | .trunkFeedStart => true
  | .trunkFeedStop => true
  | .trunkBusQualified _ => true
  | .droopOnset _ => true
  | .droopClear _ => true
  | .updateFragmentSend => true
  | .updateAckSend => true
  | .kickoffSend => true
  | .telemetryPublish => true
  | .telFreezeTimeout => true
  | .telBlockRead _ _ => true
  | .capture => true
  | .release => true
  | .spiFrame _ => true
  | .i2cTransfer x => transferFits x
  | .uartFrame _ => true
  | .post _ => true
  | .urgent _ => true
  | .cancel _ => true
  | .resync _ => true
  | .dbMaskWrite _ _ => true
  | .hdbOutClear _ _ => true
  | .hdbMaskWrite _ _ => true
  | .overrunRead _ _ => true
  | .violClear => true
  | .registerWrite _ => true
  | .sysNop _ _ d => descFits d
  | .sysReset _ _ d => descFits d
  | .safeEnter _ _ d => descFits d
  | .safeClear _ _ d => descFits d
  | .shipEnter _ _ d => descFits d
  | .dormantEnter _ _ d => descFits d
  | .funcStop _ _ d => descFits d
  | .cfgWrite _ _ d => descFits d
  | .cfgRead _ _ d => descFits d
  | .funcStart _ _ d => descFits d
  | .funcAbort _ _ d => descFits d
  | .laneStop _ _ d => descFits d
  | .laneStart _ _ d => descFits d
  | .phaseReturn _ _ d => descFits d
  | .phaseRetire _ _ d => descFits d
  | .laneStatus _ _ d => descFits d
  | .chgSetCurrent _ _ d => descFits d
  | .chgHold _ _ d => descFits d
  | .chgRestart _ _ d => descFits d
  | .chgStatus _ _ d => descFits d
  | .srcUnlock _ _ d => descFits d
  | .portStatus _ _ d => descFits d
  | .portAction _ _ d => descFits d
  | .trkSend _ _ d => descFits d
  | .trkStatus _ _ d => descFits d
  | .fcstStatus _ _ d => descFits d
  | .telSubscribe _ _ d => descFits d
  | .telUnsubscribe _ _ d => descFits d
  | .ledgerInfo _ _ d => descFits d
  | .ledgerRead _ _ d => descFits d
  | .updOpen _ _ d => descFits d
  | .updBlock _ _ d => descFits d
  | .updSeal _ _ d => descFits d
  | .updKickoff _ _ d => descFits d
  | .updRelay _ _ d => descFits d
  | .updConfirm _ _ d => descFits d
  | .updAbort _ _ d => descFits d
  | .updStatus _ _ d => descFits d
  | .thermRelease _ _ d => descFits d
  | .hndUnlock _ _ d => descFits d
  | .hndLock _ _ d => descFits d
  | .diagRead _ _ d => descFits d
  | .hndRegisterWrite _ _ _ => true
  | .handicapDivCycle => true
  | .tmrCapture _ => true
  | .timerCompareMatch _ _ => true
  | .timerOverflow _ => true
  | .wdgCheckin _ => true
  | .wdgKey _ => true
  | .wdgLock _ => true
  | .watchdogExpiry => true
  | .resetNAssert _ => true
  | .hubLockup => true
  | .hubHaltDetected _ => true
  | .flashHoldRelease => true
  | .coldBoot _ => true
  | .warmBoot _ => true
  | .firstDecision _ _ _ => true
  | .keeperHoldExpiry _ => true
  | .stackControlFrame f => decide (f.position < 4 ∧ 2 ≤ f.size ∧ f.size ≤ 4)
  | .stackStateFrame f => decide (f.position < 4) && (List.finRange 4).all (fun n => decide (0 ≤ f.kL.get n ∧ f.kL.get n ≤ 1))
  | .stackMemberLost _ => true
  | .masterLost => true
  | .masterlessTimeout => true
  | .flashOperationComplete => true
  | .ledgerWrite => true
  | .ledgerSectorErase => true
  | .shelfSectorBuild _ => true
  | .stagingErase => true
  | .kickoffTimeReached => true
  | .healthWindowEnd => true
  | .wakeNLow => true
  | .sinkVbusQualified _ _ => true
  | .railRecovered _ => true
  | .uartFrameGap => true
  | .trunkQueueSend _ _ => true
  | .psTransitionTimeout _ _ => true
  | .eprKeepaliveWatchExpiry _ => true

end Sys2Proof
end

