-- ==== Sys2Proof/Tests/Slice0.lean ====
section
/-! SUPPORT. Tests: for every statement with hypotheses a theorem that shows states and operands meeting them, clause by
clause; small checks of single commands on small states; ill-formed terms that the well-formedness check refuses. -/

namespace Sys2Proof.Tests

open Sys2Proof Sys2Proof.Machine

/-! ### A running block, and small changes to it -/

/-- All dies up, the hub running in SUPPLY, 10,000 s after the start, every setting at its default. -/
def live : State :=
  { State.reset with
    time := { State.reset.time with tick := 1000000000 }
    aon := { Aon.zero with vpwr := true, vaon := true, mode := some .supply }
    hub := { HubSt.zero with hub := .running, nextDecision := 1000000000 }
    lanes := Vector.replicate 4 { LaneDie.zero with up := true, got := true, tick := 1000000000 }
    portDies := Vector.replicate 2 { PortDieSt.zero with up := true, got := true, tick := 1000000000 } }

end Sys2Proof.Tests

namespace Sys2Proof.Machine

/-- Settings in force, for a test. -/
def State.sets (s : State) (l : List CfgEntry) : State := { s with cfg := { s.cfg with inForce := l } }
def State.withKeep (s : State) (f : Keep → Keep) : State := { s with keep := f s.keep }
def State.withOtp (s : State) (f : Otp → Otp) : State := { s with otp := f s.otp }
def State.withTherm (s : State) (f : Therm → Therm) : State := { s with therm := f s.therm }
def State.withGauge (s : State) (f : Gauge → Gauge) : State := { s with gauge := f s.gauge }
def State.withFlash (s : State) (f : Flash → Flash) : State := { s with flash := f s.flash }
def State.withLedger (s : State) (f : Ledger → Ledger) : State := { s with ledger := f s.ledger }
def State.withTime (s : State) (f : Time → Time) : State := { s with time := f s.time }
def State.withHnd (s : State) (f : Handicap → Handicap) : State := { s with hnd := f s.hnd }

end Sys2Proof.Machine

namespace Sys2Proof.Tests

open Sys2Proof Sys2Proof.Machine

set_option Elab.async false

/-- A command descriptor of sequence number 1. -/
def call (p : List Byte) : Desc := ⟨1, p, false⟩

/-- A trunk frame of node 2, and the bytes of one sent to all (R258, R259). -/
def frame (t : Byte) (p : List Byte) : TrunkFrame := ⟨t, 0xFFF, 2, 0, 0, p⟩
def wire (t : Byte) (p : List Byte) : List Byte :=
  let b := [1, t, 0xFF, 0x0F, 2, 0, 0, 0, 0, 0] ++ le16 p.length ++ p
  b ++ le32 (crc32c b).toNat

def control (position : Nat) (unit : Dword) : StackControl :=
  ⟨0, position, 2, 400, 3, Vector.replicate 4 ⟨false, .draw, .drawHold, 0, 0, 0⟩, Vector.replicate 7 false, 0, unit⟩
def memberFrame (position : Nat) : StackStateFrame :=
  ⟨position, Vector.replicate 4 0, Vector.replicate 7 false, Vector.replicate 4 1, []⟩
def member : RosterEntry := ⟨0, 2, 0, 0, 0, 0, 0, 0, 0, 0, 0, 0, 0, 0, 0, 0, 0, 0, 0⟩
def note : LedgerRec := ⟨65, 0, 1, 0, 0, []⟩

/-- A whole package manifest of one sector, with its option byte (R400). -/
def package (opt : Byte) : List Byte :=
  [1, 0, 0, 0] ++ le32 0x00B07200 ++ [0, 0, 0, 0] ++ le32 4096 ++ [opt] ++ List.replicate 79 0 ++ [1] ++ List.replicate 63 0

/-- A forecast frame without demands, with its CRC (R238). -/
def fdiWords : List Half := [0x1000, 0, 0, crc16 (unitBytes [0x1000, 0, 0])]

theorem some_of {α : Type} {o : Option α} (h : o.isSome = true) : o = some (o.get h) := by simp

theorem unlatched {s : State} (h : ∀ k : Fin 12, 7 ≤ k.val → s.hasCause k.val = false) :
    ¬ ∃ k, 7 ≤ k ∧ k ≤ 11 ∧ s.hasCause k = true := by
  rintro ⟨k, h1, h2, h3⟩
  have := h ⟨k, by omega⟩ h1
  simp only [h3] at this
  cases this

/-- A property of every set bit follows from the 15 bits there are. -/
theorem bits15 {m : BitVec 15} {q : Nat → Prop} (h : ∀ f : Fin 15, m.getLsbD f.val = true → q f.val) :
    ∀ f, m.getLsbD f = true → q f := fun f hf =>
  h ⟨f, Nat.lt_of_not_le (fun hh => by rw [BitVec.getLsbD_of_ge m f hh] at hf; cases hf)⟩ hf

/-! ### States and operands that meet the hypotheses of each statement, clause by clause -/

theorem witness_StepRunsTheFrontCommand :
    (∃ (s : State), s.pending = []) :=
  ⟨State.reset, by decide +kernel⟩

theorem witness_EveryStepKeepsTheInvariant :
    (∃ (s : State) (t : State), s.Inv ∧ step s = .next t) ∧
    (∃ (c : Instr) (s : State) (t : State), s.Inv ∧ exec c s = .next t) :=
  ⟨⟨State.reset, State.reset, (by unfold State.Inv; decide +kernel), rfl⟩,
   ⟨.drpToggle 0, State.reset, _, (by unfold State.Inv; decide +kernel), rfl⟩⟩

theorem witness_TheSafeLatchStaysSet :
    (∃ (i : Instr) (s : State) (t : State), s.Inv ∧ s.aon.safeLatch = true ∧ exec i s = .next t) :=
  ⟨.drpToggle 0, (live |>.modAon (fun x => { x with safeLatch := true })), _, (by unfold State.Inv; decide +kernel), by decide +kernel, rfl⟩

theorem witness_FewCommandsMoveTheTick :
    (∃ (i : Instr) (s : State) (t : State), s.Inv ∧ exec i s = .next t ∧ t.time.tick ≠ s.time.tick) ∧
    (∃ (s : State) (t : State) (y : DormantExit) (w : WakeInfo), exec (.dormantExit y w) s = .next t) :=
  ⟨⟨.vpwrLoss true, live, _, (by unfold State.Inv; decide +kernel), rfl, by decide +kernel⟩,
   ⟨State.reset, _, .wakeN, ⟨0, BootPins.allOpen⟩, rfl⟩⟩

theorem witness_DecisionsEndTheTick :
    (∃ (s : State), (s.hub.hub = .halted ∨ (∃ c w, s.hub.hub = .held c w) ∨ (∃ c w, s.hub.hub = .booted c w))) ∧
    (∃ (n : Lane) (s : State), s.Inv ∧ s.hub.hub = .running ∧ (s.lane n).unresponsive = false) ∧
    (∃ (s : State), s.Inv ∧ s.hub.hub = .running) ∧
    (∃ (c : Nat) (w : Bool) (s : State), s.Inv ∧ s.hub.hub = .booted c w) ∧
    (∃ (m : Nat) (a : Nat) (b : Nat) (v : Fin 8) (w : Fin 8) (r : List (Nat × Fin 8)) (s : State), s.hub.vsel.filter (fun x => ixBefore x.1 m) = (a, v) :: (b, w) :: r) ∧
    (∃ (s : State), s.aon.request = none) ∧
    (∃ (s : State), s.Inv ∧ s.hub.hub = .running ∧ s.hub.nextDecision = s.now) :=
  ⟨⟨(live |>.modHub (fun x => { x with hub := .held 3 false })), .inr (.inl ⟨3, false, rfl⟩)⟩,
   ⟨0, live, (by unfold State.Inv; decide +kernel), by decide +kernel⟩,
   ⟨live, (by unfold State.Inv; decide +kernel), by decide +kernel⟩,
   ⟨3, false, (live |>.modHub (fun x => { x with hub := .booted 3 false })), (by unfold State.Inv; decide +kernel), by decide +kernel⟩,
   ⟨1000000000, 999999999, 999999998, 3, 3, [], (live |>.modHub (fun x => { x with vsel := [(1000000000, 5), (999999999, 3), (999999998, 3)] })), by decide +kernel⟩,
   ⟨live, by decide +kernel⟩,
   ⟨live, (by unfold State.Inv; decide +kernel), by decide +kernel⟩⟩

theorem witness_CommandsTouchOnlyTheirPart :
    (∃ (n : Lane) (v : Volt) (i : Amp) (c : Instr) (s : State) (t : State), c ∈ ([.stageFault n, .truncation n v, .truncationRelease n v, .sysDroopTrip n v, .hdrmDroopRelease n v, .skipEntry n, .skipExit n, .skipExitComparator n v, .shedBegin n, .shedEnd n, .shedInhibitExpiry n, .fillPeriodEnd n, .headroomHoldRelease n, .benchGoCold n, .balanceTrimUpdate n, .farNodeLost n v, .stackSyncLocked n, .backstopInterval n i, .backstopTrip n, .backstopReset n] : List Instr) ∧ exec c s = .next t) ∧
    (∃ (n : Lane) (v : Volt) (o : Vector Amp 4) (r : Vector Volt 4) (s : State) (t : State), exec (.laneFirstPulses n v o r) s = .next t) ∧
    (∃ (k : PhaseNo) (i : Amp) (j : Amp) (r : Rat) (v : Volt) (x : PhaseKind) (c : Instr) (s : State) (t : State), c ∈ ([.peakLimitTrip k i, .currentLimitEvent k, .negCurrentLimit k ⟨r, i, j⟩, .warmRefresh k i v, .coldAdmissionComplete k i, .phaseOut k x] : List Instr) ∧ exec c s = .next t) ∧
    (∃ (i : Fin 16) (v : Word) (c : Instr) (s : State) (t : State), c ∈ ([.wdgCheckin i, .wdgKey (BitVec.ofNat 16 v.toNat), .wdgLock v] : List Instr) ∧ exec c s = .next t) ∧
    (∃ (c : Fin 16) (k : Fin 4) (i : Instr) (s : State) (t : State), i ∈ ([.timerCompareMatch c k, .timerOverflow c] : List Instr) ∧ exec i s = .next t) ∧
    (∃ (a : Rat) (b : Rat) (c : Rat) (i : Instr) (s : State) (t : State), i ∈ ([.idealDiodeClose a b, .idealDiodeOpen a b c, .softConnectComplete a b, .limpBackstopClose a b, .statPatternTimer, .xtalRestored] : List Instr) ∧ exec i s = .next t) ∧
    (∃ (c : HostChan) (r : Instr) (s : State) (t : State), r ∈ ([.post c, .urgent c, .cancel c, .resync c, .violClear, .uartFrameGap] : List Instr) ∧ exec r s = .next t) ∧
    (∃ (i : Iface) (c : Fin 96) (r : Instr) (s : State) (t : State), r ∈ ([.capture, .release, .telFreezeTimeout, .telBlockRead i c] : List Instr) ∧ exec r s = .next t) ∧
    (∃ (n : Fin 16) (r : Instr) (s : State) (t : State), r ∈ ([.forecastFrameStart n, .blockStart] : List Instr) ∧ exec r s = .next t) ∧
    (∃ (r : Instr) (s : State) (t : State), r ∈ ([.grantEffective, .leaseEnd, .trunkFeedStop] : List Instr) ∧ exec r s = .next t) ∧
    (∃ (p : Port) (s : State) (t : State), exec (.drpToggle p) s = .next t) ∧
    (∃ (p : Port) (x : PsTimer) (r : Instr) (s : State) (t : State), r ∈ ([.eprEntryTimeout p, .cableDiscoverRetry p, .sinkWaitCapTimeout p, .noResponseTimeout p, .sourceCapResend p, .sourceTransitionStart p, .psTransitionTimeout p x, .eprKeepaliveWatchExpiry p] : List Instr) ∧ exec r s = .next t) ∧
    (∃ (p : Port) (r : Instr) (s : State) (t : State), r ∈ ([.ppsRequestRepeat p, .eprKeepalive p] : List Instr) ∧ exec r s = .next t) ∧
    (∃ (p : Port) (v : Volt) (s : State) (t : State), exec (.vbusDischargeDone p v) s = .next t) ∧
    (∃ (c : Src) (v : Volt) (r : Instr) (s : State) (t : State), r ∈ ([.requalifyAfterTrip c, .lockoutEndLowVoltage c v, .sagProbe c] : List Instr) ∧ exec r s = .next t) ∧
    (∃ (b : Bool) (p : Watt) (w : Vector Watt 9) (r : Instr) (s : State) (t : State), r ∈ ([.panelTrack b p, .panelScan w] : List Instr) ∧ exec r s = .next t) ∧
    (∃ (k : Fin 512) (r : Instr) (s : State) (t : State), r ∈ ([.ledgerWrite, .ledgerSectorErase, .stagingErase, .shelfSectorBuild k] : List Instr) ∧ exec r s = .next t) ∧
    (∃ (s : State) (t : State), exec .handicapDivCycle s = .next t) :=
  ⟨⟨0, 0, 0, .shedInhibitExpiry 0, State.reset, _, (by simp), rfl⟩,
   ⟨0, 0, Vector.replicate 4 0, Vector.replicate 4 0, State.reset, _, rfl⟩,
   ⟨0, 0, 0, 0, 0, .openCircuit, .currentLimitEvent 0, State.reset, _, (by simp), rfl⟩,
   ⟨0, 0, .wdgCheckin 0, State.reset, _, (by simp), rfl⟩,
   ⟨0, 0, .timerOverflow 0, State.reset, _, (by simp), rfl⟩,
   ⟨0, 0, 0, .statPatternTimer, State.reset, _, (by simp), rfl⟩,
   ⟨0, .post 0, State.reset, _, (by simp), rfl⟩,
   ⟨.spi, 0, .capture, State.reset, _, (by simp), rfl⟩,
   ⟨0, .blockStart, State.reset, _, (by simp), rfl⟩,
   ⟨.leaseEnd, State.reset, _, (by simp), rfl⟩,
   ⟨0, State.reset, _, rfl⟩,
   ⟨0, .psTransition, .eprEntryTimeout 0, State.reset, _, (by simp), rfl⟩,
   ⟨0, .eprKeepalive 0, State.reset, _, (by simp), rfl⟩,
   ⟨0, 0, State.reset, _, rfl⟩,
   ⟨0, 0, .sagProbe 0, State.reset, _, (by simp), rfl⟩,
   ⟨false, 0, Vector.replicate 9 0, .panelTrack false 0, State.reset, _, (by simp), rfl⟩,
   ⟨0, .ledgerWrite, State.reset, _, (by simp), rfl⟩,
   ⟨State.reset, _, rfl⟩⟩

theorem witness_SupplyAndRailCommandsAct :
    (∃ (pins : BootPins) (s : State), s.aon.vpwr = false ∧ pins.ftHigh = false) ∧
    (∃ (pins : BootPins) (s : State), s.aon.vpwr = false ∧ pins.ftHigh = false) ∧
    (∃ (s : State), s.aon.vpwr = false) ∧
    (∃ (s : State), s.aon.vpwr = true) ∧
    (∃ (s : State), s.aon.vpwr = true) ∧
    (∃ (s : State), s.hub.hub ≠ .off) ∧
    (∃ (r : Rail) (s : State), s.aon.railDown.get (railIx r) = true ∧ (∀ x, railIx r ≠ x → s.aon.railDown.get x = false)) ∧
    (∃ (s : State), s.aon.vaon = true ∧ s.aon.xtalLost = false) ∧
    (∃ (pins : BootPins) (s : State), s.aon.vpwr = false ∧ pins.ftHigh = false ∧ s.railsUp = true) :=
  ⟨⟨BootPins.allOpen, State.reset, by decide +kernel⟩,
   ⟨BootPins.allOpen, State.reset, by decide +kernel⟩,
   ⟨State.reset, by decide +kernel⟩,
   ⟨live, by decide +kernel⟩,
   ⟨live, by decide +kernel⟩,
   ⟨live, by decide +kernel⟩,
   ⟨.vdd33, (live |>.modAon (fun x => { x with railDown := #v[true, false] })), by decide +kernel⟩,
   ⟨live, by decide +kernel⟩,
   ⟨BootPins.allOpen, State.reset, by decide +kernel⟩⟩

theorem witness_FactoryTestStartsNothing :
    (∃ (pins : BootPins) (s : State), s.aon.vpwr = false ∧ pins.ftHigh = true) ∧
    (∃ (s : State), s.aon.vpwr = false) :=
  ⟨⟨{ BootPins.allOpen with ftHigh := true }, State.reset, by decide +kernel⟩,
   ⟨State.reset, by decide +kernel⟩⟩

theorem witness_SafeTriggersSetTheLatch :
    (∃ (s : State), s.aon.vaon = true) ∧
    (∃ (n : Lane) (tgt : Volt) (v : Volt) (s : State), s.aon.vaon = true ∧ (s.lane n).up = true ∧ (s.lane n).truncating = true ∧ tgt = (if (s.lane n).order.role = .batDiode ∨ (s.lane n).order.role = .feed then (s.lane n).order.sysTarget else (s.lane n).loop.target) ∧ 5 ≤ tgt ∧ 11 / 10 * tgt < v) ∧
    (∃ (n : Lane) (v : Volt) (s : State), s.aon.vaon = true ∧ (s.lane n).up = true ∧ s.battDie n = true ∧ s.cells * (s.vreg + 1 / 10) < v) ∧
    (∃ (i : Amp) (s : State), s.aon.vaon = true ∧ s.aon.batfet = .off ∧ i ≠ 0) :=
  ⟨⟨live, by decide +kernel⟩,
   ⟨0, 8, 10, (live |>.modLane 0 (fun l => { l with truncating := true, loop := { Loop.zero with target := 8 } })), by decide +kernel⟩,
   ⟨1, 13, (live |>.sets [⟨1, 1, 1, 3⟩]), by decide +kernel⟩,
   ⟨1, live, by decide +kernel⟩⟩

theorem witness_WakesStartTheHub :
    (∃ (s : State), s.asleep .ship = true) ∧
    (∃ (v : Volt) (s : State), s.asleep .ship = true ∧ 4 < v) ∧
    (∃ (v : Volt) (s : State), s.asleep .dormant = true ∧ 4 < v) ∧
    (∃ (s : State), s.asleep .dormant = true) ∧
    (∃ (i : Amp) (s : State), s.asleep .dormant = true ∧ s.cfg.q 1 12 (1 / 2) < -i) ∧
    (∃ (s : State), s.aon.vaon = true ∧ s.hub.hub ≠ .off) ∧
    (∃ (c : Src) (s : State), s.hubUp = true ∧ s.aon.wakeConn = some c ∧ s.passed s.hub.firstTick 200000 = true ∧ s.validSource = false ∧ s.aon.wakeNSeen = false) :=
  ⟨⟨(live |>.modHub (fun x => { x with hub := .off }) |>.modAon (fun x => { x with mode := some .ship })), by decide +kernel⟩,
   ⟨5, (live |>.modHub (fun x => { x with hub := .off }) |>.modAon (fun x => { x with mode := some .ship })), by decide +kernel⟩,
   ⟨5, (live |>.modHub (fun x => { x with hub := .off }) |>.modAon (fun x => { x with mode := some .dormant })), by decide +kernel⟩,
   ⟨(live |>.modHub (fun x => { x with hub := .off }) |>.modAon (fun x => { x with mode := some .dormant })), by decide +kernel⟩,
   ⟨-3, (live |>.modHub (fun x => { x with hub := .off }) |>.modAon (fun x => { x with mode := some .dormant })), by decide +kernel⟩,
   ⟨live, by decide +kernel⟩,
   ⟨0, (live |>.modAon (fun x => { x with wakeConn := some 0 })), by decide +kernel⟩⟩

theorem witness_DormantAndShipSequences :
    (∃ (k : Nat) (s : State), s.hubUp = true ∧ s.hub.dormSince = some k ∧ 0 < (s.cfg.get 1 11).toNat ∧ s.passed k (secTicks (60 * (s.cfg.get 1 11).toNat)) = true ∧ s.dormantAllowed = true ∧ s.pathStopped = false ∧ s.aon.request = none) ∧
    (∃ (v : Volt) (r : Request) (s : State), s.hubUp = true ∧ s.aon.request = some r ∧ r.dormant = true ∧ r.stage = .moving ∧ rabs (v - s.hub.sysFinal) ≤ s.hub.sysFinal / 100) ∧
    (∃ (r : Request) (s : State), s.hubUp = true ∧ s.aon.request = some r ∧ r.dormant = true ∧ r.stage = .ramping ∧ s.dormantAllowed = true ∧ s.aon.safeLatch = false ∧ (∀ n, s.cfg.battLane = some n → ∀ m ∈ s.cfg.gang n, (s.lane m).active = false)) ∧
    (∃ (r : Request) (s : State), s.hubUp = true ∧ s.aon.request = some r ∧ r.dormant = false ∧ r.stage = .wait ∧ r.deadline ≤ s.now) ∧
    (∃ (r : Request) (s : State), s.aon.request = some r ∧ r.dormant = false ∧ r.stage = .handed ∧ r.deadline + 100 ≤ s.now) ∧
    (∃ (r : Request) (s : State), s.aon.request = some r ∧ r.dormant = false ∧ r.stage = .pairOpen ∧ r.deadline + 110 ≤ s.now) :=
  ⟨⟨0, (live |>.modAon (fun x => { x with mode := some .battery }) |>.modHub (fun x => { x with dormSince := some 0 })), by decide +kernel⟩,
   ⟨101 / 10, ⟨true, false, 0, .moving⟩, (live |>.modAon (fun x => { x with request := some ⟨true, false, 0, .moving⟩ }) |>.modHub (fun x => { x with sysFinal := 10 })), by decide +kernel⟩,
   ⟨⟨true, false, 0, .ramping⟩, (live |>.sets [⟨1, 1, 1, 3⟩] |>.modAon (fun x => { x with mode := some .battery }) |>.modAon (fun x => { x with request := some ⟨true, false, 0, .ramping⟩ })), by decide +kernel⟩,
   ⟨⟨false, false, 0, .wait⟩, (live |>.modAon (fun x => { x with request := some ⟨false, false, 0, .wait⟩ })), by decide +kernel⟩,
   ⟨⟨false, false, 0, .handed⟩, (live |>.modAon (fun x => { x with request := some ⟨false, false, 0, .handed⟩ })), by decide +kernel⟩,
   ⟨⟨false, false, 0, .pairOpen⟩, (live |>.modAon (fun x => { x with request := some ⟨false, false, 0, .pairOpen⟩ })), by decide +kernel⟩⟩

theorem witness_IdealDiodeSwitchesTheBatfetPair :
    (∃ (sys : Volt) (vbat : Volt) (s : State), s.diodeRule = .normal ∧ s.aon.batfet = .off ∧ s.aon.softAbandoned = false ∧ 2 / 100 < vbat - sys) ∧
    (∃ (sys : Volt) (vbat : Volt) (i : Amp) (s : State), s.aon.batfet ≠ .off ∧ s.diodeRule ≠ .disabled ∧ (vbat + 1 / 100 < sys ∨ 1 < i + s.battLaneI)) ∧
    (∃ (sys : Volt) (vbat : Volt) (k : Nat) (s : State), s.aon.batfet = .linear ∧ s.aon.softFrom = some k ∧ (k + 10000 ≤ s.now ∨ s.hub.hub = .off) ∧ 2 ≤ vbat - sys) ∧
    (∃ (sys : Volt) (vbat : Volt) (s : State), s.aon.batfet = .linear ∧ vbat - sys < 2) ∧
    (∃ (sys : Volt) (vbat : Volt) (s : State), s.diodeRule = .backstop ∧ s.aon.batfet = .off ∧ s.aon.softAbandoned = false ∧ sys < 9 / 10 * s.aon.sysTarget ∧ 2 / 100 < vbat - sys) ∧
    (∃ (sys : Volt) (vbat : Volt) (s : State), s.hubUp = true ∧ s.hub.diodePending = true ∧ s.charge.present = true ∧ s.cfg.supplement = false ∧ rabs (sys - min 60 (max s.hub.sysFinal (vbat + s.cfg.q 1 5 (1 / 10)))) ≤ min 60 (max s.hub.sysFinal (vbat + s.cfg.q 1 5 (1 / 10))) / 100) :=
  ⟨⟨10, 11, (live |>.modAon (fun x => { x with diodeOn := true })), by decide +kernel⟩,
   ⟨12, 11, 0, (live |>.modAon (fun x => { x with diodeOn := true, batfet := .on })), by decide +kernel⟩,
   ⟨10, 12, 0, (live |>.modAon (fun x => { x with batfet := .linear, softFrom := some 0 })), by decide +kernel⟩,
   ⟨10, 11, (live |>.modAon (fun x => { x with batfet := .linear })), by decide +kernel⟩,
   ⟨10, 11, (live |>.modAon (fun x => { x with mode := some .limp, sysTarget := 20 }) |>.sets [⟨1, 0, 0, 1⟩]), by decide +kernel⟩,
   ⟨21 / 2, 10, (live |>.modHub (fun x => { x with diodePending := true, sysFinal := 0 }) |>.modCharge (fun x => { x with present := true })), by decide +kernel⟩⟩

theorem witness_RefusedModeCommandsChangeNothing :
    (∃ (c : HostChan) (d : Desc) (s : State), s.takes c 0x0004 d ∧ (s.pathStopped = true ∨ s.shipAllowed = false)) ∧
    (∃ (c : HostChan) (d : Desc) (s : State), s.takes c 0x0005 d ∧ (s.pathStopped = true ∨ s.dormantAllowed = false)) ∧
    (∃ (c : HostChan) (d : Desc) (s : State), s.takes c 0x0003 d ∧ s.aon.safeLatch = true ∧ s.safeBlocked = true) :=
  ⟨⟨0, (call []), live, (by unfold State.takes; decide +kernel), by decide +kernel⟩,
   ⟨0, (call []), live, (by unfold State.takes; decide +kernel), by decide +kernel⟩,
   ⟨0, (call []), (live |>.modAon (fun x => { x with safeLatch := true, xtalLost := true })), (by unfold State.takes; decide +kernel), by decide +kernel⟩⟩

theorem witness_StrapBandsSelectTheAddress :
    (∃ (x : I2cTransfer) (s : State), x.target ≠ i2cAddress s.aon.straps.i2cAddr) :=
  ⟨⟨0x10, [], [], 0⟩, live, by decide +kernel⟩

theorem witness_LimitsAndBenchActOnOnePhase :
    (∃ (k : PhaseNo) (i : Amp) (s : State), ((s.lane (phaseLane k)).phases.get (phasePos k)).st = .field ∧ ((s.lane (phaseLane k)).phases.get (phasePos k)).drive = .storing ∧ peakDac (s.ipk (phaseLane k)) ≤ rabs i) ∧
    (∃ (k : PhaseNo) (s : State), 32 ≤ ((s.lane (phaseLane k)).phases.get (phasePos k)).ipkRun) ∧
    (∃ (k : PhaseNo) (ns : Rat) (top : Amp) (p : Phase) (s : State), (s.lane (phaseLane k)).phases.get (phasePos k) = p ∧ p.st = .field ∧ (p.drive = .freewheel ∨ (p.drive = .storing ∧ s.intervalEnds (phaseLane k) p ns (rabs top) = true))) ∧
    (∃ (k : PhaseNo) (i : Amp) (s : State), rabs i < peakDac (s.ipk (phaseLane k))) ∧
    (∃ (k : PhaseNo) (p : Phase) (s : State), (s.lane (phaseLane k)).phases.get (phasePos k) = p ∧ (s.lane (phaseLane k)).psen = true ∧ p.st = .warm ∧ 32 ≤ p.sinceAdmit) ∧
    (∃ (k : PhaseNo) (off : Amp) (p : Phase) (s : State), (s.lane (phaseLane k)).phases.get (phasePos k) = p ∧ (s.lane (phaseLane k)).active = true ∧ p.st = .cold ∧ p.admitting = true ∧ s.senseCheck (phaseLane k) off none = none) ∧
    (∃ (k : PhaseNo) (off : Amp) (x : PhaseKind) (p : Phase) (s : State), (s.lane (phaseLane k)).phases.get (phasePos k) = p ∧ (s.lane (phaseLane k)).active = true ∧ p.st = .cold ∧ p.admitting = true ∧ s.senseCheck (phaseLane k) off none = some x) ∧
    (∃ (k : PhaseNo) (x : PhaseKind) (s : State), (s.lane (phaseLane k)).up = true ∧ ((s.lane (phaseLane k)).phases.get (phasePos k)).st ≠ .out ∧ ((s.lane (phaseLane k)).phases.get (phasePos k)).faultDue = some x) :=
  ⟨⟨0, 50, (live |>.modLane 0 (fun l => { l with phases := Vector.replicate 4 { Phase.zero with st := .field, drive := .storing } })), by decide +kernel⟩,
   ⟨0, (live |>.modLane 0 (fun l => { l with phases := Vector.replicate 4 { Phase.zero with ipkRun := 32 } })), by decide +kernel⟩,
   ⟨0, 0, 0, _, (live |>.modLane 0 (fun l => { l with phases := Vector.replicate 4 { Phase.zero with st := .field, drive := .freewheel } })), rfl, by decide +kernel⟩,
   ⟨0, 0, live, by decide +kernel⟩,
   ⟨0, _, (live |>.modLane 0 (fun l => { l with psen := true, phases := Vector.replicate 4 { Phase.zero with st := .warm, sinceAdmit := 32 } })), rfl, by decide +kernel⟩,
   ⟨0, 0, _, (live |>.modLane 0 (fun l => { l with run := .running, phases := Vector.replicate 4 { Phase.zero with admitting := true } })), rfl, by decide +kernel⟩,
   ⟨0, 5, .senseOffset, _, (live |>.modLane 0 (fun l => { l with run := .running, phases := Vector.replicate 4 { Phase.zero with admitting := true } })), rfl, by decide +kernel⟩,
   ⟨0, .openCircuit, (live |>.modLane 0 (fun l => { l with phases := Vector.replicate 4 { Phase.zero with faultDue := some .openCircuit } })), by decide +kernel⟩⟩

theorem witness_LaneFieldSheds :
    (∃ (n : Lane) (p : Pos) (r : List Pos) (s : State), (s.lane n).active = true ∧ (s.lane n).field.shed = none ∧ (s.lane n).field.retireNext = p :: r) ∧
    (∃ (n : Lane) (p : Pos) (s : State), (s.lane n).active = true ∧ (s.lane n).field.shed = none ∧ (s.lane n).field.retireNext = [] ∧ (s.lane n).filling s.now = false ∧ (s.lane n).shedInhibited s.now = false ∧ s.nFloor n (s.lane n) < (s.lane n).nField ∧ s.laneQ n 29 1 * s.fsw n ≤ (s.lane n).field.shedHold ∧ s.laneQ n 29 1 * s.fsw n ≤ (s.lane n).field.sinceShed ∧ ((s.lane n).inOrder (fun x => x.st == .field)).getLast? = some p) ∧
    (∃ (n : Lane) (s : State), (s.lane n).field.retireNext = [] ∧ (s.lane n).filling s.now = true) ∧
    (∃ (n : Lane) (p : Pos) (m : Nat) (r : Bool) (s : State), (s.lane n).field.shed = some (p, m, r) ∧ 8 ≤ m) ∧
    (∃ (n : Lane) (k : Nat) (s : State), (s.lane n).field.shedInhibit = some k ∧ k ≤ s.now) ∧
    (∃ (n : Lane) (k : Nat) (s : State), (s.lane n).field.fillFrom = some k ∧ k + 10000 ≤ s.now) ∧
    (∃ (n : Lane) (s : State), (s.lane n).field.headroomHold = true ∧ 16 ≤ (s.lane n).field.ceilOkRun) ∧
    (∃ (n : Lane) (s : State), (s.lane n).active = true ∧ s.laneQ n 31 10 * s.fsw n ≤ (s.lane n).field.coldHold ∧ s.keepWarm n (s.lane n) = false) :=
  ⟨⟨0, 1, [], (live |>.modLane 0 (fun l => { l with run := .running, field := { Field.zero with retireNext := [1] } })), by decide +kernel⟩,
   ⟨0, 3, (live |>.modLane 0 (fun l => { l with run := .running, phases := Vector.replicate 4 { Phase.zero with st := .field }, field := { Field.zero with shedHold := 5000, sinceShed := 5000 } })), by decide +kernel⟩,
   ⟨0, (live |>.modLane 0 (fun l => { l with run := .running, field := { Field.zero with fillFrom := some 1000000000 } })), by decide +kernel⟩,
   ⟨0, 1, 8, false, (live |>.modLane 0 (fun l => { l with field := { Field.zero with shed := some (1, 8, false) } })), by decide +kernel⟩,
   ⟨0, 5, (live |>.modLane 0 (fun l => { l with field := { Field.zero with shedInhibit := some 5 } })), by decide +kernel⟩,
   ⟨0, 5, (live |>.modLane 0 (fun l => { l with field := { Field.zero with fillFrom := some 5 } })), by decide +kernel⟩,
   ⟨0, (live |>.modLane 0 (fun l => { l with field := { Field.zero with headroomHold := true, ceilOkRun := 16 } })), by decide +kernel⟩,
   ⟨0, (live |>.modLane 0 (fun l => { l with run := .running, phases := Vector.replicate 4 { Phase.zero with st := .field }, field := { Field.zero with coldHold := 50000 } })), by decide +kernel⟩⟩

theorem witness_LaneFaultsSkipAndRegulation :
    (∃ (n : Lane) (s : State), (s.lane n).up = true) ∧
    (∃ (n : Lane) (v : Volt) (s : State), (s.lane n).active = true ∧ (s.lane n).truncating = false ∧ (s.lane n).watched * (1 + s.laneQ n 21 (1 / 1000)) < v) ∧
    (∃ (n : Lane) (v : Volt) (s : State), (s.lane n).truncating = true ∧ v < (s.lane n).watched * (1 + s.laneQ n 21 (1 / 1000) - s.laneQ n 22 (1 / 1000))) ∧
    (∃ (n : Lane) (v : Volt) (s : State), (s.lane n).up = true ∧ (s.lane n).shut = false ∧ (s.lane n).onLine = true ∧ (s.lane n).drooping = false ∧ v < (s.lane n).order.droop) ∧
    (∃ (n : Lane) (v : Volt) (s : State), (s.lane n).drooping = true ∧ (s.lane n).order.droop + (s.lane n).order.sysTarget * (5 / 1000) < v) ∧
    (∃ (n : Lane) (s : State), (s.lane n).run = .running ∧ (s.lane n).field.skipping = false ∧ s.skipReady n (s.lane n) = true ∧ 16 ≤ (s.lane n).field.skipRun) ∧
    (∃ (n : Lane) (v : Volt) (s : State), (s.lane n).field.skipping = true ∧ v < (s.lane n).watched * (1 - s.laneQ n 25 (1 / 400))) ∧
    (∃ (n : Lane) (s : State), (s.lane n).field.skipping = true ∧ (12 < ((s.lane n).field.pulses.filter id).length ∨ (s.lane n).field.skipExitDue = true ∨ s.cfg.get (s.laneFn n) 23 = 0)) ∧
    (∃ (n : Lane) (s : State), (s.lane n).run = .running ∧ (s.lane n).field.inReg = false ∧ 16 ≤ (s.lane n).field.regRun) ∧
    (∃ (n : Lane) (v : Volt) (s : State), (s.lane n).active = true ∧ (s.lane n).truncating = false ∧ (s.lane n).watched * (1 + s.laneQ n 21 (1 / 1000)) < v ∧ (s.lane n).delivers = true) ∧
    (∃ (n : Lane) (v : Volt) (s : State), (s.lane n).field.skipping = true ∧ v < (s.lane n).watched * (1 - s.laneQ n 25 (1 / 400)) ∧ ¬ ((s.lane n).truncating = true ∧ (s.lane n).delivers = true) ∧ (∀ p, ((s.lane n).phases.get p).st = .field)) :=
  ⟨⟨0, live, by decide +kernel⟩,
   ⟨0, 1, (live |>.modLane 0 (fun l => { l with run := .running })), by decide +kernel⟩,
   ⟨0, 5, (live |>.modLane 0 (fun l => { l with truncating := true, loop := { Loop.zero with target := 10 } })), by decide +kernel⟩,
   ⟨0, 4, (live |>.modLane 0 (fun l => { l with onLine := true, order := { LaneOrder.zero with droop := 5 } })), by decide +kernel⟩,
   ⟨0, 10, (live |>.modLane 0 (fun l => { l with drooping := true, order := { LaneOrder.zero with droop := 5 } })), by decide +kernel⟩,
   ⟨0, (live |>.modLane 0 (fun l => { l with run := .running, phases := #v[{ Phase.zero with st := .field }, Phase.zero, Phase.zero, Phase.zero], field := { Field.zero with skipRun := 16 } })), by decide +kernel⟩,
   ⟨0, 5, (live |>.modLane 0 (fun l => { l with loop := { Loop.zero with target := 10 }, field := { Field.zero with skipping := true } })), by decide +kernel⟩,
   ⟨0, (live |>.modLane 0 (fun l => { l with field := { Field.zero with skipping := true, skipExitDue := true } })), by decide +kernel⟩,
   ⟨0, (live |>.modLane 0 (fun l => { l with run := .running, field := { Field.zero with regRun := 16 } })), by decide +kernel⟩,
   ⟨0, 1, (live |>.modLane 0 (fun l => { l with run := .running })), by decide +kernel⟩,
   ⟨0, 5, (live |>.modLane 0 (fun l => { l with loop := { Loop.zero with target := 10 }, phases := Vector.replicate 4 { Phase.zero with st := .field }, field := { Field.zero with skipping := true } })), by decide +kernel, by decide +kernel, by decide +kernel, by decide +kernel⟩⟩

theorem witness_LaneStartsStopsAndFrames :
    (∃ (n : Lane) (s : State), (s.lane n).run = .bias) ∧
    (∃ (n : Lane) (s : State), (s.lane n).run = .ramping ∧ (s.lane n).loop.rampA = some 0 ∧ (s.lane n).loop.iCmd = 0) ∧
    (∃ (n : Lane) (f : LaneFrame) (r : List LaneFrame) (s : State), (s.lane n).frames = f :: r ∧ ixReached f.eff (s.lane n).tick.toNat = true ∧ (s.lane n).up = true) ∧
    (∃ (m : PortDie) (f : PortFrame) (r : List PortFrame) (s : State), (s.pdie m).frames = f :: r ∧ ixReached f.eff (s.pdie m).tick.toNat = true ∧ (s.pdie m).up = true) ∧
    (∃ (d : Die) (s : State), (match d with | .lane n => (s.lane n).frames = [] | .port m => (s.pdie m).frames = [])) ∧
    (∃ (n : Lane) (k : Nat) (s : State), s.keep.trimSince.get n = some k ∧ (s.lane n).field.inReg = true ∧ s.passed k 60000000 = true ∧ (∃ p, 1 / 10 ≤ rabs (((s.lane n).phases.get p).trim - ((s.keep.trims.get n).getD (Vector.ofFn (fun p => s.cfg.q (2 + n.val) 34 (1 / 20) p.val))).get p))) :=
  ⟨⟨0, (live |>.modLane 0 (fun l => { l with run := .bias })), by decide +kernel⟩,
   ⟨0, (live |>.modLane 0 (fun l => { l with run := .ramping, loop := { Loop.zero with rampA := some 0 } })), by decide +kernel⟩,
   ⟨0, ⟨1000000000, .stopNow, LaneOrder.zero, []⟩, [], (live |>.modLane 0 (fun l => { l with frames := [⟨1000000000, .stopNow, LaneOrder.zero, []⟩] })), by decide +kernel⟩,
   ⟨0, ⟨1000000000, .mux 0 1⟩, [], (live |>.modPd 0 (fun x => { x with frames := [⟨1000000000, .mux 0 1⟩] })), by decide +kernel⟩,
   ⟨.lane 0, live, rfl⟩,
   ⟨0, 0, (live |>.modLane 0 (fun l => { l with phases := Vector.replicate 4 { Phase.zero with trim := 1 / 10 }, field := { Field.zero with inReg := true } }) |>.withKeep (fun x => { x with trimSince := Vector.replicate 4 (some 0) })), by decide +kernel⟩⟩

theorem witness_PeriodBoundaryTakesTheMeans :
    (∃ (n : Lane) (s : State), (s.lane n).up = true ∧ (s.lane n).active = true) ∧
    (∃ (n : Lane) (s : State), (s.lane n).up = true ∧ (s.lane n).run = .stopped) ∧
    (∃ (n : Lane) (s : State), (s.lane n).run = .running ∧ 64 ≤ (s.lane n).field.sinceTrim ∧ (s.lane n).field.shed = none ∧ (s.lane n).field.skipping = false) ∧
    (∃ (n : Lane) (s : State), (s.lane n).run = .running ∧ 64 ≤ (s.lane n).field.sinceTrim ∧ ((s.lane n).field.skipping = true ∨ (s.lane n).field.shed.isSome = true)) :=
  ⟨⟨0, (live |>.modLane 0 (fun l => { l with run := .running })), by decide +kernel⟩,
   ⟨0, live, by decide +kernel⟩,
   ⟨0, (live |>.modLane 0 (fun l => { l with run := .running, field := { Field.zero with sinceTrim := 64 } })), by decide +kernel⟩,
   ⟨0, (live |>.modLane 0 (fun l => { l with run := .running, field := { Field.zero with sinceTrim := 64, skipping := true } })), by decide +kernel⟩⟩

theorem witness_StacksAndTheirTiming :
    (∃ (n : Lane) (s : State), s.follows n = true) ∧
    (∃ (n : Lane) (s : State), s.follows n = true ∧ 64 ≤ (s.lane n).syncRun) ∧
    (∃ (n : Lane) (s : State), s.follows n = true) ∧
    (∃ (n : Lane) (s : State), s.follows n = false) ∧
    (∃ (f : StackControl) (s : State), s.hubUp = true ∧ s.isMember = true ∧ f.position = s.stack.position.toNat ∧ f.position < f.size) ∧
    (∃ (f : StackControl) (s : State), s.hubUp = true ∧ s.isMember = true ∧ f.position = s.stack.position.toNat ∧ f.size ≤ f.position) ∧
    (∃ (f : StackControl) (s : State), s.hubUp = true ∧ s.isMember = true ∧ f.position ≠ s.stack.position.toNat) ∧
    (∃ (f : StackControl) (s : State), s.hubUp = true ∧ s.isMaster = true ∧ f.masterUnit.toNat < s.otp.unit.toNat) ∧
    (∃ (f : StackStateFrame) (p : Fin 4) (s : State), s.hubUp = true ∧ s.isMaster = true ∧ s.stack.masterless = none ∧ f.position = p.val ∧ 0 < p.val ∧ p.val < s.stack.size) ∧
    (∃ (p : Fin 4) (s : State), s.hubUp = true ∧ s.isMaster = true ∧ (s.stack.members.get p).present = true ∧ (s.stack.members.get p).lost = false ∧ (s.stack.members.get p).lastSeen + 50 ≤ s.now) ∧
    (∃ (t : Nat) (s : State), s.hubUp = true ∧ s.isMember = true ∧ s.stack.lastControl = some t ∧ s.stack.masterLost = false ∧ t + 50 ≤ s.now) ∧
    (∃ (s : State), s.hubUp = true ∧ s.isMember = true ∧ s.stack.masterless = none ∧ s.stack.lastControl = none ∧ s.hub.firstTick + 20000 ≤ s.now) :=
  ⟨⟨0, (live |>.modStack (fun x => { x with size := 2, position := 1, fsw0 := 400 })), by decide +kernel⟩,
   ⟨0, (live |>.modStack (fun x => { x with size := 2, position := 1, fsw0 := 400 }) |>.modLane 0 (fun l => { l with syncRun := 64 })), by decide +kernel⟩,
   ⟨0, (live |>.modStack (fun x => { x with size := 2, position := 1, fsw0 := 400 })), by decide +kernel⟩,
   ⟨0, live, by decide +kernel⟩,
   ⟨control 1 0, (live |>.modStack (fun x => { x with size := 2, position := 1 }) |>.modCfg (fun x => { x with stackSize := 2 })), by decide +kernel⟩,
   ⟨{ control 1 0 with size := 1 }, (live |>.modStack (fun x => { x with size := 2, position := 1 }) |>.modCfg (fun x => { x with stackSize := 2 })), by decide +kernel⟩,
   ⟨control 2 0, (live |>.modStack (fun x => { x with size := 2, position := 1 }) |>.modCfg (fun x => { x with stackSize := 2 })), by decide +kernel⟩,
   ⟨control 0 3, (live |>.modStack (fun x => { x with size := 2 }) |>.withOtp (fun x => { x with unit := 5 })), by decide +kernel⟩,
   ⟨memberFrame 1, 1, (live |>.modStack (fun x => { x with size := 2 })), by decide +kernel⟩,
   ⟨1, (live |>.modStack (fun x => { x with size := 2 }) |>.modStack (fun x => { x with members := Vector.replicate 4 ⟨true, 0, false, none⟩ })), by decide +kernel⟩,
   ⟨0, (live |>.modStack (fun x => { x with size := 2, position := 1 }) |>.modCfg (fun x => { x with stackSize := 2 }) |>.modStack (fun x => { x with lastControl := some 0 })), by decide +kernel⟩,
   ⟨(live |>.modStack (fun x => { x with size := 2, position := 1 }) |>.modCfg (fun x => { x with stackSize := 2 })), by decide +kernel⟩⟩

theorem witness_SourcesQualifyAndAreLost :
    (∃ (v : Volt) (s : State), (if s.panel then s.cfg.q 10 8 (1 / 2) else s.cfg.q 10 5 (1 / 2)) ≤ v ∧ v ≤ s.cfg.q 10 6 (1 / 2) ∧ (s.pdie 0).up = true ∧ (s.pdie 0).shut = false ∧ (s.conn acin).lastTrip = none) ∧
    (∃ (c : Src) (conn : Volt) (vinl : Volt) (s : State), (s.conn c).pair = .closing ∧ (if (s.conn c).energising = true then rabs (conn - vinl) ≤ max conn vinl / 50 else rabs (conn - vinl) ≤ conn / 100)) ∧
    (∃ (c : Src) (conn : Volt) (vinl : Volt) (s : State), (if (s.conn c).energising = true then max conn vinl / 50 < rabs (conn - vinl) else conn / 100 < rabs (conn - vinl))) ∧
    (∃ (c : Src) (k : Nat) (s : State), (s.conn c).lastTrip = some k ∧ s.passed k 100000 = true) ∧
    (∃ (c : Src) (v : Volt) (s : State), 4 ≤ c.val ∧ v < 4 ∧ (s.conn c).lockedOut = true) ∧
    (∃ (c : Src) (v : Volt), (c.val < 4 ∨ 4 ≤ v)) ∧
    (∃ (p : Port) (v : Volt) (s : State), v < s.vLost (portSrc p) ∧ (s.pdie (dieOfSrc (portSrc p))).up = true ∧ (s.port p).attach = .sink ∧ ((s.conn (portSrc p)).qualified = true ∨ (s.conn (portSrc p)).pair ≠ .opened ∨ (s.port p).hrActive = true)) ∧
    (∃ (v : Volt) (s : State), v < s.vLost acin ∧ (s.pdie 0).up = true ∧ ((s.conn acin).qualified = true ∨ (s.conn acin).pair ≠ .opened)) ∧
    (∃ (k : TrunkPort) (v : Volt) (s : State), (v < s.vLost (trunkSrc k) ∨ 63 < v ∧ s.vLost (trunkSrc k) ≤ v) ∧ (s.pdie 1).up = true ∧ (s.trunkIx = none ∨ s.trunkIx = some (trunkSrc k)) ∧ s.trunk.busQualified = true) ∧
    (∃ (c : Src) (v : Volt) (s : State), s.vLost c ≤ v ∧ c.val < 5 ∧ (s.pdie (dieOfSrc c)).up = true ∧ (s.conn c).qualified = true ∧ (s.conn c).pair = .opened ∧ s.vTop c < v) ∧
    (∃ (c : Src) (v : Volt) (s : State), s.vLost c ≤ v ∧ (if c.val < 5 then v ≤ s.vTop c else v ≤ 63)) ∧
    (∃ (n : Lane) (v : Volt) (s : State), (s.lane n).active = true ∧ (s.lane n).order.dir = .draw ∧ v < (s.lane n).order.vLost) ∧
    (∃ (c : Src) (conn : Volt) (vinl : Volt) (s : State), (s.conn c).pair = .closing ∧ (if (s.conn c).energising = true then rabs (conn - vinl) ≤ max conn vinl / 50 else rabs (conn - vinl) ≤ conn / 100) ∧ c = acin ∧ s.panel = true) ∧
    (∃ (c : Src) (conn : Volt) (vinl : Volt) (s : State), (s.conn c).pair = .closing ∧ (if (s.conn c).energising = true then rabs (conn - vinl) ≤ max conn vinl / 50 else rabs (conn - vinl) ≤ conn / 100) ∧ c ≠ acin) ∧
    (∃ (p : Port) (v : Volt) (s : State), v < s.vLost (portSrc p) ∧ (s.pdie (dieOfSrc (portSrc p))).up = true ∧ (s.port p).attach = .sink ∧ ((s.conn (portSrc p)).qualified = true ∨ (s.conn (portSrc p)).pair ≠ .opened ∨ (s.port p).hrActive = true) ∧ (s.port p).hrActive = true) :=
  ⟨⟨20, live, by decide +kernel⟩,
   ⟨0, 5, 99 / 20, (live |>.modConn 0 (fun x => { x with pair := .closing })), by decide +kernel⟩,
   ⟨0, 5, 4, live, by decide +kernel⟩,
   ⟨0, 0, (live |>.modConn 0 (fun x => { x with lastTrip := some 0 })), by decide +kernel⟩,
   ⟨4, 3, (live |>.modConn 4 (fun x => { x with lockedOut := true })), by decide +kernel⟩,
   ⟨0, 0, by decide +kernel⟩,
   ⟨0, 3, (live |>.modPort 0 (fun x => { x with attach := .sink }) |>.modConn 0 (fun x => { x with qualified := true })), by decide +kernel⟩,
   ⟨0, (live |>.modConn 4 (fun x => { x with qualified := true })), by decide +kernel⟩,
   ⟨0, 64, (live |>.modConn 5 (fun x => { x with pair := .closed }) |>.modTrunk (fun x => { x with busQualified := true })), by decide +kernel⟩,
   ⟨0, 10, (live |>.modConn 0 (fun x => { x with qualified := true })), by decide +kernel⟩,
   ⟨0, 5, live, by decide +kernel⟩,
   ⟨0, 3, (live |>.modLane 0 (fun l => { l with run := .running, order := { LaneOrder.zero with vLost := 4 } })), by decide +kernel⟩,
   ⟨4, 20, 99 / 5, (live |>.sets [⟨10, 4, 0, 1⟩] |>.modConn 4 (fun x => { x with pair := .closing })), by decide +kernel⟩,
   ⟨0, 5, 99 / 20, (live |>.modConn 0 (fun x => { x with pair := .closing })), by decide +kernel⟩,
   ⟨0, 3, (live |>.modPort 0 (fun x => { x with attach := .sink, hrActive := true })), by decide +kernel⟩⟩

theorem witness_ProtectionAndSagLimits :
    (∃ (c : Src) (p : Protection) (v : Volt) (i : Amp) (mean : Amp) (s : State), (s.pdie (dieOfSrc c)).up = true ∧ s.trips c p v i mean = true ∧ (s.conn c).tripOpen = false) ∧
    (∃ (c : Src) (p : Protection) (v : Volt) (i : Amp) (mean : Amp) (s : State), (s.pdie (dieOfSrc c)).up = true ∧ s.trips c p v i mean = true ∧ (s.conn c).tripOpen = true) ∧
    (∃ (c : Src) (v : Volt) (s : State), (s.conn c).pair ≠ .opened ∧ s.vOv c < v) ∧
    (∃ (s : State), (s.conn acin).pair = .closed) ∧
    (∃ (k : TrunkPort) (mean : Amp) (s : State), (s.conn (trunkSrc k)).pair = .closed ∧ -1 ≤ mean ∧ mean ≤ 1) ∧
    (∃ (c : Src) (n : Lane) (k : Nat) (s : State), s.hubUp = true ∧ c.val < 5 ∧ (c = acin → s.panel = false) ∧ s.cfg.nodeOf c = some n ∧ (s.node n).selected = some c ∧ (s.lane n).active = true ∧ (s.lane n).loop.sagSince = some k ∧ s.passed k 100000 = true) ∧
    (∃ (c : Src) (i : Amp) (s : State), s.hubUp = true ∧ (s.conn c).iLearn = some i ∧ s.passed (s.conn c).learnSince 1000000 = true) ∧
    (∃ (s : State), s.hubUp = true ∧ s.panelDraws = true) ∧
    (∃ (s : State), s.hubUp = true ∧ s.panelDraws = true) ∧
    (∃ (s : State), s.hubUp = true ∧ s.panelDraws = true ∧ ((∃ k, s.hub.panelOnce = some k ∧ s.passed k 100000 = true) ∨ ((s.cfg.get 10 11).toNat ≠ 0 ∧ s.hub.panelSeen = true ∧ s.passed s.hub.panelScanAt (6000000 * (s.cfg.get 10 11).toNat) = true))) ∧
    (∃ (c : Src) (p : Protection) (v : Volt) (i : Amp) (mean : Amp) (s : State), (s.pdie (dieOfSrc c)).up = true ∧ s.trips c p v i mean = true ∧ (s.conn c).tripOpen = false ∧ c.val < 5) ∧
    (∃ (s : State), s.hubUp = true ∧ s.panelDraws = true ∧ 0 ≤ s.hub.panelVoc) :=
  ⟨⟨0, .overVoltage, 10, 0, 0, (live |>.modConn 0 (fun x => { x with pair := .closed })), by decide +kernel⟩,
   ⟨0, .overVoltage, 10, 0, 0, (live |>.modConn 0 (fun x => { x with pair := .closed, tripOpen := true })), by decide +kernel⟩,
   ⟨0, 10, (live |>.modConn 0 (fun x => { x with pair := .closed })), by decide +kernel⟩,
   ⟨(live |>.modConn 4 (fun x => { x with pair := .closed })), by decide +kernel⟩,
   ⟨0, 1, (live |>.modConn 5 (fun x => { x with pair := .closed })), by decide +kernel⟩,
   ⟨0, 0, 0, (live |>.sets [⟨1, 1, 0, 257⟩] |>.modNode 0 (fun x => { x with selected := some 0 }) |>.modLane 0 (fun l => { l with run := .running, loop := { Loop.zero with sagSince := some 0 } })), by decide +kernel⟩,
   ⟨0, 1, (live |>.modConn 0 (fun x => { x with iLearn := some 1 })), by decide +kernel⟩,
   ⟨(live |>.sets [⟨10, 4, 0, 1⟩] |>.modConn 4 (fun x => { x with pair := .closed }) |>.modNode 0 (fun x => { x with selected := some 4 })), by decide +kernel⟩,
   ⟨(live |>.sets [⟨10, 4, 0, 1⟩] |>.modConn 4 (fun x => { x with pair := .closed }) |>.modNode 0 (fun x => { x with selected := some 4 })), by decide +kernel⟩,
   ⟨(live |>.sets [⟨10, 4, 0, 1⟩] |>.modConn 4 (fun x => { x with pair := .closed }) |>.modNode 0 (fun x => { x with selected := some 4 }) |>.modHub (fun x => { x with panelOnce := some 0 })), by decide +kernel, by decide +kernel, .inl ⟨0, by decide +kernel⟩⟩,
   ⟨0, .overVoltage, 61 / 10, 0, 0, (live |>.modConn 0 (fun x => { x with pair := .closed })), by decide +kernel⟩,
   ⟨(live |>.sets [⟨10, 4, 0, 1⟩] |>.modConn 4 (fun x => { x with pair := .closed }) |>.modNode 0 (fun x => { x with selected := some 4 })), by decide +kernel⟩⟩

theorem witness_FarNodesChangeTheirSource :
    (∃ (n : Lane) (inc : Src) (ch : Src) (s : State), s.hubUp = true ∧ (s.node n).selected = some inc ∧ s.heldCandidate inc = true ∧ s.bestOf n (((s.node n).challengers.filter (fun x => s.passed x.2 50000 && s.heldCandidate x.1 && s.challenges n x.1 inc)).map (·.1)) = some ch) ∧
    (∃ (n : Lane) (c : Src) (v : Volt) (s : State), (s.node n).change = some (c, .draining) ∧ v ≤ max ((s.conn c).v - 1 / 2) (9 / 2)) ∧
    (∃ (n : Lane) (v : Volt) (s : State), (∀ c, (s.node n).change ≠ some (c, .draining)) ∧ (s.node n).drain = true ∧ v ≤ 9 / 2) ∧
    (∃ (n : Lane) (c : Src) (s : State), s.hubUp = true ∧ (s.node n).change = some (c, .draining) ∧ s.passed (s.node n).openedAt 1000 = true) :=
  ⟨⟨0, 0, 1, (live |>.sets [⟨1, 1, 0, 769⟩] |>.modCfg (fun x => { x with connFitted := 3 }) |>.modPort 0 (fun x => { x with attach := .sink, seen := true }) |>.modPort 1 (fun x => { x with attach := .sink, seen := true }) |>.modConn 0 (fun x => { x with qualified := true, known := true }) |>.modConn 1 (fun x => { x with qualified := true, known := true }) |>.modNode 0 (fun x => { x with selected := some 0, challengers := [(1, 0)] })), by decide +kernel⟩,
   ⟨0, 0, 9 / 2, (live |>.modNode 0 (fun x => { x with change := some (0, .draining) })), by decide +kernel⟩,
   ⟨0, 9 / 2, (live |>.modNode 0 (fun x => { x with drain := true })), (fun _ h => by cases h), by decide +kernel⟩,
   ⟨0, 0, (live |>.modNode 0 (fun x => { x with change := some (0, .draining) })), by decide +kernel⟩⟩

theorem witness_PortsAttachRecoverAndQualify :
    (∃ (p : Port) (s : State), (s.port p).attach = .unattached ∧ (s.pdie (portDie p)).up = true ∧ (s.port p).cc = .rd) ∧
    (∃ (p : Port) (s : State), (s.port p).attach = .unattached ∧ (s.pdie (portDie p)).up = true ∧ (s.port p).cc = .rp ∧ (s.port p).tryWait = false ∧ ¬ (s.portGet p 4 = 2 ∧ s.portOn p 5 = true)) ∧
    (∃ (p : Port) (s : State), (s.port p).attach = .unattached ∧ (s.pdie (portDie p)).up = true ∧ (s.port p).cc = .rp ∧ (s.port p).tryWait = false ∧ s.portGet p 4 = 2 ∧ s.portOn p 5 = true) ∧
    (∃ (p : Port) (s : State), (s.port p).attach = .unattached ∧ (s.pdie (portDie p)).up = true ∧ (s.port p).cc = .rp) ∧
    (∃ (p : Port) (s : State), (s.port p).attach = .unattached ∧ (s.pdie (portDie p)).up = true) ∧
    (∃ (p : Port) (s : State), (s.port p).attach = .unattached ∧ (s.port p).tryWait = true) ∧
    (∃ (p : Port) (rpAbsent : Bool) (v : Volt) (s : State), ((s.port p).attach = .sink ∨ (s.port p).attach = .frsWatch ∨ (s.port p).attach = .unsupported) ∧ (rpAbsent = true ∨ (s.port p).swap = none ∧ v < 362 / 100 ∧ ∀ k, (s.port p).hrAt = some k → s.passed k 130000 = true)) ∧
    (∃ (p : Port) (v : Volt) (s : State), ((s.port p).swap.isSome = true ∨ 362 / 100 ≤ v)) ∧
    (∃ (p : Port) (s : State), ((s.port p).attach = .source ∨ (s.port p).attach = .audio ∨ (s.port p).attach = .unsupported)) ∧
    (∃ (p : Port) (s : State), (s.port p).attach = .unattached ∧ s.portGet p 4 = 2 ∧ (s.port p).tryWait = false ∧ (s.pdie (portDie p)).up = true) ∧
    (∃ (p : Port) (s : State), (s.port p).attach = .recovery) ∧
    (∃ (p : Port) (v : Volt) (u : State) (s : State), (s.port p).attach = .sink ∧ u = (if (s.port p).hrActive = true then s.modConn (portSrc p) (fun k => { k with vExp := 5, vOld := none }) else s) ∧ u.vLost (portSrc p) ≤ v ∧ v ≤ u.vOv (portSrc p) ∧ ((s.port p).hrActive = true → ∀ k, (s.port p).hrAt = some k → s.passed k 130000 = true) ∧ (s.conn (portSrc p)).lastTrip = none) ∧
    (∃ (p : Port) (s : State), (s.port p).bcRunning = true ∧ s.hubUp = true) ∧
    (∃ (p : Port) (i : Amp) (s : State), (s.port p).vconn = true ∧ 2 / 10 < i) ∧
    (∃ (p : Port) (s : State), s.answers p = true ∧ (s.port p).attach = .source ∧ (s.port p).vconn = true ∧ (s.port p).cableKnown = false ∧ (s.port p).cableTries < 20) ∧
    (∃ (p : Port) (s : State), 20 ≤ (s.port p).cableTries) ∧
    (∃ (p : Port) (s : State), (s.port p).attach = .unattached ∧ (s.port p).tryWait = true ∧ s.nodeFree p = true) ∧
    (∃ (p : Port) (s : State), (s.port p).attach = .unattached ∧ (s.port p).tryWait = true ∧ s.nodeFree p = false) ∧
    (∃ (p : Port) (s : State), (s.port p).attach = .unattached ∧ s.portGet p 4 = 2 ∧ (s.port p).tryWait = false ∧ (s.pdie (portDie p)).up = true ∧ (s.port p).cc = .rp) ∧
    (∃ (p : Port) (s : State), (s.port p).attach = .unattached ∧ s.portGet p 4 = 2 ∧ (s.port p).tryWait = false ∧ (s.pdie (portDie p)).up = true ∧ (s.port p).cc ≠ .rp ∧ (s.port p).deadRd = false ∧ s.nodeFree p = true ∧ (s.pdie (portDie p)).keeper.any (·.expired) = false) :=
  ⟨⟨0, live, by decide +kernel⟩,
   ⟨0, (live |>.sets [⟨6, 4, 0, 1⟩] |>.modPort 0 (fun x => { x with cc := .rp })), by decide +kernel⟩,
   ⟨0, (live |>.modPort 0 (fun x => { x with cc := .rp })), by decide +kernel⟩,
   ⟨0, (live |>.modPort 0 (fun x => { x with cc := .rp })), by decide +kernel⟩,
   ⟨0, live, by decide +kernel⟩,
   ⟨0, (live |>.modPort 0 (fun x => { x with tryWait := true })), by decide +kernel⟩,
   ⟨0, false, 361 / 100, (live |>.modPort 0 (fun x => { x with attach := .sink })), by decide +kernel, .inr ⟨by decide +kernel, by decide +kernel, fun _ h => by cases h⟩⟩,
   ⟨0, 362 / 100, live, by decide +kernel⟩,
   ⟨0, (live |>.modPort 0 (fun x => { x with attach := .source })), by decide +kernel⟩,
   ⟨0, live, by decide +kernel⟩,
   ⟨0, (live |>.modPort 0 (fun x => { x with attach := .recovery })), by decide +kernel⟩,
   ⟨0, 5, _, (live |>.modPort 0 (fun x => { x with attach := .sink })), by decide +kernel, rfl, by decide +kernel, by decide +kernel, (fun _ _ h => by cases h), by decide +kernel⟩,
   ⟨0, (live |>.modPort 0 (fun x => { x with bcRunning := true })), by decide +kernel⟩,
   ⟨0, 1, (live |>.modPort 0 (fun x => { x with vconn := true })), by decide +kernel⟩,
   ⟨0, (live |>.modPort 0 (fun x => { x with attach := .source, vconn := true })), by decide +kernel⟩,
   ⟨0, (live |>.modPort 0 (fun x => { x with cableTries := 20 })), by decide +kernel⟩,
   ⟨0, (live |>.sets [⟨1, 1, 0, 257⟩] |>.modPort 0 (fun x => { x with tryWait := true })), by decide +kernel⟩,
   ⟨0, (live |>.sets [⟨1, 1, 0, 769⟩] |>.modPort 0 (fun x => { x with tryWait := true }) |>.modConn 1 (fun x => { x with pair := .closed })), by decide +kernel⟩,
   ⟨0, (live |>.modPort 0 (fun x => { x with cc := .rp })), by decide +kernel⟩,
   ⟨0, (live |>.sets [⟨1, 1, 0, 257⟩] |>.modPort 0 (fun x => { x with cc := .rd })), by decide +kernel⟩⟩

theorem witness_PdMessagesAndSourcePorts :
    (∃ (p : Port) (m : PdMsg) (e : Event), e.kind = .pdMessage p m) ∧
    (∃ (p : Port) (x : PdTimer) (e : Event), e.kind = .pdTimer p x) ∧
    (∃ (p : Port) (c : SourceCaps) (b : Ranked) (s : State), ((s.port p).attach = .sink ∨ (s.port p).attach = .frsWatch) ∧ bestRanked (rankObjects (s.snkVmax p) (min (s.cfg.q (6 + p.val) 1 (1 / 20)) (cableTerm { s.port p with caps := some c, cable5 := (s.port p).cable5 || showsFiveAmp (s.snkVmax p) c.pdos })) (s.port p).rev2 c.pdos) = some b) ∧
    (∃ (p : Port) (v : Volt) (i : Amp) (k : Nat) (x : ContractKind) (s : State), (s.port p).wait = .request v i k x ∧ v ≠ (s.conn (portSrc p)).vExp) ∧
    (∃ (p : Port) (k : Nat) (v : Volt) (lim : Amp) (o : Pdo) (s : State), (s.port p).attach = .source ∧ (s.port p).feeding = true ∧ k ≠ 0 ∧ (s.offers p)[k - 1]? = some o ∧ pdoLimit o v = some lim) ∧
    (∃ (p : Port) (s : State), (s.port p).attach = .source ∧ (s.port p).wait = .caps ∧ 0 < (s.port p).capsCount ∧ (s.port p).capsCount < 50 ∧ s.canFeed p = true) ∧
    (∃ (p : Port) (k : Nat) (v : Volt) (i : Amp) (n : Lane) (s : State), (s.port p).feeding = true ∧ (s.port p).transition = true ∧ (s.port p).lastReq = some (k, v, i) ∧ s.portNode p = some n) ∧
    (∃ (p : Port) (s : State), (s.port p).feeding = true ∧ (s.port p).swap = none ∧ (s.port p).transition = false ∧ (s.port p).contract.kind = .none ∧ (s.port p).wait = .idle ∧ s.canFeed p = true) ∧
    (∃ (p : Port) (k : Nat) (v : Volt) (i : Amp) (lim : Amp) (o : Pdo) (s : State), (s.port p).attach = .source ∧ (s.port p).feeding = true ∧ k ≠ 0 ∧ (s.offers p)[k - 1]? = some o ∧ pdoLimit o v = some lim ∧ i ≤ lim) ∧
    (∃ (p : Port) (k : Nat) (v : Volt) (i : Amp) (lim : Amp) (o : Pdo) (s : State), (s.port p).attach = .source ∧ (s.port p).feeding = true ∧ k ≠ 0 ∧ (s.offers p)[k - 1]? = some o ∧ pdoLimit o v = some lim ∧ lim < i) :=
  ⟨⟨0, .accept, ⟨.pd, 0, 0, .port 0, 0, .pdMessage 0 .accept⟩, rfl⟩,
   ⟨0, .response, ⟨.pd, 0, 0, .port 0, 0, .pdTimer 0 .response⟩, rfl⟩,
   ⟨0, ⟨[.fixed 5 3], false, false, false⟩, _, (live |>.modPort 0 (fun x => { x with attach := .sink })), .inl (by decide +kernel), some_of (by decide +kernel)⟩,
   ⟨0, 9, 1, 2, .fixed, (live |>.modPort 0 (fun x => { x with wait := .request 9 1 2 .fixed })), by decide +kernel⟩,
   ⟨0, 1, 5, 3, .fixed 5 3, (live |>.modPort 0 (fun x => { x with attach := .source, feeding := true })), by decide +kernel⟩,
   ⟨0, (live |>.sets [⟨1, 1, 0, 257⟩] |>.modCfg (fun x => { x with phaseFitted := 15 }) |>.modPort 0 (fun x => { x with attach := .source, wait := .caps, capsCount := 49 })), by decide +kernel⟩,
   ⟨0, 1, 5, 1, 0, (live |>.sets [⟨1, 1, 0, 257⟩] |>.modPort 0 (fun x => { x with feeding := true, transition := true, lastReq := some (1, 5, 1) })), by decide +kernel⟩,
   ⟨0, (live |>.sets [⟨1, 1, 0, 257⟩] |>.modCfg (fun x => { x with phaseFitted := 15 }) |>.modPort 0 (fun x => { x with feeding := true })), by decide +kernel⟩,
   ⟨0, 1, 5, 3, 3, .fixed 5 3, (live |>.modPort 0 (fun x => { x with attach := .source, feeding := true })), by decide +kernel⟩,
   ⟨0, 1, 5, 4, 3, .fixed 5 3, (live |>.modPort 0 (fun x => { x with attach := .source, feeding := true })), by decide +kernel⟩⟩

theorem witness_PdTimeoutsAndHardResets :
    (∃ (p : Port) (s : State), ((s.port p).attach = .sink ∨ (s.port p).attach = .source ∨ (s.port p).attach = .frsWatch)) ∧
    (∃ (p : Port) (s : State), s.answers p = true ∧ (s.port p).hrActive = true ∧ (s.port p).attach = .source ∧ (∀ k, (s.port p).hrAt = some k → s.passed k 83000 = true)) ∧
    (∃ (p : Port) (n : Lane) (s : State), (s.port p).hrActive = true ∧ (s.port p).attach = .source ∧ s.canFeed p = true ∧ s.portNode p = some n) ∧
    (∃ (p : Port) (n : Lane) (s : State), s.hubUp = false ∧ (s.port p).hrActive = true ∧ (s.port p).attach = .source ∧ (∀ k, (s.port p).hrAt = some k → s.passed k 83000 = true) ∧ s.canFeed p = true ∧ s.portNode p = some n) ∧
    (∃ (p : Port) (k : Nat) (s : State), (s.port p).hrAt = some k ∧ s.passed k 83000 = false) ∧
    (∃ (p : Port) (s : State), (s.port p).attach = .frsWatch) ∧
    (∃ (p : Port) (v : Volt) (s : State), (s.port p).attach = .frsWatch ∧ v < 472 / 100) ∧
    (∃ (p : Port) (s : State), (s.port p).frsSignal = true) ∧
    (∃ (p : Port) (s : State), ((s.port p).attach = .sink ∨ (s.port p).attach = .source ∨ (s.port p).attach = .frsWatch) ∧ s.answers p = true) ∧
    (∃ (p : Port) (s : State), (s.port p).frsSignal = true ∧ (s.port p).feeding = true) :=
  ⟨⟨0, (live |>.modPort 0 (fun x => { x with attach := .sink })), by decide +kernel⟩,
   ⟨0, (live |>.modPort 0 (fun x => { x with attach := .source, hrActive := true, hrAt := some 0 })), by decide +kernel, by decide +kernel, by decide +kernel, fun k h => by cases h; decide +kernel⟩,
   ⟨0, 0, (live |>.sets [⟨1, 1, 0, 257⟩] |>.modCfg (fun x => { x with phaseFitted := 15 }) |>.modPort 0 (fun x => { x with attach := .source, hrActive := true, hrAt := some 0 })), by decide +kernel⟩,
   ⟨0, 0, (live |>.sets [⟨1, 1, 0, 257⟩] |>.modCfg (fun x => { x with phaseFitted := 15 }) |>.modPort 0 (fun x => { x with attach := .source, hrActive := true, hrAt := some 0 }) |>.modHub (fun x => { x with hub := .held 3 false })), by decide +kernel, by decide +kernel, by decide +kernel, (fun k h => by cases h; decide +kernel), by decide +kernel, by decide +kernel⟩,
   ⟨0, 1000000000, (live |>.modPort 0 (fun x => { x with hrAt := some 1000000000 })), by decide +kernel⟩,
   ⟨0, (live |>.modPort 0 (fun x => { x with attach := .frsWatch })), by decide +kernel⟩,
   ⟨0, 1, (live |>.modPort 0 (fun x => { x with attach := .frsWatch })), by decide +kernel⟩,
   ⟨0, (live |>.modPort 0 (fun x => { x with frsSignal := true })), by decide +kernel⟩,
   ⟨0, (live |>.modPort 0 (fun x => { x with attach := .sink })), by decide +kernel⟩,
   ⟨0, (live |>.modPort 0 (fun x => { x with frsSignal := true, feeding := true })), by decide +kernel⟩⟩

theorem witness_PassPairsAndTheTrunkBus :
    (∃ (n : Lane) (s : State), s.hubUp = true ∧ s.cfg.trunkLane = some n ∧ s.trkOn = true ∧ 0 < s.cfg.get 11 9 ∧ s.modeIs .supply = true ∧ s.nonTrunk.isEmpty = false ∧ s.trunk.feedingTrunk = false ∧ s.cfg.q 11 10 10 ≤ s.feedCap ∧ s.laneFit n = true) ∧
    (∃ (n : Lane) (s : State), s.hubUp = true ∧ s.cfg.trunkLane = some n ∧ s.trunk.feedingTrunk = true ∧ (s.nonTrunk = [] ∨ (s.feedCap : Rat) < s.cfg.q 11 10 10 / 2)) ∧
    (∃ (c : Src) (v : Volt) (s : State), s.trunkIx = some c ∧ s.cfg.q 11 6 (1 / 10) + 1 ≤ v ∧ v ≤ 63 ∧ (s.pdie 1).up = true ∧ s.trunk.busQualified = false) ∧
    (∃ (n : Lane) (v : Volt) (s : State), s.cfg.trunkLane = some n ∧ s.droopAt v < 1 ∧ (s.lane n).droopLaw = false ∧ (s.lane n).up = true) ∧
    (∃ (n : Lane) (v : Volt) (s : State), s.cfg.trunkLane = some n ∧ s.droopAt v = 1 ∧ (s.lane n).droopLaw = true ∧ (s.lane n).up = true) ∧
    (∃ (n : Lane) (s : State), s.hubUp = true ∧ s.cfg.trunkLane = some n ∧ s.trkOn = true ∧ 0 < s.cfg.get 11 9 ∧ s.modeIs .supply = true ∧ s.nonTrunk.isEmpty = false ∧ s.trunk.feedingTrunk = false ∧ s.cfg.q 11 10 10 ≤ s.feedCap ∧ s.laneFit n = true ∧ (s.node n).selected = none) ∧
    (∃ (n : Lane) (s : State), s.hubUp = true ∧ s.cfg.trunkLane = some n ∧ s.trkOn = true ∧ 0 < s.cfg.get 11 9 ∧ s.modeIs .supply = true ∧ s.nonTrunk.isEmpty = false ∧ s.trunk.feedingTrunk = false ∧ s.cfg.q 11 10 10 ≤ s.feedCap ∧ s.laneFit n = true ∧ (s.node n).selected.isSome = true) :=
  ⟨⟨0, (live |>.sets [⟨1, 1, 0, 2⟩, ⟨1, 1, 1, 257⟩, ⟨11, 1, 0, 1⟩, ⟨11, 9, 0, 2000⟩, ⟨11, 10, 0, 2⟩] |>.modCfg (fun x => { x with connFitted := 1, phaseFitted := 0xFF }) |>.modPort 0 (fun x => { x with attach := .sink, seen := true, contract := ⟨.fixed, 2, 20, 3⟩ }) |>.modConn 0 (fun x => { x with qualified := true, known := true, pair := .closed, vExp := 20 }) |>.modNode 1 (fun x => { x with selected := some 0 }) |>.modLane 0 (fun l => { l with loop := { Loop.zero with taps := [50] } }) |>.modHub (fun x => { x with sysTarget := 20 })), by decide +kernel⟩,
   ⟨0, (live |>.sets [⟨1, 1, 0, 2⟩] |>.modTrunk (fun x => { x with feedingTrunk := true })), by decide +kernel⟩,
   ⟨5, 50, (live |>.modConn 5 (fun x => { x with pair := .closed })), by decide +kernel⟩,
   ⟨0, 44, (live |>.sets [⟨1, 1, 0, 2⟩]), by decide +kernel⟩,
   ⟨0, 60, (live |>.sets [⟨1, 1, 0, 2⟩] |>.modLane 0 (fun l => { l with droopLaw := true })), by decide +kernel⟩,
   ⟨0, (live |>.sets [⟨1, 1, 0, 2⟩, ⟨1, 1, 1, 257⟩, ⟨11, 1, 0, 1⟩, ⟨11, 9, 0, 2000⟩, ⟨11, 10, 0, 2⟩] |>.modCfg (fun x => { x with connFitted := 1, phaseFitted := 0xFF }) |>.modPort 0 (fun x => { x with attach := .sink, seen := true, contract := ⟨.fixed, 2, 20, 3⟩ }) |>.modConn 0 (fun x => { x with qualified := true, known := true, pair := .closed, vExp := 20 }) |>.modNode 1 (fun x => { x with selected := some 0 }) |>.modLane 0 (fun l => { l with loop := { Loop.zero with taps := [50] } }) |>.modHub (fun x => { x with sysTarget := 20 })), by decide +kernel⟩,
   ⟨0, (live |>.sets [⟨1, 1, 0, 2⟩, ⟨1, 1, 1, 257⟩, ⟨11, 1, 0, 1⟩, ⟨11, 9, 0, 2000⟩, ⟨11, 10, 0, 2⟩] |>.modCfg (fun x => { x with connFitted := 1, phaseFitted := 0xFF }) |>.modPort 0 (fun x => { x with attach := .sink, seen := true, contract := ⟨.fixed, 2, 20, 3⟩ }) |>.modConn 0 (fun x => { x with qualified := true, known := true, pair := .closed, vExp := 20 }) |>.modNode 1 (fun x => { x with selected := some 0 }) |>.modLane 0 (fun l => { l with loop := { Loop.zero with taps := [50] } }) |>.modHub (fun x => { x with sysTarget := 20 }) |>.modNode 0 (fun x => { x with selected := some 5 })), by decide +kernel⟩⟩

theorem witness_TrunkFramesAndLinks :
    (∃ (m : Nat) (b : List Byte) (s : State), (s.pdie 1).up = true ∧ (m < 16 ∨ parseFrame b = none)) ∧
    (∃ (m : Nat) (b : List Byte) (f : TrunkFrame) (s : State), (s.pdie 1).up = true ∧ 16 ≤ m ∧ parseFrame b = some f ∧ (f.type ≠ 1 ∨ f.dst ≠ 0)) ∧
    (∃ (f : TrunkFrame) (s : State), (s.pdie 1).up = true ∧ f.type = 1) ∧
    (∃ (t : TrunkPort) (s : State), (s.link t).up = true ∧ s.passed (s.link t).lastRx 30000 = true) ∧
    (∃ (t : TrunkPort) (s : State), (s.link t).up = true ∧ s.passed (s.link t).lastRx 30000 = false) ∧
    (∃ (t : TrunkPort) (s : State), (s.pdie 1).up = true ∧ (s.link t).helloDue ≤ s.now) ∧
    (∃ (t : TrunkPort) (g : SegmentGap) (s : State), (s.pdie 1).up = true ∧ s.mayStart t g = true ∧ (s.link t).queue ≠ []) ∧
    (∃ (t : TrunkPort) (g : SegmentGap) (s : State), ((s.link t).queue = [] ∨ s.mayStart t g = false)) ∧
    (∃ (f : TrunkFrame) (s : State), (s.pdie 1).up = true ∧ f.type = 1 ∧ s.derived = false ∧ f.src = s.trunk.nodeId ∧ u64 f.payload 0 < s.otp.unit.toNat) ∧
    (∃ (t : TrunkPort) (s : State), (s.pdie 1).up = true ∧ (s.link t).helloDue ≤ s.now ∧ (s.link t).queue.length < 16) :=
  ⟨⟨15, [], live, by decide +kernel⟩,
   ⟨16, wire 9 [], ⟨9, 0xFFF, 2, 0, 0, []⟩, live, by decide +kernel⟩,
   ⟨frame 1 [], live, by decide +kernel⟩,
   ⟨0, (live |>.modLink 0 (fun x => { x with up := true })), by decide +kernel⟩,
   ⟨0, (live |>.modLink 0 (fun x => { x with up := true, lastRx := 1000000000 })), by decide +kernel⟩,
   ⟨0, live, by decide +kernel⟩,
   ⟨0, ⟨true, 2000⟩, (live |>.modLink 0 (fun x => { x with queue := [frame 2 []] })), by decide +kernel⟩,
   ⟨0, ⟨true, 1999⟩, live, by decide +kernel⟩,
   ⟨⟨1, 0xFFF, 1, 0, 0, [0, 0, 0, 0, 0, 0, 0, 0]⟩, (live |>.sets [⟨11, 2, 0, 1⟩] |>.withOtp (fun x => { x with unit := 5 })), by decide +kernel⟩,
   ⟨0, live, by decide +kernel⟩⟩

theorem witness_CaptainsComeAndGo :
    (∃ (f : TrunkFrame) (s : State), f.type = 2 ∧ s.trunk.isCaptain = false ∧ s.trunk.captain = none) ∧
    (∃ (f : TrunkFrame) (c : CapKey) (s : State), f.type = 2 ∧ s.trunk.isCaptain = true ∧ s.trunk.captain = some c ∧ (keyOfBeacon f).better c = false) ∧
    (∃ (f : TrunkFrame) (s : State), f.type = 6 ∧ (keyOfClaim f).better s.myKey = true) ∧
    (∃ (s : State), s.hubUp = true ∧ s.trunk.isCaptain = true ∧ s.trunk.due.beacon ≤ s.now) ∧
    (∃ (s : State), s.hubUp = true ∧ s.trunk.isCaptain = false ∧ s.mayClaim = true ∧ (s.noBeacon = true ∧ s.trunk.claiming = none ∨ s.trunk.claiming.isSome = true ∧ s.trunk.due.claim ≤ s.now)) ∧
    (∃ (k : Nat) (s : State), s.hubUp = true ∧ s.mayClaim = true ∧ s.trunk.claiming = some k ∧ s.passed k 40000 = true) ∧
    (∃ (k : Nat) (s : State), s.hubUp = true ∧ s.trunk.isCaptain = false ∧ s.trunk.lastBeacon = some k ∧ s.passed k 15000 = true) ∧
    (∃ (k : Nat) (s : State), s.hubUp = true ∧ s.trunk.isCaptain = true ∧ s.trunk.capZeroSince = some k ∧ s.cfg.get 11 3 = 0 ∧ s.feedCap = 0 ∧ s.passed k 1000000 = true) ∧
    (∃ (k : Nat) (s : State), s.hubUp = true ∧ s.trunk.isCaptain = false ∧ s.trunk.lastBeacon = some k ∧ s.passed k 15000 = true ∧ s.mayClaim = true) :=
  ⟨⟨frame 2 [], live, by decide +kernel⟩,
   ⟨frame 2 [], ⟨true, 0, 1⟩, (live |>.modTrunk (fun x => { x with isCaptain := true, captain := some ⟨true, 0, 1⟩ })), by decide +kernel⟩,
   ⟨frame 6 [0, 0, 0, 0, 0, 0, 0, 0, 1], (live |>.sets [⟨11, 3, 0, 0⟩]), by decide +kernel⟩,
   ⟨(live |>.modTrunk (fun x => { x with isCaptain := true })), by decide +kernel⟩,
   ⟨(live |>.sets [⟨11, 1, 0, 1⟩, ⟨11, 3, 0, 1⟩] |>.modTrunk (fun x => { x with claiming := some 0 }) |>.modLink 0 (fun x => { x with up := true })), by decide +kernel⟩,
   ⟨0, (live |>.sets [⟨11, 1, 0, 1⟩, ⟨11, 3, 0, 1⟩] |>.modTrunk (fun x => { x with claiming := some 0 })), by decide +kernel⟩,
   ⟨0, (live |>.modTrunk (fun x => { x with lastBeacon := some 0 })), by decide +kernel⟩,
   ⟨0, (live |>.sets [⟨11, 3, 0, 0⟩] |>.modTrunk (fun x => { x with isCaptain := true, capZeroSince := some 0 })), by decide +kernel⟩,
   ⟨0, (live |>.sets [⟨11, 1, 0, 1⟩, ⟨11, 3, 0, 1⟩] |>.modTrunk (fun x => { x with lastBeacon := some 0 })), by decide +kernel⟩⟩

theorem witness_CaptainKeysRankAndClaim :
    (∃ (a : CapKey) (b : CapKey), a.always = true ∧ b.always = false) ∧
    (∃ (a : CapKey) (b : CapKey), a.always = b.always ∧ b.cf < a.cf) ∧
    (∃ (a : CapKey) (b : CapKey), a.always = b.always ∧ a.cf = b.cf ∧ a.node.toNat < b.node.toNat) ∧
    (∃ (s : State), s.trkOn = true) ∧
    (∃ (s : State), s.trkOn = true ∧ s.cfg.get 11 3 = 1) ∧
    (∃ (s : State), s.trkOn = true ∧ s.cfg.get 11 3 = 0) ∧
    (∃ (s : State), s.trkOn = true ∧ s.cfg.get 11 3 = 2) :=
  ⟨⟨⟨true, 0, 1⟩, ⟨false, 9, 1⟩, by decide +kernel⟩,
   ⟨⟨true, 9, 1⟩, ⟨true, 8, 1⟩, by decide +kernel⟩,
   ⟨⟨true, 9, 1⟩, ⟨true, 9, 2⟩, by decide +kernel⟩,
   ⟨(live |>.sets [⟨11, 1, 0, 1⟩]), by decide +kernel⟩,
   ⟨(live |>.sets [⟨11, 1, 0, 1⟩, ⟨11, 3, 0, 1⟩]), by decide +kernel⟩,
   ⟨(live |>.sets [⟨11, 1, 0, 1⟩, ⟨11, 3, 0, 0⟩]), by decide +kernel⟩,
   ⟨(live |>.sets [⟨11, 1, 0, 1⟩, ⟨11, 3, 0, 2⟩]), by decide +kernel⟩⟩

theorem witness_TheGrantLayer :
    (∃ (f : TrunkFrame) (s : State), (s.pdie 1).up = true ∧ (f.dst = 0xFFF ∨ f.dst = s.trunk.nodeId)) ∧
    (∃ (f : TrunkFrame) (k : CapKey) (s : State), f.type = 3 ∧ s.trunk.isCaptain = false ∧ s.trunk.captain = some k ∧ k.node = f.src) ∧
    (∃ (f : TrunkFrame) (s : State), f.type = 4 ∧ s.trunk.isCaptain = true) ∧
    (∃ (f : TrunkFrame), f.type = 5) ∧
    (∃ (s : State), s.hubUp = true ∧ s.trunk.isCaptain = true ∧ s.trunk.due.bulletin ≤ s.now) ∧
    (∃ (k : Nat) (c : CapKey) (s : State), s.hubUp = true ∧ s.trkOn = true ∧ s.trunk.due.report = some k ∧ s.trunk.captain = some c ∧ k ≤ s.now) ∧
    (∃ (s : State), s.hubUp = true ∧ s.trunk.isCaptain = true ∧ s.trunk.due.unrostered ≤ s.now) ∧
    (∃ (g : Watt) (k : Nat) (s : State), s.hubUp = true ∧ s.trunk.pendingGrant = some (g, k) ∧ k ≤ s.fleetUs) ∧
    (∃ (s : State), s.hubUp = true ∧ s.trunk.session ≠ 0xFF ∧ s.trunk.leaseEnd ≤ s.fleetUs) ∧
    (∃ (i : Fin 512) (e : RosterEntry) (s : State), s.hubUp = true ∧ s.trunk.roster.find? (fun e => e.slot == i.val) = some e) ∧
    (∃ (f : TrunkFrame) (s : State), f.type = 5 ∧ u64 f.payload 24 = s.otp.unit.toNat ∧ u8 f.payload 6 = 0 ∧ s.trunk.dupId = false ∧ s.trunk.pBase < (u16 f.payload 4 : Rat) ∧ s.fleetUs < u64 f.payload 8) ∧
    (∃ (f : TrunkFrame) (s : State), f.type = 5 ∧ u64 f.payload 24 = s.otp.unit.toNat ∧ u8 f.payload 6 = 0 ∧ s.trunk.dupId = false ∧ (u16 f.payload 4 : Rat) < s.trunk.pBase) ∧
    (∃ (f : TrunkFrame) (s : State), f.type = 5 ∧ u64 f.payload 24 = s.otp.unit.toNat ∧ (u8 f.payload 6 = 1 ∨ u8 f.payload 6 = 2)) ∧
    (∃ (f : TrunkFrame) (s : State), f.type = 5 ∧ u64 f.payload 24 ≠ s.otp.unit.toNat) ∧
    (∃ (i : Fin 512) (e : RosterEntry) (s : State), s.hubUp = true ∧ s.trunk.roster.find? (fun e => e.slot == i.val) = some e ∧ e.seenUs + 4000000 ≤ s.fleetUs) ∧
    (∃ (i : Fin 512) (e : RosterEntry) (s : State), s.hubUp = true ∧ s.trunk.roster.find? (fun e => e.slot == i.val) = some e ∧ e.seenUs + 2000000 ≤ s.fleetUs ∧ s.fleetUs < e.seenUs + 4000000) :=
  ⟨⟨frame 5 [], live, by decide +kernel⟩,
   ⟨frame 3 [], ⟨true, 0, 2⟩, (live |>.modTrunk (fun x => { x with captain := some ⟨true, 0, 2⟩ })), by decide +kernel⟩,
   ⟨frame 4 [], (live |>.modTrunk (fun x => { x with isCaptain := true })), by decide +kernel⟩,
   ⟨frame 5 [], by decide +kernel⟩,
   ⟨(live |>.modTrunk (fun x => { x with isCaptain := true, captain := some ⟨true, 0, 1⟩ })), by decide +kernel⟩,
   ⟨0, ⟨true, 0, 2⟩, (live |>.sets [⟨11, 1, 0, 1⟩] |>.modTrunk (fun x => { x with captain := some ⟨true, 0, 2⟩ }) |>.modDue (fun x => { x with report := some 0 })), by decide +kernel⟩,
   ⟨(live |>.modTrunk (fun x => { x with isCaptain := true })), by decide +kernel⟩,
   ⟨5, 0, (live |>.modTrunk (fun x => { x with pendingGrant := some (5, 0) })), by decide +kernel⟩,
   ⟨(live |>.modTrunk (fun x => { x with session := 1 })), by decide +kernel⟩,
   ⟨0, member, (live |>.modTrunk (fun x => { x with roster := [member] })), by decide +kernel⟩,
   ⟨frame 5 ([0, 0, 0, 0] ++ le16 10 ++ [0, 0] ++ le32 1 ++ le32 0 ++ le32 0 ++ le32 0 ++ le32 5 ++ le32 0), (live |>.withOtp (fun x => { x with unit := 5 })), by decide +kernel⟩,
   ⟨frame 5 ([0, 0, 0, 0] ++ le16 4 ++ [0, 0] ++ le32 1 ++ le32 0 ++ le32 0 ++ le32 0 ++ le32 5 ++ le32 0), (live |>.withOtp (fun x => { x with unit := 5 })), by decide +kernel⟩,
   ⟨frame 5 ([0, 0, 0, 0] ++ le16 4 ++ [1, 0] ++ le32 1 ++ le32 0 ++ le32 0 ++ le32 0 ++ le32 5 ++ le32 0), (live |>.withOtp (fun x => { x with unit := 5 })), by decide +kernel⟩,
   ⟨frame 5 ([0, 0, 0, 0] ++ le16 4 ++ [1, 0] ++ le32 1 ++ le32 0 ++ le32 0 ++ le32 0 ++ le32 4 ++ le32 0), (live |>.withOtp (fun x => { x with unit := 5 })), by decide +kernel⟩,
   ⟨0, member, (live |>.modTrunk (fun x => { x with roster := [member] }) |>.withTime (fun x => { x with fleetNs := 4000000000 })), by decide +kernel⟩,
   ⟨0, member, (live |>.modTrunk (fun x => { x with roster := [member] }) |>.withTime (fun x => { x with fleetNs := 2000000000 })), by decide +kernel⟩⟩

theorem witness_TrunkStartIsValidated :
    (∃ (c : HostChan) (d : Desc) (m : BitVec 15) (s : State), let x := s.checkCtx m; let ta := s.cfg.connFitted.getLsbD 5; let tb := s.cfg.connFitted.getLsbD 6; let volt := fun idx => (x.v 11 idx : Rat) / 10; s.takes c 0x0103 d ∧ funcMask d.params = some m ∧ m.getLsbD 11 = true ∧ (∀ f, m.getLsbD f = true → s.cfg.stop f = some c) ∧ (volt 5 < volt 6 + 2 ∨ volt 8 < volt 5 + 1 ∨ volt 7 < volt 8 + 1 ∨ (x.v 11 1 = 1 ∧ ta = false ∧ tb = false) ∨ ((ta = true ∨ tb = true) ∧ ∀ n : Lane, farKindOf (x.v 1 1 n.val) ≠ .trunk) ∨ 3 / 10 < 3 * ((x.v 11 12 : Rat) * (5 / 100)) * ((x.v 11 13 : Rat) * (5 / 10000)))) :=
  ⟨0, (call (le32 2048)), 2048, (live |>.modCfg (fun x => { x with stoppedBy := #v[none, none, none, none, none, none, none, none, none, none, none, some 0, none, none, none], staged := [⟨11, 5, 0, 440⟩] })), (by unfold State.takes; decide +kernel), by decide +kernel, by decide +kernel, (bits15 (by decide +kernel)), by decide +kernel⟩

theorem witness_InputStartsAreValidated :
    (∃ (c : HostChan) (d : Desc) (m : BitVec 15) (s : State), let x := s.checkCtx m; s.takes c 0x0103 d ∧ funcMask d.params = some m ∧ m.getLsbD 10 = true ∧ (∀ f, m.getLsbD f = true → s.cfg.stop f = some c) ∧ ((x.v 10 6 : Rat) / 2 < (x.v 10 5 : Rat) / 2 + 2 ∨ (x.v 10 6 : Rat) / 2 - 2 < (x.v 10 8 : Rat) / 2 ∨ 3 / 10 < 3 * ((x.v 10 1 : Rat) * (5 / 100)) * ((x.v 10 2 : Rat) * (5 / 10000)))) ∧
    (∃ (c : HostChan) (d : Desc) (m : BitVec 15) (p : Port) (s : State), let x := s.checkCtx m; s.takes c 0x0103 d ∧ funcMask d.params = some m ∧ m.getLsbD (6 + p.val) = true ∧ (∀ f, m.getLsbD f = true → s.cfg.stop f = some c) ∧ 3 / 10 < 3 * ((x.v (6 + p.val) 1 : Rat) * (5 / 100)) * ((x.v (6 + p.val) 2 : Rat) * (5 / 10000))) :=
  ⟨⟨0, (call (le32 1024)), 1024, (live |>.modCfg (fun x => { x with stoppedBy := #v[none, none, none, none, none, none, none, none, none, none, some 0, none, none, none, none], staged := [⟨10, 5, 0, 116⟩, ⟨10, 6, 0, 118⟩] })), (by unfold State.takes; decide +kernel), by decide +kernel, by decide +kernel, (bits15 (by decide +kernel)), by decide +kernel⟩,
   ⟨0, (call (le32 64)), 64, 0, (live |>.modCfg (fun x => { x with stoppedBy := #v[none, none, none, none, none, none, some 0, none, none, none, none, none, none, none, none], staged := [⟨6, 2, 0, 60⟩] })), (by unfold State.takes; decide +kernel), by decide +kernel, by decide +kernel, (bits15 (by decide +kernel)), by decide +kernel⟩⟩

theorem witness_LaneStartsAreValidated :
    (∃ (c : HostChan) (d : Desc) (m : BitVec 15) (n : Lane) (s : State), let x := s.checkCtx m; let g := fun idx => x.v (2 + n.val) idx; let period : Rat := ratio 1000000 (g 0); let lead := ((gangMembers (x.v 1 2) n).head?).getD 0; s.takes c 0x0103 d ∧ funcMask d.params = some m ∧ m.getLsbD (2 + n.val) = true ∧ (∀ f, m.getLsbD f = true → s.cfg.stop f = some c) ∧ ((g 8 : Rat) < 125 / 100 * (g 9 : Rat) ∨ g 9 < -(g 10) ∨ g 21 ≤ g 22 ∨ 2 * g 20 ≤ g 25 ∨ period / 10 < (g 6 : Rat) * (5 / 2) ∨ period / 10 < (g 7 : Rat) * (5 / 2) ∨ period / 10 < (g 5 : Rat) * (5 / 16) ∨ (∃ k ∈ gangMembers (x.v 1 2) lead, x.v (2 + k.val) 0 ≠ x.v (2 + lead.val) 0) ∨ (skipCounted x n.val = true ∧ (x.v 12 3 : Rat) / 2 < (g 25 : Rat) / 4 + 1 / 2))) :=
  ⟨0, (call (le32 4)), 4, 0, (live |>.modCfg (fun x => { x with stoppedBy := #v[none, none, some 0, none, none, none, none, none, none, none, none, none, none, none, none], staged := [⟨2, 9, 0, 120⟩] })), (by unfold State.takes; decide +kernel), by decide +kernel, by decide +kernel, (bits15 (by decide +kernel)), by decide +kernel⟩

theorem witness_ResetsAndBoots :
    (∃ (c : Nat) (w : Bool) (s : State), s.hub.hub = .held c w) ∧
    (∃ (c : Nat) (b : BootPins) (s : State), s.hub.hub = .held c false ∧ s.heldInReset = false ∧ (2 < c ∨ b.ftHigh = false)) ∧
    (∃ (c : Nat) (b : BootPins) (s : State), s.hub.hub = .held c false ∧ s.heldInReset = false ∧ c ≤ 2 ∧ b.ftHigh = true) ∧
    (∃ (c : Nat) (s : State), s.hub.hub = .held c false ∧ s.heldInReset = true) ∧
    (∃ (c : Nat) (s : State), s.hub.hub = .held c true ∧ s.heldInReset = false) ∧
    (∃ (c : Nat) (s : State), s.hub.hub = .held c true ∧ s.heldInReset = false) ∧
    (∃ (c : Nat) (w : Bool) (s : State), s.hub.hub = .held c w ∧ s.flash.background = some .staging) :=
  ⟨⟨3, false, (live |>.modHub (fun x => { x with hub := .held 3 false })), by decide +kernel⟩,
   ⟨3, BootPins.allOpen, (live |>.modHub (fun x => { x with hub := .held 3 false })), by decide +kernel⟩,
   ⟨2, { BootPins.allOpen with ftHigh := true }, (live |>.modHub (fun x => { x with hub := .held 2 false })), by decide +kernel⟩,
   ⟨3, (live |>.modHub (fun x => { x with hub := .held 3 false }) |>.withTherm (fun x => { x with hubShut := true })), by decide +kernel⟩,
   ⟨7, (live |>.modHub (fun x => { x with hub := .held 7 true })), by decide +kernel⟩,
   ⟨7, (live |>.modHub (fun x => { x with hub := .held 7 true })), by decide +kernel⟩,
   ⟨3, false, (live |>.modHub (fun x => { x with hub := .held 3 false }) |>.withFlash (fun x => { x with background := some .staging })), by decide +kernel⟩⟩

theorem witness_KeepersAndUnresponsiveDies :
    (∃ (n : Lane) (s : State), s.hubUp = true ∧ 50 ≤ (s.lane n).lag ∧ (s.lane n).unresponsive = false) ∧
    (∃ (n : Lane) (s : State), (s.lane n).lag < 50) ∧
    (∃ (m : PortDie) (s : State), s.hubUp = true ∧ 50 ≤ (s.pdie m).lag ∧ (s.pdie m).unresponsive = false) ∧
    (∃ (n : Lane) (s : State), (s.lane n).up = true ∧ (s.lane n).got = true ∧ (s.lane n).keeper = none) ∧
    (∃ (m : PortDie) (s : State), (s.pdie m).up = true ∧ (s.pdie m).got = true ∧ (s.pdie m).keeper = none) ∧
    (∃ (n : Lane) (k : Keeper) (s : State), (s.lane n).keeper = some k ∧ k.expired = false ∧ k.entry + (s.lane n).holdTenths * 10000 ≤ s.now ∧ s.aon.safeLatch = false ∧ (∀ f ∈ (s.lane n).frames, ixReached f.eff (s.lane n).tick.toNat = false)) ∧
    (∃ (n : Lane) (k : Keeper) (s : State), (s.lane n).keeper = some k ∧ s.now < k.entry + (s.lane n).holdTenths * 10000) ∧
    (∃ (m : PortDie) (k : Keeper) (s : State), (s.pdie m).keeper = some k ∧ k.expired = false ∧ k.entry + (s.pdie m).holdTenths * 10000 ≤ s.now ∧ s.aon.safeLatch = false ∧ (∀ f ∈ (s.pdie m).frames, ixReached f.eff (s.pdie m).tick.toNat = false)) ∧
    (∃ (s : State), s.aon.vio = true) ∧
    (∃ (s : State), s.aon.vio = false) ∧
    (∃ (n : Lane) (s : State), (s.lane n).up = true ∧ (s.lane n).got = true ∧ (s.lane n).keeper = none ∧ s.aon.safeLatch = false) ∧
    (∃ (n : Lane) (s : State), (s.lane n).up = true ∧ (s.lane n).got = true ∧ (s.lane n).keeper = none ∧ s.aon.safeLatch = true) ∧
    (∃ (m : PortDie) (s : State), (s.pdie m).up = true ∧ (s.pdie m).got = true ∧ (s.pdie m).keeper = none ∧ s.aon.safeLatch = false) ∧
    (∃ (m : PortDie) (s : State), (s.pdie m).up = true ∧ (s.pdie m).got = true ∧ (s.pdie m).keeper = none ∧ s.aon.safeLatch = true) ∧
    (∃ (n : Lane) (k : Keeper) (s : State), (s.lane n).keeper = some k ∧ k.expired = false ∧ k.entry + (s.lane n).holdTenths * 10000 ≤ s.now ∧ s.aon.safeLatch = false ∧ (∀ f ∈ (s.lane n).frames, ixReached f.eff (s.lane n).tick.toNat = false) ∧ s.fedPort n = none) :=
  ⟨⟨0, (live |>.modLane 0 (fun l => { l with lag := 50 })), by decide +kernel⟩,
   ⟨0, live, by decide +kernel⟩,
   ⟨0, (live |>.modPd 0 (fun x => { x with lag := 50 })), by decide +kernel⟩,
   ⟨0, live, by decide +kernel⟩,
   ⟨0, live, by decide +kernel⟩,
   ⟨0, ⟨999800000, false⟩, (live |>.modLane 0 (fun l => { l with keeper := some ⟨999800000, false⟩ })), by decide +kernel⟩,
   ⟨0, ⟨1000000000, false⟩, (live |>.modLane 0 (fun l => { l with keeper := some ⟨1000000000, false⟩ })), by decide +kernel⟩,
   ⟨0, ⟨999800000, false⟩, (live |>.modPd 0 (fun x => { x with keeper := some ⟨999800000, false⟩ })), by decide +kernel⟩,
   ⟨live, by decide +kernel⟩,
   ⟨(live |>.modAon (fun x => { x with vio := false })), by decide +kernel⟩,
   ⟨0, live, by decide +kernel⟩,
   ⟨0, (live |>.modAon (fun x => { x with safeLatch := true })), by decide +kernel⟩,
   ⟨0, live, by decide +kernel⟩,
   ⟨0, (live |>.modAon (fun x => { x with safeLatch := true })), by decide +kernel⟩,
   ⟨0, ⟨999800000, false⟩, (live |>.modLane 0 (fun l => { l with keeper := some ⟨999800000, false⟩ })), by decide +kernel⟩⟩

theorem witness_TemperaturesShutDiesDown :
    (∃ (n : Lane) (s : State), s.hubPowered = true ∧ (s.lane n).up = true) ∧
    (∃ (n : Lane) (s : State), s.hubPowered = true ∧ (s.lane n).up = true ∧ (s.lane n).onLine = true) ∧
    (∃ (m : PortDie) (s : State), s.hubPowered = true ∧ (s.pdie m).up = true) ∧
    (∃ (s : State), s.hubPowered = true) ∧
    (∃ (s : State), s.hubPowered = true) ∧
    (∃ (s : State), s.hubPowered = true) ∧
    (∃ (s : State), s.hubPowered = true ∧ s.hubUp = true) ∧
    (∃ (d : Fin 8) (n : Lane), releaseDie d = .laneDie n) ∧
    (∃ (d : Fin 8) (m : PortDie), releaseDie d = .portDie m) ∧
    (∃ (s : State), s.therm.hubShut = true ∧ 10 ≤ s.therm.hubOkRounds) ∧
    (∃ (s : State), s.therm.flashShut = true ∧ 10 ≤ s.therm.flashOkRounds) ∧
    (∃ (x : ShutSlot) (r : List ShutSlot) (s : State), s.aon.slotPending = x :: r) ∧
    (∃ (n : Lane) (t : DegC) (s : State), let r := s.convert (.laneDie n) (.diode t); let x := s.effective (.laneDie n) r; s.hubPowered = true ∧ (s.lane n).up = true ∧ (x < 150 ∨ (s.lane n).shutDie = true)) ∧
    (∃ (n : Lane) (t : DegC) (s : State), let r := s.convert (.laneDie n) (.diode t); let x := s.effective (.laneDie n) r; s.hubPowered = true ∧ (s.lane n).up = true ∧ 150 ≤ x ∧ (s.lane n).shutDie = false) ∧
    (∃ (n : Lane) (q : Rat) (s : State), let r := s.convert (.tsl n) (.ratio q); let x := s.effective (.tsl n) r; s.hubPowered = true ∧ (s.lane n).up = true ∧ (s.lane n).onLine = true ∧ (x < s.shutAt (.tsl n) ∨ (s.lane n).shutTsl = true)) ∧
    (∃ (n : Lane) (q : Rat) (s : State), let r := s.convert (.tsl n) (.ratio q); let x := s.effective (.tsl n) r; s.hubPowered = true ∧ (s.lane n).up = true ∧ (s.lane n).onLine = true ∧ s.shutAt (.tsl n) ≤ x ∧ (s.lane n).shutTsl = false) ∧
    (∃ (m : PortDie) (t : DegC) (s : State), let r := s.convert (.portDie m) (.diode t); let x := s.effective (.portDie m) r; s.hubPowered = true ∧ (s.pdie m).up = true ∧ (x < 150 ∨ (s.pdie m).shut = true)) ∧
    (∃ (m : PortDie) (t : DegC) (s : State), let r := s.convert (.portDie m) (.diode t); let x := s.effective (.portDie m) r; s.hubPowered = true ∧ (s.pdie m).up = true ∧ 150 ≤ x ∧ (s.pdie m).shut = false) ∧
    (∃ (t : DegC) (s : State), let r := s.convert .flash (.diode t); let x := s.effective .flash r; s.hubPowered = true ∧ (x < 150 ∨ s.therm.flashShut = true)) ∧
    (∃ (t : DegC) (s : State), let r := s.convert .flash (.diode t); let x := s.effective .flash r; s.hubPowered = true ∧ 150 ≤ x ∧ s.therm.flashShut = false) ∧
    (∃ (t : DegC) (s : State), let r := s.convert .hub (.diode t); let x := s.effective .hub r; s.hubPowered = true ∧ (x < 150 ∨ s.therm.hubShut = true)) ∧
    (∃ (t : DegC) (s : State), let r := s.convert .hub (.diode t); let x := s.effective .hub r; s.hubPowered = true ∧ 150 ≤ x ∧ s.therm.hubShut = false) ∧
    (∃ (d : Fin 8) (n : Lane) (s : State), releaseDie d = .laneDie n ∧ (s.lane n).shut = true ∧ 10 ≤ (s.lane n).okRounds) ∧
    (∃ (d : Fin 8) (n : Lane) (s : State), releaseDie d = .laneDie n ∧ (s.lane n).okRounds < 10) ∧
    (∃ (d : Fin 8) (m : PortDie) (s : State), releaseDie d = .portDie m ∧ (s.pdie m).shut = true ∧ 10 ≤ (s.pdie m).okRounds) ∧
    (∃ (d : Fin 8) (m : PortDie) (s : State), releaseDie d = .portDie m ∧ (s.pdie m).okRounds < 10) :=
  ⟨⟨0, live, by decide +kernel⟩,
   ⟨0, (live |>.modLane 0 (fun l => { l with onLine := true })), by decide +kernel⟩,
   ⟨0, live, by decide +kernel⟩,
   ⟨live, by decide +kernel⟩,
   ⟨live, by decide +kernel⟩,
   ⟨live, by decide +kernel⟩,
   ⟨live, by decide +kernel⟩,
   ⟨1, 0, by decide +kernel⟩,
   ⟨5, 0, by decide +kernel⟩,
   ⟨(live |>.withTherm (fun x => { x with hubShut := true, hubOkRounds := 10 })), by decide +kernel⟩,
   ⟨(live |>.withTherm (fun x => { x with flashShut := true, flashOkRounds := 10 })), by decide +kernel⟩,
   ⟨⟨0, 0, 0, 0, 0, 0, 0, false⟩, [], (live |>.modAon (fun x => { x with slotPending := [⟨0, 0, 0, 0, 0, 0, 0, false⟩] })), by decide +kernel⟩,
   ⟨0, 149, live, by decide +kernel⟩,
   ⟨0, 150, live, by decide +kernel⟩,
   ⟨0, 1 / 2, (live |>.modLane 0 (fun l => { l with onLine := true })), by decide +kernel⟩,
   ⟨0, 0, (live |>.modLane 0 (fun l => { l with onLine := true })), by decide +kernel⟩,
   ⟨0, 149, live, by decide +kernel⟩,
   ⟨0, 150, live, by decide +kernel⟩,
   ⟨149, live, by decide +kernel⟩,
   ⟨150, live, by decide +kernel⟩,
   ⟨149, live, by decide +kernel⟩,
   ⟨150, live, by decide +kernel⟩,
   ⟨1, 0, (live |>.modLane 0 (fun l => { l with shut := true, okRounds := 10 })), by decide +kernel⟩,
   ⟨1, 0, (live |>.modLane 0 (fun l => { l with shut := true, okRounds := 9 })), by decide +kernel⟩,
   ⟨5, 0, (live |>.modPd 0 (fun x => { x with shut := true, okRounds := 10 })), by decide +kernel⟩,
   ⟨5, 0, (live |>.modPd 0 (fun x => { x with shut := true, okRounds := 9 })), by decide +kernel⟩⟩

theorem witness_ChargePhasesAndTimers :
    (∃ (v : Volt) (i : Amp) (s : State), s.hubUp = true ∧ s.charge.phase = .trickle ∧ s.cells * s.trickleTh ≤ v ∧ 5 / 100 ≤ i) ∧
    (∃ (v : Volt) (i : Amp) (s : State), (v < s.cells * s.trickleTh ∨ i < 5 / 100)) ∧
    (∃ (v : Volt) (s : State), s.hubUp = true ∧ s.charge.phase = .precharge ∧ s.cells * s.preTh ≤ v) ∧
    (∃ (s : State), s.hubUp = true ∧ s.charge.phase = .cc ∧ s.cvActive = true) ∧
    (∃ (i : Amp) (s : State), s.hubUp = true ∧ s.charge.phase = .cv ∧ s.cvActive = true ∧ s.suspended = false ∧ i < s.iTerm) ∧
    (∃ (i : Amp) (s : State), (s.charge.phase ≠ .cv ∨ s.cvActive = false ∨ s.suspended = true ∨ s.iTerm ≤ i)) ∧
    (∃ (v : Volt) (s : State), s.hubUp = true ∧ s.charge.phase = .terminated ∧ v < s.cells * (s.vregEff - 1 / 10)) ∧
    (∃ (s : State), s.hubUp = true ∧ ((s.charge.phase = .trickle ∧ 1800 ≤ s.charge.trickleS) ∨ (s.charge.phase = .precharge ∧ s.tmrPre ≤ s.charge.preS))) ∧
    (∃ (s : State), s.charge.trickleS < 1800 ∧ s.charge.preS < s.tmrPre) ∧
    (∃ (s : State), s.hubUp = true ∧ (s.charge.phase = .cc ∨ s.charge.phase = .cv) ∧ s.charge.fastBudgetS ≤ s.charge.fastS ∧ s.hasCause 6 = false ∧ s.hasCause 7 = false ∧ s.hasCause 8 = false) ∧
    (∃ (t : Nat) (s : State), s.charge.clearSince = some t ∧ s.hubUp = true ∧ s.cycling = true ∧ s.hasCause 6 = true ∧ t + 60000000 ≤ s.now ∧ s.limitsAbsent = true) ∧
    (∃ (v : Volt) (s : State), s.hubUp = true ∧ s.charge.present = true ∧ s.cells * (s.vreg + 75 / 1000) < v) ∧
    (∃ (v : Volt) (s : State), v ≤ s.cells * (s.vreg + 75 / 1000)) :=
  ⟨⟨7, 1, (live |>.modCharge (fun x => { x with phase := .trickle })), by decide +kernel⟩,
   ⟨0, 0, live, by decide +kernel⟩,
   ⟨10, (live |>.modCharge (fun x => { x with phase := .precharge })), by decide +kernel⟩,
   ⟨(live |>.modCharge (fun x => { x with phase := .cc }) |>.sets [⟨1, 1, 1, 3⟩] |>.modLane 1 (fun l => { l with loop := { Loop.zero with cvActive := true } })), by decide +kernel⟩,
   ⟨0, (live |>.modCharge (fun x => { x with phase := .cv }) |>.sets [⟨1, 1, 1, 3⟩] |>.modLane 1 (fun l => { l with loop := { Loop.zero with cvActive := true } })), by decide +kernel⟩,
   ⟨0, live, by decide +kernel⟩,
   ⟨0, (live |>.modCharge (fun x => { x with phase := .terminated })), by decide +kernel⟩,
   ⟨(live |>.modCharge (fun x => { x with phase := .trickle, trickleS := 1800 })), by decide +kernel⟩,
   ⟨live, by decide +kernel⟩,
   ⟨(live |>.modCharge (fun x => { x with phase := .cc })), by decide +kernel⟩,
   ⟨0, (live |>.modCharge (fun x => { x with clearSince := some 0, causes := 0x20, phase := .cc })), by decide +kernel⟩,
   ⟨13, (live |>.modCharge (fun x => { x with present := true })), by decide +kernel⟩,
   ⟨0, live, by decide +kernel⟩⟩

theorem witness_PresenceBackstopAndGauge :
    (∃ (n : Lane) (s : State), s.battDie n = true ∧ (s.lane n).up = true) ∧
    (∃ (n : Lane) (s : State), s.battDie n = true ∧ (s.lane n).backstop.tripped = false ∧ 72000 ≤ (s.lane n).backstop.counted) ∧
    (∃ (n : Lane) (s : State), (s.lane n).backstop.counted < 72000) ∧
    (∃ (e : Event), e.kind = .backstop) ∧
    (∃ (n : Lane) (s : State), s.battDie n = true ∧ 3600 ≤ (s.lane n).backstop.idle) ∧
    (∃ (s : State), s.hubUp = true ∧ s.charge.present = false ∧ s.ntcValid = true ∧ s.charge.requalAfter ≤ s.now ∧ s.cfg.battLane.isSome = true) ∧
    (∃ (n : Lane) (s : State), s.cfg.battLane = some n ∧ (s.cfg.gang n).any (fun m => (s.lane m).removalSeen) = true) ∧
    (∃ (d : RemovalDetector) (s : State), s.hubUp = true ∧ ((d = .ntc ∧ s.ntcValid = false) ∨ (d = .currentCollapse ∧ 8 ≤ s.gauge.collapseRun))) ∧
    (∃ (e : Event) (d : RemovalDetector) (v : Volt) (i : Amp), e.kind = .removal d v i) ∧
    (∃ (s : State), s.charge.present = true) ∧
    (∃ (s : State), s.aon.vaon = true) ∧
    (∃ (s : State), s.hubPowered = true) ∧
    (∃ (s : State), s.hubPowered = false) ∧
    (∃ (e : Event) (i : Amp) (v : Volt), e.kind = .gaugeSample i v) ∧
    (∃ (s : State), s.hubUp = true ∧ s.charge.present = true ∧ s.restDue = true) ∧
    (∃ (s : State), s.restDue = false) ∧
    (∃ (s : State), s.hubUp = true ∧ s.gauge.lastRecTick + 60000000 ≤ s.now ∧ 1 / 100 ≤ rabs (s.soc - s.gauge.lastRecSoc)) ∧
    (∃ (s : State), s.now < s.gauge.lastRecTick + 60000000) ∧
    (∃ (s : State), let a := s.flash.learnedActive; s.hubUp = true ∧ s.therm.flashShut = false ∧ learnedSlots ≤ (s.flash.learned.get a).length) ∧
    (∃ (n : Lane) (i : Amp) (s : State), s.battDie n = true ∧ (s.lane n).up = true ∧ 2 / 10 < i) ∧
    (∃ (n : Lane) (i : Amp) (s : State), s.battDie n = true ∧ (s.lane n).up = true ∧ i ≤ 2 / 10) ∧
    (∃ (s : State), s.hubUp = true ∧ s.charge.present = false ∧ s.ntcValid = true ∧ s.charge.requalAfter ≤ s.now ∧ s.cfg.battLane.isSome = true ∧ s.cfg.on 0 0 = true ∧ s.aon.mode = some .supply) ∧
    (∃ (d : RemovalDetector) (s : State), s.charge.present = true ∧ d = .ntc) ∧
    (∃ (s : State), s.charge.present = true ∧ s.cfg.supplement = false) ∧
    (∃ (s : State), s.hubPowered = true ∧ s.hubUp = true) :=
  ⟨⟨1, (live |>.sets [⟨1, 1, 1, 3⟩]), by decide +kernel⟩,
   ⟨1, (live |>.sets [⟨1, 1, 1, 3⟩] |>.modLane 1 (fun l => { l with backstop := ⟨72000, 0, false⟩ })), by decide +kernel⟩,
   ⟨0, live, by decide +kernel⟩,
   ⟨⟨.charge, 0, 0, .port 0, 0, .backstop⟩, rfl⟩,
   ⟨1, (live |>.sets [⟨1, 1, 1, 3⟩] |>.modLane 1 (fun l => { l with backstop := ⟨0, 3600, false⟩ })), by decide +kernel⟩,
   ⟨(live |>.sets [⟨1, 1, 1, 3⟩] |>.withTherm (fun x => { x with tbOk := Vector.replicate 2 true })), by decide +kernel⟩,
   ⟨1, (live |>.sets [⟨1, 1, 1, 3⟩] |>.modLane 1 (fun l => { l with removalSeen := true })), by decide +kernel⟩,
   ⟨.currentCollapse, (live |>.withGauge (fun x => { x with collapseRun := 8 })), by decide +kernel⟩,
   ⟨⟨.presence, 0, 0, .port 0, 0, .removal .ntc 0 0⟩, .ntc, 0, 0, rfl⟩,
   ⟨(live |>.modCharge (fun x => { x with present := true })), by decide +kernel⟩,
   ⟨live, by decide +kernel⟩,
   ⟨live, by decide +kernel⟩,
   ⟨State.reset, by decide +kernel⟩,
   ⟨⟨.charge, 0, 0, .port 0, 0, .gaugeSample 0 0⟩, 0, 0, rfl⟩,
   ⟨(live |>.modCharge (fun x => { x with present := true }) |>.withGauge (fun x => { x with restSince := some 0 })), by decide +kernel⟩,
   ⟨live, by decide +kernel⟩,
   ⟨(live |>.withGauge (fun x => { x with qRem := 1, qFcc := 1 })), by decide +kernel⟩,
   ⟨(live |>.withGauge (fun x => { x with lastRecTick := 1000000000 })), by decide +kernel⟩,
   ⟨(live |>.withFlash (fun x => { x with learned := Vector.replicate 2 (List.replicate 16384 ⟨0, 0, 0, []⟩) })), by decide +kernel, by decide +kernel, (by show learnedSlots ≤ (List.replicate 16384 _).length; rw [List.length_replicate]; decide)⟩,
   ⟨1, 21 / 100, (live |>.sets [⟨1, 1, 1, 3⟩]), by decide +kernel⟩,
   ⟨1, 1 / 5, (live |>.sets [⟨1, 1, 1, 3⟩]), by decide +kernel⟩,
   ⟨(live |>.sets [⟨1, 1, 1, 3⟩, ⟨0, 0, 0, 1⟩] |>.withTherm (fun x => { x with tbOk := Vector.replicate 2 true })), by decide +kernel⟩,
   ⟨.ntc, (live |>.modCharge (fun x => { x with present := true })), by decide +kernel⟩,
   ⟨(live |>.modCharge (fun x => { x with present := true })), by decide +kernel⟩,
   ⟨live, by decide +kernel⟩⟩

theorem witness_TheForecastPort :
    (∃ (s : State), s.ioUp = true) ∧
    (∃ (s : State), s.ioUp = false) ∧
    (∃ (f : FdiFrame) (w : Half) (s : State), s.ioUp = true ∧ s.cfg.on 12 0 = true ∧ f.words.head? = some w ∧ f.complete = true ∧ f.words.length = ((w >>> 8) &&& 15).toNat + 4 ∧ w >>> 12 = 1 ∧ f.words[((w >>> 8) &&& 15).toNat + 3]? = some (crc16 (unitBytes (f.words.take (((w >>> 8) &&& 15).toNat + 3)))) ∧ (s.fcst.fresh = true ∨ s.intervalOk f.intervalNs = true)) ∧
    (∃ (t : Nat) (l : List Demand) (s : State), s.fcst.waiting = [(t, l)]) ∧
    (∃ (f : FdiFrame) (w : Half) (s : State), s.ioUp = true ∧ s.cfg.on 12 0 = true ∧ f.words.head? = some w) ∧
    (∃ (k : Nat) (s : State), s.fcst.lastFrame = some k ∧ s.fcst.blockStart + s.blockT ≤ s.now) ∧
    (∃ (s : State), s.now < s.fcst.blockStart + s.blockT) ∧
    (∃ (s : State), s.fcst.locked = true ∧ s.fcstLost = true) ∧
    (∃ (s : State), s.fcstLost = false) ∧
    (∃ (n : Lane) (a : PrepAction) (s : State), s.hubUp = true ∧ (∃ e ∈ s.fcst.prep, e.act = a ∧ (e.lane = n ∨ a = .allocationRaise) ∧ e.at_ ≤ s.effTick)) ∧
    (∃ (s : State), (∀ e ∈ s.fcst.prep, s.effTick < e.at_)) ∧
    (∃ (t : Nat) (n : Lane) (s : State), s.hubUp = true ∧ s.fcst.biasFrom = some t ∧ s.cfg.battLane = some n ∧ t + 20 ≤ s.effTick) ∧
    (∃ (t : Nat) (m : Nat) (l : List Demand) (s : State), s.fcst.waiting = [(t, l)] ∧ ixBefore t m = true) ∧
    (∃ (t : Nat) (m : Nat) (l : List Demand) (s : State), s.fcst.waiting = [(t, l)] ∧ ixBefore t m = false) ∧
    (∃ (f : FdiFrame) (w : Half) (s : State), let whole := f.complete = true ∧ f.words.length = ((w >>> 8) &&& 15).toNat + 4; s.ioUp = true ∧ s.cfg.on 12 0 = true ∧ f.words.head? = some w ∧ ¬ whole) ∧
    (∃ (f : FdiFrame) (w : Half) (s : State), let whole := f.complete = true ∧ f.words.length = ((w >>> 8) &&& 15).toNat + 4; let check := f.words[((w >>> 8) &&& 15).toNat + 3]? = some (crc16 (unitBytes (f.words.take (((w >>> 8) &&& 15).toNat + 3)))); s.ioUp = true ∧ s.cfg.on 12 0 = true ∧ f.words.head? = some w ∧ whole ∧ ¬ check) ∧
    (∃ (f : FdiFrame) (w : Half) (s : State), let whole := f.complete = true ∧ f.words.length = ((w >>> 8) &&& 15).toNat + 4; let check := f.words[((w >>> 8) &&& 15).toNat + 3]? = some (crc16 (unitBytes (f.words.take (((w >>> 8) &&& 15).toNat + 3)))); s.ioUp = true ∧ s.cfg.on 12 0 = true ∧ f.words.head? = some w ∧ whole ∧ check ∧ w >>> 12 ≠ 1) ∧
    (∃ (f : FdiFrame) (w : Half) (s : State), let whole := f.complete = true ∧ f.words.length = ((w >>> 8) &&& 15).toNat + 4; let check := f.words[((w >>> 8) &&& 15).toNat + 3]? = some (crc16 (unitBytes (f.words.take (((w >>> 8) &&& 15).toNat + 3)))); s.ioUp = true ∧ s.cfg.on 12 0 = true ∧ f.words.head? = some w ∧ whole ∧ check ∧ w >>> 12 = 1 ∧ s.fcst.fresh = false ∧ s.intervalOk f.intervalNs = false) :=
  ⟨⟨live, by decide +kernel⟩,
   ⟨State.reset, by decide +kernel⟩,
   ⟨⟨fdiWords, true, 980000, false⟩, 0x1000, (live |>.sets [⟨12, 0, 0, 1⟩] |>.modFcst (fun x => { x with run := 1, fresh := false })), by decide +kernel⟩,
   ⟨0, [], (live |>.modFcst (fun x => { x with waiting := [(0, [])] })), by decide +kernel⟩,
   ⟨⟨[0x1000, 0, 0, 0], true, 1000000, false⟩, 0x1000, (live |>.sets [⟨12, 0, 0, 1⟩]), by decide +kernel⟩,
   ⟨0, (live |>.modFcst (fun x => { x with lastFrame := some 0 })), by decide +kernel⟩,
   ⟨(live |>.modFcst (fun x => { x with blockStart := 1000000000 })), by decide +kernel⟩,
   ⟨(live |>.modFcst (fun x => { x with locked := true })), by decide +kernel⟩,
   ⟨(live |>.sets [⟨12, 0, 0, 1⟩] |>.modFcst (fun x => { x with lastHanded := 1000000000 })), by decide +kernel⟩,
   ⟨0, .warm, (live |>.modFcst (fun x => { x with prep := [⟨1000000001, .warm, 0, 0, 0⟩] })), by decide +kernel⟩,
   ⟨live, by decide +kernel⟩,
   ⟨0, 1, (live |>.sets [⟨1, 1, 1, 3⟩] |>.modFcst (fun x => { x with biasFrom := some 0 })), by decide +kernel⟩,
   ⟨5, 6, [], (live |>.modFcst (fun x => { x with waiting := [(5, [])] })), by decide +kernel⟩,
   ⟨5, 5, [], (live |>.modFcst (fun x => { x with waiting := [(5, [])] })), by decide +kernel⟩,
   ⟨⟨[0x1000, 0, 0], true, 1000000, false⟩, 0x1000, (live |>.sets [⟨12, 0, 0, 1⟩]), by decide +kernel⟩,
   ⟨⟨[0x1000, 0, 0, 0], true, 1000000, false⟩, 0x1000, (live |>.sets [⟨12, 0, 0, 1⟩]), by decide +kernel⟩,
   ⟨⟨[0x2000, 0, 0, crc16 (unitBytes [0x2000, 0, 0])], true, 1000000, false⟩, 0x2000, (live |>.sets [⟨12, 0, 0, 1⟩]), by decide +kernel⟩,
   ⟨⟨fdiWords, true, 979999, false⟩, 0x1000, (live |>.sets [⟨12, 0, 0, 1⟩] |>.modFcst (fun x => { x with fresh := false })), by decide +kernel⟩⟩

theorem witness_TelemetryPublishesAndFreezes :
    (∃ (s : State), s.hostUp = true ∧ s.tel.pending = false ∧ s.tel.frozen = false ∧ s.tel.capturing = false) ∧
    (∃ (s : State), s.hostUp = true ∧ (s.tel.pending = true ∨ s.tel.frozen = true ∨ s.tel.capturing = true)) ∧
    (∃ (s : State), s.hostUp = true) ∧
    (∃ (s : State), s.hubUp = true ∧ s.tel.frozen = true ∧ s.tel.frozenAt + (s.cfg.get 14 1).toNat * 100 ≤ s.now) ∧
    (∃ (s : State), s.now < s.tel.frozenAt + (s.cfg.get 14 1).toNat * 100) ∧
    (∃ (s : State), s.hostUp = true) ∧
    (∃ (s : State), s.hubUp = true ∧ s.tel.frozen = false ∧ ((s.tel.pending = true ∧ s.tel.pendingAt ≤ s.therm.roundTick) ∨ s.tel.streamDue = true)) ∧
    (∃ (s : State), s.hubUp = true ∧ s.tel.frozen = false ∧ ((s.tel.pending = true → s.therm.roundTick < s.tel.pendingAt) ∧ s.tel.streamDue = false)) ∧
    (∃ (s : State), s.hubUp = true ∧ s.tel.frozen = true) :=
  ⟨⟨live, by decide +kernel⟩,
   ⟨(live |>.modTel (fun x => { x with pending := true })), by decide +kernel⟩,
   ⟨live, by decide +kernel⟩,
   ⟨(live |>.modTel (fun x => { x with frozen := true })), by decide +kernel⟩,
   ⟨(live |>.modTel (fun x => { x with frozenAt := 1000000000 })), by decide +kernel⟩,
   ⟨live, by decide +kernel⟩,
   ⟨(live |>.modTel (fun x => { x with pending := true })), by decide +kernel⟩,
   ⟨(live |>.modTel (fun x => { x with pending := true, pendingAt := 1 })), by decide +kernel⟩,
   ⟨(live |>.modTel (fun x => { x with frozen := true })), by decide +kernel⟩⟩

theorem witness_InterfaceFramesAreAnswered :
    (∃ (b : List Byte) (s : State), s.hostUp = true ∧ b.length < 6) ∧
    (∃ (a : Nat) (v : Word) (h : List Byte) (s : State), h = [0x80] ++ beBytes 4 a ++ le32 v.toNat ∧ s.hostUp = true ∧ Memory.wf s.host.mem ∧ 0x10000 ≤ a ∧ a < 0x14000 ∧ a % 4 = 0) ∧
    (∃ (a : Nat) (v : Word) (h : List Byte) (s : State), h = [0x80] ++ beBytes 4 a ++ le32 v.toNat ∧ s.hostUp = true ∧ 0x14000 ≤ a ∧ a < 0x28000 ∧ a % 4 = 0 ∧ s.host.viol.valid = false) ∧
    (∃ (a : Nat) (h : List Byte) (s : State), h = [0x40] ++ beBytes 4 a ∧ s.hostUp = true ∧ 0x10000 ≤ a ∧ a < 0x14000 ∧ a % 4 = 0) ∧
    (∃ (b : List Byte) (s : State), s.hostUp = true ∧ 6 ≤ b.length ∧ (u8 b 0 / 64 = 0 ∨ u8 b 0 / 64 = 3)) ∧
    (∃ (s : State), s.hostUp = true) ∧
    (∃ (a : Nat) (v : Word) (x : I2cTransfer) (s : State), s.hostUp = true ∧ x.target = i2cAddress s.aon.straps.i2cAddr ∧ Memory.wf s.host.mem ∧ 0x14000 ≤ a ∧ a < 0x18000 ∧ a % 4 = 0 ∧ x.addr = beBytes 4 a ∧ x.data = le32 v.toNat ∧ x.readBytes = 0) :=
  ⟨⟨List.replicate 5 0, live, by decide +kernel⟩,
   ⟨0x13FFC, 0, _, live, rfl, by decide +kernel⟩,
   ⟨0x27FFC, 0, _, live, rfl, by decide +kernel⟩,
   ⟨0x13FFC, _, live, rfl, by decide +kernel⟩,
   ⟨List.replicate 6 0, live, by decide +kernel⟩,
   ⟨live, by decide +kernel⟩,
   ⟨0x17FFC, 0, ⟨0x3A, beBytes 4 0x17FFC, le32 0, 0⟩, live, by decide +kernel⟩⟩

theorem witness_DoorbellsAndViolations :
    (∃ (c : HostChan) (s : State), s.hostUp = true ∧ (s.mbx c).st = .idle) ∧
    (∃ (c : HostChan) (s : State), s.hostUp = true ∧ (s.mbx c).st = .running ∧ s.clearing c = false) ∧
    (∃ (c : HostChan) (s : State), s.hostUp = true ∧ (s.mbx c).ubusy = false) ∧
    (∃ (c : HostChan) (s : State), s.hostUp = true ∧ s.latched c .cancel = false) ∧
    (∃ (c : HostChan) (s : State), s.hostUp = true ∧ s.latched c .resync = false) ∧
    (∃ (i : Iface) (v : Word) (s : State), s.hostUp = true ∧ v &&& ~~~(ownBits i 0x1208) = 0) ∧
    (∃ (i : Iface) (v : Word) (s : State), s.hostUp = true ∧ v &&& ~~~(ownBits i 0x1208) ≠ 0) ∧
    (∃ (i : Iface) (v : Word) (s : State), s.hostUp = true ∧ v &&& ~~~(ownBits i 0x120C) = 0) ∧
    (∃ (i : Iface) (v : Word) (s : State), s.hostUp = true ∧ v &&& ~~~(ownBits i 0x1210) = 0) ∧
    (∃ (s : State), s.hostUp = true) ∧
    (∃ (s : State), s.hostUp = true) ∧
    (∃ (s : State), s.hostUp = true) ∧
    (∃ (s : State), s.clocked = true) ∧
    (∃ (ms : BitVec 12) (s : State), s.wdg.runs = true ∧ s.wdg.locked = false ∧ 1 ≤ ms.toNat ∧ ms.toNat ≤ 4000) ∧
    (∃ (s : State), s.wdg.runs = true ∧ s.wdg.locked = false) ∧
    (∃ (s : State), s.wdg.locked = true) :=
  ⟨⟨0, live, by decide +kernel⟩,
   ⟨0, (live |>.modChan 0 (fun x => { x with st := .running })), by decide +kernel⟩,
   ⟨0, live, by decide +kernel⟩,
   ⟨0, live, by decide +kernel⟩,
   ⟨0, live, by decide +kernel⟩,
   ⟨.spi, 0xF, live, by decide +kernel⟩,
   ⟨.spi, 0x10, live, by decide +kernel⟩,
   ⟨.spi, 0xF, live, by decide +kernel⟩,
   ⟨.spi, 0xF, live, by decide +kernel⟩,
   ⟨live, by decide +kernel⟩,
   ⟨live, by decide +kernel⟩,
   ⟨live, by decide +kernel⟩,
   ⟨live, by decide +kernel⟩,
   ⟨4000, (live |>.modWdg (fun x => { x with elapsed := some 0 })), by decide +kernel⟩,
   ⟨(live |>.modWdg (fun x => { x with elapsed := some 0 })), by decide +kernel⟩,
   ⟨(live |>.modWdg (fun x => { x with locked := true })), by decide +kernel⟩⟩

theorem witness_MailboxChannelsTakeAndAnswer :
    (∃ (c : HostChan) (d : Desc) (s : State), s.takes c 0x0000 d ∧ Memory.wf s.host.mem) ∧
    (∃ (c : HostChan) (d : Desc) (code : Nat) (s : State), s.hubUp = true ∧ (s.mbx c).st = .idle ∧ ¬ ((s.mbx c).lastSeq = d.seq ∧ (s.mbx c).lastOp = 1) ∧ precheck 1 .normal d = some code) ∧
    (∃ (c : HostChan) (s : State), s.hubUp = true ∧ (s.mbx c).st = .running) ∧
    (∃ (c : HostChan) (d : Desc) (s : State), s.hubUp = true ∧ (s.mbx c).st = .idle ∧ (s.mbx c).lastSeq = d.seq ∧ (s.mbx c).lastOp = 1 ∧ d.seq ≠ 0xFFFF) ∧
    (∃ (d : Desc) (s : State), s.hubUp = true ∧ s.hub.shelf ≠ .recovery ∧ precheck 0 .urgent d = none) ∧
    (∃ (s : State), s.hubUp = false) :=
  ⟨⟨0, (call [1, 2, 3, 4, 5, 6, 7, 8]), live, (by unfold State.takes; decide +kernel), by decide +kernel⟩,
   ⟨0, (call []), 3, live, by decide +kernel⟩,
   ⟨0, (live |>.modChan 0 (fun x => { x with st := .running })), by decide +kernel⟩,
   ⟨0, (call []), (live |>.modChan 0 (fun x => { x with lastSeq := 1, lastOp := 1 })), by decide +kernel⟩,
   ⟨(call [1, 2, 3, 4, 5, 6, 7, 8]), live, by decide +kernel⟩,
   ⟨State.reset, by decide +kernel⟩⟩

theorem witness_SystemCommandsAct :
    (∃ (c : HostChan) (d : Desc) (s : State), s.takes c 0x0001 d ∧ u8 d.params 0 ≤ 1 ∧ zeroBytes d.params 1 3 = true) ∧
    (∃ (c : HostChan) (d : Desc) (s : State), s.takes c 0x0002 d ∧ s.aon.vaon = true) ∧
    (∃ (c : HostChan) (d : Desc) (s : State), s.takes c 0x0003 d ∧ s.safeBlocked = false) ∧
    (∃ (c : HostChan) (d : Desc) (s : State), s.takes c 0x0004 d ∧ s.pathStopped = false ∧ s.shipAllowed = true ∧ s.aon.request = none) ∧
    (∃ (c : HostChan) (d : Desc) (s : State), s.takes c 0x0005 d ∧ s.pathStopped = false ∧ s.dormantAllowed = true ∧ s.aon.request = none) ∧
    (∃ (c : HostChan) (d : Desc) (s : State), s.takes c 0x0002 d ∧ s.aon.vaon = true ∧ s.aon.safeLatch = false) ∧
    (∃ (c : HostChan) (d : Desc) (s : State), s.takes c 0x0002 d ∧ s.aon.vaon = true ∧ s.aon.safeLatch = true) :=
  ⟨⟨0, (call [1, 0, 0, 0]), live, (by unfold State.takes; decide +kernel), by decide +kernel⟩,
   ⟨0, (call []), live, (by unfold State.takes; decide +kernel), by decide +kernel⟩,
   ⟨0, (call []), (live |>.modAon (fun x => { x with safeLatch := true })), (by unfold State.takes; decide +kernel), by decide +kernel⟩,
   ⟨0, (call []), (live |>.modAon (fun x => { x with mode := some .battery })), (by unfold State.takes; decide +kernel), by decide +kernel⟩,
   ⟨0, (call []), (live |>.modAon (fun x => { x with mode := some .battery })), (by unfold State.takes; decide +kernel), by decide +kernel⟩,
   ⟨0, (call []), live, (by unfold State.takes; decide +kernel), by decide +kernel⟩,
   ⟨0, (call []), (live |>.modAon (fun x => { x with safeLatch := true })), (by unfold State.takes; decide +kernel), by decide +kernel⟩⟩

theorem witness_ConfigurationTransactions :
    (∃ (c : HostChan) (d : Desc) (m : BitVec 15) (s : State), s.takes c 0x0100 d ∧ funcMask d.params = some m ∧ (∀ f, m.getLsbD f = true → s.cfg.stop f = none)) ∧
    (∃ (c : HostChan) (k : HostChan) (d : Desc) (m : BitVec 15) (f : Fin 15) (s : State), s.takes c 0x0100 d ∧ funcMask d.params = some m ∧ m.getLsbD f.val = true ∧ s.cfg.stoppedBy.get f = some k ∧ k ≠ c) ∧
    (∃ (c : HostChan) (d : Desc) (s : State), s.takes c 0x0101 d ∧ u16 d.params 0 = 1 ∧ u16 d.params 2 = 0 ∧ s.writeFault c d.params 0 = none) ∧
    (∃ (c : HostChan) (d : Desc) (x : Nat) (s : State), s.takes c 0x0101 d ∧ u16 d.params 0 = 1 ∧ u16 d.params 2 = 0 ∧ s.writeFault c d.params 0 = some (4, x)) ∧
    (∃ (c : HostChan) (d : Desc) (s : State), s.takes c 0x0102 d ∧ u16 d.params 0 = 1 ∧ u16 d.params 2 = 0 ∧ readFault d.params 0 = none ∧ u8 d.params 7 = 0 ∧ Memory.wf s.host.mem) ∧
    (∃ (c : HostChan) (d : Desc) (m : BitVec 15) (s : State), s.takes c 0x0103 d ∧ funcMask d.params = some m ∧ (∀ f, m.getLsbD f = true → s.cfg.stop f = some c) ∧ validate (s.checkCtx m) = none ∧ s.stagedNew m = true ∧ s.therm.flashShut = false) ∧
    (∃ (c : HostChan) (d : Desc) (m : BitVec 15) (s : State), s.takes c 0x0103 d ∧ funcMask d.params = some m ∧ (∀ f, m.getLsbD f = true → s.cfg.stop f = some c) ∧ validate (s.checkCtx m) = none ∧ s.stagedNew m = false) ∧
    (∃ (c : HostChan) (d : Desc) (m : BitVec 15) (s : State), s.takes c 0x0104 d ∧ funcMask d.params = some m ∧ (∀ f, m.getLsbD f = true → s.cfg.stop f = some c)) :=
  ⟨⟨0, (call (le32 1)), 1, live, (by unfold State.takes; decide +kernel), by decide +kernel, (bits15 (by decide +kernel))⟩,
   ⟨0, 1, (call (le32 1)), 1, 0, (live |>.modCfg (fun x => { x with stoppedBy := Vector.replicate 15 (some 1) })), (by unfold State.takes; decide +kernel), by decide +kernel⟩,
   ⟨0, (call ([1, 0, 0, 0] ++ [0, 4, 0, 0] ++ le32 20)), (live |>.modCfg (fun x => { x with stoppedBy := #v[some 0, none, none, none, none, none, none, none, none, none, none, none, none, none, none] })), (by unfold State.takes; decide +kernel), by decide +kernel⟩,
   ⟨0, (call ([1, 0, 0, 0] ++ [15, 4, 0, 0] ++ le32 20)), 1, live, (by unfold State.takes; decide +kernel), by decide +kernel⟩,
   ⟨0, (call ([1, 0, 0, 0] ++ [0, 4, 0, 0])), live, (by unfold State.takes; decide +kernel), by decide +kernel⟩,
   ⟨0, (call (le32 1)), 1, (live |>.modCfg (fun x => { x with stoppedBy := #v[some 0, none, none, none, none, none, none, none, none, none, none, none, none, none, none], staged := [⟨0, 4, 0, 21⟩] })), (by unfold State.takes; decide +kernel), by decide +kernel, (bits15 (by decide +kernel)), by decide +kernel⟩,
   ⟨0, (call (le32 1)), 1, (live |>.modCfg (fun x => { x with stoppedBy := #v[some 0, none, none, none, none, none, none, none, none, none, none, none, none, none, none] })), (by unfold State.takes; decide +kernel), by decide +kernel, (bits15 (by decide +kernel)), by decide +kernel⟩,
   ⟨0, (call (le32 1)), 1, (live |>.modCfg (fun x => { x with stoppedBy := #v[some 0, none, none, none, none, none, none, none, none, none, none, none, none, none, none] })), (by unfold State.takes; decide +kernel), by decide +kernel, (bits15 (by decide +kernel))⟩⟩

theorem witness_LaneCommandsAct :
    (∃ (c : HostChan) (d : Desc) (n : Lane) (s : State), s.takes c 0x0200 d ∧ s.namedLane d = .ok n) ∧
    (∃ (c : HostChan) (d : Desc) (n : Lane) (s : State), s.takes c 0x0201 d ∧ s.namedLane d = .ok n ∧ (s.lane n).latched = false ∧ (s.lane n).shut = false ∧ (s.lane n).dieOk = true ∧ (s.lane n).tslOk = true ∧ (s.lane n).unresponsive = false) ∧
    (∃ (c : HostChan) (d : Desc) (n : Lane) (s : State), s.takes c 0x0201 d ∧ s.namedLane d = .ok n ∧ (s.lane n).latched = true) ∧
    (∃ (c : HostChan) (d : Desc) (n : Lane) (s : State), s.takes c 0x0202 d ∧ laneOf (u8 d.params 0) = some n ∧ 0 < u8 d.params 1 ∧ u8 d.params 1 < 16 ∧ zeroBytes d.params 2 3 = true ∧ (s.laneStateCode n = 0 ∨ (s.laneStateCode n = 3 ∧ (s.lane n).active = false)) ∧ (∀ p : Pos, (u8 d.params 1).testBit p.val = true → s.phaseFit n p = true ∧ ((s.keep.out.get n).get p).isSome = true)) ∧
    (∃ (c : HostChan) (d : Desc) (k : PhaseNo) (s : State), s.takes c 0x0203 d ∧ d.params = [BitVec.ofNat 8 k.val, 0, 0, 0] ∧ s.phaseFit (phaseLane k) (phasePos k) = true ∧ ((s.keep.out.get (phaseLane k)).get (phasePos k)) = none ∧ 1 < ((List.finRange 4).filter (fun q => s.phaseFit (phaseLane k) q && ((s.keep.out.get (phaseLane k)).get q).isNone)).length) ∧
    (∃ (c : HostChan) (d : Desc) (n : Lane) (s : State), s.takes c 0x0204 d ∧ s.namedLane d = .ok n ∧ Memory.wf s.host.mem) ∧
    (∃ (c : HostChan) (d : Desc) (n : Lane) (s : State), s.takes c 0x0200 d ∧ s.namedLane d = .ok n ∧ (s.node (s.cfg.leader n)).feeding = none) :=
  ⟨⟨0, (call [0, 0, 0, 0]), 0, (live |>.modCfg (fun x => { x with phaseFitted := 15 })), (by unfold State.takes; decide +kernel), rfl⟩,
   ⟨0, (call [0, 0, 0, 0]), 0, (live |>.modCfg (fun x => { x with phaseFitted := 15 })), (by unfold State.takes; decide +kernel), rfl, by decide +kernel⟩,
   ⟨0, (call [0, 0, 0, 0]), 0, (live |>.modCfg (fun x => { x with phaseFitted := 15 }) |>.modLane 0 (fun l => { l with latched := true })), (by unfold State.takes; decide +kernel), rfl, by decide +kernel⟩,
   ⟨0, (call [0, 2, 0, 0]), 0, (live |>.modCfg (fun x => { x with phaseFitted := 15 }) |>.withKeep (fun x => { x with out := Vector.replicate 4 (Vector.replicate 4 (some .retired)) })), (by unfold State.takes; decide +kernel), by decide +kernel⟩,
   ⟨0, (call [0, 0, 0, 0]), 0, (live |>.modCfg (fun x => { x with phaseFitted := 15 })), (by unfold State.takes; decide +kernel), by decide +kernel⟩,
   ⟨0, (call [0, 0, 0, 0]), 0, (live |>.modCfg (fun x => { x with phaseFitted := 15 })), (by unfold State.takes; decide +kernel), rfl, by decide +kernel⟩,
   ⟨0, (call [0, 0, 0, 0]), 0, (live |>.modCfg (fun x => { x with phaseFitted := 15 })), (by unfold State.takes; decide +kernel), rfl, by decide +kernel⟩⟩

theorem witness_ChargeSourceAndPortCommandsAct :
    (∃ (c : HostChan) (d : Desc) (s : State), s.takes c 0x0300 d ∧ (u16 d.params 0 : Rat) / 20 ≤ s.ichg ∧ zeroBytes d.params 2 3 = true) ∧
    (∃ (c : HostChan) (d : Desc) (s : State), s.takes c 0x0300 d ∧ s.ichg < (u16 d.params 0 : Rat) / 20) ∧
    (∃ (c : HostChan) (d : Desc) (s : State), s.takes c 0x0301 d ∧ s.cycling = true) ∧
    (∃ (c : HostChan) (d : Desc) (s : State), s.takes c 0x0302 d ∧ s.aon.mode = some .supply ∧ s.charge.present = true ∧ s.cfg.on 0 0 = true) ∧
    (∃ (c : HostChan) (d : Desc) (s : State), s.takes c 0x0302 d ∧ s.charge.present = false) ∧
    (∃ (c : HostChan) (d : Desc) (s : State), s.takes c 0x0303 d ∧ Memory.wf s.host.mem) ∧
    (∃ (c : HostChan) (d : Desc) (x : Src) (s : State), s.takes c 0x0400 d ∧ srcOf (u8 d.params 0) = some x ∧ zeroBytes d.params 1 3 = true ∧ s.cfg.connFit x = true ∧ (s.conn x).lockedOut = true) ∧
    (∃ (c : HostChan) (d : Desc) (x : Src) (s : State), s.takes c 0x0400 d ∧ srcOf (u8 d.params 0) = some x ∧ zeroBytes d.params 1 3 = true ∧ s.cfg.connFit x = true ∧ (s.conn x).lockedOut = false) ∧
    (∃ (c : HostChan) (d : Desc) (p : Port) (s : State), s.takes c 0x0401 d ∧ portOf (u8 d.params 0) = some p ∧ zeroBytes d.params 1 3 = true ∧ s.cfg.connFit (portSrc p) = true ∧ Memory.wf s.host.mem) ∧
    (∃ (c : HostChan) (d : Desc) (p : Port) (m : PdMsg) (w : PdWait) (s : State), s.takes c 0x0402 d ∧ portOf (u8 d.params 0) = some p ∧ zeroBytes d.params 2 3 = true ∧ ((s.port p).attach = .sink ∨ (s.port p).attach = .source) ∧ (s.port p).contract.kind ≠ .none ∧ (s.port p).softened = false ∧ s.portStopped p = false ∧ s.portFree p = true ∧ ((u8 d.params 1 = 1 ∧ m = .prSwap ∧ w = .swapReply ∧ s.portGet p 12 ≠ 2 ∧ ((s.port p).attach = .source ∨ (s.portGet p 12 ≠ 0 ∧ s.canFeed p = true))) ∨ (u8 d.params 1 = 2 ∧ m = .drSwap ∧ w = .drReply ∧ s.portGet p 13 ≠ 1) ∨ (u8 d.params 1 = 3 ∧ m = .vconnSwap ∧ w = .vconnReply ∧ s.portGet p 14 ≠ 1 ∧ ((s.port p).vconn = true ∨ (s.pdie (portDie p)).vconnSupply = true)))) ∧
    (∃ (c : HostChan) (d : Desc) (p : Port) (s : State), s.takes c 0x0402 d ∧ portOf (u8 d.params 0) = some p ∧ u8 d.params 1 = 6 ∧ zeroBytes d.params 2 3 = true ∧ (s.port p).attach = .unattached) :=
  ⟨⟨0, (call [0, 0, 0, 0]), live, (by unfold State.takes; decide +kernel), by decide +kernel⟩,
   ⟨0, (call [0xFF, 0xFF, 0, 0]), live, (by unfold State.takes; decide +kernel), by decide +kernel⟩,
   ⟨0, (call []), (live |>.modCharge (fun x => { x with phase := .cc })), (by unfold State.takes; decide +kernel), by decide +kernel⟩,
   ⟨0, (call []), (live |>.sets [⟨0, 0, 0, 1⟩] |>.modCharge (fun x => { x with present := true })), (by unfold State.takes; decide +kernel), by decide +kernel⟩,
   ⟨0, (call []), live, (by unfold State.takes; decide +kernel), by decide +kernel⟩,
   ⟨0, (call []), live, (by unfold State.takes; decide +kernel), by decide +kernel⟩,
   ⟨0, (call [0, 0, 0, 0]), 0, (live |>.modCfg (fun x => { x with connFitted := 1 }) |>.modConn 0 (fun x => { x with lockedOut := true })), (by unfold State.takes; decide +kernel), by decide +kernel⟩,
   ⟨0, (call [0, 0, 0, 0]), 0, (live |>.modCfg (fun x => { x with connFitted := 1 })), (by unfold State.takes; decide +kernel), by decide +kernel⟩,
   ⟨0, (call [0, 0, 0, 0]), 0, (live |>.modCfg (fun x => { x with connFitted := 1 })), (by unfold State.takes; decide +kernel), by decide +kernel⟩,
   ⟨0, (call [0, 2, 0, 0]), 0, .drSwap, .drReply, (live |>.modPort 0 (fun x => { x with attach := .sink, contract := ⟨.fixed, 1, 5, 3⟩ })), (by unfold State.takes; decide +kernel), by decide +kernel⟩,
   ⟨0, (call [0, 6, 0, 0]), 0, live, (by unfold State.takes; decide +kernel), by decide +kernel⟩⟩

theorem witness_TrunkTelemetryAndLedgerCommandsAct :
    (∃ (c : HostChan) (d : Desc) (t : TrunkPort) (s : State), s.takes c 0x0500 d ∧ u16 d.params 0 < 4096 ∧ u16 d.params 0 ≠ 0 ∧ u16 d.params 0 ≠ s.trunk.nodeId.toNat ∧ (s.link t).up = true ∧ (s.link t).queue.length < 16) ∧
    (∃ (c : HostChan) (d : Desc) (s : State), s.takes c 0x0500 d ∧ u16 d.params 0 = 0) ∧
    (∃ (c : HostChan) (d : Desc) (s : State), s.takes c 0x0501 d ∧ Memory.wf s.host.mem) ∧
    (∃ (c : HostChan) (d : Desc) (s : State), s.takes c 0x0600 d ∧ Memory.wf s.host.mem) ∧
    (∃ (c : HostChan) (d : Desc) (s : State), s.takes c 0x0700 d ∧ u8 d.params 0 = c.val ∧ BitVec.ofNat 96 (leAt d.params 8 12) ≠ 0 ∧ 0 < u8 d.params 1 ∧ u8 d.params 1 < 32 ∧ 0 < u16 d.params 2 ∧ u16 d.params 2 ≤ 1000 ∧ u8 d.params 4 = 0 ∧ zeroBytes d.params 5 7 = true) ∧
    (∃ (c : HostChan) (d : Desc) (s : State), s.takes c 0x0701 d ∧ (s.tel.streams.get c).isSome = true) ∧
    (∃ (c : HostChan) (d : Desc) (s : State), s.takes c 0x0701 d ∧ s.tel.streams.get c = none) ∧
    (∃ (c : HostChan) (d : Desc) (s : State), s.takes c 0x0702 d ∧ s.therm.flashShut = false ∧ Memory.wf s.host.mem) ∧
    (∃ (c : HostChan) (d : Desc) (s : State), s.takes c 0x0703 d ∧ s.therm.flashShut = false ∧ 1 ≤ u16 d.params 4 ∧ u16 d.params 4 ≤ 95 ∧ u16 d.params 6 = 0 ∧ s.flash.ledger ≠ [] ∧ u32 d.params 0 ≤ (s.flash.ledger.map (·.acc)).foldl max 0 ∧ Memory.wf s.host.mem) :=
  ⟨⟨0, (call [5, 0, 0, 0]), 0, (live |>.modLink 0 (fun x => { x with up := true })), (by unfold State.takes; decide +kernel), by decide +kernel⟩,
   ⟨0, (call [0, 0, 0, 0]), live, (by unfold State.takes; decide +kernel), by decide +kernel⟩,
   ⟨0, (call []), live, (by unfold State.takes; decide +kernel), by decide +kernel⟩,
   ⟨0, (call []), live, (by unfold State.takes; decide +kernel), by decide +kernel⟩,
   ⟨0, (call ([0, 1, 1, 0] ++ [0, 0, 0, 0] ++ [1] ++ List.replicate 11 0)), live, (by unfold State.takes; decide +kernel), by decide +kernel⟩,
   ⟨0, (call []), (live |>.modTel (fun x => { x with streams := Vector.replicate 3 (some ⟨1, 1, 1, false, 0, 0, false⟩) })), (by unfold State.takes; decide +kernel), by decide +kernel⟩,
   ⟨0, (call []), live, (by unfold State.takes; decide +kernel), by decide +kernel⟩,
   ⟨0, (call []), live, (by unfold State.takes; decide +kernel), by decide +kernel⟩,
   ⟨0, (call (le32 0 ++ [95, 0, 0, 0])), (live |>.withFlash (fun x => { x with ledger := [note] })), (by unfold State.takes; decide +kernel), by decide +kernel⟩⟩

theorem witness_UpdateCommandsAct :
    (∃ (c : HostChan) (d : Desc) (s : State), s.hubUp = true ∧ ((s.mbx c).st = .idle) ∧ ¬ ((s.mbx c).lastSeq = d.seq ∧ (s.mbx c).lastOp = 0x0800) ∧ precheck 0x0800 .normal d = none ∧ s.update.isOpen = false ∧ s.update.storing = false ∧ s.manCheck d.params = none ∧ s.therm.flashShut = false ∧ s.flash.stagingErased = true) ∧
    (∃ (c : HostChan) (d : Desc) (k : Nat) (r : Nat) (s : State), s.takes c 0x0800 d ∧ s.update.isOpen = false ∧ s.update.storing = false ∧ s.manCheck d.params = some (k, r)) ∧
    (∃ (c : HostChan) (d : Desc) (s : State), s.takes c 0x0801 d ∧ s.update.isOpen = false) ∧
    (∃ (c : HostChan) (d : Desc) (s : State), s.takes c 0x0801 d ∧ s.update.st = .receiving ∧ s.update.relayed = false ∧ u32 d.params 0 < manBlocks s.update.manifest ∧ s.update.held (u32 d.params 0) = none ∧ s.therm.flashShut = false) ∧
    (∃ (c : HostChan) (d : Desc) (s : State), s.takes c 0x0802 d ∧ s.update.st = .receiving ∧ s.update.relayed = false ∧ s.update.allHeld = true ∧ s.update.buildDone = true ∧ s.therm.flashShut = false) ∧
    (∃ (c : HostChan) (d : Desc) (s : State), s.takes c 0x0802 d ∧ s.update.st = .receiving ∧ s.update.allHeld = false) ∧
    (∃ (c : HostChan) (d : Desc) (s : State), s.takes c 0x0803 d ∧ s.update.st = .sealedUp ∧ s.fleetUs + 1000000 ≤ u64 d.params 0 ∧ u8 d.params 8 ≤ 1 ∧ zeroBytes d.params 9 11 = true) ∧
    (∃ (c : HostChan) (d : Desc) (s : State), s.takes c 0x0803 d ∧ s.update.st = .sealedUp ∧ u64 d.params 0 < s.fleetUs + 1000000) ∧
    (∃ (c : HostChan) (d : Desc) (t : TrunkPort) (s : State), s.takes c 0x0804 d ∧ s.update.st = .sealedUp ∧ s.trkOn = true ∧ (s.link t).up = true ∧ u8 d.params 0 = 1 ∧ zeroBytes d.params 1 3 = true) ∧
    (∃ (c : HostChan) (d : Desc) (t : TrunkPort) (s : State), s.takes c 0x0804 d ∧ s.update.st = .sealedUp ∧ s.trkOn = true ∧ (s.link t).up = true ∧ u8 d.params 0 = 0 ∧ zeroBytes d.params 1 3 = true) ∧
    (∃ (c : HostChan) (d : Desc) (s : State), s.takes c 0x0805 d ∧ s.update.st = .active ∧ s.update.window = true ∧ s.update.spoiled = false ∧ s.update.wdgSpoiled = false ∧ manHostConfirm s.update.manifest = true) ∧
    (∃ (c : HostChan) (d : Desc) (s : State), s.takes c 0x0805 d ∧ s.update.window = false) ∧
    (∃ (c : HostChan) (d : Desc) (s : State), s.takes c 0x0806 d ∧ s.update.st ≠ .idle ∧ s.update.st ≠ .active) ∧
    (∃ (c : HostChan) (d : Desc) (s : State), s.takes c 0x0806 d ∧ s.update.st = .idle) ∧
    (∃ (c : HostChan) (d : Desc) (s : State), s.takes c 0x0807 d ∧ Memory.wf s.host.mem) :=
  ⟨⟨0, (call (package 0)), live, by decide +kernel⟩,
   ⟨0, (call (List.replicate 160 0)), 8, 5, live, (by unfold State.takes; decide +kernel), by decide +kernel⟩,
   ⟨0, (call (List.replicate 4104 0)), live, (by unfold State.takes; decide +kernel), by decide +kernel⟩,
   ⟨0, (call (List.replicate 4104 0)), (live |>.modUpd (fun x => { x with manifest := package 0, st := .receiving })), (by unfold State.takes; decide +kernel), by decide +kernel⟩,
   ⟨0, (call (List.replicate 64 0)), (live |>.modUpd (fun x => { x with manifest := package 0, st := .receiving, blocks := [(0, 0, [])], built := [0] })), (by unfold State.takes; decide +kernel), by decide +kernel⟩,
   ⟨0, (call (List.replicate 64 0)), (live |>.modUpd (fun x => { x with manifest := package 0, st := .receiving })), (by unfold State.takes; decide +kernel), by decide +kernel⟩,
   ⟨0, (call (le32 2000000 ++ le32 0 ++ [0, 0, 0, 0])), (live |>.modUpd (fun x => { x with st := .sealedUp })), (by unfold State.takes; decide +kernel), by decide +kernel⟩,
   ⟨0, (call (List.replicate 12 0)), (live |>.modUpd (fun x => { x with st := .sealedUp })), (by unfold State.takes; decide +kernel), by decide +kernel⟩,
   ⟨0, (call [1, 0, 0, 0]), 0, (live |>.modUpd (fun x => { x with st := .sealedUp }) |>.sets [⟨11, 1, 0, 1⟩] |>.modLink 0 (fun x => { x with up := true })), (by unfold State.takes; decide +kernel), by decide +kernel⟩,
   ⟨0, (call [0, 0, 0, 0]), 0, (live |>.modUpd (fun x => { x with st := .sealedUp }) |>.sets [⟨11, 1, 0, 1⟩] |>.modLink 0 (fun x => { x with up := true })), (by unfold State.takes; decide +kernel), by decide +kernel⟩,
   ⟨0, (call []), (live |>.modUpd (fun x => { x with manifest := package 1, st := .active, window := true })), (by unfold State.takes; decide +kernel), by decide +kernel⟩,
   ⟨0, (call []), live, (by unfold State.takes; decide +kernel), by decide +kernel⟩,
   ⟨0, (call []), (live |>.modUpd (fun x => { x with st := .receiving })), (by unfold State.takes; decide +kernel), by decide +kernel⟩,
   ⟨0, (call []), live, (by unfold State.takes; decide +kernel), by decide +kernel⟩,
   ⟨0, (call []), live, (by unfold State.takes; decide +kernel), by decide +kernel⟩⟩

theorem witness_ReleaseHandicapAndDiagnostics :
    (∃ (c : HostChan) (d : Desc) (n : Lane) (s : State), s.takes c 0x0900 d ∧ s.namedLane d = .ok n ∧ (s.lane n).latched = true ∧ (s.lane n).tempDie < 130 ∧ (s.lane n).tempTsl < s.releaseAt (.tsl n)) ∧
    (∃ (c : HostChan) (d : Desc) (n : Lane) (s : State), s.takes c 0x0900 d ∧ s.namedLane d = .ok n ∧ (s.lane n).latched = true ∧ 130 ≤ (s.lane n).tempDie) ∧
    (∃ (c : HostChan) (d : Desc) (s : State), s.takes c 0x0A00 d ∧ s.aon.straps.testen = true ∧ u32 d.params 0 = 0x48440724) ∧
    (∃ (c : HostChan) (d : Desc) (s : State), s.takes c 0x0A00 d ∧ s.aon.straps.testen = false) ∧
    (∃ (c : HostChan) (d : Desc) (n : Lane) (s : State), s.takes c 0x0A02 d ∧ d.params = [0, BitVec.ofNat 8 n.val, 1, 0] ∧ s.cfg.laneFitted n = true ∧ Memory.wf s.host.mem) ∧
    (∃ (c : HostChan) (d : Desc) (m : PortDie) (s : State), s.takes c 0x0A02 d ∧ d.params = [1, BitVec.ofNat 8 m.val, 1, 0]) ∧
    (∃ (c : HostChan) (d : Desc) (s : State), s.takes c 0x0A02 d ∧ d.params = [2, 0, 1, 0]) ∧
    (∃ (s : State), s.hubUp = true ∧ s.hnd.forceDiv = 3) ∧
    (∃ (s : State), s.hnd.unlocked = false) :=
  ⟨⟨0, (call [0, 0, 0, 0]), 0, (live |>.modCfg (fun x => { x with phaseFitted := 15 }) |>.modLane 0 (fun l => { l with latched := true })), (by unfold State.takes; decide +kernel), rfl, by decide +kernel⟩,
   ⟨0, (call [0, 0, 0, 0]), 0, (live |>.modCfg (fun x => { x with phaseFitted := 15 }) |>.modLane 0 (fun l => { l with latched := true, tempDie := 140 })), (by unfold State.takes; decide +kernel), rfl, by decide +kernel⟩,
   ⟨0, (call (le32 0x48440724)), (live |>.modAon (fun x => { x with straps := { Straps.allOpen with testen := true } })), (by unfold State.takes; decide +kernel), by decide +kernel⟩,
   ⟨0, (call [0, 0, 0, 0]), live, (by unfold State.takes; decide +kernel), by decide +kernel⟩,
   ⟨0, (call [0, 0, 1, 0]), 0, (live |>.modCfg (fun x => { x with phaseFitted := 15 })), (by unfold State.takes; decide +kernel), by decide +kernel⟩,
   ⟨0, (call [1, 1, 1, 0]), 1, live, (by unfold State.takes; decide +kernel), by decide +kernel⟩,
   ⟨0, (call [2, 0, 1, 0]), live, (by unfold State.takes; decide +kernel), by decide +kernel⟩,
   ⟨(live |>.withHnd (fun x => { x with unlocked := true, ctrl := 24 })), by decide +kernel⟩,
   ⟨live, by decide +kernel⟩⟩

theorem witness_HandicapRegistersFollowTheLock :
    (∃ (r : Fin 7) (s : State), s.hostUp = true ∧ s.hnd.unlocked = true ∧ r.val < 5) ∧
    (∃ (s : State), s.hostUp = true ∧ s.hnd.unlocked = false) ∧
    (∃ (c : HostChan) (d : Desc) (s : State), s.takes c 0x0A01 d) ∧
    (∃ (c : Nat) (b : BootPins) (s : State), s.hub.hub = .held c false ∧ s.heldInReset = false ∧ (2 < c ∨ b.ftHigh = false)) ∧
    (∃ (c : Nat) (s : State), s.hub.hub = .held c true ∧ s.heldInReset = false) ∧
    (∃ (s : State), s.hostUp = true ∧ s.hnd.unlocked = false ∧ s.host.viol.valid = false) :=
  ⟨⟨4, (live |>.withHnd (fun x => { x with unlocked := true })), by decide +kernel⟩,
   ⟨live, by decide +kernel⟩,
   ⟨0, (call []), live, (by unfold State.takes; decide +kernel)⟩,
   ⟨3, BootPins.allOpen, (live |>.modHub (fun x => { x with hub := .held 3 false })), by decide +kernel⟩,
   ⟨7, (live |>.modHub (fun x => { x with hub := .held 7 true })), by decide +kernel⟩,
   ⟨live, by decide +kernel⟩⟩

theorem witness_TheFlashDieWorks :
    (∃ (r : LearnedRec) (s : State), s.hubUp = true ∧ s.flash.busy = some (.learned r) ∧ s.flash.queue = [] ∧ s.therm.flashShut = false) ∧
    (∃ (r : LedgerRec) (s : State), s.hubUp = true ∧ s.flash.busy = some (.ledger r) ∧ s.flash.queue = [] ∧ s.therm.flashShut = false ∧ (∀ c, (s.mbx c).running = none)) ∧
    (∃ (s : State), s.hubUp = true ∧ s.flash.busy = none ∧ s.flash.background = some .staging ∧ s.flash.queue = [] ∧ s.therm.flashShut = false) ∧
    (∃ (r : LedgerRec) (l : List LedgerRec) (s : State), s.hubUp = true ∧ s.ledger.queue = r :: l ∧ s.flash.ledgerBusy = false ∧ (s.flash.ledgerErased = true ∨ s.flash.ledgerSlot % 128 ≠ 0)) ∧
    (∃ (s : State), s.ledger.queue = []) ∧
    (∃ (s : State), s.hubUp = true ∧ s.flash.ledgerErased = false ∧ s.flash.busy = none ∧ s.flash.background = none ∧ s.therm.flashShut = false) ∧
    (∃ (s : State), s.hubUp = true ∧ s.flash.stagingErased = false ∧ (s.update.st = .idle ∨ s.update.st = .rejected) ∧ s.flash.busy = none ∧ s.flash.background = none ∧ s.therm.flashShut = false) ∧
    (∃ (k : Fin 512) (s : State), s.hubUp = true ∧ s.update.st = .receiving ∧ s.update.manifest ≠ [] ∧ k.val < manSectors s.update.manifest ∧ s.update.built.contains k.val = false ∧ (s.sectorSource k.val).isSome = true ∧ s.flash.busy = none ∧ s.flash.background = none ∧ s.therm.flashShut = false) ∧
    (∃ (s : State), s.therm.flashShut = true) :=
  ⟨⟨⟨0, 0, 0, []⟩, (live |>.withFlash (fun x => { x with busy := some (.learned ⟨0, 0, 0, []⟩) })), by decide +kernel⟩,
   ⟨note, (live |>.withFlash (fun x => { x with busy := some (.ledger note) })), by decide +kernel⟩,
   ⟨(live |>.withFlash (fun x => { x with background := some .staging })), by decide +kernel⟩,
   ⟨note, [], (live |>.withLedger (fun x => { x with queue := [note] }) |>.withFlash (fun x => { x with ledgerErased := true })), by decide +kernel⟩,
   ⟨live, by decide +kernel⟩,
   ⟨(live |>.withFlash (fun x => { x with ledgerErased := false })), by decide +kernel⟩,
   ⟨(live |>.withFlash (fun x => { x with stagingErased := false })), by decide +kernel⟩,
   ⟨0, (live |>.modUpd (fun x => { x with manifest := package 0, st := .receiving, blocks := [(0, 0, [])] })), by decide +kernel⟩,
   ⟨(live |>.withTherm (fun x => { x with flashShut := true })), by decide +kernel⟩⟩

theorem witness_KickoffAndHealthWindow :
    (∃ (t : Nat) (r : Nat) (s : State), s.hubUp = true ∧ s.update.kickoff = some t ∧ t ≤ s.fleetUs ∧ s.update.kickDone = false ∧ s.update.st ≠ .active ∧ s.update.st ≠ .rejected ∧ s.kickMiss t = some r) ∧
    (∃ (t : Nat) (s : State), s.hubUp = true ∧ s.update.kickoff = some t ∧ t ≤ s.fleetUs ∧ s.update.kickDone = false ∧ s.update.st = .armed ∧ s.kickMiss t = none) ∧
    (∃ (t : Nat) (s : State), s.update.kickoff = some t ∧ s.fleetUs < t) ∧
    (∃ (t : Nat) (s : State), s.hubUp = true ∧ s.update.kickoff = some t ∧ s.update.st = .active ∧ s.update.window = true ∧ t + 120000000 ≤ s.fleetUs ∧ manHostConfirm s.update.manifest = false ∧ s.update.spoiled = false ∧ s.update.wdgSpoiled = false) ∧
    (∃ (t : Nat) (s : State), s.hubUp = true ∧ s.update.kickoff = some t ∧ s.update.st = .active ∧ s.update.window = true ∧ t + 120000000 ≤ s.fleetUs ∧ (manHostConfirm s.update.manifest = true ∨ s.update.spoiled = true ∨ s.update.wdgSpoiled = true)) :=
  ⟨⟨0, 12, (live |>.modUpd (fun x => { x with st := .sealedUp, kickoff := some 0 }) |>.modAon (fun x => { x with mode := some .limp })), by decide +kernel⟩,
   ⟨0, (live |>.modUpd (fun x => { x with kickoff := some 0, st := .armed })), by decide +kernel⟩,
   ⟨1, (live |>.modUpd (fun x => { x with kickoff := some 1 })), by decide +kernel⟩,
   ⟨0, (live |>.withTime (fun x => { x with fleetNs := 200000000000 }) |>.modUpd (fun x => { x with kickoff := some 0, st := .active, window := true, manifest := package 0 })), by decide +kernel⟩,
   ⟨0, (live |>.withTime (fun x => { x with fleetNs := 200000000000 }) |>.modUpd (fun x => { x with kickoff := some 0, st := .active, window := true, wdgSpoiled := true, manifest := package 0 })), by decide +kernel⟩⟩

theorem witness_TimersAndWatchdog :
    (∃ (c : Fin 16) (k : Fin 4) (s : State), s.clocked = true ∧ s.time.edges < 1000 ∧ s.timers.fires c k.val = true) ∧
    (∃ (c : Fin 16) (k : Fin 4) (s : State), s.timers.fires c k.val = false) ∧
    (∃ (c : Fin 16) (s : State), s.clocked = true ∧ s.time.edges < 1000 ∧ s.timers.fires c 4 = true) ∧
    (∃ (t : Fin 16) (s : State), s.wdg.runs = true ∧ s.wdg.ended = false ∧ s.wdg.seen.getLsbD t.val = false) ∧
    (∃ (t : Fin 16) (s : State), s.wdg.runs = true ∧ s.wdg.ended = false ∧ s.wdg.seen.getLsbD t.val = true) ∧
    (∃ (s : State), s.wdg.runs = true ∧ s.wdg.ended = false) ∧
    (∃ (s : State), s.wdg.runs = true ∧ s.wdg.ended = false ∧ s.wdg.armed = true ∧ s.wdg.lineup &&& ~~~s.wdg.seen = 0) ∧
    (∃ (s : State), s.wdg.runs = true ∧ s.wdg.ended = false ∧ s.wdg.armed = true ∧ s.wdg.lineup &&& ~~~s.wdg.seen ≠ 0) ∧
    (∃ (v : Half) (s : State), s.wdg.runs = true ∧ s.wdg.ended = false ∧ v ≠ 0xA5C3 ∧ (v ≠ 0x3C5A ∨ s.wdg.armed = false)) ∧
    (∃ (v : Word) (s : State), s.wdg.runs = true ∧ v.getLsbD 0 = true) ∧
    (∃ (s : State), s.hub.hub = .running ∧ s.wdg.ended = true) ∧
    (∃ (s : State), s.wdg.ended = false) :=
  ⟨⟨0, 0, (live |>.modTmr 0 (fun x => { x with ctl := 1, cmp := Vector.replicate 4 1 })), by decide +kernel⟩,
   ⟨0, 0, live, by decide +kernel⟩,
   ⟨0, (live |>.modTmr 0 (fun x => { x with ctl := 1, cnt := 0xFFFFFFFF })), by decide +kernel⟩,
   ⟨0, (live |>.modWdg (fun x => { x with elapsed := some 0 })), by decide +kernel⟩,
   ⟨0, (live |>.modWdg (fun x => { x with elapsed := some 0, seen := 1 })), by decide +kernel⟩,
   ⟨(live |>.modWdg (fun x => { x with elapsed := some 0 })), by decide +kernel⟩,
   ⟨(live |>.modWdg (fun x => { x with elapsed := some 0, armed := true, seen := 1 })), by decide +kernel⟩,
   ⟨(live |>.modWdg (fun x => { x with elapsed := some 0, armed := true })), by decide +kernel⟩,
   ⟨0, (live |>.modWdg (fun x => { x with elapsed := some 0 })), by decide +kernel⟩,
   ⟨1, (live |>.modWdg (fun x => { x with elapsed := some 0 })), by decide +kernel⟩,
   ⟨(live |>.modWdg (fun x => { x with elapsed := some 50000 })), by decide +kernel⟩,
   ⟨live, by decide +kernel⟩⟩

theorem witness_CapturesTakeOneEdge :
    (∃ (s : State), s.hostUp = true) ∧
    (∃ (v : Word) (s : State), s.hostUp = true ∧ v.getLsbD 16 = true) ∧
    (∃ (v : Word) (s : State), s.hostUp = true ∧ v.getLsbD 16 = false) :=
  ⟨⟨live, by decide +kernel⟩,
   ⟨0x10000, live, by decide +kernel⟩,
   ⟨0xFFFF, live, by decide +kernel⟩⟩

theorem witness_StatPatternsFollowTheTable :
    (∃ (s : State), s.cfg.get 0 15 ≠ 0 ∧ s.aon.mode = some .safe) ∧
    (∃ (s : State), s.cfg.get 0 15 ≠ 0 ∧ s.aon.mode ≠ some .safe ∧ (∃ k, 7 ≤ k ∧ k ≤ 11 ∧ s.hasCause k = true)) ∧
    (∃ (s : State), s.cfg.get 0 15 ≠ 0 ∧ s.aon.mode = some .supply ∧ ¬ (∃ k, 7 ≤ k ∧ k ≤ 11 ∧ s.hasCause k = true) ∧ s.charge.present = false) ∧
    (∃ (s : State), s.cfg.get 0 15 ≠ 0 ∧ s.aon.mode ≠ some .safe ∧ (s.aon.mode ≠ some .supply ∨ s.charge.present = true) ∧ ¬ (∃ k, 7 ≤ k ∧ k ≤ 11 ∧ s.hasCause k = true)) ∧
    (∃ (r : Request) (s : State), s.aon.request = some r ∧ r.dormant = false ∧ r.stage = .pairOpen ∧ r.deadline + 110 ≤ s.now) ∧
    (∃ (r : Request) (s : State), s.hubUp = true ∧ s.aon.request = some r ∧ r.dormant = true ∧ r.stage = .ramping ∧ s.dormantAllowed = true ∧ s.aon.safeLatch = false ∧ (∀ n, s.cfg.battLane = some n → ∀ m ∈ s.cfg.gang n, (s.lane m).active = false)) ∧
    (∃ (s : State), s.cfg.get 0 15 ≠ 0 ∧ s.aon.mode ≠ some .safe ∧ (s.aon.mode ≠ some .supply ∨ s.charge.present = true) ∧ ¬ (∃ k, 7 ≤ k ∧ k ≤ 11 ∧ s.hasCause k = true) ∧ s.hasCause 6 = true) ∧
    (∃ (s : State), s.cfg.get 0 15 ≠ 0 ∧ s.aon.mode ≠ some .safe ∧ (s.aon.mode ≠ some .supply ∨ s.charge.present = true) ∧ ¬ (∃ k, 7 ≤ k ∧ k ≤ 11 ∧ s.hasCause k = true) ∧ s.hasCause 6 = false ∧ s.suspended = true) ∧
    (∃ (s : State), s.cfg.get 0 15 ≠ 0 ∧ s.aon.mode ≠ some .safe ∧ (s.aon.mode ≠ some .supply ∨ s.charge.present = true) ∧ ¬ (∃ k, 7 ≤ k ∧ k ≤ 11 ∧ s.hasCause k = true) ∧ s.hasCause 6 = false ∧ s.suspended = false) :=
  ⟨⟨(live |>.modAon (fun x => { x with mode := some .safe })), by decide +kernel⟩,
   ⟨(live |>.sets [⟨0, 15, 0, 1⟩] |>.modCharge (fun x => { x with causes := 0x40 })), by decide +kernel, by decide +kernel, ⟨7, by decide, by decide, by decide +kernel⟩⟩,
   ⟨(live |>.sets [⟨0, 15, 0, 1⟩]), by decide +kernel, by decide +kernel, unlatched (by decide +kernel), by decide +kernel⟩,
   ⟨(live |>.sets [⟨0, 15, 0, 1⟩] |>.modCharge (fun x => { x with present := true })), by decide +kernel, by decide +kernel, by decide +kernel, unlatched (by decide +kernel)⟩,
   ⟨⟨false, false, 0, .pairOpen⟩, (live |>.modAon (fun x => { x with request := some ⟨false, false, 0, .pairOpen⟩ })), by decide +kernel⟩,
   ⟨⟨true, false, 0, .ramping⟩, (live |>.modAon (fun x => { x with mode := some .battery }) |>.modAon (fun x => { x with request := some ⟨true, false, 0, .ramping⟩ })), by decide +kernel⟩,
   ⟨(live |>.sets [⟨0, 15, 0, 1⟩] |>.modCharge (fun x => { x with present := true, causes := 0x20 })), by decide +kernel, by decide +kernel, by decide +kernel, unlatched (by decide +kernel), by decide +kernel⟩,
   ⟨(live |>.sets [⟨0, 15, 0, 1⟩] |>.modCharge (fun x => { x with present := true, causes := 0x10 })), by decide +kernel, by decide +kernel, by decide +kernel, unlatched (by decide +kernel), by decide +kernel⟩,
   ⟨(live |>.sets [⟨0, 15, 0, 1⟩] |>.modCharge (fun x => { x with present := true, causes := 0 })), by decide +kernel, by decide +kernel, by decide +kernel, unlatched (by decide +kernel), by decide +kernel⟩⟩

theorem witness_TrunkMessagesAndRelay :
    (∃ (f : TrunkFrame) (s : State), f.type = 7 ∧ (f.payload.length ≠ 272 ∨ s.therm.flashShut = true)) ∧
    (∃ (f : TrunkFrame) (s : State), f.type = 8 ∧ s.trunk.relay = true ∧ u32 f.payload 0 = s.update.tag.toNat ∧ f.payload.length = 46) ∧
    (∃ (f : TrunkFrame) (s : State), f.type = 10 ∧ u32 f.payload 0 ≠ s.update.tag.toNat) ∧
    (∃ (f : TrunkFrame) (s : State), f.type = 10 ∧ u32 f.payload 0 = s.update.tag.toNat ∧ s.update.st = .sealedUp ∧ s.update.kickoff = none) :=
  ⟨⟨frame 7 [0], live, by decide +kernel⟩,
   ⟨frame 8 (List.replicate 46 0), (live |>.modTrunk (fun x => { x with relay := true })), by decide +kernel⟩,
   ⟨frame 10 (le32 5), live, by decide +kernel⟩,
   ⟨frame 10 (le32 0), (live |>.modUpd (fun x => { x with st := .sealedUp })), by decide +kernel⟩⟩

/-! ### Single commands on small states, with the manual's figures -/

/-- Whether a command answers a next state with a property. -/
def after (c : Instr) (s : State) (q : State → Bool) : Bool := match exec c s with | .next t => q t | _ => false

/-- The worked example of chapter 14: HUB_IFVER over SPI, with both CRC-8 values. -/
theorem test_spi_reads_the_version :
    after (.spiFrame [0x40, 0, 0, 0, 4, 0xD4]) live
      (fun t => t.host.out.get 0 == [0xFF, 0xA0, 0x04, 0x02, 0x00, 0x00, 0x8E]) = true := by decide +kernel

/-- The worked example of chapter 15: SYSV7 58.00 V and SYS_SLEW 2.0 V/ms in one CFG_WRITE. -/
theorem test_cfg_write_stages_both_entries :
    after (.cfgWrite 0 .normal (call ([2, 0, 0, 0] ++ [1, 3, 7, 0] ++ [0x88, 4, 0, 0] ++ [1, 4, 0, 0] ++ [0x14, 0, 0, 0])))
      (live |>.modCfg (fun x => { x with stoppedBy := Vector.replicate 15 (some 0) }))
      (fun t => t.cfg.staged == [⟨1, 3, 7, 1160⟩, ⟨1, 4, 0, 20⟩]) = true := by decide +kernel

/-- The worked example of chapter 12: 106 degrees give 0.55 with the defaults. -/
theorem test_foldback_at_106 : live.laneFactor 106 = 55 / 100 := by decide +kernel

/-- The worked example of chapter 11: 46.22 V gives about 0.37; the ends of the ramp (R275). -/
theorem test_droop_law :
    droopF (4622 / 100) 50 44 = 37 / 100 ∧ droopF 50 50 44 = 1 ∧ droopF 44 50 44 = 0 := by decide +kernel

/-- The standard check values of the two cyclic codes over the digits 1 to 9. -/
theorem test_crc_check_values :
    crc16 [0x31, 0x32, 0x33, 0x34, 0x35, 0x36, 0x37, 0x38, 0x39] = 0x29B1 ∧
    crc32c [0x31, 0x32, 0x33, 0x34, 0x35, 0x36, 0x37, 0x38, 0x39] = 0xE3069283 := by decide +kernel

/-- SHA-256 of the three bytes a, b, c (FIPS 180-4). -/
theorem test_sha256_abc :
    (sha256 [0x61, 0x62, 0x63]).take 8 = [0xBA, 0x78, 0x16, 0xBF, 0x8F, 0x01, 0xCF, 0xEA] := by decide +kernel

/-- SYS overshoot at 16.0 V against a target of 14.5 V sets the latch (R21): above 110 %. -/
theorem test_overshoot_sets_the_latch :
    after (.sysOvershootSafe 0 16) (live |>.modLane 0 (fun l => { l with truncating := true, loop := { Loop.zero with target := 29 / 2 } }))
      (fun t => t.aon.safeLatch) = true := by decide +kernel

/-- At 110 % exactly it does not. -/
theorem test_overshoot_at_the_bound_does_not :
    after (.sysOvershootSafe 0 11) (live |>.modLane 0 (fun l => { l with truncating := true, loop := { Loop.zero with target := 10 } }))
      (fun t => t.aon.safeLatch) = false := by decide +kernel

/-- A trip opens its pair and counts (R154, R155). -/
theorem test_trip_opens_the_pair :
    after (.protectionTrip 0 .overVoltage 10 ⟨0, 0⟩) (live |>.modConn 0 (fun x => { x with pair := .closed }))
      (fun t => (t.conn 0).pair == .opened && (t.conn 0).trips.length == 1) = true := by decide +kernel

/-- After eight boundaries the shed ends with the phase on warm bench (R119). -/
theorem test_shed_ends_on_warm_bench :
    after (.shedEnd 0) (live |>.modLane 0 (fun l => { l with field := { Field.zero with shed := some (1, 8, false) }, phases := Vector.replicate 4 { Phase.zero with st := .field } }))
      (fun t => ((t.lane 0).phases.get 1).st == .warm && ((t.lane 0).phases.get 0).st == .field) = true := by decide +kernel

/-- A check-in sets its task bit of the window (R376). -/
theorem test_watchdog_checkin_marks_its_task :
    after (.wdgCheckin 3) (live |>.modWdg (fun x => { x with elapsed := some 0 })) (fun t => t.wdg.seen == 8) = true := by decide +kernel

/-- A read outside the map is a violation and is counted (R337). -/
theorem test_unmapped_read_is_a_violation :
    after (.spiFrame ([0x40, 0x7F, 0, 0, 0] ++ [crc8 [0x40, 0x7F, 0, 0, 0]])) live
      (fun t => t.host.viol.count == 1 && (t.host.out.get 0).take 2 == [0xFF, 0xE2]) = true := by decide +kernel

/-- 0 ohm, 20 k, 62 k at 10 uA and an open pin, and the thresholds 0.10 V and 1.00 V (R44, R45). -/
theorem test_strap_bands :
    [0, 2 / 10, 62 / 100, 3].map bandOf = [Band.a, .b, .c, .d] ∧ [99 / 1000, 1 / 10, 1, 1001 / 1000].map bandOf = [Band.a, .b, .c, .d] := by
  decide +kernel

/-- The peak comparator's step is 24.41 mA, the delay step 39.0625 ps: 300 kHz is 85,333 steps (R78, R87). -/
theorem test_grids : peakStep = 100 / 4096 ∧ ((1000000 / 300 : Rat) / delayStep).floor = 85333 := by decide +kernel

/-- Order of tick indexes across the wrap (R12). -/
theorem test_ticks_compare_across_the_wrap :
    ixBefore 0xFFFFFFFF 0 = true ∧ ixBefore 0 0x7FFFFFFF = true ∧ ixBefore 0 0x80000000 = false := by decide +kernel

/-! ### Checks of FUNC_START, one staged fault for each (R109, R159, R288), and values at the bound that pass -/

def faulted (m : BitVec 15) (l : List CfgEntry) : Bool :=
  (validate ((live |>.modCfg (fun x => { x with staged := l })).checkCtx m)).isSome

theorem test_lane_checks_refuse :
    [[⟨2, 9, 0, 65⟩], [⟨2, 10, 0, -80⟩], [⟨2, 22, 0, 15⟩], [⟨2, 25, 0, 8⟩], [⟨2, 6, 0, 101⟩], [⟨2, 7, 0, 101⟩],
     [⟨2, 0, 0, 1200⟩, ⟨2, 5, 0, 320⟩]].all (faulted 4) = true ∧ faulted 4 [⟨2, 9, 0, 64⟩] = false := by decide +kernel

theorem test_input_checks_refuse :
    [[⟨10, 5, 0, 116⟩, ⟨10, 6, 0, 119⟩], [⟨10, 6, 0, 27⟩], [⟨10, 1, 0, 400⟩, ⟨10, 2, 0, 11⟩]].all (faulted 1024) = true ∧
    [[⟨10, 5, 0, 116⟩], [⟨10, 6, 0, 28⟩], [⟨10, 1, 0, 400⟩]].any (faulted 1024) = false := by decide +kernel

theorem test_trunk_checks_refuse :
    [[⟨11, 5, 0, 459⟩], [⟨11, 8, 0, 509⟩], [⟨11, 8, 0, 561⟩], [⟨11, 12, 0, 501⟩, ⟨11, 13, 0, 8⟩], [⟨11, 1, 0, 1⟩]].all (faulted 2048) = true ∧
    [[⟨11, 5, 0, 460⟩], [⟨11, 8, 0, 510⟩], [⟨11, 8, 0, 560⟩], [⟨11, 12, 0, 500⟩, ⟨11, 13, 0, 8⟩]].any (faulted 2048) = false := by decide +kernel

/-! ### Well-formedness: an ill-formed term for each check, and a well-formed one beside it -/

theorem test_wf_late_dies : (Instr.decisionTick 0 [.lane 0, .lane 0]).wf = false ∧ (Instr.decisionTick 0 [.lane 0, .port 0]).wf = true := by decide
theorem test_wf_slot_kind : (Instr.housekeepingSlot .hub (.ratio 0)).wf = false ∧ (Instr.housekeepingSlot (.tsl 0) (.diode 25)).wf = false ∧
    (Instr.housekeepingSlot .hub (.diode 25)).wf = true := by decide
theorem test_wf_slot_ratio : (Instr.housekeepingSlot (.tb 0) (.ratio 2)).wf = false ∧ (Instr.housekeepingSlot (.tb 0) (.ratio 1)).wf = true := by decide +kernel
theorem test_wf_forecast_words : (Instr.forecastFrameHandover ⟨List.replicate 20 0, true, 0, false⟩).wf = false ∧
    (Instr.forecastFrameHandover ⟨List.replicate 19 0, true, 0, false⟩).wf = true := by decide
theorem test_wf_trunk_bytes : (Instr.trunkFrameReceived 0 ⟨0, 16⟩ (List.replicate 289 0)).wf = false ∧ (Instr.trunkFrameReceived 0 ⟨0, 16⟩ (List.replicate 288 0)).wf = true := by
  decide +kernel
theorem test_wf_trunk_type : (Instr.claimReceived ⟨⟨0, 0⟩, frame 5 []⟩).wf = false ∧ (Instr.claimReceived ⟨⟨0, 0⟩, frame 6 []⟩).wf = true := by decide
theorem test_wf_trunk_payload : (Instr.messageReceived ⟨⟨0, 0⟩, frame 9 (List.replicate 273 0)⟩).wf = false := by decide +kernel
theorem test_wf_i2c : (Instr.i2cTransfer ⟨0x3A, [0, 0], [1], 0⟩).wf = false ∧ (Instr.i2cTransfer ⟨0x3A, [0, 0, 0, 0], [1], 1⟩).wf = false ∧
    (Instr.i2cTransfer ⟨0x3A, [0, 0, 0, 0], [1], 0⟩).wf = true := by decide
theorem test_wf_params : (Instr.sysNop 0 .normal (call (List.replicate 65536 0))).wf = false := by
  show decide ((List.replicate 65536 (0 : Byte)).length < 65536) = false
  rw [List.length_replicate]; decide
theorem test_wf_storing_interval : (Instr.lanePeriodBoundary 0 ⟨0, 0, Vector.replicate 4 ⟨0, -1, 0, false, false, 0⟩, false, false⟩).wf = false := by decide +kernel
theorem test_wf_freewheel_time : (Instr.negCurrentLimit 0 ⟨-1, 0, 0⟩).wf = false ∧ (Instr.negCurrentLimit 0 ⟨0, 0, 0⟩).wf = true := by decide +kernel
theorem test_wf_hdrm_share : (Instr.housekeepingRound ⟨0, 0, 0, 0, 0, 0, Vector.replicate 7 0, Vector.replicate 7 0, Vector.replicate 2 0, 0, 2⟩).wf = false := by decide +kernel
theorem test_wf_stack_position : (Instr.stackControlFrame (control 4 0)).wf = false ∧ (Instr.stackStateFrame (memberFrame 4)).wf = false ∧
    (Instr.stackControlFrame (control 1 0)).wf = true := by decide +kernel

end Sys2Proof.Tests
end

section
/-! O15. A SHIP_ENTER, DORMANT_ENTER or SAFE_CLEAR that is not accepted (R24). Each command's body fails on a state where its
condition does not hold; starting a command touches the host interface only, so the condition is that of the state before;
and a failing body answers its code and leaves everything outside the host interface alone. -/

namespace Sys2Proof.Machine

/-! ### What the three commands run -/

theorem exec_safeClear_normal (c : HostChan) (d : Desc) (s : State) :
    exec (.safeClear c .normal d) s =
      .next (s.takeCmd c .normal 0x0003 d s.now (fun s => s.serve (0x0003 : Half).toNat cmdSafeClear)) := rfl

theorem exec_shipEnter_normal (c : HostChan) (d : Desc) (s : State) :
    exec (.shipEnter c .normal d) s =
      .next (s.takeCmd c .normal 0x0004 d s.now (fun s => s.serve (0x0004 : Half).toNat (cmdShipEnter c))) := rfl

theorem exec_dormantEnter_normal (c : HostChan) (d : Desc) (s : State) :
    exec (.dormantEnter c .normal d) s =
      .next (s.takeCmd c .normal 0x0005 d s.now (fun s => s.serve (0x0005 : Half).toNat (cmdDormantEnter c))) := rfl

/-! ### When the bodies fail -/

theorem cmdSafeClear_fails {s : State} (hlatch : s.aon.safeLatch = true) (hblocked : s.safeBlocked = true) :
    cmdSafeClear s = s.fail rcWrongState := by
  simp [cmdSafeClear, hlatch, hblocked]

theorem cmdShipEnter_fails (c : HostChan) {s : State} (h : s.pathStopped = true ∨ s.shipAllowed = false) :
    cmdShipEnter c s = s.fail rcWrongState := by
  rcases h with h | h <;> simp [cmdShipEnter, h]

theorem cmdDormantEnter_fails (c : HostChan) {s : State} (h : s.pathStopped = true ∨ s.dormantAllowed = false) :
    cmdDormantEnter c s = s.fail rcWrongState := by
  rcases h with h | h <;> simp [cmdDormantEnter, h]

/-! ### Starting a command leaves the conditions as they are -/

section
variable (s : State) (c : HostChan) (op : Half) (d : Desc) (bell : Nat)

@[simp] theorem started_aon : (s.started c op d bell).aon = s.aon := rfl
@[simp] theorem started_safeBlocked : (s.started c op d bell).safeBlocked = s.safeBlocked := rfl
@[simp] theorem started_pathStopped : (s.started c op d bell).pathStopped = s.pathStopped := rfl
@[simp] theorem started_shipAllowed : (s.started c op d bell).shipAllowed = s.shipAllowed := rfl
@[simp] theorem started_dormantAllowed : (s.started c op d bell).dormantAllowed = s.dormantAllowed := rfl
end

/-- A body that fails answers its code and changes nothing outside the host interface. -/
theorem takeCmd_fails_answers {s : State} {c : HostChan} {op : Half} {d : Desc} {code : Nat} {body : State → Res}
    (htakes : s.takes c op d) (hfail : body (s.started c op d s.now) = (s.started c op d s.now).fail code) :
    ∃ u, Host.Outcome.next (s.takeCmd c .normal op d s.now (fun s => s.serve op.toNat body)) = (.next u : Out) ∧
      Answered u c d code ∧ u = { s with host := u.host } :=
  replies2 s (s.started c op d s.now) c op d code [] body htakes hfail rfl

/-! ### The refused commands -/

theorem shipEnter_refused (c : HostChan) (d : Desc) (s : State) (htakes : s.takes c 0x0004 d)
    (h : s.pathStopped = true ∨ s.shipAllowed = false) :
    ∃ u, exec (.shipEnter c .normal d) s = .next u ∧ Answered u c d 5 ∧ u = { s with host := u.host } := by
  rw [exec_shipEnter_normal]
  exact takeCmd_fails_answers htakes (cmdShipEnter_fails c (by simpa using h))

theorem dormantEnter_refused (c : HostChan) (d : Desc) (s : State) (htakes : s.takes c 0x0005 d)
    (h : s.pathStopped = true ∨ s.dormantAllowed = false) :
    ∃ u, exec (.dormantEnter c .normal d) s = .next u ∧ Answered u c d 5 ∧ u = { s with host := u.host } := by
  rw [exec_dormantEnter_normal]
  exact takeCmd_fails_answers htakes (cmdDormantEnter_fails c (by simpa using h))

theorem safeClear_refused (c : HostChan) (d : Desc) (s : State) (htakes : s.takes c 0x0003 d)
    (hlatch : s.aon.safeLatch = true) (hblocked : s.safeBlocked = true) :
    ∃ u, exec (.safeClear c .normal d) s = .next u ∧ Answered u c d 5 ∧ u.aon.safeLatch = true ∧
      u = { s with host := u.host } := by
  rw [exec_safeClear_normal]
  have hfail := cmdSafeClear_fails (s := s.started c 0x0003 d s.now) (by simpa using hlatch) (by simpa using hblocked)
  obtain ⟨u, hnext, hanswer, hsame⟩ := takeCmd_fails_answers htakes hfail
  have hkept : u.aon = s.aon := by rw [hsame]
  exact ⟨u, hnext, hanswer, hkept ▸ hlatch, hsame⟩

/-- Settles O15: each of the three bodies fails with WRONG_STATE, and a failing body only answers. -/
theorem refusedModeCommandsChangeNothing : Obligations.RefusedModeCommandsChangeNothing :=
  ⟨shipEnter_refused, dormantEnter_refused, safeClear_refused⟩

end Sys2Proof.Machine
end

section
/-! O10. A start with an FT ball high (R50). Whether a connector or the pack powers the board, the start ends in
`State.factoryState` of some state, and that state runs neither the hub nor a power die and holds no mode. -/

namespace Sys2Proof.Machine

/-- The factory test state in the words of R50, as a connector and a pack both leave it. -/
theorem factoryState_startsNothing (s : State) :
    s.factoryState.aon.factoryTest = true ∧ s.factoryState.hub.hub = .off ∧ s.factoryState.aon.mode = none ∧
      (∀ n, (s.factoryState.lane n).up = false) ∧ (∀ m, (s.factoryState.pdie m).up = false) := by
  obtain ⟨haon, hhub, -, -, hlanes, hpdies⟩ := factoryState_is s
  rw [haon]
  exact ⟨rfl, hhub, rfl, fun n => (hlanes n).1, hpdies⟩

theorem packStart_ftHigh (s : State) : ∃ u : State, s.packStart true = u.factoryState := ⟨_, rfl⟩

theorem execPowerOn_fromPack (pins : BootPins) {s : State} (hpwr : s.aon.vpwr = false) :
    execPowerOn pins true s = .next (s.packStart pins.ftHigh) := by
  simp [execPowerOn, hpwr]

theorem execPowerOn_fromConnector_ftHigh {pins : BootPins} {s : State} (hpwr : s.aon.vpwr = false)
    (hft : pins.ftHigh = true) :
    execPowerOn pins false s =
      .next (s.modAon (fun a => { a with vpwr := true, vaon := true, pins := pins, pgood := false })).factoryState := by
  simp [execPowerOn, hpwr, hft]

theorem execPackConnect_unpowered (ftHigh : Bool) {s : State} (hpwr : s.aon.vpwr = false) :
    execPackConnect s ftHigh = .next (s.packStart ftHigh) := by
  simp [execPackConnect, hpwr]

/-- The FT ball decides before the source of the power does. -/
theorem execPowerOn_ftHigh {pins : BootPins} {s : State} (fromPack : Bool) (hpwr : s.aon.vpwr = false)
    (hft : pins.ftHigh = true) : ∃ u : State, execPowerOn pins fromPack s = .next u.factoryState := by
  cases fromPack with
  | true =>
    obtain ⟨u, hu⟩ := packStart_ftHigh s
    exact ⟨u, by rw [execPowerOn_fromPack pins hpwr, hft, hu]⟩
  | false => exact ⟨_, execPowerOn_fromConnector_ftHigh hpwr hft⟩

theorem execPackConnect_ftHigh {s : State} (hpwr : s.aon.vpwr = false) :
    ∃ u : State, execPackConnect s true = .next u.factoryState := by
  obtain ⟨u, hu⟩ := packStart_ftHigh s
  exact ⟨u, by rw [execPackConnect_unpowered true hpwr, hu]⟩

/-- Settles O10: every such start ends in the factory test state, which starts nothing. -/
theorem factoryTestStartsNothing : Obligations.FactoryTestStartsNothing := by
  refine ⟨fun pins fromPack s hpwr hft => ?_, fun s hpwr => ?_⟩
  · obtain ⟨u, hnext⟩ := execPowerOn_ftHigh fromPack hpwr hft
    exact ⟨_, hnext, factoryState_startsNothing u⟩
  · obtain ⟨u, hnext⟩ := execPackConnect_ftHigh hpwr
    exact ⟨_, hnext, factoryState_startsNothing u⟩

end Sys2Proof.Machine
end

section
/-! O16. The I2C address the straps select (R46), and a transfer that is addressed to another device (R323). -/

namespace Sys2Proof.Machine

/-- A transfer to another device's address is not taken, whatever the hub does. -/
theorem execI2cTransfer_otherTarget {x : I2cTransfer} {s : State} (h : x.target ≠ i2cAddress s.aon.straps.i2cAddr) :
    execI2cTransfer x s = .next s := by
  have hskip : (!s.hostUp || x.target != i2cAddress s.aon.straps.i2cAddr) = true := by
    rw [bne_iff_ne.mpr h, Bool.or_true]
  unfold execI2cTransfer
  rw [if_pos hskip]

/-- Settles O16: the four bands by the table of `i2cAddress`, the transfer by its address test. -/
theorem strapBandsSelectTheAddress : Obligations.StrapBandsSelectTheAddress :=
  ⟨rfl, rfl, rfl, rfl, fun _ _ h => execI2cTransfer_otherTarget h⟩

end Sys2Proof.Machine
end

section
/-! O37. A FUNC_START that names a lane whose settings break R109. The bounds of R109 stand in a structure of their own:
a lane all of whose checks pass keeps them, so a lane that breaks one has a check that fails, and a named function with a
failing check is refused (`refusedStart`). -/

namespace Sys2Proof.Machine

/-- The leader of lane n's gang in the set under test (R104). -/
def CheckCtx.gangLead (x : CheckCtx) (n : Lane) : Lane := ((gangMembers (x.v 1 2) n).head?).getD 0

/-- A lane's switching period in the set under test, in ns. -/
def CheckCtx.lanePeriod (x : CheckCtx) (n : Lane) : Rat := ratio 1000000 (x.v (2 + n.val) 0)

/-- The bounds R109 sets on lane n's values in the set under test, one field for each of its conditions. -/
structure LaneBounds (x : CheckCtx) (n : Lane) : Prop where
  peakLimit : 125 / 100 * (x.v (2 + n.val) 9 : Rat) ≤ x.v (2 + n.val) 8
  negativeLimit : -(x.v (2 + n.val) 10) ≤ x.v (2 + n.val) 9
  truncation : x.v (2 + n.val) 22 < x.v (2 + n.val) 21
  skipBand : x.v (2 + n.val) 25 < 2 * x.v (2 + n.val) 20
  onTime : (x.v (2 + n.val) 6 : Rat) * (5 / 2) ≤ x.lanePeriod n / 10
  offTime : (x.v (2 + n.val) 7 : Rat) * (5 / 2) ≤ x.lanePeriod n / 10
  deadTime : (x.v (2 + n.val) 5 : Rat) * (5 / 16) ≤ x.lanePeriod n / 10
  gangFrequency : ∀ k ∈ gangMembers (x.v 1 2) (x.gangLead n), x.v (2 + k.val) 0 = x.v (2 + (x.gangLead n).val) 0
  headroom : skipCounted x n.val = true → (x.v (2 + n.val) 25 : Rat) / 4 + 1 / 2 ≤ (x.v 12 3 : Rat) / 2

theorem checksOf_lane (x : CheckCtx) (n : Lane) : checksOf x (2 + n.val) = laneChecks x n.val := by
  have hn : n.val < 4 := n.isLt
  unfold checksOf
  rw [if_neg (by omega), if_neg (by omega), if_pos (by omega), Nat.add_sub_cancel_left]

theorem peakLimit_of_codes {ipk iavg : Int} (h : 5 * iavg ≤ 4 * ipk) : 125 / 100 * (iavg : Rat) ≤ ipk := by
  have hq : (5 : Rat) * iavg ≤ 4 * ipk := by exact_mod_cast h
  linarith

/-- The checks of a lane cover every bound of R109. -/
theorem laneBounds_of_checksPass {x : CheckCtx} {n : Lane} (h : ∀ c ∈ laneChecks x n.val, c.1 = true) :
    LaneBounds x n := by
  have hlane : (⟨n.val % 4, Nat.mod_lt _ (by decide)⟩ : Lane) = n := Fin.ext (Nat.mod_eq_of_lt n.isLt)
  simp only [laneChecks, hlane, List.forall_mem_cons, decide_eq_true_eq, List.all_eq_true, beq_iff_eq,
    Bool.or_eq_true, Bool.not_eq_true'] at h
  obtain ⟨hpeak, hneg, htrunc, hskip, ⟨hon, hoff, hdead⟩, hgang, hroom, -⟩ := h
  exact ⟨peakLimit_of_codes hpeak, hneg, htrunc, hskip, hon, hoff, hdead, hgang,
    fun hcounted => hroom.resolve_left (by simp [hcounted])⟩

/-- Lane settings outside the bounds of R109 fail a check of their function. -/
theorem laneChecks_fail {x : CheckCtx} {n : Lane} (h : ¬ LaneBounds x n) :
    (firstFail (checksOf x (2 + n.val))).isSome = true := by
  have hfails : ∃ c ∈ checksOf x (2 + n.val), c.1 = false := by
    by_contra hpass
    refine h (laneBounds_of_checksPass fun c hc => ?_)
    rw [← checksOf_lane] at hc
    exact Bool.eq_true_of_not_eq_false fun hfalse => hpass ⟨c, hc, hfalse⟩
  obtain ⟨c, hmem, hfalse⟩ := hfails
  exact firstFail_some _ c hmem hfalse

/-- Settles O37: each fault of R109 contradicts one bound, so the lane's checks fail and FUNC_START is refused. -/
theorem laneStartsAreValidated : Obligations.LaneStartsAreValidated := by
  intro c d m n s htakes hmask hnamed hstopped x g period lead hfault
  have hn : n.val < 4 := n.isLt
  have hbreaks : ¬ LaneBounds x n := fun hb => by
    rcases hfault with h | h | h | h | h | h | h | ⟨k, hk, hne⟩ | ⟨hcounted, h⟩
    · exact h.not_ge hb.peakLimit
    · exact h.not_ge hb.negativeLimit
    · exact h.not_gt hb.truncation
    · exact h.not_gt hb.skipBand
    · exact h.not_ge hb.onTime
    · exact h.not_ge hb.offTime
    · exact h.not_ge hb.deadTime
    · exact hne (hb.gangFrequency k hk)
    · exact h.not_ge (hb.headroom hcounted)
  exact refusedStart c d m s htakes hmask hstopped (2 + n.val) (by omega) hnamed (laneChecks_fail hbreaks)

end Sys2Proof.Machine
end

section
/-! O36. A FUNC_START that names ACIN or a Type-C port with input settings R159 refuses. The settings are codes and R159
speaks in volts and amperes: each condition of R159 makes one check of the named function fail, and a named function with a
failing check is refused (`refusedStart`). -/

namespace Sys2Proof.Machine

theorem checksOf_acin (x : CheckCtx) : checksOf x 10 = acinChecks x := rfl

theorem checksOf_port (x : CheckCtx) (p : Port) : checksOf x (6 + p.val) = portChecks x p.val := by
  have hp : p.val < 4 := p.isLt
  unfold checksOf
  rw [if_neg (by omega), if_neg (by omega), if_neg (by omega), if_pos (by omega), Nat.add_sub_cancel_left]

/-- Two codes of 0.5 V less than 2.0 V apart are less than four steps apart. -/
theorem code_lt_of_halfVolts {lo hi : Int} (h : (hi : Rat) / 2 < (lo : Rat) / 2 + 2) : hi < lo + 4 := by
  have hq : (hi : Rat) < lo + 4 := by linarith
  exact_mod_cast hq

/-- The sense check fails exactly where three times SRC_ILIM across ISENSE_R exceeds 300 mV. -/
theorem senseOk_eq_false_iff {fn ilim rs : Nat} {x : CheckCtx} :
    senseOk fn ilim rs x = false ↔
      3 / 10 < 3 * ((x.v fn ilim : Rat) * (5 / 100)) * ((x.v fn rs : Rat) * (5 / 10000)) := by
  rw [senseOk, decide_eq_false_iff_not, not_le]

/-! ### The check that fails, one for each condition -/

section
variable {x : CheckCtx}

theorem acin_span_fails (h : (x.v 10 6 : Rat) / 2 < (x.v 10 5 : Rat) / 2 + 2) :
    (firstFail (checksOf x 10)).isSome = true := by
  have hcode : ¬ x.v 10 5 + 4 ≤ x.v 10 6 := not_le.mpr (code_lt_of_halfVolts h)
  exact firstFail_some _ (decide (x.v 10 5 + 4 ≤ x.v 10 6), 5, 0) (by simp [checksOf_acin, acinChecks])
    (decide_eq_false hcode)

theorem acin_panel_fails (h : (x.v 10 6 : Rat) / 2 - 2 < (x.v 10 8 : Rat) / 2) :
    (firstFail (checksOf x 10)).isSome = true := by
  have hcode : ¬ x.v 10 8 ≤ x.v 10 6 - 4 := by
    have hlt := code_lt_of_halfVolts (sub_lt_iff_lt_add.mp h)
    omega
  exact firstFail_some _ (decide (x.v 10 8 ≤ x.v 10 6 - 4), 6, 0) (by simp [checksOf_acin, acinChecks])
    (decide_eq_false hcode)

theorem acin_sense_fails (h : senseOk 10 1 2 x = false) : (firstFail (checksOf x 10)).isSome = true :=
  firstFail_some _ (senseOk 10 1 2 x, 1, 0) (by simp [checksOf_acin, acinChecks]) h

theorem port_sense_fails (p : Port) (h : senseOk (6 + p.val) 1 2 x = false) :
    (firstFail (checksOf x (6 + p.val))).isSome = true :=
  firstFail_some _ (senseOk (6 + p.val) 1 2 x, 1, 0) (by simp [checksOf_port, portChecks]) h
end

/-- Settles O36: each condition of R159 fails one check of the named ACIN or port, so FUNC_START is refused. -/
theorem inputStartsAreValidated : Obligations.InputStartsAreValidated := by
  constructor
  · intro c d m s htakes hmask hnamed hstopped x hfault
    refine refusedStart c d m s htakes hmask hstopped 10 (by decide) hnamed ?_
    rcases hfault with hspan | hpanel | hsense
    · exact acin_span_fails hspan
    · exact acin_panel_fails hpanel
    · exact acin_sense_fails (senseOk_eq_false_iff.mpr hsense)
  · intro c d m p s htakes hmask hnamed hstopped x hsense
    have hp : p.val < 4 := p.isLt
    exact refusedStart c d m s htakes hmask hstopped (6 + p.val) (by omega) hnamed
      (port_sense_fails p (senseOk_eq_false_iff.mpr hsense))

end Sys2Proof.Machine
end

section
/-! O60. The STAT patterns (R215). Each row of the table has a lemma of its own, under the conditions that rule the earlier
rows out; SHIP and DORMANT are entered through `State.powerDown`, which releases both outputs. -/

namespace Sys2Proof.Machine

/-- The latched causes 0x07 to 0x0B, as the second row of the table tests them. -/
theorem latchedCauses_any {s : State} :
    [7, 8, 9, 10, 11].any s.hasCause = true ↔ ∃ k, 7 ≤ k ∧ k ≤ 11 ∧ s.hasCause k = true := by
  have hrange (k : Nat) : k ∈ [7, 8, 9, 10, 11] ↔ 7 ≤ k ∧ k ≤ 11 := by
    simp only [List.mem_cons, List.not_mem_nil, or_false]
    omega
  simp only [List.any_eq_true, hrange, and_assoc]

/-- The rows by phase, which apply with no cause set. -/
def phasePatterns : ChgPhase → Pattern × Pattern
  | .trickle | .precharge => (.slow, .off)
  | .cc | .cv => (.on, .off)
  | .terminated => (.blip, .off)
  | .idle => (.off, .off)

/-! ### The rows, in the table's order -/

section
variable {s : State} (hstat : s.cfg.get 0 15 ≠ 0)
include hstat

theorem statPatterns_safe (hsafe : s.aon.mode = some .safe) : s.statPatterns = (.off, .on) := by
  simp [State.statPatterns, hstat, hsafe]

theorem statPatterns_latched (hnotSafe : s.aon.mode ≠ some .safe)
    (hlatched : ∃ k, 7 ≤ k ∧ k ≤ 11 ∧ s.hasCause k = true) : s.statPatterns = (.off, .fast) := by
  unfold State.statPatterns
  rw [latchedCauses_any.mpr hlatched]
  simp [hstat, hnotSafe]

theorem statPatterns_supplyAlone (hsupply : s.aon.mode = some .supply)
    (hunlatched : ¬ ∃ k, 7 ≤ k ∧ k ≤ 11 ∧ s.hasCause k = true) (habsent : s.charge.present = false) :
    s.statPatterns = (.off, .blip) := by
  unfold State.statPatterns
  rw [Bool.eq_false_iff.mpr (mt latchedCauses_any.mp hunlatched)]
  simp [hstat, hsupply, habsent]

/-- Below the first three rows, the causes and then the phase decide. -/
theorem statPatterns_charging (hnotSafe : s.aon.mode ≠ some .safe)
    (hbattery : s.aon.mode ≠ some .supply ∨ s.charge.present = true)
    (hunlatched : ¬ ∃ k, 7 ≤ k ∧ k ≤ 11 ∧ s.hasCause k = true) :
    s.statPatterns = if s.hasCause 6 then (.slow, .double) else if s.suspended then (.slow, .slow)
      else phasePatterns s.charge.phase := by
  have hnotAlone : (s.aon.mode == some .supply && !s.charge.present) = false := by
    rcases hbattery with h | h <;> simp [h]
  unfold State.statPatterns
  rw [Bool.eq_false_iff.mpr (mt latchedCauses_any.mp hunlatched), hnotAlone, if_neg hstat, if_neg (by simpa using hnotSafe)]
  rfl
end

/-! ### The power-downs -/

theorem powerDown_releasesStat (s : State) (m : Mode) :
    (s.powerDown m).aon.mode = some m ∧ (s.powerDown m).aon.stat0 = .off ∧ (s.powerDown m).aon.stat1 = .off := by
  obtain ⟨hmode, -⟩ := powerDown_dies s m
  exact ⟨hmode, rfl, rfl⟩

theorem execShipFetOpen_powersDown {r : Request} {s : State} (hreq : s.aon.request = some r) (hship : r.dormant = false)
    (hstage : r.stage = .pairOpen) (hdue : r.deadline + 110 ≤ s.now) :
    ∃ v : State, execShipFetOpen s = .next (v.powerDown .ship) := by
  refine ⟨s.diodeOpen.stopAll.modAon (fun a => { a with shipFet := false, diodeOn := false }), ?_⟩
  simp [execShipFetOpen, hreq, hship, hstage, State.passed, hdue]

theorem execDormantPowerDown_powersDown {r : Request} {s : State} (hup : s.hubUp = true)
    (hreq : s.aon.request = some r) (hdormant : r.dormant = true) (hstage : r.stage = .ramping)
    (hallowed : s.dormantAllowed = true) (hlatch : s.aon.safeLatch = false)
    (hstill : ∀ n, s.cfg.battLane = some n → ∀ m ∈ s.cfg.gang n, (s.lane m).active = false) :
    ∃ v : State, execDormantPowerDown s = .next (v.powerDown .dormant) := by
  refine ⟨s.stopAll.modAon (fun a => { a with diodeOn := true }), ?_⟩
  cases hlane : s.cfg.battLane with
  | none => simp [execDormantPowerDown, hreq, hup, hdormant, hstage, hallowed, hlatch, hlane]
  | some n =>
    have hgang : (s.cfg.gang n).all (fun m => !(s.lane m).active) = true := by simpa using hstill n hlane
    simp [execDormantPowerDown, hreq, hup, hdormant, hstage, hallowed, hlatch, hlane, hgang]

/-- Settles O60: the rows of the table one by one; both power-downs end in `State.powerDown`. -/
theorem statPatternsFollowTheTable : Obligations.StatPatternsFollowTheTable := by
  refine ⟨fun s hstat => statPatterns_safe hstat, fun s hstat => statPatterns_latched hstat,
    fun s hstat => statPatterns_supplyAlone hstat, fun s hstat hnotSafe hbattery hunlatched => ?_,
    fun r s hreq hship hstage hdue => ?_, fun r s hup hreq hdormant hstage hallowed hlatch hstill => ?_⟩
  · rw [statPatterns_charging hstat hnotSafe hbattery hunlatched]
    refine ⟨fun h6 => if_pos h6, fun h6 hsus => ?_, fun h6 hsus => ?_⟩
    · simp [h6, hsus]
    · simp only [h6, hsus, Bool.false_eq_true, if_false]
      rfl
  · obtain ⟨v, hnext⟩ := execShipFetOpen_powersDown hreq hship hstage hdue
    exact ⟨_, hnext, powerDown_releasesStat v .ship⟩
  · obtain ⟨v, hnext⟩ := execDormantPowerDown_powersDown hup hreq hdormant hstage hallowed hlatch hstill
    exact ⟨_, hnext, powerDown_releasesStat v .dormant⟩

end Sys2Proof.Machine
end

section
/-! O35. A FUNC_START that names TRUNK with settings R289 refuses. The bounds of R289 stand in a structure of their own: trunk
settings all of whose checks pass keep them, so settings that break one have a check that fails, and a named function with a
failing check is refused (`refusedStart`). -/

namespace Sys2Proof.Machine

/-- TA or TB is fitted on the board under test. -/
def CheckCtx.trunkFitted (x : CheckCtx) : Prop :=
  x.cfg.connFitted.getLsbD 5 = true ∨ x.cfg.connFitted.getLsbD 6 = true

/-- The bounds R289 sets on the trunk's values in the set under test, in volts, one field for each of its conditions. -/
structure TrunkBounds (x : CheckCtx) : Prop where
  kneeAboveFloor : (x.v 11 6 : Rat) / 10 + 2 ≤ (x.v 11 5 : Rat) / 10
  fullFeedAboveKnee : (x.v 11 5 : Rat) / 10 + 1 ≤ (x.v 11 8 : Rat) / 10
  noLoadAboveFullFeed : (x.v 11 8 : Rat) / 10 + 1 ≤ (x.v 11 7 : Rat) / 10
  fittedWhenOn : x.v 11 1 = 1 → x.trunkFitted
  farNodeWhenFitted : x.trunkFitted → ∃ n : Lane, farKindOf (x.v 1 1 n.val) = .trunk
  senseDrop : 3 * ((x.v 11 12 : Rat) * (5 / 100)) * ((x.v 11 13 : Rat) * (5 / 10000)) ≤ 3 / 10

theorem checksOf_trunk (x : CheckCtx) : checksOf x 11 = trunkChecks x := rfl

/-- A margin in volts between two codes of 0.1 V is ten steps for each volt. -/
theorem tenthVolts_margin {lo hi volts : Int} (h : lo + 10 * volts ≤ hi) : (lo : Rat) / 10 + volts ≤ (hi : Rat) / 10 := by
  have hq : (lo : Rat) + 10 * volts ≤ hi := by exact_mod_cast h
  linarith

/-- The checks of TRUNK cover every bound of R289. -/
theorem trunkBounds_of_checksPass {x : CheckCtx} (h : ∀ c ∈ trunkChecks x, c.1 = true) : TrunkBounds x := by
  simp only [trunkChecks, senseOk, List.forall_mem_cons, Bool.or_assoc, Bool.or_eq_true, Bool.not_eq_true',
    beq_eq_false_iff_ne, decide_eq_true_eq, List.any_eq_true, List.mem_range, beq_iff_eq] at h
  obtain ⟨hknee, hfull, hnoLoad, hon, hfar, hsense, -⟩ := h
  refine ⟨by exact_mod_cast tenthVolts_margin (volts := 2) hknee, by exact_mod_cast tenthVolts_margin (volts := 1) hfull,
    by exact_mod_cast tenthVolts_margin (volts := 1) hnoLoad, hon.neg_resolve_left, fun hfitted => ?_, hsense⟩
  obtain ⟨n, hn, hkind⟩ := hfar.resolve_left (ne_false_of_eq_true (Bool.or_eq_true_iff.mpr hfitted))
  exact ⟨⟨n, hn⟩, hkind⟩

theorem firstFail_of_not_allPass {l : List Check} (h : ¬ ∀ c ∈ l, c.1 = true) : (firstFail l).isSome = true := by
  obtain ⟨c, hmem, hfails⟩ : ∃ c ∈ l, c.1 ≠ true := by simpa only [not_forall, exists_prop] using h
  exact firstFail_some l c hmem (Bool.eq_false_iff.mpr hfails)

/-- Trunk settings outside the bounds of R289 fail a check of their function. -/
theorem trunkChecks_fail {x : CheckCtx} (h : ¬ TrunkBounds x) : (firstFail (checksOf x 11)).isSome = true := by
  rw [checksOf_trunk]
  exact firstFail_of_not_allPass (mt trunkBounds_of_checksPass h)

/-- Settles O35: each fault of R289 contradicts one bound, so the trunk's checks fail and FUNC_START is refused. -/
theorem trunkStartIsValidated : Obligations.TrunkStartIsValidated := by
  intro c d m s htakes hmask hnamed hstopped x ta tb volt hfault
  have hbreaks : ¬ TrunkBounds x := fun hb => by
    rcases hfault with h | h | h | ⟨hon, hta, htb⟩ | ⟨hfitted, hnone⟩ | h
    · exact h.not_ge hb.kneeAboveFloor
    · exact h.not_ge hb.fullFeedAboveKnee
    · exact h.not_ge hb.noLoadAboveFullFeed
    · exact (hb.fittedWhenOn hon).elim (Bool.eq_false_iff.mp hta) (Bool.eq_false_iff.mp htb)
    · obtain ⟨n, hn⟩ := hb.farNodeWhenFitted hfitted
      exact hnone n hn
    · exact h.not_ge hb.senseDrop
  exact refusedStart c d m s htakes hmask hstopped 11 (by decide) hnamed (trunkChecks_fail hbreaks)

end Sys2Proof.Machine
end

section
/-! O32. The captain's rank and who may claim (R271). Keys rank lexicographically, so no two keys beat each other, and each
rule of the order gives both directions. -/

namespace Sys2Proof.Machine

/-- Keys rank by class, then capacity, then the lower node ID. -/
theorem CapKey.better_iff {a b : CapKey} : a.better b = true ↔
    (a.always = true ∧ b.always = false) ∨
      a.always = b.always ∧ (b.cf < a.cf ∨ a.cf = b.cf ∧ a.node.toNat < b.node.toNat) := by
  unfold CapKey.better
  by_cases hclass : a.always = b.always
  · by_cases hcf : a.cf = b.cf
    · simp [hclass, hcf]
    · simp [hclass, hcf]
  · rw [if_pos (bne_iff_ne.mpr hclass)]
    have hopposite : a.always = !b.always := Bool.eq_not_of_ne hclass
    simp [hopposite]

theorem CapKey.better_asymm {a b : CapKey} (h : a.better b = true) : b.better a = false := by
  rw [Bool.eq_false_iff, ne_eq, CapKey.better_iff]
  rintro (⟨hb, ha⟩ | ⟨hclass, hrank⟩) <;> obtain ⟨ha', hb'⟩ | ⟨hclass', hrank'⟩ := CapKey.better_iff.mp h
  · simp [ha] at ha'
  · simp [ha, hb] at hclass'
  · simp [ha', hb'] at hclass
  · omega

theorem CapKey.better_both {a b : CapKey} (h : a.better b = true) : a.better b = true ∧ b.better a = false :=
  ⟨h, CapKey.better_asymm h⟩

/-! ### Who may claim, by TRK_CAPTAIN: 1 ALWAYS, 0 AUTO, 2 NEVER -/

section
variable {s : State} (hon : s.trkOn = true)
include hon

theorem mayClaim_always (h : s.cfg.get 11 3 = 1) : s.mayClaim = true := by simp [State.mayClaim, hon, h]

theorem mayClaim_auto_iff (h : s.cfg.get 11 3 = 0) : s.mayClaim = true ↔ 0 < s.feedCap := by
  simp [State.mayClaim, hon, h]

end

theorem mayClaim_never {s : State} (h : s.cfg.get 11 3 = 2) : s.mayClaim = false := by simp [State.mayClaim, h]

/-- Settles O32: each rule of the order makes one key better, which the order then denies to the other. -/
theorem captainKeysRankAndClaim : Obligations.CaptainKeysRankAndClaim := by
  refine ⟨fun a b ha hb => ?_, fun a b hclass hcf => ?_, fun a b hclass hcf hnode => ?_, fun s hon => ?_,
    fun s => ⟨rfl, rfl, rfl⟩⟩
  · exact CapKey.better_both (CapKey.better_iff.mpr (.inl ⟨ha, hb⟩))
  · exact CapKey.better_both (CapKey.better_iff.mpr (.inr ⟨hclass, .inl hcf⟩))
  · exact CapKey.better_both (CapKey.better_iff.mpr (.inr ⟨hclass, .inr ⟨hcf, hnode⟩⟩))
  · exact ⟨mayClaim_always hon, mayClaim_auto_iff hon, mayClaim_never⟩

end Sys2Proof.Machine
end

section
/-! O59. One TMR_CAPTURE (R369). `tmrCapture_eq` says once what the capture changes: the timer unit and, by bit 16, the gauge.
Which counters the mask picks is `capturePicks`. -/

namespace Sys2Proof.Machine

/-- The mask picks a counter by its own bit or, in a linked pair, by either bit of the pair (R369). -/
def TimerUnit.capturePicks (u : TimerUnit) (mask : Word) (c : Fin 16) : Bool :=
  mask.getLsbD c.val || ((u.tmr.get (evenOf c)).linked && (mask.getLsbD (evenOf c).val || mask.getLsbD (oddOf c).val))

/-- The count in force before the edge, in the capture register. -/
def Tmr.captured (t : Tmr) : Tmr := { t with cap := t.cnt }

def State.capturedTimers (s : State) (mask : Word) : TimerUnit :=
  { s.timers with
    tmr := Vector.ofFn fun c => if s.timers.capturePicks mask c then (s.timers.tmr.get c).captured else s.timers.tmr.get c
    capTick := s.tickWord, capSub := BitVec.ofNat 8 s.subTick, capSeq := s.timers.capSeq + 1
    fleetCap := if mask.getLsbD 17 then BitVec.ofNat 64 s.fleetUs else s.timers.fleetCap }

def State.capturedGauge (s : State) (mask : Word) : Gauge :=
  if mask.getLsbD 16 then { s.gauge with capSum := s.gauge.sum, capTick := BitVec.ofNat 32 s.gauge.lastTick } else s.gauge

theorem tmrCapture_eq (s : State) (mask : Word) :
    s.tmrCapture mask = { s with timers := s.capturedTimers mask, gauge := s.capturedGauge mask } := by
  unfold State.tmrCapture State.capturedGauge
  cases mask.getLsbD 16 <;> rfl

theorem exec_tmrCapture_hostUp (mask : Word) {s : State} (hup : s.hostUp = true) :
    exec (.tmrCapture mask) s = .next { s with timers := s.capturedTimers mask, gauge := s.capturedGauge mask } :=
  (if_pos hup).trans (congrArg Host.Outcome.next (tmrCapture_eq s mask))

/-! ### The counters -/

section
variable {s : State} {u : TimerUnit} {mask : Word} {c : Fin 16}

theorem capturePicks_iff : u.capturePicks mask c = true ↔ mask.getLsbD c.val = true ∨
    (u.tmr.get (evenOf c)).linked = true ∧ (mask.getLsbD (evenOf c).val = true ∨ mask.getLsbD (oddOf c).val = true) := by
  simp only [TimerUnit.capturePicks, Bool.or_eq_true, Bool.and_eq_true]

/-- A counter whose bit is clear is picked only through a linked pair with a set bit. -/
theorem not_capturePicks (hown : mask.getLsbD c.val = false)
    (hpair : (u.tmr.get (evenOf c)).linked = false ∨
      (mask.getLsbD (evenOf c).val = false ∧ mask.getLsbD (oddOf c).val = false)) :
    ¬ u.capturePicks mask c = true := by
  rw [capturePicks_iff]
  rintro (hset | ⟨hlinked, hbit⟩)
  · exact Bool.eq_false_iff.mp hown hset
  · rcases hpair with hapart | ⟨heven, hodd⟩
    · exact Bool.eq_false_iff.mp hapart hlinked
    · exact hbit.elim (Bool.eq_false_iff.mp heven) (Bool.eq_false_iff.mp hodd)

theorem capturedTimers_picked (h : s.timers.capturePicks mask c = true) :
    (s.capturedTimers mask).tmr.get c = (s.timers.tmr.get c).captured :=
  (vget_ofFn _ c).trans (if_pos h)

theorem capturedTimers_unpicked (h : ¬ s.timers.capturePicks mask c = true) :
    (s.capturedTimers mask).tmr.get c = s.timers.tmr.get c :=
  (vget_ofFn _ c).trans (if_neg h)

end

/-- Settles O59: the two changed groups stand in `exec_tmrCapture_hostUp`; each mask clause is one case of `capturePicks`. -/
theorem capturesTakeOneEdge : Obligations.CapturesTakeOneEdge := by
  intro v s hup
  refine ⟨_, exec_tmrCapture_hostUp v hup, rfl, rfl, rfl, fun c hown => ?_, fun c hlinked hbit => ?_,
    fun c hown hpair => ?_, fun hcoulomb => ?_, fun hcoulomb => ?_, rfl, rfl⟩
  · exact capturedTimers_picked (capturePicks_iff.mpr (.inl hown))
  · exact capturedTimers_picked (capturePicks_iff.mpr (.inr ⟨hlinked, hbit⟩))
  · exact capturedTimers_unpicked (not_capturePicks hown hpair)
  · exact if_pos hcoulomb
  · exact if_neg (Bool.eq_false_iff.mp hcoulomb)

end Sys2Proof.Machine
end

section
/-! O55. The handicap registers (R433, R434, R437). A register's access is decided by the lock alone (`refuses_handicap`);
HND_LOCK's body returns the registers to reset and records it; no part of a boot touches them but the reset that
`State.coldBoot` begins with. -/

namespace Sys2Proof.Machine

/-! ### Access to the registers -/

theorem refuses_handicap (i : Iface) (r : Fin 7) (write : Option Word) (s : State) :
    s.refuses i (0x5000 + 4 * r.val) write =
      if s.hnd.unlocked = true ∧ r.val < 5 then none else if write.isSome then some kindReadOnly else none := by
  have hr : r.val < 7 := r.isLt
  have hwritable : 0x5000 + 4 * r.val < 0x5014 ↔ r.val < 5 := by omega
  unfold State.refuses
  rw [if_neg (by omega), if_neg (by omega), if_neg (by omega), if_neg (by omega), if_neg (by omega), if_neg (by omega),
    if_neg (by omega), if_pos (by omega)]
  simp only [Bool.and_eq_true, decide_eq_true_eq, hwritable]

theorem refuses_handicap_read (i : Iface) (r : Fin 7) (s : State) : s.refuses i (0x5000 + 4 * r.val) none = none := by
  simp [refuses_handicap]

theorem applyWord_handicap (i : Iface) (r : Fin 7) (v : Word) (s : State) :
    s.applyWord i (0x5000 + 4 * r.val) v = s.queueHnd r.val v := by
  have hr : r.val < 7 := r.isLt
  have hreg : (0x5000 + 4 * r.val - 0x5000) / 4 = r.val := by omega
  unfold State.applyWord
  rw [if_neg (by omega), if_neg (by omega), if_neg (by omega), if_neg (by omega), if_neg (by omega), if_neg (by omega),
    if_pos (by omega), hreg]

section
variable {i : Iface} {r : Fin 7} {v : Word} {s : State}

theorem hostWrite_handicap_unlocked (hunlocked : s.hnd.unlocked = true) (hr : r.val < 5) :
    s.hostWrite i (0x5000 + 4 * r.val) v = s.queueHnd r.val v := by
  simp [State.hostWrite, refuses_handicap, hunlocked, hr, applyWord_handicap]

theorem hostWrite_handicap_locked (hlocked : s.hnd.unlocked = false) :
    s.hostWrite i (0x5000 + 4 * r.val) v = s.violate i (0x5000 + 4 * r.val) true kindReadOnly := by
  simp [State.hostWrite, refuses_handicap, hlocked]

theorem exec_hndRegisterWrite_hostUp (hup : s.hostUp = true) :
    exec (.hndRegisterWrite i r v) s = .next (s.hostWrite i (0x5000 + 4 * r.val) v) := if_pos hup

end

/-! ### A violation -/

section
variable (s : State) (i : Iface) (a : Nat) (write : Bool) (kind : BitVec 2)

theorem violate_hnd : (s.violate i a write kind).hnd = s.hnd := rfl

theorem violate_count : (s.violate i a write kind).host.viol.count = bvSatInc s.host.viol.count := by
  unfold State.violate
  cases hvalid : s.host.viol.valid <;> simp [hvalid]

/-- The first violation since a clear is captured. -/
theorem violate_captured (hfirst : s.host.viol.valid = false) :
    (s.violate i a write kind).host.viol.kind = kind ∧ (s.violate i a write kind).host.viol.write = write := by
  simp [State.violate, hfirst]

end

/-! ### HND_LOCK -/

theorem hndRecord_is (s : State) (event : Byte) : s.hndRecord event = { s with ledger := (s.hndRecord event).ledger } :=
  record_is ..

/-- HND_LOCK succeeds with the registers locked, whether or not it makes a record. -/
theorem cmdHndLock_ok (s : State) : ∃ t : State, cmdHndLock s = t.ok ∧ t.hnd = s.hnd.lock ∧ t.host = s.host := by
  cases hwas : s.hnd.unlocked with
  | false => exact ⟨{ s with hnd := s.hnd.lock }, by simp [cmdHndLock, hwas], rfl, rfl⟩
  | true =>
    refine ⟨({ s with hnd := s.hnd.lock }).hndRecord 2, by simp [cmdHndLock, hwas], ?_⟩
    rw [hndRecord_is]
    exact ⟨rfl, rfl⟩

theorem exec_hndLock_normal (c : HostChan) (d : Desc) (s : State) :
    exec (.hndLock c .normal d) s =
      .next (s.takeCmd c .normal 0x0A01 d s.now (fun s => s.serve (0x0A01 : Half).toNat cmdHndLock)) := rfl

theorem hndLock_locks (c : HostChan) (d : Desc) (s : State) (htakes : s.takes c 0x0A01 d) :
    ∃ u, exec (.hndLock c .normal d) s = .next u ∧ Answered u c d 0 ∧ u.hnd = s.hnd.lock := by
  obtain ⟨t, hlock, hhnd, hhost⟩ := cmdHndLock_ok (s.started c 0x0A01 d s.now)
  obtain ⟨u, hnext, hanswer, hsame⟩ := replies2 s t c 0x0A01 d rcOk [] cmdHndLock htakes hlock (congrArg HostIf.mbx hhost)
  have hkept : u.hnd = t.hnd := by rw [hsame]
  exact ⟨u, hnext, hanswer, hkept.trans hhnd⟩

/-! ### Boots: each part leaves the registers alone -/

section
variable (s : State)

theorem record_hnd (ty : Half) (payload : List Byte) : (s.record ty payload).hnd = s.hnd := by rw [record_is]

@[simp] theorem updRecord_hnd (event reason : Nat) (version : Vector Byte 3) : (s.updRecord event reason version).hnd = s.hnd :=
  record_hnd ..

@[simp] theorem modShelf_hnd (i : Fin 2) (f : Shelf → Shelf) : (s.modShelf i f).hnd = s.hnd := rfl
@[simp] theorem journal_hnd (kind a b : Nat) : (s.journal kind a b).hnd = s.hnd := rfl
@[simp] theorem closeSession_hnd (reason : Nat) : (s.closeSession reason).hnd = s.hnd := rfl

@[simp] theorem retireShelf_hnd (i : Fin 2) (reason : Nat) : (s.retireShelf i reason).hnd = s.hnd := by
  unfold State.retireShelf
  dsimp only
  split <;> simp

@[simp] theorem bootFallback_hnd : s.bootFallback.hnd = s.hnd := by
  unfold State.bootFallback
  split
  · exact retireShelf_hnd ..
  · rfl

@[simp] theorem bootConfirmed_hnd : s.bootConfirmed.hnd = s.hnd := by
  unfold State.bootConfirmed
  split <;> rfl

@[simp] theorem selectShelf_hnd (k : Nat) : (State.selectShelf k s).hnd = s.hnd := by
  induction k generalizing s with
  | zero => exact bootConfirmed_hnd s
  | succ k ih =>
    unfold State.selectShelf
    split
    · exact bootConfirmed_hnd s
    · dsimp only
      split
      · rw [ih, retireShelf_hnd]
      · split
        · rfl
        · rw [ih, retireShelf_hnd]

@[simp] theorem bootCatalogue_hnd : s.bootCatalogue.hnd = s.hnd := by
  unfold State.bootCatalogue
  dsimp only
  split
  · split
    · exact foldl_proj State.hnd _ _ _ fun _ _ => record_hnd ..
    · rfl
  · rfl

@[simp] theorem bootLearned_hnd : s.bootLearned.hnd = s.hnd := by
  unfold State.bootLearned
  dsimp only
  split
  · rfl
  · split <;> split <;> rfl

@[simp] theorem bootLedger_hnd : s.bootLedger.hnd = s.hnd := by
  unfold State.bootLedger
  split <;> rfl

@[simp] theorem bootCommon_hnd (cause : Nat) (warm : Bool) : (s.bootCommon cause warm).hnd = s.hnd := by
  obtain ⟨_, _, heq⟩ := bootCommon_is s cause warm
  rw [heq]

@[simp] theorem bridgeGauge_hnd (cause : Nat) : (s.bridgeGauge cause).hnd = s.hnd := by
  unfold State.bridgeGauge
  dsimp only
  split
  · rfl
  · split <;> rfl

@[simp] theorem readStraps_hnd (pins : BootPins) : (s.readStraps pins).hnd = s.hnd := rfl
@[simp] theorem readNodes_hnd (endHold : Bool) : (s.readNodes endHold).hnd = s.hnd := rfl
@[simp] theorem restoreOut_hnd : s.restoreOut.hnd = s.hnd := rfl

theorem coldBoot_hnd (cause : Nat) (pins : BootPins) : (s.coldBoot cause pins).hnd = .zero := by
  unfold State.coldBoot
  dsimp only
  split <;> simp

theorem warmBoot_hnd (cause : Nat) : (s.warmBoot cause).hnd = s.hnd := by simp [State.warmBoot]

end

section
variable {s : State} {cause : Nat}

theorem exec_coldBoot_held {pins : BootPins} (hhub : s.hub.hub = .held cause false) (hfree : s.heldInReset = false)
    (hft : 2 < cause ∨ pins.ftHigh = false) : exec (.coldBoot pins) s = .next (s.coldBoot cause pins) := by
  have hstarts : (decide (cause ≤ 2) && pins.ftHigh) = false := by
    rcases hft with hcause | hlow
    · simp [hcause]
    · simp [hlow]
  change execColdBoot pins s = _
  simp [execColdBoot, hhub, hfree, hstarts]

theorem exec_warmBoot_held (hhub : s.hub.hub = .held cause true) (hfree : s.heldInReset = false) :
    exec (.warmBoot true) s = .next (s.warmBoot cause) := by
  change execWarmBoot true s = _
  simp [execWarmBoot, hhub, hfree]

end

/-- Settles O55: the lock decides every access, HND_LOCK leaves `Handicap.lock`, and the two boots leave the reset values and
the registers as they were. -/
theorem handicapRegistersFollowTheLock : Obligations.HandicapRegistersFollowTheLock := by
  refine ⟨refuses_handicap_read, fun i r v s hup hunlocked hr => ?_, fun i r v s hup hlocked => ?_,
    fun c d s htakes => ?_, fun c pins s hhub hfree hft => ?_, fun c s hhub hfree => ?_⟩
  · exact ⟨_, exec_hndRegisterWrite_hostUp hup, hostWrite_handicap_unlocked hunlocked hr⟩
  · rw [exec_hndRegisterWrite_hostUp hup, hostWrite_handicap_locked hlocked]
    exact ⟨_, rfl, violate_hnd .., violate_count .., violate_captured s i _ true kindReadOnly⟩
  · obtain ⟨u, hnext, hanswer, hhnd⟩ := hndLock_locks c d s htakes
    exact ⟨u, hnext, hanswer, congrArg Handicap.unlocked hhnd, hhnd⟩
  · exact ⟨_, exec_coldBoot_held hhub hfree hft, coldBoot_hnd ..⟩
  · exact ⟨_, exec_warmBoot_held hhub hfree, warmBoot_hnd ..⟩

end Sys2Proof.Machine
end

section
/-! What every command keeps, from the lemma each has in Laws/: the invariant, the queue, the unit identity, the tick, the SAFE
latch. -/

namespace Sys2Proof

/-- The commands that may move the tick index: a decision, a wake, loss of VPWR (R6, R373). -/
def Instr.movesTick : Instr → Bool
  | .vpwrLoss _ | .decisionTick .. | .firstDecision .. | .wakeNShipWake _ | .connectorWake .. | .dormantExit .. => true
  | _ => false

/-- The commands that may clear the SAFE latch: SAFE_CLEAR, a decision that takes it, loss of the always-on domain (R21). -/
def Instr.mayClearLatch : Instr → Bool
  | .safeClear .. | .vpwrLoss true | .decisionTick .. | .firstDecision .. => true
  | _ => false

end Sys2Proof

namespace Sys2Proof.Machine

/-- No branch of any meaning ends in a fault or a refusal. -/
theorem exec_answers (c : Instr) (s : State) : ∃ t, exec c s = .next t := by
  cases c with
  | xtalRestored | lanePeriodBoundary | stackSyncEdge | syncLoss | sinkWaitCapTimeout | noResponseTimeout | sourceCapResend |
  eprEntryTimeout | cableDiscoverRetry | sourceTransitionStart | beaconReceived | bulletinReceived | reportReceived |
  grantReceived | claimReceived | updateFrameReceived | updateAckReceived | kickoffReceived | messageReceived | sysNop |
  sysReset | safeEnter | safeClear | shipEnter | dormantEnter | funcStop | cfgWrite | cfgRead | funcStart | funcAbort |
  laneStop | laneStart | phaseReturn | phaseRetire | laneStatus | chgSetCurrent | chgHold | chgRestart | chgStatus |
  srcUnlock | portStatus | portAction | trkSend | trkStatus | fcstStatus | telSubscribe | telUnsubscribe | ledgerInfo |
  ledgerRead | updOpen | updBlock | updSeal | updKickoff | updRelay | updConfirm | updAbort | updStatus | thermRelease |
  hndUnlock | hndLock | diagRead | hubLockup | psTransitionTimeout | eprKeepaliveWatchExpiry => exact ⟨_, rfl⟩
  | kickoffTimeReached =>
    change ∃ t, execKickoffTimeReached s = .next t
    unfold execKickoffTimeReached
    (repeat' split) <;> exact ⟨_, rfl⟩
  | _ =>
    dsimp only [exec,
      execPowerOn, execPackConnect, execVpwrLoss, execRailOverload, execVioLost, execVioReturn, execXtalLost,
      execDecisionTick, execSwapHoldExpiry, execDieFrameApply, execDieUnresponsive, execSafeLatchSet, execSysOvershootSafe,
      execBatteryOvSafe, execBatfetCurrentSafe, execWakeNShipWake, execConnectorWake, execDormantExit, execSpuriousWake,
      execDormantAutoEntry, execDormantSequenceContinue, execDormantPowerDown, execShipDelayExpiry, execShipBatfetOpen,
      execShipFetOpen, execIdealDiodeClose, execIdealDiodeOpen, execSoftConnectTimeout, execSoftConnectComplete,
      execLimpBackstopClose, execDiodeControlEnable, execBalanceTrimUpdate, execPeakLimitTrip, execCurrentLimitEvent,
      execNegCurrentLimit, execStageFault, execTruncation, execTruncationRelease, execSkipEntry, execSkipExitComparator,
      execSkipExit, execLaneFirstPulses, execInRegulation, execLaneStopComplete, execWarmRefresh, execColdAdmissionComplete,
      execShedBegin, execShedEnd, execShedInhibitExpiry, execBenchGoCold, execFillPeriodEnd, execTrimSave, execPhaseOut,
      execHeadroomHoldRelease, execStackSyncLocked, execAcinQualified, execPairClosed, execFarNodeDrainDone,
      execDrainTimeout, execSagLimitLearned, execSagProbe, execPanelTrack, execPanelScan, execProtectionTrip,
      execRequalifyAfterTrip, execLockoutEndLowVoltage, execSourceLost, execFarNodeLost, execCcAttach, execSinkDetach,
      execSourceDetach, execDrpToggle, execTrySnkTimeout, execErrorRecoveryEnd, execBc12DetectionDone, execPdMessageReceived,
      execSourceCapabilitiesReceived, execRequestReceived, execVoltageTransitionAccept, execVendorModeEntry,
      execPdResponseTimeout, execPpsRequestRepeat, execEprKeepalive, execVconnLimit, execFeedTargetReached,
      execVbusDischargeDone, execHardResetReceived, execSourceRecover, execFrsSignalDetected, execFrsVbusFall,
      execFrsSignalEnd, execHousekeepingSlot, execHousekeepingRound, execShutdownRelease, execShutdownSlotWrite,
      execChargePhaseAdvance, execPreTimerExpiry, execFastTimerExpiry, execThermalRestart, execBackstopInterval,
      execBackstopTrip, execBackstopReset, execBatOvSuspend, execPresenceQualified, execRemovalIndication,
      execStatPatternTimer, execGaugeSample, execRestAnchor, execGaugeRecordPeriodic, execLearnedStateCompaction,
      execForecastFrameStart, execForecastFrameHandover, execBlockStart, execForecastUnlock, execPrepositionAction,
      execBiasHoldExpiry, execSysDroopTrip, execHdrmDroopRelease, execPassPairJoin, execEnergiseTimeout, execJoinRetry,
      execTrunkFrameReceived, execHelloReceived, execHelloSend, execBeaconSend, execBulletinSend, execReportSend,
      execUnrosteredGrantSend, execClaimSend, execCaptainElected, execCaptainLost, execCaptainStepDown, execLinkDown,
      execGrantEffective, execLeaseEnd, execRosterEntryStale, execTrunkFeedStart, execTrunkFeedStop, execTrunkBusQualified,
      execDroopOnset, execDroopClear, execUpdateFragmentSend, execUpdateAckSend, execKickoffSend, execTelemetryPublish,
      execTelFreezeTimeout, execTelBlockRead, execCapture, execRelease, execSpiFrame, execI2cTransfer, execUartFrame,
      execPost, execUrgent, execCancel, execResync, execDbMaskWrite, execHdbOutClear, execHdbMaskWrite, execOverrunRead,
      execViolClear, execRegisterWrite, execHndRegisterWrite, execHandicapDivCycle, execTmrCapture, execTimerCompareMatch,
      execTimerOverflow, execWdgCheckin, execWdgKey, execWdgLock, execWatchdogExpiry, execResetNAssert, execHubHaltDetected,
      execFlashHoldRelease, execColdBoot, execWarmBoot, execFirstDecision, execKeeperHoldExpiry, execStackControlFrame,
      execStackStateFrame, execStackMemberLost, execMasterLost, execMasterlessTimeout, execFlashOperationComplete,
      execLedgerWrite, execLedgerSectorErase, execShelfSectorBuild, execStagingErase, execHealthWindowEnd, execWakeNLow,
      execSinkVbusQualified, execRailRecovered, execUartFrameGap, execTrunkQueueSend]
    (repeat' split) <;> exact ⟨_, rfl⟩

/-- Settles O2: `exec_answers`. -/
theorem everyCommandAnswersANextState : Obligations.EveryCommandAnswersANextState := exec_answers

theorem step_cons (c : Instr) (rest : List Instr) (s : State) :
    step { s with pending := c :: rest } = exec c { s with pending := rest } := rfl

theorem step_idle {s : State} (h : s.pending = []) : step s = .next s := by
  unfold step
  rw [h]

/-- Settles O1: the two equations of `step`. -/
theorem stepRunsTheFrontCommand : Obligations.StepRunsTheFrontCommand := ⟨step_cons, fun _ => step_idle⟩

/-- A command that leaves the tick keeps everything of `KeptOf`; the SAFE latch is held where the command may not clear it. -/
theorem exec_kept {w0 : Held} {l0 : Bool} (i : Instr) {s : State} (hk : KeptOf w0 l0 s)
    (hlatch : i.mayClearLatch = true → l0 = false) (htick : i.movesTick = false) : KeptOut w0 l0 (exec i s) := by
  cases i with
  | vpwrLoss | decisionTick | firstDecision | wakeNShipWake | connectorWake | dormantExit => cases htick
  | safeClear =>
    obtain rfl := hlatch rfl
    exact execSafeClear_kept (hk := hk) ..
  | powerOn => exact execPowerOn_kept (hk := hk) ..
  | packConnect => exact execPackConnect_kept (hk := hk) ..
  | railOverload => exact execRailOverload_kept (hk := hk) ..
  | vioLost => exact execVioLost_kept (hk := hk) ..
  | vioReturn => exact execVioReturn_kept (hk := hk) ..
  | xtalLost => exact execXtalLost_kept (hk := hk) ..
  | xtalRestored => exact execXtalRestored_kept (hk := hk) ..
  | swapHoldExpiry => exact execSwapHoldExpiry_kept (hk := hk) ..
  | dieFrameApply => exact execDieFrameApply_kept (hk := hk) ..
  | dieUnresponsive => exact execDieUnresponsive_kept (hk := hk) ..
  | safeLatchSet => exact execSafeLatchSet_kept (hk := hk) ..
  | sysOvershootSafe => exact execSysOvershootSafe_kept (hk := hk) ..
  | batteryOvSafe => exact execBatteryOvSafe_kept (hk := hk) ..
  | batfetCurrentSafe => exact execBatfetCurrentSafe_kept (hk := hk) ..
  | spuriousWake => exact execSpuriousWake_kept (hk := hk) ..
  | dormantAutoEntry => exact execDormantAutoEntry_kept (hk := hk) ..
  | dormantSequenceContinue => exact execDormantSequenceContinue_kept (hk := hk) ..
  | dormantPowerDown => exact execDormantPowerDown_kept (hk := hk) ..
  | shipDelayExpiry => exact execShipDelayExpiry_kept (hk := hk) ..
  | shipBatfetOpen => exact execShipBatfetOpen_kept (hk := hk) ..
  | shipFetOpen => exact execShipFetOpen_kept (hk := hk) ..
  | idealDiodeClose => exact execIdealDiodeClose_kept (hk := hk) ..
  | idealDiodeOpen => exact execIdealDiodeOpen_kept (hk := hk) ..
  | softConnectTimeout => exact execSoftConnectTimeout_kept (hk := hk) ..
  | softConnectComplete => exact execSoftConnectComplete_kept (hk := hk) ..
  | limpBackstopClose => exact execLimpBackstopClose_kept (hk := hk) ..
  | diodeControlEnable => exact execDiodeControlEnable_kept (hk := hk) ..
  | lanePeriodBoundary => exact execLanePeriodBoundary_kept (hk := hk) ..
  | balanceTrimUpdate => exact execBalanceTrimUpdate_kept (hk := hk) ..
  | peakLimitTrip => exact execPeakLimitTrip_kept (hk := hk) ..
  | currentLimitEvent => exact execCurrentLimitEvent_kept (hk := hk) ..
  | negCurrentLimit => exact execNegCurrentLimit_kept (hk := hk) ..
  | stageFault => exact execStageFault_kept (hk := hk) ..
  | truncation => exact execTruncation_kept (hk := hk) ..
  | truncationRelease => exact execTruncationRelease_kept (hk := hk) ..
  | skipEntry => exact execSkipEntry_kept (hk := hk) ..
  | skipExitComparator => exact execSkipExitComparator_kept (hk := hk) ..
  | skipExit => exact execSkipExit_kept (hk := hk) ..
  | laneFirstPulses => exact execLaneFirstPulses_kept (hk := hk) ..
  | inRegulation => exact execInRegulation_kept (hk := hk) ..
  | laneStopComplete => exact execLaneStopComplete_kept (hk := hk) ..
  | warmRefresh => exact execWarmRefresh_kept (hk := hk) ..
  | coldAdmissionComplete => exact execColdAdmissionComplete_kept (hk := hk) ..
  | shedBegin => exact execShedBegin_kept (hk := hk) ..
  | shedEnd => exact execShedEnd_kept (hk := hk) ..
  | shedInhibitExpiry => exact execShedInhibitExpiry_kept (hk := hk) ..
  | benchGoCold => exact execBenchGoCold_kept (hk := hk) ..
  | fillPeriodEnd => exact execFillPeriodEnd_kept (hk := hk) ..
  | trimSave => exact execTrimSave_kept (hk := hk) ..
  | phaseOut => exact execPhaseOut_kept (hk := hk) ..
  | headroomHoldRelease => exact execHeadroomHoldRelease_kept (hk := hk) ..
  | stackSyncEdge => exact execStackSyncEdge_kept (hk := hk) ..
  | stackSyncLocked => exact execStackSyncLocked_kept (hk := hk) ..
  | syncLoss => exact execSyncLoss_kept (hk := hk) ..
  | acinQualified => exact execAcinQualified_kept (hk := hk) ..
  | pairClosed => exact execPairClosed_kept (hk := hk) ..
  | farNodeDrainDone => exact execFarNodeDrainDone_kept (hk := hk) ..
  | drainTimeout => exact execDrainTimeout_kept (hk := hk) ..
  | sagLimitLearned => exact execSagLimitLearned_kept (hk := hk) ..
  | sagProbe => exact execSagProbe_kept (hk := hk) ..
  | panelTrack => exact execPanelTrack_kept (hk := hk) ..
  | panelScan => exact execPanelScan_kept (hk := hk) ..
  | protectionTrip => exact execProtectionTrip_kept (hk := hk) ..
  | requalifyAfterTrip => exact execRequalifyAfterTrip_kept (hk := hk) ..
  | lockoutEndLowVoltage => exact execLockoutEndLowVoltage_kept (hk := hk) ..
  | sourceLost => exact execSourceLost_kept (hk := hk) ..
  | farNodeLost => exact execFarNodeLost_kept (hk := hk) ..
  | ccAttach => exact execCcAttach_kept (hk := hk) ..
  | sinkDetach => exact execSinkDetach_kept (hk := hk) ..
  | sourceDetach => exact execSourceDetach_kept (hk := hk) ..
  | drpToggle => exact execDrpToggle_kept (hk := hk) ..
  | trySnkTimeout => exact execTrySnkTimeout_kept (hk := hk) ..
  | errorRecoveryEnd => exact execErrorRecoveryEnd_kept (hk := hk) ..
  | bc12DetectionDone => exact execBc12DetectionDone_kept (hk := hk) ..
  | pdMessageReceived => exact execPdMessageReceived_kept (hk := hk) ..
  | sourceCapabilitiesReceived => exact execSourceCapabilitiesReceived_kept (hk := hk) ..
  | requestReceived => exact execRequestReceived_kept (hk := hk) ..
  | voltageTransitionAccept => exact execVoltageTransitionAccept_kept (hk := hk) ..
  | vendorModeEntry => exact execVendorModeEntry_kept (hk := hk) ..
  | pdResponseTimeout => exact execPdResponseTimeout_kept (hk := hk) ..
  | sinkWaitCapTimeout => exact execSinkWaitCapTimeout_kept (hk := hk) ..
  | noResponseTimeout => exact execNoResponseTimeout_kept (hk := hk) ..
  | sourceCapResend => exact execSourceCapResend_kept (hk := hk) ..
  | ppsRequestRepeat => exact execPpsRequestRepeat_kept (hk := hk) ..
  | eprKeepalive => exact execEprKeepalive_kept (hk := hk) ..
  | eprEntryTimeout => exact execEprEntryTimeout_kept (hk := hk) ..
  | cableDiscoverRetry => exact execCableDiscoverRetry_kept (hk := hk) ..
  | vconnLimit => exact execVconnLimit_kept (hk := hk) ..
  | sourceTransitionStart => exact execSourceTransitionStart_kept (hk := hk) ..
  | feedTargetReached => exact execFeedTargetReached_kept (hk := hk) ..
  | vbusDischargeDone => exact execVbusDischargeDone_kept (hk := hk) ..
  | hardResetReceived => exact execHardResetReceived_kept (hk := hk) ..
  | sourceRecover => exact execSourceRecover_kept (hk := hk) ..
  | frsSignalDetected => exact execFrsSignalDetected_kept (hk := hk) ..
  | frsVbusFall => exact execFrsVbusFall_kept (hk := hk) ..
  | frsSignalEnd => exact execFrsSignalEnd_kept (hk := hk) ..
  | housekeepingSlot => exact execHousekeepingSlot_kept (hk := hk) ..
  | housekeepingRound => exact execHousekeepingRound_kept (hk := hk) ..
  | shutdownRelease => exact execShutdownRelease_kept (hk := hk) ..
  | shutdownSlotWrite => exact execShutdownSlotWrite_kept (hk := hk) ..
  | chargePhaseAdvance => exact execChargePhaseAdvance_kept (hk := hk) ..
  | preTimerExpiry => exact execPreTimerExpiry_kept (hk := hk) ..
  | fastTimerExpiry => exact execFastTimerExpiry_kept (hk := hk) ..
  | thermalRestart => exact execThermalRestart_kept (hk := hk) ..
  | backstopInterval => exact execBackstopInterval_kept (hk := hk) ..
  | backstopTrip => exact execBackstopTrip_kept (hk := hk) ..
  | backstopReset => exact execBackstopReset_kept (hk := hk) ..
  | batOvSuspend => exact execBatOvSuspend_kept (hk := hk) ..
  | presenceQualified => exact execPresenceQualified_kept (hk := hk) ..
  | removalIndication => exact execRemovalIndication_kept (hk := hk) ..
  | statPatternTimer => exact execStatPatternTimer_kept (hk := hk) ..
  | gaugeSample => exact execGaugeSample_kept (hk := hk) ..
  | restAnchor => exact execRestAnchor_kept (hk := hk) ..
  | gaugeRecordPeriodic => exact execGaugeRecordPeriodic_kept (hk := hk) ..
  | learnedStateCompaction => exact execLearnedStateCompaction_kept (hk := hk) ..
  | forecastFrameStart => exact execForecastFrameStart_kept (hk := hk) ..
  | forecastFrameHandover => exact execForecastFrameHandover_kept (hk := hk) ..
  | blockStart => exact execBlockStart_kept (hk := hk) ..
  | forecastUnlock => exact execForecastUnlock_kept (hk := hk) ..
  | prepositionAction => exact execPrepositionAction_kept (hk := hk) ..
  | biasHoldExpiry => exact execBiasHoldExpiry_kept (hk := hk) ..
  | sysDroopTrip => exact execSysDroopTrip_kept (hk := hk) ..
  | hdrmDroopRelease => exact execHdrmDroopRelease_kept (hk := hk) ..
  | passPairJoin => exact execPassPairJoin_kept (hk := hk) ..
  | energiseTimeout => exact execEnergiseTimeout_kept (hk := hk) ..
  | joinRetry => exact execJoinRetry_kept (hk := hk) ..
  | trunkFrameReceived => exact execTrunkFrameReceived_kept (hk := hk) ..
  | helloReceived => exact execHelloReceived_kept (hk := hk) ..
  | beaconReceived => exact execBeaconReceived_kept (hk := hk) ..
  | bulletinReceived => exact execBulletinReceived_kept (hk := hk) ..
  | reportReceived => exact execReportReceived_kept (hk := hk) ..
  | grantReceived => exact execGrantReceived_kept (hk := hk) ..
  | claimReceived => exact execClaimReceived_kept (hk := hk) ..
  | updateFrameReceived => exact execUpdateFrameReceived_kept (hk := hk) ..
  | updateAckReceived => exact execUpdateAckReceived_kept (hk := hk) ..
  | kickoffReceived => exact execKickoffReceived_kept (hk := hk) ..
  | messageReceived => exact execMessageReceived_kept (hk := hk) ..
  | helloSend => exact execHelloSend_kept (hk := hk) ..
  | beaconSend => exact execBeaconSend_kept (hk := hk) ..
  | bulletinSend => exact execBulletinSend_kept (hk := hk) ..
  | reportSend => exact execReportSend_kept (hk := hk) ..
  | unrosteredGrantSend => exact execUnrosteredGrantSend_kept (hk := hk) ..
  | claimSend => exact execClaimSend_kept (hk := hk) ..
  | captainElected => exact execCaptainElected_kept (hk := hk) ..
  | captainLost => exact execCaptainLost_kept (hk := hk) ..
  | captainStepDown => exact execCaptainStepDown_kept (hk := hk) ..
  | linkDown => exact execLinkDown_kept (hk := hk) ..
  | grantEffective => exact execGrantEffective_kept (hk := hk) ..
  | leaseEnd => exact execLeaseEnd_kept (hk := hk) ..
  | rosterEntryStale => exact execRosterEntryStale_kept (hk := hk) ..
  | trunkFeedStart => exact execTrunkFeedStart_kept (hk := hk) ..
  | trunkFeedStop => exact execTrunkFeedStop_kept (hk := hk) ..
  | trunkBusQualified => exact execTrunkBusQualified_kept (hk := hk) ..
  | droopOnset => exact execDroopOnset_kept (hk := hk) ..
  | droopClear => exact execDroopClear_kept (hk := hk) ..
  | updateFragmentSend => exact execUpdateFragmentSend_kept (hk := hk) ..
  | updateAckSend => exact execUpdateAckSend_kept (hk := hk) ..
  | kickoffSend => exact execKickoffSend_kept (hk := hk) ..
  | telemetryPublish => exact execTelemetryPublish_kept (hk := hk) ..
  | telFreezeTimeout => exact execTelFreezeTimeout_kept (hk := hk) ..
  | telBlockRead => exact execTelBlockRead_kept (hk := hk) ..
  | capture => exact execCapture_kept (hk := hk) ..
  | release => exact execRelease_kept (hk := hk) ..
  | spiFrame => exact execSpiFrame_kept (hk := hk) ..
  | i2cTransfer => exact execI2cTransfer_kept (hk := hk) ..
  | uartFrame => exact execUartFrame_kept (hk := hk) ..
  | post => exact execPost_kept (hk := hk) ..
  | urgent => exact execUrgent_kept (hk := hk) ..
  | cancel => exact execCancel_kept (hk := hk) ..
  | resync => exact execResync_kept (hk := hk) ..
  | dbMaskWrite => exact execDbMaskWrite_kept (hk := hk) ..
  | hdbOutClear => exact execHdbOutClear_kept (hk := hk) ..
  | hdbMaskWrite => exact execHdbMaskWrite_kept (hk := hk) ..
  | overrunRead => exact execOverrunRead_kept (hk := hk) ..
  | violClear => exact execViolClear_kept (hk := hk) ..
  | registerWrite => exact execRegisterWrite_kept (hk := hk) ..
  | sysNop => exact execSysNop_kept (hk := hk) ..
  | sysReset => exact execSysReset_kept (hk := hk) ..
  | safeEnter => exact execSafeEnter_kept (hk := hk) ..
  | shipEnter => exact execShipEnter_kept (hk := hk) ..
  | dormantEnter => exact execDormantEnter_kept (hk := hk) ..
  | funcStop => exact execFuncStop_kept (hk := hk) ..
  | cfgWrite => exact execCfgWrite_kept (hk := hk) ..
  | cfgRead => exact execCfgRead_kept (hk := hk) ..
  | funcStart => exact execFuncStart_kept (hk := hk) ..
  | funcAbort => exact execFuncAbort_kept (hk := hk) ..
  | laneStop => exact execLaneStop_kept (hk := hk) ..
  | laneStart => exact execLaneStart_kept (hk := hk) ..
  | phaseReturn => exact execPhaseReturn_kept (hk := hk) ..
  | phaseRetire => exact execPhaseRetire_kept (hk := hk) ..
  | laneStatus => exact execLaneStatus_kept (hk := hk) ..
  | chgSetCurrent => exact execChgSetCurrent_kept (hk := hk) ..
  | chgHold => exact execChgHold_kept (hk := hk) ..
  | chgRestart => exact execChgRestart_kept (hk := hk) ..
  | chgStatus => exact execChgStatus_kept (hk := hk) ..
  | srcUnlock => exact execSrcUnlock_kept (hk := hk) ..
  | portStatus => exact execPortStatus_kept (hk := hk) ..
  | portAction => exact execPortAction_kept (hk := hk) ..
  | trkSend => exact execTrkSend_kept (hk := hk) ..
  | trkStatus => exact execTrkStatus_kept (hk := hk) ..
  | fcstStatus => exact execFcstStatus_kept (hk := hk) ..
  | telSubscribe => exact execTelSubscribe_kept (hk := hk) ..
  | telUnsubscribe => exact execTelUnsubscribe_kept (hk := hk) ..
  | ledgerInfo => exact execLedgerInfo_kept (hk := hk) ..
  | ledgerRead => exact execLedgerRead_kept (hk := hk) ..
  | updOpen => exact execUpdOpen_kept (hk := hk) ..
  | updBlock => exact execUpdBlock_kept (hk := hk) ..
  | updSeal => exact execUpdSeal_kept (hk := hk) ..
  | updKickoff => exact execUpdKickoff_kept (hk := hk) ..
  | updRelay => exact execUpdRelay_kept (hk := hk) ..
  | updConfirm => exact execUpdConfirm_kept (hk := hk) ..
  | updAbort => exact execUpdAbort_kept (hk := hk) ..
  | updStatus => exact execUpdStatus_kept (hk := hk) ..
  | thermRelease => exact execThermRelease_kept (hk := hk) ..
  | hndUnlock => exact execHndUnlock_kept (hk := hk) ..
  | hndLock => exact execHndLock_kept (hk := hk) ..
  | diagRead => exact execDiagRead_kept (hk := hk) ..
  | hndRegisterWrite => exact execHndRegisterWrite_kept (hk := hk) ..
  | handicapDivCycle => exact execHandicapDivCycle_kept (hk := hk) ..
  | tmrCapture => exact execTmrCapture_kept (hk := hk) ..
  | timerCompareMatch => exact execTimerCompareMatch_kept (hk := hk) ..
  | timerOverflow => exact execTimerOverflow_kept (hk := hk) ..
  | wdgCheckin => exact execWdgCheckin_kept (hk := hk) ..
  | wdgKey => exact execWdgKey_kept (hk := hk) ..
  | wdgLock => exact execWdgLock_kept (hk := hk) ..
  | watchdogExpiry => exact execWatchdogExpiry_kept (hk := hk) ..
  | resetNAssert => exact execResetNAssert_kept (hk := hk) ..
  | hubLockup => exact execHubLockup_kept (hk := hk) ..
  | hubHaltDetected => exact execHubHaltDetected_kept (hk := hk) ..
  | flashHoldRelease => exact execFlashHoldRelease_kept (hk := hk) ..
  | coldBoot => exact execColdBoot_kept (hk := hk) ..
  | warmBoot => exact execWarmBoot_kept (hk := hk) ..
  | keeperHoldExpiry => exact execKeeperHoldExpiry_kept (hk := hk) ..
  | stackControlFrame => exact execStackControlFrame_kept (hk := hk) ..
  | stackStateFrame => exact execStackStateFrame_kept (hk := hk) ..
  | stackMemberLost => exact execStackMemberLost_kept (hk := hk) ..
  | masterLost => exact execMasterLost_kept (hk := hk) ..
  | masterlessTimeout => exact execMasterlessTimeout_kept (hk := hk) ..
  | flashOperationComplete => exact execFlashOperationComplete_kept (hk := hk) ..
  | ledgerWrite => exact execLedgerWrite_kept (hk := hk) ..
  | ledgerSectorErase => exact execLedgerSectorErase_kept (hk := hk) ..
  | shelfSectorBuild => exact execShelfSectorBuild_kept (hk := hk) ..
  | stagingErase => exact execStagingErase_kept (hk := hk) ..
  | kickoffTimeReached => exact execKickoffTimeReached_kept (hk := hk) ..
  | healthWindowEnd => exact execHealthWindowEnd_kept (hk := hk) ..
  | wakeNLow => exact execWakeNLow_kept (hk := hk) ..
  | sinkVbusQualified => exact execSinkVbusQualified_kept (hk := hk) ..
  | railRecovered => exact execRailRecovered_kept (hk := hk) ..
  | uartFrameGap => exact execUartFrameGap_kept (hk := hk) ..
  | trunkQueueSend => exact execTrunkQueueSend_kept (hk := hk) ..
  | psTransitionTimeout => exact execPsTransitionTimeout_kept (hk := hk) ..
  | eprKeepaliveWatchExpiry => exact execEprKeepaliveWatchExpiry_kept (hk := hk) ..

/-- A command that may move the tick keeps the rest. -/
theorem exec_keptMoved {w0 : Held} {l0 : Bool} (i : Instr) {s : State} (hk : KeptOf w0 l0 s)
    (hlatch : i.mayClearLatch = true → l0 = false) (htick : i.movesTick = true) : KeptMoved w0 l0 (exec i s) := by
  cases i with
  | vpwrLoss vaonLost => exact execVpwrLoss_kept vaonLost s hk fun h => hlatch (by rw [h]; rfl)
  | decisionTick =>
    obtain rfl := hlatch rfl
    exact execDecisionTick_kept (hk := hk) ..
  | firstDecision =>
    obtain rfl := hlatch rfl
    exact execFirstDecision_kept (hk := hk) ..
  | wakeNShipWake => exact execWakeNShipWake_kept (hk := hk) ..
  | connectorWake => exact execConnectorWake_kept (hk := hk) ..
  | dormantExit => exact execDormantExit_kept (hk := hk) ..
  | _ => cases htick

theorem exec_keeps {w0 : Held} {l0 : Bool} (i : Instr) {s t : State} (hk : KeptOf w0 l0 s)
    (hlatch : i.mayClearLatch = true → l0 = false) (h : exec i s = .next t) : ∃ n, KeptOf (w0.goTo n) l0 t := by
  cases htick : i.movesTick
  · exact ⟨w0.2.1, keptOut_next (exec_kept i hk hlatch htick) h⟩
  · exact keptMoved_of (exec_keptMoved i hk hlatch htick) h

theorem State.Inv.kept {s : State} (h : s.Inv) (l0 : Bool) (hsafe : l0 = true → s.aon.safeLatch = true) :
    KeptOf (s.pending, s.time.tick, s.otp.unit) l0 s := ⟨rfl, h.1, h.2, hsafe⟩

/-- Every command keeps the invariant, the queue and the unit identity. -/
theorem exec_inv {i : Instr} {s t : State} (hinv : s.Inv) (h : exec i s = .next t) :
    t.Inv ∧ t.pending = s.pending ∧ t.otp.unit = s.otp.unit := by
  obtain ⟨n, hheld, hmem, hqueue, -⟩ := exec_keeps i (hinv.kept false (by simp)) (fun _ => rfl) h
  obtain ⟨hpending, -, hunit⟩ : t.pending = s.pending ∧ t.time.tick = n ∧ t.otp.unit = s.otp.unit := by
    simpa [Held.goTo] using hheld
  exact ⟨⟨hmem, hqueue⟩, hpending, hunit⟩

/-- Settles O3: an idle step changes nothing, any other is `exec_inv` on the state without the command. -/
theorem everyStepKeepsTheInvariant : Obligations.EveryStepKeepsTheInvariant := by
  refine ⟨fun s t hinv h => ?_, fun c s t hinv h => (exec_inv hinv h).2⟩
  cases hqueue : s.pending with
  | nil =>
    rw [step_idle hqueue] at h
    cases h
    exact hinv
  | cons c rest =>
    have hstep : step s = exec c { s with pending := rest } := by
      unfold step
      rw [hqueue]
    have hrest : ({ s with pending := rest } : State).Inv := hinv
    exact (exec_inv hrest (hstep ▸ h)).1

theorem Instr.mayClearLatch_cases {i : Instr} (h : i.mayClearLatch = true) : (∃ c l d, i = .safeClear c l d) ∨ i = .vpwrLoss true ∨
    (∃ v l, i = .decisionTick v l) ∨ ∃ v b y, i = .firstDecision v b y := by
  cases i with
  | safeClear c l d => exact .inl ⟨c, l, d, rfl⟩
  | vpwrLoss x =>
    cases x
    · cases h
    · exact .inr (.inl rfl)
  | decisionTick v l => exact .inr (.inr (.inl ⟨v, l, rfl⟩))
  | firstDecision v b y => exact .inr (.inr (.inr ⟨v, b, y, rfl⟩))
  | _ => cases h

/-- Settles O4: a command that may not clear the latch keeps it set. -/
theorem theSafeLatchStaysSet : Obligations.TheSafeLatchStaysSet := by
  intro i s t hinv hset h
  cases hclear : i.mayClearLatch
  · obtain ⟨n, -, -, -, hlatch⟩ := exec_keeps i (hinv.kept true fun _ => hset) (by simp [hclear]) h
    exact .inl (hlatch rfl)
  · exact .inr (Instr.mayClearLatch_cases hclear)

theorem Instr.movesTick_cases {i : Instr} (h : i.movesTick = true) : (∃ x, i = .vpwrLoss x) ∨ (∃ v l, i = .decisionTick v l) ∨
    (∃ v b y, i = .firstDecision v b y) ∨ (∃ w, i = .wakeNShipWake w) ∨ (∃ c v w, i = .connectorWake c v w) ∨
    ∃ y w, i = .dormantExit y w := by
  cases i with
  | vpwrLoss x => exact .inl ⟨x, rfl⟩
  | decisionTick v l => exact .inr (.inl ⟨v, l, rfl⟩)
  | firstDecision v b y => exact .inr (.inr (.inl ⟨v, b, y, rfl⟩))
  | wakeNShipWake w => exact .inr (.inr (.inr (.inl ⟨w, rfl⟩)))
  | connectorWake c v w => exact .inr (.inr (.inr (.inr (.inl ⟨c, v, w, rfl⟩))))
  | dormantExit y w => exact .inr (.inr (.inr (.inr (.inr ⟨y, w, rfl⟩))))
  | _ => cases h

/-- A DORMANT exit wakes the device or leaves the state alone. -/
theorem execDormantExit_tick {why : DormantExit} {w : WakeInfo} {s t : State} (h : execDormantExit why w s = .next t) :
    t.time.tick = s.time.tick ∨ t.time.tick = s.time.tick + w.intervalUs / 10 := by
  unfold execDormantExit at h
  split at h
  · split at h
    · cases h
      exact .inr (wake_tick ..)
    · split at h <;> cases h
      · exact .inr (wake_tick ..)
      · exact .inl rfl
  · cases h
    exact .inl rfl

/-- Settles O5: `exec_kept` for the commands that hold the tick, `execDormantExit_tick` for the exit. -/
theorem fewCommandsMoveTheTick : Obligations.FewCommandsMoveTheTick := by
  refine ⟨fun i s t hinv h hmoved => ?_, fun s t why w h => execDormantExit_tick h⟩
  cases htick : i.movesTick
  · obtain ⟨hheld, -⟩ := keptOut_next (exec_kept i (hinv.kept false (by simp)) (fun _ => rfl) htick) h
    exact absurd (congrArg (fun p : Held => p.2.1) hheld) hmoved
  · exact Instr.movesTick_cases htick

theorem reset_inv : State.reset.Inv := ⟨⟨List.Pairwise.nil, by simp [State.reset, HostIf.zero]⟩, by simp [State.reset, Ledger.zero]⟩

/-- Settles O8: the fields of `State.reset` as its definition gives them. -/
theorem resetLeavesTheBlockUnpowered : Obligations.ResetLeavesTheBlockUnpowered := by
  refine ⟨reset_inv, rfl, rfl, rfl, rfl, rfl, rfl, rfl, rfl, fun n => ?_, fun m => ?_, fun c => ?_, fun p => ?_⟩ <;>
    simp [State.reset, State.lane, State.pdie, State.conn, State.port, LaneDie.zero, PortDieSt.zero, Conn.zero, PortSt.zero]

end Sys2Proof.Machine
end

section
/-! The decision at the end of a tick: late dies, the decisions that are due, VSEL and the mode (R7, R12-R14, R23, R62-R64). -/

namespace Sys2Proof.Machine

/-- The end of the tick of a state that differs from `s` in the hub record at most: the tick advances, each running die's copy of
the index is corrected, and no connector, event or host register changes. -/
theorem endTick_of_hub {s x : State} (hx : x = { s with hub := x.hub }) :
    x.endTick.time.tick = s.time.tick + 1 ∧ x.endTick.time.edges = 0 ∧ x.endTick.hub = x.hub ∧
      (∀ n, x.endTick.lane n = { s.lane n with tick := if (s.lane n).up then x.endTick.tickWord else (s.lane n).tick }) ∧
      (∀ m, x.endTick.pdie m = { s.pdie m with tick := if (s.pdie m).up then x.endTick.tickWord else (s.pdie m).tick }) ∧
      x.endTick.conns = s.conns ∧ x.endTick.aon = s.aon ∧ x.endTick.events = s.events := by
  obtain ⟨hconns, haon, hevents, -, hhub⟩ := endTick_same x
  have hlane : ∀ n, x.lane n = s.lane n := fun n => by rw [hx]; rfl
  have hpdie : ∀ m, x.pdie m = s.pdie m := fun m => by rw [hx]; rfl
  refine ⟨?_, endTick_edges x, hhub, fun n => ?_, fun m => ?_, ?_, ?_, ?_⟩
  · rw [endTick_tick, hx]
  · rw [endTick_lane, hlane]
  · rw [endTick_pdie, hpdie]
  · rw [hconns, hx]
  · rw [haon, hx]
  · rw [hevents, hx]

section
variable (s : State) (late : List Die)

theorem noteLate_lane (n : Lane) : (s.noteLate late).lane n =
    { s.lane n with lag := if late.contains (.lane n) && !(s.lane n).unresponsive then (s.lane n).lag + 1 else 0 } :=
  vget_ofFn ..

theorem noteLate_pdie (m : PortDie) : (s.noteLate late).pdie m =
    { s.pdie m with lag := if late.contains (.port m) && !(s.pdie m).unresponsive then (s.pdie m).lag + 1 else 0 } :=
  vget_ofFn ..

/-- The decision waits exactly while a die lags behind (R13). -/
theorem waitsFor_iff : s.waitsFor = true ↔ (∃ n, 0 < (s.lane n).lag) ∨ ∃ m, 0 < (s.pdie m).lag := by
  have lanes : (∃ l ∈ s.lanes, 0 < l.lag) ↔ ∃ n, 0 < (s.lane n).lag := by
    simp only [State.lane, Vector.get, Vector.mem_iff_getElem]
    exact ⟨fun ⟨l, ⟨i, hi, hl⟩, h⟩ => ⟨⟨i, hi⟩, by simpa [← hl] using h⟩, fun ⟨n, h⟩ => ⟨_, ⟨n.val, n.isLt, rfl⟩, h⟩⟩
  have dies : (∃ d ∈ s.portDies, 0 < d.lag) ↔ ∃ m, 0 < (s.pdie m).lag := by
    simp only [State.pdie, Vector.get, Vector.mem_iff_getElem]
    exact ⟨fun ⟨d, ⟨i, hi, hd⟩, h⟩ => ⟨⟨i, hi⟩, by simpa [← hd] using h⟩, fun ⟨m, h⟩ => ⟨_, ⟨m.val, m.isLt, rfl⟩, h⟩⟩
  simp only [State.waitsFor, Bool.or_eq_true, List.any_eq_true, Vector.mem_toList_iff, decide_eq_true_eq, lanes, dies]

theorem noteLate_none_waitsFor : (s.noteLate []).waitsFor = false := by
  rw [Bool.eq_false_iff, ne_eq, waitsFor_iff]
  simp [noteLate_lane, noteLate_pdie]

end

section
variable {s : State}

theorem sampleVsel_lane (v : Fin 8) (n : Lane) : (s.sampleVsel v).lane n = s.lane n := by rw [sampleVsel_is]; rfl
theorem sampleVsel_hubUp (v : Fin 8) : (s.sampleVsel v).hubUp = s.hubUp := by rw [sampleVsel_is]; rfl

/-- A hub without decisions lets the tick pass; one that boots takes the VSEL sample too (R13, R63). -/
theorem exec_decisionTick_idle (v : Fin 8) (late : List Die)
    (h : s.hub.hub = .halted ∨ (∃ c w, s.hub.hub = .held c w) ∨ ∃ c w, s.hub.hub = .booted c w) :
    ∃ x : State, exec (.decisionTick v late) s = .next x.endTick ∧ x = { s with hub := x.hub } ∧
      x.hub = (match s.hub.hub with | .booted _ _ => (s.sampleVsel v).hub | _ => s.hub) := by
  change ∃ x : State, execDecisionTick v late s = .next x.endTick ∧ _
  unfold execDecisionTick
  obtain h | ⟨c, w, h⟩ | ⟨c, w, h⟩ := h <;> rw [h]
  · exact ⟨s, rfl, rfl, rfl⟩
  · exact ⟨s, rfl, rfl, rfl⟩
  · exact ⟨s.sampleVsel v, rfl, by rw [sampleVsel_is], rfl⟩

theorem exec_decisionTick_running (v : Fin 8) (late : List Die) (h : s.hub.hub = .running) :
    exec (.decisionTick v late) s = .next (if ((s.sampleVsel v).noteLate late).waitsFor then (s.sampleVsel v).noteLate late
      else ((s.sampleVsel v).noteLate late).decideDue).endTick := by
  change execDecisionTick v late s = _
  unfold execDecisionTick
  rw [h]

theorem sampled_waits (v : Fin 8) {n : Lane} (h : (s.lane n).unresponsive = false) :
    ((s.sampleVsel v).noteLate [.lane n]).waitsFor = true :=
  (waitsFor_iff _).2 (.inl ⟨n, by simp [noteLate_lane, sampleVsel_lane, h]⟩)

theorem KeptP.tick {q : List Instr} {n : Nat} {o : Dword} {l0 : Bool} {t : State} (h : KeptOf (q, n, o) l0 t) : t.time.tick = n :=
  congrArg (fun p : Held => p.2.1) h.1

/-- Where only this tick's decision is due there is one decision. -/
theorem decideDue_one (hinv : s.Inv) (hup : s.hubUp = true) (h : s.hub.nextDecision = s.now) :
    s.decideDue = (s.decide s.now false none).modHub (fun h => { h with nextDecision := s.now + 1 }) := by
  have htick : (s.decide s.now false none).now = s.now :=
    (State.decide_kept s s.now false none (hinv.kept false (by simp))).tick
  have hspan : List.range (s.now + 1 - s.now) = [0] := by simp
  simp only [State.decideDue, h, min_self, hspan, List.foldl_cons, List.foldl_nil, hup, if_true, Nat.add_zero, htick]

/-- A decision on time makes every decision that is due; the queue, the invariant and the tick are kept until its end. -/
theorem decideDue_tick (hinv : s.Inv) : s.decideDue.time.tick = s.time.tick :=
  (State.decideDue_kept s (hinv.kept false (by simp))).tick

theorem noteLate_inv (hinv : s.Inv) (late : List Die) : (s.noteLate late).Inv := hinv

theorem sampleVsel_inv (hinv : s.Inv) (v : Fin 8) : (s.sampleVsel v).Inv := by
  rw [sampleVsel_is]
  exact hinv

theorem sampleVsel_now (v : Fin 8) : (s.sampleVsel v).now = s.now := by
  rw [sampleVsel_is]
  rfl

/-- The first decision ends its tick, and the next one is due in the tick that follows (R414). -/
theorem exec_firstDecision_booted (v : Fin 8) (b y : Volt) {c : Nat} {w : Bool} (hinv : s.Inv) (hhub : s.hub.hub = .booted c w) :
    ∃ u, exec (.firstDecision v b y) s = .next u ∧ u.time.tick = s.time.tick + 1 ∧ u.time.edges = 0 ∧
      u.hub.nextDecision = u.time.tick := by
  have hsampled : KeptOf (s.pending, s.time.tick, s.otp.unit) false ((s.firstWork c w b y).sampleVsel v) :=
    State.sampleVsel_kept _ v (State.firstWork_kept s c w b y (hinv.kept false (by simp)))
  have hdecided := (State.decide_kept _ ((s.firstWork c w b y).sampleVsel v).now true
    (((s.firstWork c w b y).sampleVsel v).deadStart c) hsampled).tick
  change ∃ u, execFirstDecision v b y s = .next u ∧ _
  unfold execFirstDecision
  rw [hhub]
  dsimp only
  generalize State.decide _ _ true _ = x at hdecided ⊢
  refine ⟨_, rfl, ?_, endTick_edges _, ?_⟩
  · rw [endTick_tick, ← hdecided]
    rfl
  · rw [endTick_tick, (endTick_same _).2.2.2.2]
    rfl

/-- A code seen in the two newest samples before the decision's tick is accepted unless PATH is stopped (R63, R64). -/
theorem acceptVsel_code {m a b : Nat} {v w : Fin 8} {r : List (Nat × Fin 8)}
    (h : s.hub.vsel.filter (fun x => ixBefore x.1 m) = (a, v) :: (b, w) :: r) :
    (s.acceptVsel m).hub.vselCode = if v = w ∧ s.pathStopped = false then some v else s.hub.vselCode := by
  have hlast : ∀ t : State, (if t.hub.sysFinal = 0 then t.modHub (fun h => { h with sysFinal := t.selSysv }) else t).hub.vselCode =
      t.hub.vselCode := fun t => by split <;> rfl
  unfold State.acceptVsel
  simp only [h, hlast]
  by_cases hvw : v = w <;> cases hpath : s.pathStopped <;> by_cases hcode : s.hub.vselCode = some v <;> simp_all [State.modHub]
  split <;> rfl

end

/-- Settles O6, clause by clause from the lemmas above on each kind of decision, the VSEL sample and the mode. -/
theorem decisionsEndTheTick : Obligations.DecisionsEndTheTick := by
  refine ⟨fun v l s h => ?_, fun v n s hinv hrun hresp => ?_, fun v s hinv hrun => ?_, fun v b y c w s hinv hhub => ?_, fun v s => ?_,
    fun m a b v w r s h => acceptVsel_code h, chooseMode_free⟩
  · obtain ⟨x, hu, hx, hhub⟩ := exec_decisionTick_idle v l h
    obtain ⟨htick, hedges, hhubEnd, hrest⟩ := endTick_of_hub hx
    exact ⟨_, hu, htick, hedges, hhubEnd.trans hhub, hrest⟩
  · have hu := exec_decisionTick_running v [.lane n] hrun
    rw [sampled_waits v hresp, if_pos rfl] at hu
    obtain ⟨-, -, hevents, hhost, -⟩ := endTick_same ((s.sampleVsel v).noteLate [.lane n])
    refine ⟨_, hu, ?_, ?_, fun m hm => ?_, ?_, ?_⟩
    · rw [endTick_tick]
      exact congrArg (· + 1) (sampleVsel_now v)
    · simp [endTick_lane, noteLate_lane, sampleVsel_lane, hresp]
    · simp [endTick_lane, noteLate_lane, sampleVsel_lane, hm]
    · rw [hevents, sampleVsel_is]
      rfl
    · rw [hhost, sampleVsel_is]
      rfl
  · have hu := exec_decisionTick_running v [] hrun
    rw [noteLate_none_waitsFor, if_neg (by simp)] at hu
    have hdue : ((s.sampleVsel v).noteLate []).Inv := noteLate_inv (sampleVsel_inv hinv v) []
    refine ⟨_, hu, rfl, ?_, endTick_edges _, (exec_inv hinv hu).1, fun hnext => ?_⟩
    · rw [endTick_tick, decideDue_tick hdue]
      exact congrArg (· + 1) (sampleVsel_now v)
    · have hnow : ((s.sampleVsel v).noteLate []).now = s.now := sampleVsel_now v
      have hnextDue : ((s.sampleVsel v).noteLate []).hub.nextDecision = ((s.sampleVsel v).noteLate []).now := by
        rw [hnow, ← hnext, State.noteLate, sampleVsel_is]
      have hup : ((s.sampleVsel v).noteLate []).hubUp = true := by
        rw [State.hubUp, State.noteLate, sampleVsel_is]
        simpa using hrun
      rw [decideDue_one hdue hup hnextDue, hnow]
  · obtain ⟨u, hu, h⟩ := exec_firstDecision_booted v b y hinv hhub
    exact ⟨u, hu, h.1, h.2.1, h.2.2, (exec_inv hinv hu).1⟩
  · rw [sampleVsel_is]
    exact ⟨fun h => by simp [h], fun h => by simp [h]⟩

end Sys2Proof.Machine
end

section
/-! Frames: the part of the state each row of O7 can change (R93-R101, R112-R121, R146, R154, R167, R208, R214, R241, R274-R276,
R313, R333, R366, R377, R388, R435). -/

namespace Sys2Proof.Machine

/-- Any next state the command answers satisfies `P`. -/
def Out.All (P : State → Prop) (o : Out) : Prop := ∀ t, o = .next t → P t

theorem all_next {P : State → Prop} {a : State} (h : P a) : Out.All P (.next a) := fun _ ht => by cases ht; exact h

theorem all_if {P : State → Prop} {c : Prop} [Decidable c] {a b : State} (ha : P a) (hb : P b) :
    Out.All P (if c then .next a else .next b) := by
  split
  · exact all_next ha
  · exact all_next hb

theorem OnlyLane.refl (n : Lane) (s : State) : OnlyLane n s s := ⟨rfl, fun _ _ => rfl⟩

theorem OnlyLane.stamp {n : Lane} {s t : State} (h : OnlyLane n s t) (c : EvClass) (src : EvSource) (i : Nat) (k : EvKind) :
    OnlyLane n s (t.stamp c src i k) := by
  obtain ⟨ht, hother⟩ := h
  exact ⟨by rw [ht]; rfl, hother⟩

section
variable (n : Lane) (v : Volt) (s : State)

theorem stageFault_only : Out.All (OnlyLane n s) (execStageFault n s) := all_if (only_modLane_stamp ..) (.refl n s)
theorem truncation_only : Out.All (OnlyLane n s) (execTruncation n v s) := all_if (only_modLane_stamp ..) (.refl n s)
theorem truncationRelease_only : Out.All (OnlyLane n s) (execTruncationRelease n v s) := all_if (only_modLane ..) (.refl n s)
theorem sysDroopTrip_only : Out.All (OnlyLane n s) (execSysDroopTrip n v s) := all_if (only_modLane_stamp ..) (.refl n s)
theorem hdrmDroopRelease_only : Out.All (OnlyLane n s) (execHdrmDroopRelease n v s) := all_if (only_modLane ..) (.refl n s)
theorem skipEntry_only : Out.All (OnlyLane n s) (execSkipEntry n s) := all_if (only_modLane_stamp ..) (.refl n s)
theorem skipExit_only : Out.All (OnlyLane n s) (execSkipExit n s) := all_if (only_modLane_stamp ..) (.refl n s)
theorem skipExitComparator_only : Out.All (OnlyLane n s) (execSkipExitComparator n v s) :=
  all_if (only_modLane_stamp ..) (.refl n s)

theorem shedBegin_only : Out.All (OnlyLane n s) (execShedBegin n s) := by
  unfold execShedBegin
  dsimp only
  split
  · split
    · exact all_next (only_modLane_stamp ..)
    · split
      · split
        · exact all_next (only_modLane_stamp ..)
        · exact all_next (.refl n s)
      · exact all_next (.refl n s)
  · exact all_next (.refl n s)

theorem shedEnd_only : Out.All (OnlyLane n s) (execShedEnd n s) := by
  unfold execShedEnd
  split
  · exact all_if (only_modLane_stamp ..) (.refl n s)
  · exact all_next (.refl n s)

theorem shedInhibitExpiry_only : Out.All (OnlyLane n s) (execShedInhibitExpiry n s) := all_if (only_modLane ..) (.refl n s)
theorem fillPeriodEnd_only : Out.All (OnlyLane n s) (execFillPeriodEnd n s) := all_if (only_modLane ..) (.refl n s)
theorem headroomHoldRelease_only : Out.All (OnlyLane n s) (execHeadroomHoldRelease n s) := all_if (only_modLane ..) (.refl n s)
theorem benchGoCold_only : Out.All (OnlyLane n s) (execBenchGoCold n s) := all_if (only_modLane ..) (.refl n s)
theorem balanceTrimUpdate_only : Out.All (OnlyLane n s) (execBalanceTrimUpdate n s) := all_if (only_modLane ..) (.refl n s)
theorem farNodeLost_only : Out.All (OnlyLane n s) (execFarNodeLost n v s) := all_if (only_modLane_stamp ..) (.refl n s)
theorem stackSyncLocked_only : Out.All (OnlyLane n s) (execStackSyncLocked n s) := all_if (only_modLane ..) (.refl n s)
theorem backstopInterval_only (i : Amp) : Out.All (OnlyLane n s) (execBackstopInterval n i s) := all_if (only_modLane ..) (.refl n s)
theorem backstopTrip_only : Out.All (OnlyLane n s) (execBackstopTrip n s) := all_if (only_modLane_stamp ..) (.refl n s)
theorem backstopReset_only : Out.All (OnlyLane n s) (execBackstopReset n s) := all_if (only_modLane ..) (.refl n s)

theorem laneFirstPulses_only (o : Vector Amp 4) (r : Vector Volt 4) : Out.All (OnlyLane n s) (execLaneFirstPulses n v o r s) := by
  refine all_if (foldl_inv (OnlyLane n s) _ _ _ (only_modLane ..) fun t p h => ?_) (.refl n s)
  split
  · exact h.stamp ..
  · exact h

end

section
variable (k : PhaseNo) (s : State)

theorem peakLimitTrip_only (i : Amp) : Out.All (OnlyLane (phaseLane k) s) (execPeakLimitTrip k i s) :=
  all_if (only_modLane ..) (.refl _ s)
theorem currentLimitEvent_only : Out.All (OnlyLane (phaseLane k) s) (execCurrentLimitEvent k s) :=
  all_if (only_modLane_stamp ..) (.refl _ s)
theorem negCurrentLimit_only (x : NegSample) : Out.All (OnlyLane (phaseLane k) s) (execNegCurrentLimit k x s) :=
  all_if (only_modLane ..) (.refl _ s)
theorem warmRefresh_only (i : Amp) (v : Volt) : Out.All (OnlyLane (phaseLane k) s) (execWarmRefresh k i v s) :=
  all_if (only_modLane ..) (.refl _ s)
theorem coldAdmissionComplete_only (i : Amp) : Out.All (OnlyLane (phaseLane k) s) (execColdAdmissionComplete k i s) :=
  all_if (only_modLane ..) (.refl _ s)

theorem putLane_only (n : Lane) (l : LaneDie) : OnlyLane n s { s with lanes := vput s.lanes n l } :=
  ⟨rfl, fun m h => vput_get_other s.lanes n m l h⟩

theorem phaseOut_only (x : PhaseKind) : Out.All (OnlyLane (phaseLane k) s) (execPhaseOut k x s) := by
  refine all_if ?_ (.refl _ s)
  split
  · exact ((putLane_only ..).stamp ..).stamp ..
  · exact (putLane_only ..).stamp ..

end

theorem modPort_only (p : Port) (s : State) (f : PortSt → PortSt) : ∀ q, q ≠ p → (s.modPort p f).port q = s.port q :=
  fun q h => State.modPort_other s p q f h

theorem modConn_only (c : Src) (s : State) (f : Conn → Conn) :
    s.modConn c f = { s with conns := (s.modConn c f).conns } ∧ ∀ d, d ≠ c → (s.modConn c f).conn d = s.conn d :=
  ⟨rfl, fun d h => State.modConn_other s c d f h⟩

section
variable (s : State) (a b c : Rat)

theorem diodeClose_aon : s.diodeClose a b = { s with aon := (s.diodeClose a b).aon } := by
  unfold State.diodeClose
  split <;> rfl

theorem idealDiodeClose_aon : Out.All (fun t => t = { s with aon := t.aon }) (execIdealDiodeClose a b s) :=
  all_if (diodeClose_aon ..) rfl
theorem idealDiodeOpen_aon : Out.All (fun t => t = { s with aon := t.aon }) (execIdealDiodeOpen a b c s) := all_if rfl rfl
theorem softConnectComplete_aon : Out.All (fun t => t = { s with aon := t.aon }) (execSoftConnectComplete a b s) := all_if rfl rfl
theorem limpBackstopClose_aon : Out.All (fun t => t = { s with aon := t.aon }) (execLimpBackstopClose a b s) :=
  all_if (diodeClose_aon ..) rfl
theorem statPatternTimer_aon : Out.All (fun t => t = { s with aon := t.aon }) (execStatPatternTimer s) := all_if rfl rfl
theorem xtalRestored_aon : Out.All (fun t => t = { s with aon := t.aon }) (execXtalRestored s) := all_next rfl

end

/-! ### Watchdog, timers, host interface, telemetry, forecast, trunk -/

section
variable (s : State)

theorem wdgCheckin_wdg (i : Fin 16) : Out.All (fun t => t = { s with wdg := t.wdg }) (execWdgCheckin i s) := all_if rfl rfl
theorem wdgKey_wdg (v : Half) : Out.All (fun t => t = { s with wdg := t.wdg }) (execWdgKey v s) := all_if rfl rfl
theorem wdgLock_wdg (v : Word) : Out.All (fun t => t = { s with wdg := t.wdg }) (execWdgLock v s) := all_if rfl rfl

theorem timerCompareMatch_timers (c : Fin 16) (k : Fin 4) :
    Out.All (fun t => t = { s with timers := t.timers, time := t.time }) (execTimerCompareMatch c k s) := all_if rfl rfl
theorem timerOverflow_timers (c : Fin 16) :
    Out.All (fun t => t = { s with timers := t.timers, time := t.time }) (execTimerOverflow c s) := all_if rfl rfl

theorem overrun_host (c : HostChan) : s.overrun c = { s with host := (s.overrun c).host } := rfl

theorem ringPost_host (c : HostChan) : s.ringPost c = { s with host := (s.ringPost c).host } := by
  unfold State.ringPost
  split
  · rfl
  · split <;> rfl

theorem ringUrgent_host (c : HostChan) : s.ringUrgent c = { s with host := (s.ringUrgent c).host } := by
  unfold State.ringUrgent
  split <;> rfl

theorem ringClear_host (c : HostChan) (b : RingBit) : s.ringClear c b = { s with host := (s.ringClear c b).host } := by
  unfold State.ringClear
  split <;> rfl

/-- A ring touches nothing but the host interface (R333). -/
theorem ring_host (c : HostChan) (b : RingBit) : s.ring c b = { s with host := (s.ring c b).host } := by
  cases b with
  | post => exact ringPost_host s c
  | urgent => exact ringUrgent_host s c
  | cancel => exact ringClear_host s c .cancel
  | resync => exact ringClear_host s c .resync

theorem post_host (c : HostChan) : Out.All (fun t => t = { s with host := t.host }) (execPost c s) := all_if (ring_host ..) rfl
theorem urgent_host (c : HostChan) : Out.All (fun t => t = { s with host := t.host }) (execUrgent c s) := all_if (ring_host ..) rfl
theorem cancel_host (c : HostChan) : Out.All (fun t => t = { s with host := t.host }) (execCancel c s) := all_if (ring_host ..) rfl
theorem resync_host (c : HostChan) : Out.All (fun t => t = { s with host := t.host }) (execResync c s) := all_if (ring_host ..) rfl
theorem violClear_host : Out.All (fun t => t = { s with host := t.host }) (execViolClear s) := all_if rfl rfl
theorem uartFrameGap_host : Out.All (fun t => t = { s with host := t.host }) (execUartFrameGap s) := all_if rfl rfl

theorem capture_tel : s.capture = { s with tel := s.capture.tel } := by
  unfold State.capture
  split <;> rfl

theorem execCapture_tel : Out.All (fun t => t = { s with tel := t.tel }) (execCapture s) := all_if (capture_tel s) rfl
theorem release_tel : Out.All (fun t => t = { s with tel := t.tel }) (execRelease s) := all_if rfl rfl
theorem telFreezeTimeout_tel : Out.All (fun t => t = { s with tel := t.tel }) (execTelFreezeTimeout s) := all_if rfl rfl
theorem telBlockRead_tel (i : Iface) (c : Fin 96) : Out.All (fun t => t = { s with tel := t.tel }) (execTelBlockRead i c s) :=
  all_if rfl rfl

theorem forecastFrameStart_fcst (n : Fin 16) : Out.All (fun t => t = { s with fcst := t.fcst }) (execForecastFrameStart n s) :=
  all_if rfl rfl
theorem blockStart_fcst : Out.All (fun t => t = { s with fcst := t.fcst }) (execBlockStart s) := all_if rfl rfl

theorem grantEffective_trunk : Out.All (fun t => t = { s with trunk := t.trunk }) (execGrantEffective s) := by
  unfold execGrantEffective
  split
  · exact all_if rfl rfl
  · exact all_next rfl

theorem leaseEnd_trunk : Out.All (fun t => t = { s with trunk := t.trunk }) (execLeaseEnd s) := all_if rfl rfl

theorem trunkFeedStop_trunk : Out.All (fun t => t = { s with trunk := t.trunk }) (execTrunkFeedStop s) := by
  unfold execTrunkFeedStop
  split
  · exact all_if rfl rfl
  · exact all_next rfl

/-! ### Ports and connectors -/

section
variable (p : Port)

theorem drpToggle_port :
    Out.All (fun t => t = { s with ports := t.ports } ∧ ∀ q, q ≠ p → t.port q = s.port q) (execDrpToggle p s) :=
  all_if ⟨rfl, modPort_only p s _⟩ ⟨rfl, fun _ _ => rfl⟩

/-- The expiry of a PD timer is stamped where the timer runs, and changes nothing else (R161, R461). -/
theorem expire_events (x : PdTimer) : s.expire p x = { s with events := (s.expire p x).events } := by
  unfold State.expire
  split <;> rfl

theorem expire_all (x : PdTimer) : Out.All (fun t => t = { s with events := t.events }) (.next (s.expire p x)) :=
  all_next (expire_events s p x)

theorem ppsRequestRepeat_port : Out.All
    (fun t => t = { s with ports := t.ports, pdOut := t.pdOut } ∧ ∀ q, q ≠ p → t.port q = s.port q) (execPpsRequestRepeat p s) := by
  unfold execPpsRequestRepeat
  dsimp only
  split
  · split
    · refine all_next ?_
      split
      · exact ⟨rfl, fun q h => (modPort_only p _ _ q h).trans (modPort_only p s _ q h)⟩
      · exact ⟨rfl, modPort_only p s _⟩
    · exact all_next ⟨rfl, fun _ _ => rfl⟩
  · exact all_next ⟨rfl, fun _ _ => rfl⟩

theorem eprKeepalive_port : Out.All
    (fun t => t = { s with ports := t.ports, pdOut := t.pdOut } ∧ ∀ q, q ≠ p → t.port q = s.port q) (execEprKeepalive p s) :=
  all_if ⟨rfl, modPort_only p s _⟩ ⟨rfl, fun _ _ => rfl⟩

theorem vbusDischargeDone_port (v : Volt) : Out.All
    (fun t => t = { s with ports := t.ports, events := t.events } ∧ ∀ q, q ≠ p → t.port q = s.port q) (execVbusDischargeDone p v s) := by
  refine all_if ?_ ⟨rfl, fun _ _ => rfl⟩
  split <;> exact ⟨rfl, modPort_only p s _⟩

end

section
variable (c : Src)

theorem requalifyAfterTrip_conn :
    Out.All (fun t => t = { s with conns := t.conns } ∧ ∀ d, d ≠ c → t.conn d = s.conn d) (execRequalifyAfterTrip c s) := by
  unfold execRequalifyAfterTrip
  split
  · exact all_if (modConn_only ..) ⟨rfl, fun _ _ => rfl⟩
  · exact all_next ⟨rfl, fun _ _ => rfl⟩

theorem lockoutEndLowVoltage_conn (v : Volt) :
    Out.All (fun t => t = { s with conns := t.conns } ∧ ∀ d, d ≠ c → t.conn d = s.conn d) (execLockoutEndLowVoltage c v s) :=
  all_if (modConn_only ..) ⟨rfl, fun _ _ => rfl⟩

theorem sagProbe_conn :
    Out.All (fun t => t = { s with conns := t.conns } ∧ ∀ d, d ≠ c → t.conn d = s.conn d) (execSagProbe c s) := by
  unfold execSagProbe
  dsimp only
  split
  · exact all_if (modConn_only ..) ⟨rfl, fun _ _ => rfl⟩
  · exact all_next ⟨rfl, fun _ _ => rfl⟩

end

/-! ### Panel, flash, handicap unit -/

theorem panelTrack_hub (half : Bool) (p : Watt) : Out.All (fun t => t = { s with hub := t.hub }) (execPanelTrack half p s) := by
  unfold execPanelTrack
  dsimp only
  split
  · exact all_if rfl rfl
  · exact all_next rfl

theorem panelScan_hub (w : Vector Watt 9) : Out.All (fun t => t = { s with hub := t.hub }) (execPanelScan w s) := all_if rfl rfl

theorem startBackground_flash (b : BgJob) : s.startBackground b = { s with flash := (s.startBackground b).flash } := by
  unfold State.startBackground
  split <;> rfl

theorem ledgerWrite_flash : Out.All (fun t => t = { s with flash := t.flash }) (execLedgerWrite s) := by
  unfold execLedgerWrite
  split
  · exact all_if rfl rfl
  · exact all_next rfl

theorem ledgerSectorErase_flash : Out.All (fun t => t = { s with flash := t.flash }) (execLedgerSectorErase s) :=
  all_if rfl (startBackground_flash ..)
theorem stagingErase_flash : Out.All (fun t => t = { s with flash := t.flash }) (execStagingErase s) :=
  all_if (startBackground_flash ..) rfl
theorem shelfSectorBuild_flash (k : Fin 512) : Out.All (fun t => t = { s with flash := t.flash }) (execShelfSectorBuild k s) :=
  all_if (startBackground_flash ..) rfl

theorem handicapDivCycle_hnd : Out.All (fun t => t = { s with hnd := t.hnd }) (execHandicapDivCycle s) := all_if rfl rfl

end

/-- Settles O7: the frame of each command named, by its lemma above. -/
theorem commandsTouchOnlyTheirPart : Obligations.CommandsTouchOnlyTheirPart := by
  refine ⟨⟨fun n v i c s t hc => ?_, fun n v o r s t => laneFirstPulses_only n v s o r t, fun k i j r v x c s t hc => ?_,
      fun i v c s t hc => ?_, fun c k i s t hi => ?_, fun a b c i s t hi => ?_⟩,
    fun c r s t hr => ?_, fun i c r s t hr => ?_, fun n r s t hr => ?_, fun r s t hr => ?_, fun p s t => drpToggle_port s p t,
    fun p x r s t hr => ?_, fun p r s t hr => ?_, fun p v s t => vbusDischargeDone_port s p v t, fun c v r s t hr => ?_,
    fun b p w r s t hr => ?_, fun k r s t hr => ?_, fun s t => handicapDivCycle_hnd s t⟩
  · simp only [List.mem_cons, List.not_mem_nil, or_false] at hc
    obtain rfl | rfl | rfl | rfl | rfl | rfl | rfl | rfl | rfl | rfl | rfl | rfl | rfl | rfl | rfl | rfl | rfl | rfl | rfl | rfl := hc
    · exact stageFault_only n s t
    · exact truncation_only n v s t
    · exact truncationRelease_only n v s t
    · exact sysDroopTrip_only n v s t
    · exact hdrmDroopRelease_only n v s t
    · exact skipEntry_only n s t
    · exact skipExit_only n s t
    · exact skipExitComparator_only n v s t
    · exact shedBegin_only n s t
    · exact shedEnd_only n s t
    · exact shedInhibitExpiry_only n s t
    · exact fillPeriodEnd_only n s t
    · exact headroomHoldRelease_only n s t
    · exact benchGoCold_only n s t
    · exact balanceTrimUpdate_only n s t
    · exact farNodeLost_only n v s t
    · exact stackSyncLocked_only n s t
    · exact backstopInterval_only n s i t
    · exact backstopTrip_only n s t
    · exact backstopReset_only n s t
  · simp only [List.mem_cons, List.not_mem_nil, or_false] at hc
    obtain rfl | rfl | rfl | rfl | rfl | rfl := hc
    · exact peakLimitTrip_only k s i t
    · exact currentLimitEvent_only k s t
    · exact negCurrentLimit_only k s ⟨r, i, j⟩ t
    · exact warmRefresh_only k s i v t
    · exact coldAdmissionComplete_only k s i t
    · exact phaseOut_only k s x t
  · simp only [List.mem_cons, List.not_mem_nil, or_false] at hc
    obtain rfl | rfl | rfl := hc
    · exact wdgCheckin_wdg s i t
    · exact wdgKey_wdg s _ t
    · exact wdgLock_wdg s v t
  · simp only [List.mem_cons, List.not_mem_nil, or_false] at hi
    obtain rfl | rfl := hi
    · exact timerCompareMatch_timers s c k t
    · exact timerOverflow_timers s c t
  · simp only [List.mem_cons, List.not_mem_nil, or_false] at hi
    obtain rfl | rfl | rfl | rfl | rfl | rfl := hi
    · exact idealDiodeClose_aon s a b t
    · exact idealDiodeOpen_aon s a b c t
    · exact softConnectComplete_aon s a b t
    · exact limpBackstopClose_aon s a b t
    · exact statPatternTimer_aon s t
    · exact xtalRestored_aon s t
  · simp only [List.mem_cons, List.not_mem_nil, or_false] at hr
    obtain rfl | rfl | rfl | rfl | rfl | rfl := hr
    · exact post_host s c t
    · exact urgent_host s c t
    · exact cancel_host s c t
    · exact resync_host s c t
    · exact violClear_host s t
    · exact uartFrameGap_host s t
  · simp only [List.mem_cons, List.not_mem_nil, or_false] at hr
    obtain rfl | rfl | rfl | rfl := hr
    · exact execCapture_tel s t
    · exact release_tel s t
    · exact telFreezeTimeout_tel s t
    · exact telBlockRead_tel s i c t
  · simp only [List.mem_cons, List.not_mem_nil, or_false] at hr
    obtain rfl | rfl := hr
    · exact forecastFrameStart_fcst s n t
    · exact blockStart_fcst s t
  · simp only [List.mem_cons, List.not_mem_nil, or_false] at hr
    obtain rfl | rfl | rfl := hr
    · exact grantEffective_trunk s t
    · exact leaseEnd_trunk s t
    · exact trunkFeedStop_trunk s t
  · simp only [List.mem_cons, List.not_mem_nil, or_false] at hr
    obtain rfl | rfl | rfl | rfl | rfl | rfl | rfl | rfl := hr <;> exact expire_all s p _ t
  · simp only [List.mem_cons, List.not_mem_nil, or_false] at hr
    obtain rfl | rfl := hr
    · exact ppsRequestRepeat_port s p t
    · exact eprKeepalive_port s p t
  · simp only [List.mem_cons, List.not_mem_nil, or_false] at hr
    obtain rfl | rfl | rfl := hr
    · exact requalifyAfterTrip_conn s c t
    · exact lockoutEndLowVoltage_conn s c v t
    · exact sagProbe_conn s c t
  · simp only [List.mem_cons, List.not_mem_nil, or_false] at hr
    obtain rfl | rfl := hr
    · exact panelTrack_hub s b p t
    · exact panelScan_hub s w t
  · simp only [List.mem_cons, List.not_mem_nil, or_false] at hr
    obtain rfl | rfl | rfl | rfl := hr
    · exact ledgerWrite_flash s t
    · exact ledgerSectorErase_flash s t
    · exact stagingErase_flash s t
    · exact shelfSectorBuild_flash s k t

end Sys2Proof.Machine
end

section
/-! Limits, refreshes, admissions and phase-outs of one phase (O17; R93, R94, R112-R114, R124-R127). -/

namespace Sys2Proof.Machine

section
variable {k : PhaseNo} {s : State} {p : Phase} (hp : (s.lane (phaseLane k)).phases.get (phasePos k) = p)
include hp

theorem negCurrentLimit_drives (ns : Rat) (top i : Amp) (hst : p.st = .field)
    (hdrive : p.drive = .freewheel ∨ (p.drive = .storing ∧ s.intervalEnds (phaseLane k) p ns (rabs top) = true)) :
    ∃ t, exec (.negCurrentLimit k ⟨ns, top, i⟩) s = .next t ∧ OnlyLane (phaseLane k) s t ∧
      (t.lane (phaseLane k)).phases.get (phasePos k) = { p with drive :=
        if (if p.fwd then i else -i) ≤ (if (s.lane (phaseLane k)).field.skipping = true ∨ (s.lane (phaseLane k)).field.inReg = false ∨
          (s.lane (phaseLane k)).truncating = true then 0 else s.ineg (phaseLane k)) then .mid else .freewheel } := by
  have hend : s.endInterval (phaseLane k) ns top p = { p with drive := .freewheel } := by
    unfold State.endInterval
    obtain h | ⟨h, hends⟩ := hdrive
    · rw [if_neg (by simp [h]), ← h]
    · rw [if_pos (by simp [h, hends])]
  have hlimit : s.freewheelLimit (phaseLane k) (s.lane (phaseLane k)) =
      (if (s.lane (phaseLane k)).field.skipping = true ∨ (s.lane (phaseLane k)).field.inReg = false ∨
        (s.lane (phaseLane k)).truncating = true then 0 else s.ineg (phaseLane k)) := by
    simp [State.freewheelLimit, or_assoc]
  refine ⟨_, if_pos ?_, only_modLane .., ?_⟩
  · simp [hp, hend, hst]
  · rw [State.modLane_lane, vput_get_same, hp, hend, ← hlimit]
    by_cases h : (if p.fwd then i else -i) ≤ s.freewheelLimit (phaseLane k) (s.lane (phaseLane k))
    · simp only [h, if_true]
    · simp only [h, if_false]

theorem warmRefresh_refreshes (off : Amp) (ref : Volt) (hpsen : (s.lane (phaseLane k)).psen = true) (hst : p.st = .warm)
    (hsince : 32 ≤ p.sinceAdmit) :
    ∃ t, exec (.warmRefresh k off ref) s = .next t ∧ OnlyLane (phaseLane k) s t ∧
      (t.lane (phaseLane k)).phases.get (phasePos k) = { p with drive := .refresh, sinceAdmit := 0, faultDue := if p.faultDue.isSome then p.faultDue else s.senseCheck (phaseLane k) off (some ref) } := by
  refine ⟨_, if_pos ?_, only_modLane .., ?_⟩
  · simp [hp, hpsen, hst, hsince]
  · rw [State.modLane_lane, vmod_get_same, hp]

/-- The end of an admission: the phase after its sense check (R112, R124). -/
theorem coldAdmission_checked (off : Amp) (hactive : (s.lane (phaseLane k)).active = true) (hst : p.st = .cold)
    (hadmit : p.admitting = true) (due : Option PhaseKind) (hdue : s.senseCheck (phaseLane k) off none = due) :
    ∃ t, exec (.coldAdmissionComplete k off) s = .next t ∧ OnlyLane (phaseLane k) s t ∧
      (t.lane (phaseLane k)).phases.get (phasePos k) =
        { p with admitting := false, toWarm := false, faultDue := p.faultDue.or due, sinceAdmit := 0, share := 8
                 st := if due.isSome then .cold else if p.toWarm then .warm else .cold
                 admitNext := due.isNone && !p.toWarm
                 drive := if due.isSome then .mid else .refresh } := by
  refine ⟨_, if_pos ?_, only_modLane .., ?_⟩
  · simp [hp, hactive, hst, hadmit]
  · rw [State.modLane_lane, vmod_get_same, hp, hdue]

end

/-! ### A phase that goes out (R127) -/

/-- Phase `j` is out with its kind, and no shed or retirement waits for it. -/
def LaneDie.OutAt (l : LaneDie) (j : Pos) (x : PhaseKind) : Prop :=
  (l.phases.get j).st = .out ∧ (l.phases.get j).kind = some x ∧ j ∉ l.field.retireNext ∧ ∀ m r, l.field.shed ≠ some (j, m, r)

section
variable {l : LaneDie} {j : Pos} {x : PhaseKind}

theorem phaseGone_outAt : (l.phaseGone j x).OutAt j x := by
  refine ⟨by simp [LaneDie.phaseGone], by simp [LaneDie.phaseGone], by simp [LaneDie.phaseGone], fun m r => ?_⟩
  unfold LaneDie.phaseGone
  dsimp only
  split
  · next q m' r' hshed =>
    by_cases hq : q = j
    · simp [hq]
    · rw [if_neg (by simpa using hq), hshed]
      simp [hq]
  · next hshed => simp [hshed]

theorem LaneDie.OutAt.outBranch (h : l.OutAt j x) (now : Nat) : (l.outBranch now).OutAt j x := by
  obtain ⟨hst, hkind, hretire, hshed⟩ := h
  unfold LaneDie.outBranch
  split
  · exact ⟨hst, hkind, hretire, hshed⟩
  · split
    · exact ⟨hst, hkind, hretire, hshed⟩
    · have hphase : (stepBranch now l).phases.get j = l.phases.get j := by
        simp [stepBranch, LaneDie.mapPhases, hst]
      exact ⟨hphase ▸ hst, hphase ▸ hkind, hretire, hshed⟩

/-- A lane stop leaves a phase out that no shed or retirement waits for. -/
theorem LaneDie.OutAt.stop (h : l.OutAt j x) : (l.stop.phases.get j).st = .out ∧ (l.stop.phases.get j).kind = some x := by
  obtain ⟨hst, hkind, hretire, hshed⟩ := h
  have hphase : l.stop.phases.get j = l.phases.get j := by
    have hmid : (l.phases.get j).toMid = l.phases.get j := if_pos hst
    simp only [LaneDie.stop, LaneDie.mapPhases, vget_map, vget_ofFn]
    rcases heq : l.field.shed with _ | ⟨q, m, _ | _⟩
    · simp [hretire, hmid]
    · simp [hretire, hmid]
    · have hq : j ≠ q := fun h => hshed m true (h ▸ heq)
      simp [hretire, hmid, hq]
  exact ⟨hphase ▸ hst, hphase ▸ hkind⟩

theorem LaneDie.OutAt.outEnd (h : l.OutAt j x) (head aborted : Bool) :
    ((l.outEnd head aborted).phases.get j).st = .out ∧ ((l.outEnd head aborted).phases.get j).kind = some x := by
  unfold LaneDie.outEnd
  extract_lets field diag held
  have hheld : held.OutAt j x := h
  split
  · exact hheld.stop
  · exact ⟨hheld.1, hheld.2.1⟩

end

theorem phaseOut_puts_out {k : PhaseNo} {x : PhaseKind} {s : State} (hup : (s.lane (phaseLane k)).up = true)
    (hst : ((s.lane (phaseLane k)).phases.get (phasePos k)).st ≠ .out)
    (hdue : ((s.lane (phaseLane k)).phases.get (phasePos k)).faultDue = some x) :
    ∃ t, exec (.phaseOut k x) s = .next t ∧ OnlyLane (phaseLane k) s t ∧
      ((t.lane (phaseLane k)).phases.get (phasePos k)).st = .out ∧ ((t.lane (phaseLane k)).phases.get (phasePos k)).kind = some x := by
  obtain ⟨t, ht⟩ := exec_answers (.phaseOut k x) s
  refine ⟨t, ht, phaseOut_only k s x t ht, ?_⟩
  change execPhaseOut k x s = _ at ht
  unfold execPhaseOut at ht
  extract_lets n j l p mean tes known gone aborted head nIn s1 s2 at ht
  rw [if_pos (by simp [l, p, n, j, hup, hst, hdue])] at ht
  obtain rfl := Host.Outcome.next.inj ht
  have hout := ((phaseGone_outAt (l := l) (j := j) (x := x)).outBranch s.now).outEnd head aborted
  have hlane : s2.lane n = gone.outEnd head aborted := vput_get_same ..
  split
  · rw [lane_stampLane, hlane]
    exact hout
  · rw [hlane]
    exact hout

/-- Settles O17, from the lemmas above. -/
theorem limitsAndBenchActOnOnePhase : Obligations.LimitsAndBenchActOnOnePhase := by
  refine ⟨⟨fun k i s hst hdrive hlimit => ?_, fun k s hrun => ?_, fun k ns top i p s hp hst hdrive =>
      negCurrentLimit_drives hp ns top i hst hdrive, fun k i s hlimit => if_neg ?_⟩,
    fun k off ref p s hp hpsen hst hsince => warmRefresh_refreshes hp off ref hpsen hst hsince,
    fun k off p s hp hactive hst hadmit hcheck => ?_, fun k off x p s hp hactive hst hadmit hcheck => ?_,
    fun k x s hup hst hdue => phaseOut_puts_out hup hst hdue⟩
  · exact ⟨_, if_pos (by simp [hst, hdrive, hlimit]), only_modLane .., by rw [State.modLane_lane, vmod_get_same]⟩
  · refine ⟨_, if_pos hrun, only_modLane_stamp .., ?_, ?_, rfl⟩
    · rw [stamp_lane, State.modLane_lane, vmod_get_same]
    · rw [stamp_lane, State.modLane_lane]
  · simp [not_le.2 hlimit]
  · obtain ⟨t, ht, honly, hq⟩ := coldAdmission_checked hp off hactive hst hadmit _ hcheck
    exact ⟨t, _, ht, honly, hq, by simp, by simp, rfl, rfl⟩
  · obtain ⟨t, ht, honly, hq⟩ := coldAdmission_checked hp off hactive hst hadmit _ hcheck
    exact ⟨t, _, ht, honly, hq, rfl, rfl, rfl, rfl⟩

end Sys2Proof.Machine
end

section
/-! Sheds, the bench and the timed holds of a lane's field (O18; R115-R122, R127, R129). -/

namespace Sys2Proof.Machine

section
variable {n : Lane} {s : State}

/-- A retirement that waits starts a shed of its phase (R129). -/
theorem shedBegin_retires {p : Pos} {r : List Pos} (hactive : (s.lane n).active = true) (hshed : (s.lane n).field.shed = none)
    (hretire : (s.lane n).field.retireNext = p :: r) :
    ∃ t, exec (.shedBegin n) s = .next t ∧ OnlyLane n s t ∧ (t.lane n).field.shed = some (p, 0, true) ∧
      (t.lane n).field.retireNext = r := by
  have hexec : exec (.shedBegin n) s = .next ((s.modLane n (fun l => { l with
      field := { l.field with shed := some (p, 0, true), retireNext := r } })).stampLane n .shedStart) := by
    change execShedBegin n s = _
    unfold execShedBegin
    rw [if_pos (by simp [hactive, hshed]), hretire]
  exact ⟨_, hexec, only_modLane_stamp .., by rw [lane_stampLane, State.modLane_lane], by rw [lane_stampLane, State.modLane_lane]⟩

/-- Without a retirement the last field phase in rotation order is shed, where nothing stands against it (R116, R120). -/
theorem shedBegin_last {p : Pos} (hactive : (s.lane n).active = true) (hshed : (s.lane n).field.shed = none)
    (hretire : (s.lane n).field.retireNext = []) (hfill : (s.lane n).filling s.now = false)
    (hinhibit : (s.lane n).shedInhibited s.now = false) (hfloor : s.nFloor n (s.lane n) < (s.lane n).nField)
    (hhold : s.laneQ n 29 1 * s.fsw n ≤ (s.lane n).field.shedHold) (hsince : s.laneQ n 29 1 * s.fsw n ≤ (s.lane n).field.sinceShed)
    (hlast : ((s.lane n).inOrder (fun x => x.st == .field)).getLast? = some p) :
    ∃ t, exec (.shedBegin n) s = .next t ∧ OnlyLane n s t ∧ (t.lane n).field.shed = some (p, 0, false) ∧
      (t.lane n).field.shedHold = 0 := by
  have hexec : exec (.shedBegin n) s = .next ((s.modLane n (fun l => { l with
      field := { l.field with shed := some (p, 0, false), shedHold := 0 } })).stampLane n .shedStart) := by
    change execShedBegin n s = _
    unfold execShedBegin
    dsimp only
    rw [if_pos (by simp [hactive, hshed]), hretire]
    dsimp only
    rw [if_pos (by simp [hfill, hinhibit, hfloor, hhold, hsince]), hlast]
  exact ⟨_, hexec, only_modLane_stamp .., by rw [lane_stampLane, State.modLane_lane], by rw [lane_stampLane, State.modLane_lane]⟩

theorem shedBegin_filling (hretire : (s.lane n).field.retireNext = []) (hfill : (s.lane n).filling s.now = true) :
    exec (.shedBegin n) s = .next s := by
  change execShedBegin n s = _
  unfold execShedBegin
  dsimp only
  split
  · rw [hretire]
    exact if_neg (by simp [hfill])
  · rfl

/-- After its eighth boundary a shed ends: the phase is out if retired, else on the bench (R119, R129). -/
theorem shedEnd_ends {p : Pos} {m : Nat} {r : Bool} (hshed : (s.lane n).field.shed = some (p, m, r)) (hm : 8 ≤ m) :
    ∃ t, exec (.shedEnd n) s = .next t ∧ OnlyLane n s t ∧ (t.lane n).field.shed = none ∧ (t.lane n).field.sinceShed = 0 ∧
      ((t.lane n).phases.get p).st = (if r then .out else if (s.lane n).field.benchCold then .cold else .warm) ∧
      ∀ q, q ≠ p → (t.lane n).phases.get q = (s.lane n).phases.get q := by
  obtain ⟨t, ht⟩ := exec_answers (.shedEnd n) s
  refine ⟨t, ht, shedEnd_only n s t ht, ?_⟩
  change execShedEnd n s = _ at ht
  unfold execShedEnd at ht
  rw [hshed] at ht
  dsimp only at ht
  rw [if_pos hm] at ht
  obtain rfl := Host.Outcome.next.inj ht
  rw [lane_stampLane, State.modLane_lane]
  refine ⟨rfl, rfl, ?_, fun q hq => vmod_get_other _ _ _ _ hq⟩
  rw [vmod_get_same]
  cases r <;> rfl

theorem benchGoCold_cools (hactive : (s.lane n).active = true) (hhold : s.laneQ n 31 10 * s.fsw n ≤ (s.lane n).field.coldHold)
    (hwarm : s.keepWarm n (s.lane n) = false) :
    ∃ t, exec (.benchGoCold n) s = .next t ∧ OnlyLane n s t ∧ (t.lane n).field.benchCold = true ∧
      (∀ p, ((s.lane n).phases.get p).st = .field → ((t.lane n).phases.get p) = (s.lane n).phases.get p) ∧
      (∀ p, ((s.lane n).phases.get p).st = .warm → ((s.lane n).phases.get p).admitNext = false → ((t.lane n).phases.get p).st = .cold) := by
  refine ⟨_, if_pos (by simp [hactive, hhold, hwarm]), only_modLane .., by rw [State.modLane_lane], fun p hp => ?_,
    fun p hp hadmit => ?_⟩
  · simp [State.modLane_lane, LaneDie.mapPhases, hp]
  · simp [State.modLane_lane, LaneDie.mapPhases, hp, hadmit]

theorem not_filling {k : Nat} (hfrom : (s.lane n).field.fillFrom = some k) (hend : k + 10000 ≤ s.now) :
    (s.lane n).filling s.now = false := by
  rw [LaneDie.filling, hfrom]
  exact decide_eq_false (not_lt.2 hend)

theorem not_shedInhibited {k : Nat} (huntil : (s.lane n).field.shedInhibit = some k) (hend : k ≤ s.now) :
    (s.lane n).shedInhibited s.now = false := by
  simp [LaneDie.shedInhibited, huntil, hend]

end

/-- Settles O18, from the lemmas above; the timed ends need only that their time has come. -/
theorem laneFieldSheds : Obligations.LaneFieldSheds := by
  refine ⟨fun n p r s hactive hshed hretire => shedBegin_retires hactive hshed hretire,
    fun n p s hactive hshed hretire hfill hinhibit hfloor hhold hsince hlast =>
      shedBegin_last hactive hshed hretire hfill hinhibit hfloor hhold hsince hlast,
    fun n s hretire hfill => shedBegin_filling hretire hfill, fun n p m r s hshed hm => shedEnd_ends hshed hm,
    fun n k s huntil hend => ?_, fun n k s hfrom hend => ?_, fun n s hhold hruns => ?_,
    fun n s hactive hhold hwarm => benchGoCold_cools hactive hhold hwarm⟩
  · exact ⟨_, if_pos (by simp [huntil, not_shedInhibited huntil hend]), only_modLane .., State.modLane_lane ..⟩
  · exact ⟨_, if_pos (by simp [hfrom, not_filling hfrom hend]), only_modLane .., State.modLane_lane ..⟩
  · exact ⟨_, if_pos (by simp [hhold, hruns]), only_modLane .., State.modLane_lane ..⟩

end Sys2Proof.Machine
end

section
/-! Stage faults, truncation, droop, skip and regulation of a lane (O19; R95-R101, R247, R249). -/

namespace Sys2Proof.Machine

section
variable {n : Lane} {s : State}

theorem stageFault_stops (hup : (s.lane n).up = true) :
    ∃ t, exec (.stageFault n) s = .next t ∧ OnlyLane n s t ∧ (t.lane n).run = .stopped ∧ (t.lane n).psen = false ∧
      (t.lane n).loop.iCmd = 0 ∧ s.now ∈ (t.lane n).faults ∧
      (t.lane n).outOfService = ((s.lane n).outOfService || decide (2 ≤ ((s.lane n).faults.filter (fun k => s.now < k + 100000)).length)) ∧
      t.events = s.events ++ [{ cls := .protection, tick := s.now, sub := BitVec.ofNat 8 s.subTick, src := .lane n, item := n.val, kind := .stageFault (!(s.lane n).outOfService && (t.lane n).outOfService) }] := by
  obtain ⟨hrun, hpsen, hcmd⟩ := stop_fields (s.lane n)
  refine ⟨_, if_pos hup, only_modLane_stamp .., ?_, ?_, ?_, ?_, ?_, rfl⟩
  all_goals rw [lane_stampLane, State.modLane_lane]
  · exact hrun
  · exact hpsen
  · exact hcmd
  · exact List.mem_cons_self
  · change ((s.lane n).stop.outOfService || decide (3 ≤ (s.now :: (s.lane n).stop.faults.filter _).length)) = _
    rw [stop_faults, List.length_cons]
    exact congrArg₂ _ rfl (decide_eq_decide.2 Nat.succ_le_succ_iff)

theorem truncation_truncates {v : Volt} (hactive : (s.lane n).active = true) (htrunc : (s.lane n).truncating = false)
    (hv : (s.lane n).watched * (1 + s.laneQ n 21 (1 / 1000)) < v) :
    ∃ t, exec (.truncation n v) s = .next t ∧ OnlyLane n s t ∧ (t.lane n).truncating = true ∧
      ((s.lane n).delivers = true → ∀ p, ((t.lane n).phases.get p).drive ≠ .storing) ∧ (t.lane n).loop = (s.lane n).loop := by
  refine ⟨_, if_pos (by simpa [hactive, htrunc] using hv), only_modLane_stamp .., ?_, fun hdelivers p => ?_, ?_⟩
  · rw [lane_stampLane, State.modLane_lane]
  · rw [lane_stampLane, State.modLane_lane]
    dsimp only
    rw [if_pos hdelivers, vget_map]
    split
    · simp
    · assumption
  · rw [lane_stampLane, State.modLane_lane]

theorem skipEntry_skips (hrun : (s.lane n).run = .running) (hskip : (s.lane n).field.skipping = false)
    (hready : s.skipReady n (s.lane n) = true) (hruns : 16 ≤ (s.lane n).field.skipRun) :
    ∃ t, exec (.skipEntry n) s = .next t ∧ OnlyLane n s t ∧ (t.lane n).field.skipping = true ∧
      (t.lane n).diag.skipEntries = satInc 32 (s.lane n).diag.skipEntries ∧ (t.lane n).loop = (s.lane n).loop := by
  refine ⟨_, if_pos (by simp [hrun, hskip, hready, hruns]), only_modLane_stamp .., ?_, ?_, ?_⟩ <;>
    rw [lane_stampLane, State.modLane_lane]

section
variable (now : Nat) (l : LaneDie) {p : Pos}

/-- The step branch leaves a field phase alone and admits a warm one (R116). -/
theorem stepBranch_field (h : (l.phases.get p).st = .field) : (stepBranch now l).phases.get p = l.phases.get p := by
  simp [stepBranch, LaneDie.mapPhases, h]

theorem stepBranch_warm (h : (l.phases.get p).st = .warm) :
    (stepBranch now l).phases.get p = { l.phases.get p with admitNext := true } := by
  simp [stepBranch, LaneDie.mapPhases, h]

end

theorem skipExitComparator_exits {v : Volt} (hskip : (s.lane n).field.skipping = true)
    (hv : v < (s.lane n).watched * (1 - s.laneQ n 25 (1 / 400))) :
    ∃ t, exec (.skipExitComparator n v) s = .next t ∧ OnlyLane n s t ∧ (t.lane n).field.skipping = false ∧
      (t.lane n).loop = { (s.lane n).loop with integ := 2 * s.laneQ n 24 (1 / 4) } ∧
      (¬ ((s.lane n).truncating = true ∧ (s.lane n).delivers = true) →
        ∀ p, ((s.lane n).phases.get p).st = .field → ((t.lane n).phases.get p).drive = .storing) ∧
      (∀ p, ((s.lane n).phases.get p).st = .warm → ((t.lane n).phases.get p).admitNext = true) ∧
      (t.lane n).field.shedInhibit = some (s.now + 5000) := by
  refine ⟨_, if_pos (by simpa [hskip] using hv), only_modLane_stamp .., ?_, ?_, fun hfree p hp => ?_, fun p hp => ?_, ?_⟩
  all_goals rw [lane_stampLane, State.modLane_lane]
  · rfl
  · rw [vget_map, stepBranch_field _ _ hp, if_pos]
    change (decide (_ = PhState.field) && !((s.lane n).truncating && (s.lane n).delivers)) = true
    simpa [hp, imp_iff_not_or] using hfree
  · rw [vget_map, stepBranch_warm _ _ hp, if_neg (by simp [hp])]
  · rfl

theorem skipExit_exits (hskip : (s.lane n).field.skipping = true)
    (hwhy : 12 < ((s.lane n).field.pulses.filter id).length ∨ (s.lane n).field.skipExitDue = true ∨ s.cfg.get (s.laneFn n) 23 = 0) :
    ∃ t, exec (.skipExit n) s = .next t ∧ OnlyLane n s t ∧ (t.lane n).field.skipping = false ∧ (t.lane n).loop = (s.lane n).loop ∧
      t.events = s.events ++ [{ cls := .protection, tick := s.now, sub := BitVec.ofNat 8 s.subTick, src := .lane n, item := n.val, kind := .skipExit }] := by
  refine ⟨_, if_pos ?_, only_modLane_stamp .., ?_, ?_, rfl⟩
  · simpa [hskip, or_assoc] using hwhy
  · rw [lane_stampLane, State.modLane_lane]
  · rw [lane_stampLane, State.modLane_lane]

theorem inRegulation_notes (hrun : (s.lane n).run = .running) (hreg : (s.lane n).field.inReg = false)
    (hruns : 16 ≤ (s.lane n).field.regRun) :
    ∃ t, exec (.inRegulation n) s = .next t ∧ t.lane n = { s.lane n with field := { (s.lane n).field with inReg := true } } ∧
      (∀ m, m ≠ n → t.lane m = s.lane m) ∧ t.keep = { s.keep with trimSince := vput s.keep.trimSince n (some s.now) } ∧
      t = { s with lanes := t.lanes, keep := t.keep, events := t.events } :=
  ⟨_, if_pos (by simp [hrun, hreg, hruns]), State.modLane_lane .., fun m hm => State.modLane_other _ _ _ _ hm, rfl, rfl⟩

end

/-- Settles O19, from the lemmas above; the comparators of truncation and droop need only their thresholds. -/
theorem laneFaultsSkipAndRegulation : Obligations.LaneFaultsSkipAndRegulation := by
  refine ⟨⟨fun n s hup => stageFault_stops hup, fun n v s hactive htrunc hv => truncation_truncates hactive htrunc hv,
      fun n v s htrunc hv => ?_, fun n v s hup hshut hline hdroop hv => ?_, fun n v s hdroop hv => ?_⟩,
    fun n s hrun hskip hready hruns => skipEntry_skips hrun hskip hready hruns,
    fun n v s hskip hv => skipExitComparator_exits hskip hv, fun n s hskip hwhy => skipExit_exits hskip hwhy,
    fun n s hrun hreg hruns => inRegulation_notes hrun hreg hruns⟩
  · exact ⟨_, if_pos (by simpa [htrunc] using hv), only_modLane .., State.modLane_lane ..⟩
  · exact ⟨_, if_pos (by simp [hup, hshut, hline, hdroop, hv]), only_modLane_stamp .., State.modLane_lane ..⟩
  · exact ⟨_, if_pos (by simp [hdroop, hv]), only_modLane .., State.modLane_lane ..⟩

end Sys2Proof.Machine
end

section
/-! Starts and stops of a lane, frames that take effect in a die, trim saves (O20; R6, R7, R12, R100, R103, R123, R418). -/

namespace Sys2Proof.Machine

section
variable {n : Lane} {s : State}

theorem firstPulses_field (l : LaneDie) (now : Nat) (node : Volt) {p : Pos} (h : (l.phases.get p).st ≠ .out) :
    ((l.firstPulses now node).phases.get p).st = .field := by
  simp [LaneDie.firstPulses, LaneDie.mapPhases, h]

/-- The checks of the bias wait mark phases and change nothing else of them (R124). -/
theorem biasCheck_st (l : LaneDie) (offsets : Vector Amp 4) (refs : Vector Volt 4) (p : Pos) :
    ((s.biasCheck n l offsets refs).phases.get p).st = (l.phases.get p).st := by
  simp only [State.biasCheck, vget_ofFn]
  split <;> rfl

theorem laneFirstPulses_starts (v : Volt) (o : Vector Amp 4) (r : Vector Volt 4) (hrun : (s.lane n).run = .bias) :
    ∃ t, exec (.laneFirstPulses n v o r) s = .next t ∧ OnlyLane n s t ∧ (t.lane n).run = .running ∧ (t.lane n).loop.target = v ∧
      (t.lane n).loop.cFloor = 0 ∧ (t.lane n).field.fillFrom = some s.now ∧ (t.lane n).field.hist = [] ∧
      (∀ p, ((s.lane n).phases.get p).st ≠ .out → ((t.lane n).phases.get p).st = .field) := by
  obtain ⟨t, ht⟩ := exec_answers (.laneFirstPulses n v o r) s
  refine ⟨t, ht, laneFirstPulses_only n v s o r t ht, ?_⟩
  change execLaneFirstPulses n v o r s = _ at ht
  unfold execLaneFirstPulses at ht
  rw [if_pos hrun] at ht
  obtain rfl := Host.Outcome.next.inj ht
  rw [foldl_proj (fun u : State => u.lane n) _ _ _ fun u p => by split <;> rfl, State.modLane_lane]
  exact ⟨rfl, rfl, rfl, rfl, rfl, fun p hp => (biasCheck_st ..).trans (firstPulses_field _ _ _ hp)⟩

/-- A ramp that has reached 0 saves the trims and stops the lane, or leaves a feeding one in standby (R103, R123, R418). -/
theorem laneStopComplete_stops (hrun : (s.lane n).run = .ramping) (hramp : (s.lane n).loop.rampA = some 0) (hcmd : (s.lane n).loop.iCmd = 0) :
    ∃ t, exec (.laneStopComplete n) s = .next t ∧
      (t.lane n).run = (if (s.lane n).keeper.any (·.expired) = true ∧ (s.lane n).order.role = .feed then .standby else .stopped) ∧
      ((t.lane n).run = .stopped → (t.lane n).psen = false) ∧ (t.lane n).loop.iCmd = 0 ∧ (∀ m, m ≠ n → t.lane m = s.lane m) ∧
      t.keep.trimSince.get n = none ∧
      t.events = s.events ++ [{ cls := .protection, tick := s.now, sub := BitVec.ofNat 8 s.subTick, src := .lane n, item := n.val, kind := .laneStopped }] := by
  obtain ⟨t, ht⟩ := exec_answers (.laneStopComplete n) s
  refine ⟨t, ht, ?_⟩
  change execLaneStopComplete n s = _ at ht
  unfold execLaneStopComplete at ht
  extract_lets l saved keep ended standby at ht
  rw [if_pos (by simp [l, hrun, hramp, hcmd])] at ht
  obtain rfl := Host.Outcome.next.inj ht
  obtain ⟨hlanes, hevents, htime⟩ : ended.lanes = s.lanes ∧ ended.events = s.events ∧ ended.time = s.time := saveTrims_same s n _
  have hlane : ∀ m, ended.lane m = s.lane m := fun m => congrArg (fun v : Vector LaneDie 4 => v.get m) hlanes
  have hstandby : standby = true ↔ (s.lane n).keeper.any (·.expired) = true ∧ (s.lane n).order.role = .feed := by
    simp [standby, l]
  obtain ⟨hstop, hpsen, hzero⟩ := stop_fields (s.lane n)
  have hend : ((ended.modLane n (fun l => if standby then l.toStandby else l.stop)).stampLane n .laneStopped).lane n =
      if standby then (s.lane n).toStandby else (s.lane n).stop := by
    rw [lane_stampLane, State.modLane_lane, hlane]
  rw [hend]
  refine ⟨?_, ?_, ?_, fun m hm => ?_, vput_get_same .., ?_⟩
  · simp only [← hstandby]
    split
    · rfl
    · exact hstop
  · split
    · simp [LaneDie.toStandby]
    · exact fun _ => hpsen
  · split
    · exact hzero
    · exact hzero
  · rw [lane_stampLane, State.modLane_other _ _ _ _ hm, hlane]
  · change ended.events ++ [{ cls := .protection, tick := ended.now, sub := BitVec.ofNat 8 ended.subTick, src := .lane n, item := n.val, kind := .laneStopped }] = _
    rw [hevents, State.now, State.subTick, htime]
    rfl

/-- A lane die applies the first of its frames when its tick has come (R6, R7). -/
theorem dieFrameApply_lane {f : LaneFrame} {r : List LaneFrame} (hframes : (s.lane n).frames = f :: r)
    (hdue : ixReached f.eff (s.lane n).tick.toNat = true) (hup : (s.lane n).up = true) :
    ∃ t, exec (.dieFrameApply (.lane n)) s = .next t ∧ (t.lane n).frames = r ∧ (t.lane n).keeper = none ∧ (t.lane n).got = true ∧
      (t.lane n).order = f.order ∧ (∀ m, m ≠ n → t.lane m = s.lane m) ∧ (f.go = .stopNow → (t.lane n).run = .stopped) ∧
      (t.lane n).newSet = (s.lane n).newSet ++ f.set := by
  obtain ⟨t, ht⟩ := exec_answers (.dieFrameApply (.lane n)) s
  refine ⟨t, ht, ?_⟩
  change execDieFrameApply (.lane n) s = _ at ht
  unfold execDieFrameApply at ht
  simp only [hframes] at ht
  rw [if_pos (by simp [hdue, hup])] at ht
  obtain rfl := Host.Outcome.next.inj ht
  generalize hu : s.modLane n _ = u
  obtain ⟨hpart, hother, hstop⟩ := applyLane_is u n f
  have hlane : framePart (u.lane n) = (r, (s.lane n).keeper, (s.lane n).got, (s.lane n).order, (s.lane n).newSet) := by
    rw [← hu, State.modLane_lane]
  simp only [framePart, Prod.mk.injEq] at hpart hlane
  obtain ⟨hr, hkeeper, hgot, horder, hset⟩ := hpart
  exact ⟨hr.trans hlane.1, hkeeper, hgot, horder, fun m hm => (hother m hm).trans (by rw [← hu, State.modLane_other _ _ _ _ hm]), hstop,
    hset.trans (by rw [hlane.2.2.2.2])⟩

end

section
variable {m : PortDie} {f : PortFrame} {r : List PortFrame} {s : State}

theorem closePair_portDies (s : State) (c : Src) : (s.closePair c).portDies = s.portDies := by
  unfold State.closePair
  dsimp only
  split
  · split <;> rfl
  · rfl

theorem closePair_closing (s : State) (c : Src) (h : (s.conn c).pair = .opened) : ((s.closePair c).conn c).pair = .closing := by
  unfold State.closePair
  dsimp only
  rw [if_pos h, State.modConn_conn]

/-- Whatever a frame asks, its die has heard the hub: it leaves its keeper (R6, R416). -/
theorem applyPort_pdie (s : State) (m : PortDie) (c : PortCmd) :
    (s.applyPort m c).pdie m = { s.pdie m with got := true, keeper := none, holdTenths := s.cfg.keeperHold } := by
  have heard : (s.modPd m (fun d => { d with got := true, keeper := none, holdTenths := s.cfg.keeperHold })).pdie m =
      { s.pdie m with got := true, keeper := none, holdTenths := s.cfg.keeperHold } := State.modPd_pdie ..
  cases c with
  | openPair x => exact (ccRefresh_pdie ..).trans heard
  | closePair x =>
    simp only [State.applyPort]
    split
    · rw [ccRefresh_pdie, State.pdie, closePair_portDies]
      exact heard
    · exact heard
  | mux p x => exact heard
  | send p x => exact heard
  | nothing => exact heard

/-- A port die applies the first of its frames when its tick has come. -/
theorem exec_dieFrameApply_port (hframes : (s.pdie m).frames = f :: r) (hdue : ixReached f.eff (s.pdie m).tick.toNat = true)
    (hup : (s.pdie m).up = true) : ∃ k : Nat → Nat, exec (.dieFrameApply (.port m)) s =
      .next ((s.modPd m (fun d => { d with frames := r, late := k d.late })).applyPort m f.cmd) := by
  refine ⟨fun late => if ixBefore f.eff (s.pdie m).tick.toNat then satInc 32 late else late, ?_⟩
  change execDieFrameApply (.port m) s = _
  unfold execDieFrameApply
  simp only [hframes]
  exact if_pos (by simp [hdue, hup])

theorem dieFrameApply_port (hframes : (s.pdie m).frames = f :: r) (hdue : ixReached f.eff (s.pdie m).tick.toNat = true)
    (hup : (s.pdie m).up = true) :
    ∃ t, exec (.dieFrameApply (.port m)) s = .next t ∧ (t.pdie m).frames = r ∧ (t.pdie m).got = true ∧ (t.pdie m).keeper = none ∧
      (∀ (p : Port) (x : BitVec 2), f.cmd = .mux p x → t.port p = { s.port p with mux := x } ∧ t = { s with ports := t.ports, portDies := t.portDies }) ∧
      (∀ c, f.cmd = .openPair c → (t.conn c).pair = .opened) ∧
      (∀ c, f.cmd = .closePair c → s.mayClose c = true → (s.conn c).pair = .opened → (t.conn c).pair = .closing) ∧
      (∀ c, f.cmd = .closePair c → s.mayClose c = false → t.conns = s.conns) ∧
      (∀ p x, f.cmd = .send p x → t.pdOut = { port := p, msg := x } :: s.pdOut ∧ (t.port p).lastTx = some x) := by
  obtain ⟨k, hexec⟩ := exec_dieFrameApply_port hframes hdue hup
  refine ⟨_, hexec, ?_, ?_, ?_, fun p x h => ?_, fun c h => ?_, fun c h hmay hpair => ?_, fun c h hmay => ?_, fun p x h => ?_⟩
  · rw [applyPort_pdie, State.modPd_pdie]
  · rw [applyPort_pdie]
  · rw [applyPort_pdie]
  · rw [h]
    exact ⟨State.modPort_port .., rfl⟩
  · rw [h]
    simp only [State.applyPort, ccRefresh_conn, State.openPair, State.modConn_conn]
  · rw [h, State.applyPort]
    rw [if_pos (by exact hmay), ccRefresh_conn]
    exact closePair_closing _ _ hpair
  · rw [h, State.applyPort]
    rw [if_neg (by rw [Bool.not_eq_true]; exact hmay)]
    rfl
  · rw [h]
    exact ⟨rfl, congrArg PortSt.lastTx (pdPut_port ..)⟩

end

theorem dieFrameApply_idle {d : Die} {s : State}
    (h : match d with | .lane n => (s.lane n).frames = [] | .port m => (s.pdie m).frames = []) : exec (.dieFrameApply d) s = .next s := by
  change execDieFrameApply d s = _
  unfold execDieFrameApply
  cases d <;> simp only at h <;> simp only [h]

/-- Trims that moved by 0.1 A or more from the set saved last are saved, 10 min after the last save (R123). -/
theorem trimSave_saves {n : Lane} {k : Nat} {s : State} (hsince : s.keep.trimSince.get n = some k) (hreg : (s.lane n).field.inReg = true)
    (hpassed : s.passed k 60000000 = true)
    (hmoved : ∃ p, 1 / 10 ≤ rabs (((s.lane n).phases.get p).trim -
      ((s.keep.trims.get n).getD (Vector.ofFn (fun p => s.cfg.q (2 + n.val) 34 (1 / 20) p.val))).get p)) :
    ∃ t, exec (.trimSave n) s = .next t ∧ t.keep.trims.get n = some ((s.lane n).phases.map (·.trim)) ∧
      t.keep.trimSince.get n = some s.now ∧ t.lanes = s.lanes ∧ t = { s with keep := t.keep, flash := t.flash } := by
  obtain ⟨t, ht⟩ := exec_answers (.trimSave n) s
  refine ⟨t, ht, ?_⟩
  change execTrimSave n s = _ at ht
  unfold execTrimSave at ht
  rw [hsince] at ht
  dsimp only at ht
  rw [if_pos (by simp [hreg, secTicks, hpassed])] at ht
  obtain rfl := Host.Outcome.next.inj ht
  obtain ⟨p, hp⟩ := hmoved
  have hold : ∀ o : Option (Vector Amp 4), (match o with | some o => o | none => Vector.ofFn (fun p => s.cfg.q (2 + n.val) 34 (1 / 20) p.val)) =
      o.getD (Vector.ofFn (fun p => s.cfg.q (2 + n.val) 34 (1 / 20) p.val)) := fun o => by cases o <;> rfl
  unfold State.saveTrims
  extract_lets old kept
  have holdEq : old = _ := hold (s.keep.trims.get n)
  rw [if_pos ?_]
  · split <;> exact ⟨vput_get_same .., vput_get_same .., rfl, rfl⟩
  · refine List.any_eq_true.2 ⟨p, List.mem_finRange p, ?_⟩
    rw [← holdEq] at hp
    unfold rabs at hp
    split at hp
    · simp only [Bool.or_eq_true, decide_eq_true_eq]
      exact .inr (by rw [vget_map]; linarith)
    · simp only [Bool.or_eq_true, decide_eq_true_eq]
      exact .inl (by rw [vget_map]; linarith)

/-- Settles O20, from the lemmas above. -/
theorem laneStartsStopsAndFrames : Obligations.LaneStartsStopsAndFrames :=
  ⟨fun _ v o r _ hrun => laneFirstPulses_starts v o r hrun, fun _ _ hrun hramp hcmd => laneStopComplete_stops hrun hramp hcmd,
    fun _ _ _ _ hframes hdue hup => dieFrameApply_lane hframes hdue hup,
    fun _ _ _ _ hframes hdue hup => dieFrameApply_port hframes hdue hup, fun _ _ h => dieFrameApply_idle h,
    fun _ _ _ hsince hreg hpassed hmoved => trimSave_saves hsince hreg hpassed hmoved⟩

end Sys2Proof.Machine
end

section
/-! The switching-period boundary and the balance trims (O21; R79, R82-R86, R90-R92, R110, R119, R122, R123, R133). -/

namespace Sys2Proof.Machine

/-- The settings that go into force at a boundary touch these parts of their own lane die only (R99, R110, R133). -/
def BoundaryPart (l l' : LaneDie) : Prop :=
  l' = { l with newSet := l'.newSet, stackLocked := l'.stackLocked
                loop := { l.loop with laneCeil := l'.loop.laneCeil, reload := l'.loop.reload }
                field := { l.field with skipExitDue := l'.field.skipExitDue } }

/-- Another lane may have its loops reloaded and its stack lock changed (R110, R133). -/
def OtherPart (l l' : LaneDie) : Prop := ∃ a b, l' = { l with stackLocked := a, loop := { l.loop with reload := b } }

theorem OtherPart.refl (l : LaneDie) : OtherPart l l := ⟨l.stackLocked, l.loop.reload, rfl⟩

theorem OtherPart.trans {l l' l'' : LaneDie} (h : OtherPart l l') (h' : OtherPart l' l'') : OtherPart l l'' := by
  obtain ⟨a, b, rfl⟩ := h
  obtain ⟨c, d, rfl⟩ := h'
  exact ⟨c, d, rfl⟩

theorem OtherPart.boundary {l l' l'' : LaneDie} (h : BoundaryPart l l') (h' : OtherPart l' l'') : BoundaryPart l l'' := by
  obtain ⟨a, b, rfl⟩ := h'
  rw [BoundaryPart, h]

/-- Only lane dies change, and each only as another lane may (R110, R133). -/
def Reloaded (s u : State) : Prop := u = { s with lanes := u.lanes } ∧ ∀ k, OtherPart (s.lane k) (u.lane k)

theorem Reloaded.refl (s : State) : Reloaded s s := ⟨rfl, fun _ => .refl _⟩

theorem Reloaded.modLane {s u : State} (h : Reloaded s u) (m : Lane) (f : LaneDie → LaneDie) (hf : ∀ l, OtherPart l (f l)) :
    Reloaded s (u.modLane m f) := by
  obtain ⟨hu, hlanes⟩ := h
  refine ⟨by rw [hu]; rfl, fun k => ?_⟩
  by_cases hk : k = m
  · subst hk
    rw [State.modLane_lane]
    exact (hlanes k).trans (hf _)
  · rw [State.modLane_other _ _ _ _ hk]
    exact hlanes k

theorem Reloaded.fold {s u : State} (h : Reloaded s u) (c : State → Lane → Prop) [∀ u m, Decidable (c u m)]
    (f : LaneDie → LaneDie) (hf : ∀ l, OtherPart l (f l)) (l : List Lane) :
    Reloaded s (l.foldl (fun s m => if c s m then s.modLane m f else s) u) := by
  refine foldl_inv (Reloaded s) _ l u h fun v m hv => ?_
  split
  · exact hv.modLane m f hf
  · exact hv

/-- What the settings that go into force at a boundary leave of the state before them (R110). -/
def SettingsTaken (n : Lane) (s u : State) : Prop :=
  u = { s with lanes := u.lanes, cfg := { s.cfg with inForce := inForceWith s.cfg.inForce (s.lane n).newSet } } ∧
    BoundaryPart (s.lane n) (u.lane n) ∧ (∀ k, k ≠ n → OtherPart (s.lane k) (u.lane k)) ∧
    ((∀ e ∈ (s.lane n).newSet, reloads e = false) → ∀ k, k ≠ n → u.lane k = s.lane k)

/-- The settings a lane's frames have brought go into force; other lanes are reloaded at most, and not even that where no gain has
changed (R110). -/
theorem takeSettings_is (n : Lane) (s : State) : SettingsTaken n s (s.takeSettings n) := by
  unfold State.takeSettings
  extract_lets es old old_cfg s1 up s2
  have hown : BoundaryPart (s.lane n) (s2.lane n) := by
    rw [show s2.lane n = _ from State.modLane_lane ..]
    exact rfl
  have hother : ∀ k, k ≠ n → s2.lane k = s.lane k := fun k hk => State.modLane_other _ _ _ _ hk
  split
  · next hempty =>
    refine ⟨?_, rfl, fun k _ => .refl _, fun _ k _ => rfl⟩
    rw [show (s.lane n).newSet = [] from List.isEmpty_iff.1 hempty]
    rfl
  · split
    · next hreload =>
      have hfold := (Reloaded.refl s2).fold (fun s m => s.cfg.leader m = n)
        (fun l => { l with loop := { l.loop with reload := true } }) (fun l => ⟨_, _, rfl⟩) (List.finRange 4)
      generalize List.foldl _ s2 (List.finRange 4) = v at hfold ⊢
      obtain ⟨hv, hlanes⟩ := hfold
      refine ⟨by rw [hv]; rfl, (hlanes n).boundary hown, fun k hk => hother k hk ▸ hlanes k, fun hnone => ?_⟩
      obtain ⟨e, he, hre⟩ := List.any_eq_true.1 hreload
      rw [hnone e he] at hre
      cases hre
    · exact ⟨rfl, hown, fun k hk => hother k hk ▸ .refl _, fun _ k hk => hother k hk⟩

/-- The sync pulses after a boundary of lane die `n`: the master of a stack counts the pulse of its lane die 0 (R133). -/
def pulsesAfter (n : Lane) (s : State) : BitVec 32 :=
  s.stack.syncPulses + (if n = 0 ∧ 2 ≤ s.stack.size ∧ s.stack.position = 0 ∧ (s.lane 0).up = true then 1 else 0)

/-- What the sync pulse leaves of the state before it (R133). -/
def Pulsed (n : Lane) (s u : State) : Prop :=
  u = { s with lanes := u.lanes, stack := { s.stack with syncPulses := pulsesAfter n s } } ∧
    (∀ k, OtherPart (s.lane k) (u.lane k)) ∧ (s.stack.size ≤ 1 → u = s)

theorem pulsesAfter_of_not {n : Lane} {s : State}
    (h : ¬ (n = 0 ∧ 2 ≤ s.stack.size ∧ s.stack.position = 0 ∧ (s.lane 0).up = true)) : pulsesAfter n s = s.stack.syncPulses := by
  rw [pulsesAfter, if_neg h]
  exact BitVec.add_zero _

/-- The sync pulse of the period: a master counts it, and the lanes of the stack take the lock of lane die 0 (R133). -/
theorem syncPulse_is (n : Lane) (s : State) : Pulsed n s (s.syncPulse n) := by
  unfold State.syncPulse
  split
  · next hskip =>
    rw [Pulsed, pulsesAfter_of_not]
    · exact ⟨rfl, fun k => .refl _, fun _ => rfl⟩
    · rintro ⟨hn, hsize, -, hup⟩
      simp [hn, hup] at hskip
      omega
  · next hgo =>
    simp only [Bool.or_eq_true, bne_iff_ne, ne_eq, not_or, decide_eq_true_eq, not_le, Bool.not_eq_true', Bool.not_eq_false,
      not_not] at hgo
    obtain ⟨⟨hn, hsize⟩, hup⟩ := hgo
    extract_lets master locked old_stack s1
    have hs1 : s1 = { s with stack := { s.stack with syncPulses := pulsesAfter n s } } := by
      unfold s1
      split
      · next hm => rw [pulsesAfter, if_pos ⟨hn, hsize, by simpa [master] using hm, hup⟩]
      · next hm => rw [pulsesAfter_of_not fun h => hm (by simpa [master] using h.2.2.1)]
    have hlane : ∀ k, s1.lane k = s.lane k := fun k => by rw [hs1]; rfl
    obtain ⟨hu, hlanes⟩ := (Reloaded.refl s1).fold
      (fun s m => (s.inStack m && (s.lane m).up && (master || m != 0)) = true)
      (fun l => { l with stackLocked := locked }) (fun l => ⟨_, _, rfl⟩) (List.finRange 4)
    exact ⟨by rw [hu, hs1], fun k => hlane k ▸ hlanes k, fun h => by omega⟩

/-- A state just before a lane's boundary computes its means: settings in force and sync pulse sent (R110, R133). -/
def atBoundary (n : Lane) (s : State) : State := if (s.lane n).up then (s.takeSettings n).syncPulse n else s

/-- What precedes the means of a boundary changes the lane, the loops and stack locks of others, the settings in force and the
count of sync pulses only. -/
theorem atBoundary_is (n : Lane) (s : State) : let u := atBoundary n s
    u = { s with lanes := u.lanes, cfg := { s.cfg with inForce := u.cfg.inForce }, stack := { s.stack with syncPulses := pulsesAfter n s } } ∧
      BoundaryPart (s.lane n) (u.lane n) ∧ (∀ k, k ≠ n → OtherPart (s.lane k) (u.lane k)) ∧
      (s.stack.size ≤ 1 → (∀ e ∈ (s.lane n).newSet, reloads e = false) → ∀ k, k ≠ n → u.lane k = s.lane k) ∧
      ((s.lane n).up = true → u.cfg.inForce = inForceWith s.cfg.inForce (s.lane n).newSet) := by
  unfold atBoundary
  by_cases hup : (s.lane n).up = true
  · rw [if_pos hup]
    obtain ⟨ht, hown, hother, hsame⟩ := takeSettings_is n s
    obtain ⟨hp, hlanes, hone⟩ := syncPulse_is n (s.takeSettings n)
    have hpulses : pulsesAfter n (s.takeSettings n) = pulsesAfter n s := by
      by_cases hn : n = 0
      · subst hn
        rw [pulsesAfter, pulsesAfter, show (s.takeSettings 0).stack = s.stack by rw [ht],
          show ((s.takeSettings 0).lane 0).up = (s.lane 0).up by rw [hown]]
      · rw [pulsesAfter_of_not fun h => hn h.1, pulsesAfter_of_not fun h => hn h.1, ht]
    dsimp only
    refine ⟨?_, (hlanes n).boundary hown, fun k hk => (hother k hk).trans (hlanes k), fun hsize hnone k hk => ?_, fun _ => ?_⟩
    · rw [hp, hpulses, ht]
    · rw [hone (by rw [ht]; exact hsize), hsame hnone k hk]
    · rw [hp, ht]
  · rw [if_neg hup]
    refine ⟨?_, rfl, fun k _ => .refl _, fun _ _ _ _ => rfl, fun h => absurd h hup⟩
    rw [pulsesAfter_of_not]
    rintro ⟨rfl, -, -, h⟩
    exact hup h

section
variable (n : Lane) (m : PeriodSample) (s : State)

/-- A boundary gives its lane what the lane period computes, but for the die's own count of shed aborts. -/
theorem lanePeriodBoundary_is : ∃ t, exec (.lanePeriodBoundary n m) s = .next t ∧
    (∀ k, k ≠ n → t.lane k = (atBoundary n s).lane k) ∧ (∃ d, t.lane n = { ((atBoundary n s).lanePeriod n m).1 with diag := d }) ∧
    t = { atBoundary n s with lanes := t.lanes, keep := t.keep, events := t.events, tel := t.tel } := by
  obtain ⟨t, ht⟩ := exec_answers (.lanePeriodBoundary n m) s
  refine ⟨t, ht, ?_⟩
  change execLanePeriodBoundary n m s = _ at ht
  unfold execLanePeriodBoundary at ht
  extract_lets s0 r before aborted old_keep trimmed at ht
  obtain rfl := Host.Outcome.next.inj ht
  obtain ⟨hother, d, hown⟩ := noteAbort_lane { s0 with lanes := vput s0.lanes n r.1 } n before
  have haborted : aborted = { s0 with lanes := aborted.lanes, events := aborted.events } := by
    unfold aborted State.noteAbort
    split <;> rfl
  have htrimmed : trimmed = { aborted with keep := trimmed.keep } := by
    unfold trimmed
    split <;> rfl
  have hstep : ∀ u : State, (if r.2 = true then u.stampLane n .step else u) =
      { u with events := (if r.2 = true then u.stampLane n .step else u).events } := by
    intro u
    split <;> rfl
  have hlast : ((if r.2 = true then trimmed.stampLane n .step else trimmed).samplePeriod n).lanes = aborted.lanes := by
    rw [samplePeriod_is]
    show (if r.2 = true then trimmed.stampLane n .step else trimmed).lanes = aborted.lanes
    rw [hstep, htrimmed]
  refine ⟨fun k hk => ?_, ⟨d, ?_⟩, ?_⟩
  · rw [State.lane, hlast]
    exact (hother k hk).trans (vput_get_other _ _ _ _ hk)
  · rw [State.lane, hlast]
    refine hown.trans ?_
    rw [show State.lane { s0 with lanes := vput s0.lanes n r.1 } n = r.1 from vput_get_same ..]
    rfl
  · rw [samplePeriod_is, hstep, htrimmed, haborted]
    rfl

/-- An active lane's boundary takes the means, counts the period and leaves the lane running as it was. -/
theorem lanePeriodBoundary_active (hup : (s.lane n).up = true) (hactive : (s.lane n).active = true) :
    periodPart ((atBoundary n s).lanePeriod n m).1 =
      (adcV m.sysAvg, adcV m.vinlAvg, (s.lane n).field.periods + 1, (s.lane n).run) := by
  obtain ⟨-, hown, -⟩ := atBoundary_is n s
  rw [lanePeriod_active _ n m (by rw [hown]; exact hup) (by rw [hown]; exact hactive), hown]

/-- One balance step keeps a trim within the bounds of 2 A, or where it stood outside them (R86). -/
theorem balanceStep_bounds (x i mean : Rat) :
    (if i < mean then min 2 (x + 1 / 20) else if mean < i then max (-2) (x - 1 / 20) else x) ≤ max 2 x ∧
      min (-2) x ≤ (if i < mean then min 2 (x + 1 / 20) else if mean < i then max (-2) (x - 1 / 20) else x) := by
  have hup : min (-2) x ≤ min 2 (x + 1 / 20) :=
    le_min ((min_le_left ..).trans (by norm_num)) ((min_le_right ..).trans (by linarith))
  have hdown : max (-2) (x - 1 / 20) ≤ max 2 x :=
    max_le (le_trans (by norm_num) (le_max_left ..)) (le_trans (by linarith) (le_max_right ..))
  split
  · exact ⟨(min_le_left ..).trans (le_max_left ..), hup⟩
  · split
    · exact ⟨hdown, (min_le_left ..).trans (le_max_left ..)⟩
    · exact ⟨le_max_right .., min_le_right ..⟩

end

/-- Settles O21, from what precedes the means of a boundary (`atBoundary_is`), the laws of the lane period, and one balance step
per field phase. -/
theorem periodBoundaryTakesTheMeans : Obligations.PeriodBoundaryTakesTheMeans := by
  unfold Obligations.PeriodBoundaryTakesTheMeans
  refine ⟨fun n m s => ?_, fun n m s hup hactive => ?_, fun n m s hup hrun => ?_, fun n s hrun hdue hshed hskip => ?_,
    fun n s hrun hdue hfrozen => ?_⟩
  · obtain ⟨t, ht, hother, -, hrest⟩ := lanePeriodBoundary_is n m s
    obtain ⟨hat, -, hpart, hsame, hforce⟩ := atBoundary_is n s
    refine ⟨t, ht, fun k hk => hother k hk ▸ hpart k hk, fun k hk hsize hnone => (hother k hk).trans (hsame hsize hnone k hk),
      ?_, fun hup => ?_, ?_⟩
    · rw [hrest, hat]
    · rw [hrest]
      exact hforce hup
    · rw [hrest, hat]
      rfl
  · obtain ⟨t, ht, -, ⟨d, hown⟩, -⟩ := lanePeriodBoundary_is n m s
    have hmeans := lanePeriodBoundary_active n m s hup hactive
    simp only [periodPart, Prod.mk.injEq] at hmeans
    refine ⟨t, ht, ?_⟩
    rw [hown]
    exact hmeans
  · obtain ⟨t, ht, -, ⟨d, hown⟩, -⟩ := lanePeriodBoundary_is n m s
    obtain ⟨-, hpart, -⟩ := atBoundary_is n s
    refine ⟨t, ht, ?_⟩
    rw [hown]
    exact lanePeriod_stopped (atBoundary n s) n m (by rw [hpart]; exact hup) (by rw [hpart]; exact hrun)
  · refine ⟨_, if_pos (by simp [hrun, hdue]), only_modLane .., ?_, fun p hp => ?_, fun p => ?_⟩
    · rw [State.modLane_lane]
    · rw [State.modLane_lane]
      simp [hshed, hskip, hp]
    · rw [State.modLane_lane]
      simp only [hshed, hskip, Option.isSome_none, Bool.or_self, Bool.false_eq_true, if_false, vget_map]
      split
      · exact balanceStep_bounds ..
      · exact ⟨le_max_right .., min_le_right ..⟩
  · refine ⟨_, if_pos (by simp [hrun, hdue]), only_modLane .., ?_, ?_⟩
    · rw [State.modLane_lane]
      exact if_pos (by rcases hfrozen with h | h <;> simp [h])
    · rw [State.modLane_lane]

end Sys2Proof.Machine
end

section
/-! Supply, rails, crystal and wakes (O9, O12; R33, R36, R38, R50, R71, R72, R75, R166, R373, R409, R411, R412, R455, R456). -/

namespace Sys2Proof.Machine

section
variable (s : State)

/-- What loss of VPWR keeps while VAON stays up (R33; log entry 89). -/
theorem unpowered_vaonKept : let t := s.unpowered false
    t.aon.vpwr = false ∧ t.aon.mode = none ∧ t.aon.safeLatch = s.aon.safeLatch ∧ t.hub.hub = .off ∧ t.keep = s.keep ∧
      t.cfg = s.landSettings.cfg ∧ t.gauge.qRem = s.gauge.qRem ∧ t.flash.cat = s.flash.cat ∧ t.otp = s.otp := by
  dsimp only [State.unpowered]
  rw [if_neg Bool.false_ne_true, setMode_frame]
  exact ⟨rfl, rfl, rfl, rfl, rfl, rfl, rfl, rfl, rfl⟩

/-- From the pack, FT low, the device enters SHIP and touches neither hub nor lanes (R36, R38). -/
theorem packStart_ships : let t := s.packStart false
    t.aon.vpwr = true ∧ t.aon.mode = some .ship ∧ t.hub = s.hub ∧ t.lanes = s.lanes := by
  dsimp only [State.packStart]
  rw [if_neg Bool.false_ne_true, setMode_frame]
  exact ⟨rfl, rfl, rfl, rfl⟩

/-- With no rail held down the dies run; with one held down they stay as they are (R38, R411). -/
theorem diesUp_up (hrails : s.railsUp = true) : (∀ n, s.diesUp.lane n = { s.lane n with up := true, tick := s.tickWord }) ∧
    ∀ m, s.diesUp.pdie m = { s.pdie m with up := true, tick := s.tickWord } := by
  rw [diesUp_is s hrails]
  exact ⟨fun n => vget_map .., fun m => vget_map ..⟩

theorem railsUp_iff : s.railsUp = true ↔ ∀ x, s.aon.railDown.get x = false := by
  simp only [State.railsUp, Bool.not_eq_true', List.any_eq_false, id, Vector.mem_toList_iff, Vector.mem_iff_getElem,
    Bool.not_eq_true]
  constructor
  · exact fun h x => h _ ⟨x.val, x.isLt, rfl⟩
  · rintro h _ ⟨i, hi, rfl⟩
    exact h ⟨i, hi⟩

/-- An overloaded rail resets the power dies and opens every pair (R411). -/
theorem execRailOverload_is (r : Rail) (hon : s.hub.hub ≠ .off) : execRailOverload r s =
    .next ((s.diesReset false true).modAon (fun a => { a with railDown := vput a.railDown (railIx r) true })) := if_neg hon

/-- The last rail that recovers starts the dies of a hub that has power (R411). -/
theorem execRailRecovered_is (r : Rail) (hdown : s.aon.railDown.get (railIx r) = true) : execRailRecovered r s =
    .next (let u := s.modAon (fun a => { a with railDown := vput a.railDown (railIx r) false })
      if u.hub.hub = .off then u else u.diesUp) := if_pos hdown

end

/-- Settles O9, one power event at a time, from the laws of the dies' start and reset. -/
theorem supplyAndRailCommandsAct : Obligations.SupplyAndRailCommandsAct := by
  unfold Obligations.SupplyAndRailCommandsAct
  refine ⟨⟨fun pins s hpwr hft => ?_, fun pins s hpwr hft => ?_, fun s hpwr => ?_, fun s hpwr => ?_, fun s hpwr => ?_⟩,
    fun r s hon => ?_, fun r s hdown hothers => ?_, fun s hvaon hxtal => ?_, fun s => ?_⟩
  · have ht : exec (.powerOn pins false) s = .next _ := (if_neg (by simp [hpwr])).trans ((if_neg Bool.false_ne_true).trans
      (if_neg (by simp [hft])))
    rw [ht, diesUp_more]
    refine ⟨_, rfl, rfl, rfl, rfl, rfl, fun p => ?_, rfl, fun hrails => ?_⟩
    · exact congrArg PortSt.deadRd (vget_map ..)
    · exact diesUp_up (s.modAon (fun a => { a with vpwr := true, vaon := true, pins := pins, pgood := false })) hrails
  · have hships := packStart_ships s
    exact ⟨_, (execPowerOn_fromPack pins hpwr).trans (by rw [hft]), hships⟩
  · exact ⟨_, execPackConnect_unpowered false hpwr, packStart_ships s⟩
  · exact ⟨_, if_pos hpwr, rfl, rfl, rfl, rfl, rfl, rfl, rfl, rfl, rfl, rfl⟩
  · exact ⟨_, if_pos hpwr, unpowered_vaonKept s⟩
  · refine ⟨_, execRailOverload_is s r hon, vput_get_same .., fun n => ?_, fun m => ?_, fun c => ?_, fun p => ?_, rfl⟩
    · exact (diesReset_lane s false true n).symm ▸ ⟨rfl, rfl, rfl⟩
    · exact (diesReset_pdie s false true m).symm ▸ rfl
    · exact (diesReset_conn s false true c).symm ▸ rfl
    · exact (diesReset_port s false true p).symm ▸ ⟨rfl, rfl⟩
  · have hclear : ∀ x, (vput s.aon.railDown (railIx r) false).get x = false := by
      intro x
      by_cases hx : railIx r = x
      · rw [← hx, vput_get_same]
      · rw [vput_get_other _ _ _ _ (Ne.symm hx), hothers x hx]
    refine ⟨_, execRailRecovered_is s r hdown, ?_⟩
    dsimp only
    split
    · next hoff =>
      have hoff : s.hub.hub = .off := hoff
      rw [hoff]
      exact ⟨hclear, rfl, fun n => (Bool.or_false _).symm, fun m => (Bool.or_false _).symm⟩
    · next hon =>
      obtain ⟨hlanes, hdies⟩ := diesUp_up _ ((railsUp_iff (s.modAon (fun a => { a with railDown := vput a.railDown (railIx r) false }))).2 hclear)
      have hon : (s.hub.hub != .off) = true := by simpa using hon
      rw [hon]
      refine ⟨?_, ?_, fun n => ?_, fun m => ?_⟩
      · rw [diesUp_more]
        exact hclear
      · rw [diesUp_more]
        rfl
      · rw [hlanes n, Bool.or_true]
      · rw [hdies m, Bool.or_true]
  · exact ⟨_, if_pos (by simp [hvaon, hxtal]), rfl, rfl, rfl⟩
  · exact ⟨_, rfl, rfl, rfl, rfl⟩

section
variable (s : State)

/-- What any wake does, by the levels of the FT balls (R71, R75, R373, R412). -/
theorem wake_woken (cause : Nat) (w : WakeInfo) (f : Aon → Aon)
    (hf : ∀ a, (f a).shipFet = a.shipFet ∧ (f a).diodeOn = a.diodeOn ∧ (f a).factoryTest = a.factoryTest) :
    let t := (s.wake cause w).modAon f
    t.time.tick = s.time.tick + w.intervalUs / 10 ∧
      (w.pins.ftHigh = false → t.hub.hub = .held cause false ∧ t.aon.shipFet = true ∧ t.aon.diodeOn = true ∧
        (s.railsUp = true → (∀ n, (t.lane n).up = true) ∧ ∀ m, (t.pdie m).up = true)) ∧
      (w.pins.ftHigh = true → t.hub.hub = .off ∧ t.aon.factoryTest = true) := by
  obtain ⟨hship, hdiode, htest⟩ := hf (s.wake cause w).aon
  refine ⟨wake_tick s cause w, fun hft => ?_, fun hft => ?_⟩
  · obtain ⟨hhub, haon, hdies⟩ := wake_is s cause w hft
    refine ⟨congrArg HubSt.hub hhub, hship.trans ?_, hdiode.trans ?_, hdies⟩
    · rw [haon]
    · rw [haon]
  · obtain ⟨hhub, haon⟩ := wake_factory s cause w hft
    exact ⟨hhub, htest.trans haon⟩

/-- A hub asleep in DORMANT is not asleep in SHIP. -/
theorem asleep_unique (hasleep : s.asleep .dormant = true) : s.asleep .ship = false := by
  simp only [State.asleep, State.modeIs, Bool.and_eq_true, beq_iff_eq] at hasleep
  simp [State.asleep, State.modeIs, hasleep.1.1]

/-- A connector above 4.0 V wakes a device asleep in SHIP or DORMANT (R50, R71). -/
theorem connectorWake_wakes (c : Src) (v : Volt) (w : WakeInfo) (cause : Nat) (hv : 4 < v)
    (hcause : s.asleep .ship = true ∧ cause = 1 ∨ s.asleep .dormant = true ∧ cause = 2) :
    exec (.connectorWake c v w) s = .next ((s.wake cause w).modAon (fun a => { a with wakeConn := some c, wakeNSeen := false })) := by
  refine (if_neg (not_le.2 hv)).trans ?_
  obtain ⟨hship, rfl⟩ | ⟨hdormant, rfl⟩ := hcause
  · exact if_pos hship
  · exact (if_neg (by rw [asleep_unique s hdormant]; exact Bool.false_ne_true)).trans (if_pos hdormant)

/-- A note of PATH touches the ledger only. -/
theorem pathRecord_is (event : Byte) (conn : Nat) (auto_ : Bool) :
    s.pathRecord event conn auto_ = { s with ledger := (s.pathRecord event conn auto_).ledger } := record_is ..

/-- The start of a SHIP request lets PGOOD go and notes the request (R72). -/
theorem shipStart_aon (delay : Nat) (auto_ : Bool) : (s.shipStart delay auto_).aon =
    { s.aon with request := some { dormant := false, automatic := auto_, deadline := s.now + delay, stage := .wait }, pgood := false } := by
  rw [State.shipStart, writeGauge_aon]
  rfl

end

/-- Settles O12, from what any wake does (`wake_woken`), one cause at a time. -/
theorem wakesStartTheHub : Obligations.WakesStartTheHub := by
  unfold Obligations.WakesStartTheHub
  refine ⟨fun w s hship => ?_, fun c v w s hship hv => ?_, fun c v w s hdormant hv => ?_, fun w s hdormant => ?_,
    fun i w s hdormant hi => ?_, fun s hvaon hon => ?_, fun c s hup hconn h2s hsource hseen => ?_⟩
  · exact ⟨_, if_pos hship, wake_woken s 1 w _ fun _ => ⟨rfl, rfl, rfl⟩, rfl⟩
  · exact ⟨_, connectorWake_wakes s c v w 1 hv (.inl ⟨hship, rfl⟩), wake_woken s 1 w _ fun _ => ⟨rfl, rfl, rfl⟩, rfl⟩
  · exact ⟨_, connectorWake_wakes s c v w 2 hv (.inr ⟨hdormant, rfl⟩), wake_woken s 2 w _ fun _ => ⟨rfl, rfl, rfl⟩, rfl⟩
  · exact ⟨_, if_pos hdormant, wake_woken s 2 w _ fun _ => ⟨rfl, rfl, rfl⟩⟩
  · exact ⟨_, (if_pos hdormant).trans (if_pos hi), wake_woken s 2 w _ fun _ => ⟨rfl, rfl, rfl⟩⟩
  · exact ⟨_, if_pos (by simp [hvaon, hon]), rfl, rfl⟩
  · obtain ⟨t, ht⟩ := exec_answers .spuriousWake s
    refine ⟨t, ht, ?_⟩
    change execSpuriousWake s = _ at ht
    unfold execSpuriousWake at ht
    rw [hconn] at ht
    dsimp only at ht
    have h2s : s.passed s.hub.firstTick (secTicks 2) = true := h2s
    rw [if_pos (by simp [hup, h2s, hsource, hseen]), pathRecord_is] at ht
    change (if (decide (s.hub.cause = 1) && s.shipAllowed) = true then _ else _) = _ at ht
    by_cases hagain : s.hub.cause = 1 ∧ s.shipAllowed = true
    · rw [if_pos hagain]
      rw [if_pos (by simpa using hagain)] at ht
      obtain rfl := Host.Outcome.next.inj ht
      rw [shipStart_aon, pathRecord_is]
      exact ⟨rfl, rfl⟩
    · rw [if_neg hagain]
      rw [if_neg (by simpa using hagain)] at ht
      obtain rfl := Host.Outcome.next.inj ht
      exact ⟨rfl, rfl⟩

end Sys2Proof.Machine
end

section
/-! The triggers of the SAFE latch and the ideal diode (O11, O14; R20, R21, R24, R57-R61). -/

namespace Sys2Proof.Machine

section
variable (s : State)

/-- With VAON up a trigger sets a clear latch, and is only noted as present where the latch is set (R21, R24). -/
theorem setSafe_cases (x : SafeTrigger) (src : EvSource) (die : Nat) (v : Int) (hvaon : s.aon.vaon = true) :
    let t := s.setSafe x src die v
    if s.aon.safeLatch = false then
      t.aon.safeLatch = true ∧ t.aon.pgood = false ∧ (∀ n, (t.lane n).run = .stopped) ∧
      (∀ n, (t.node n).selected = none ∧ (t.node n).allocW = 0) ∧ (t.conn acin).pair = .opened ∧
      (∀ p, (t.port p).frsSignal = false → (t.conn (portSrc p)).pair = .opened) ∧
      ((s.modeIs .battery || s.modeIs .supply || s.modeIs .limp) = true → t.aon.mode = some .safe)
    else t = { s with aon := { s.aon with present := markPresent x s.aon.present } } := by
  dsimp only
  split
  · next hclear => exact safeMain s x src die v hvaon hclear
  · next hset =>
    unfold State.setSafe
    rw [if_neg (by simp [hvaon]), if_pos (by simpa using hset)]
    rfl

/-- The pair closes at once up to 2 V across it, by the soft-connect above (R58, R59). -/
theorem diodeClose_is (sys vbat : Volt) : s.diodeClose sys vbat = s.modAon (fun a => { a with
    batfet := if vbat - sys ≤ 2 then .on else .linear, softFrom := if vbat - sys ≤ 2 then none else some s.now
    softRate := if vbat - sys ≤ 2 then 0 else s.cfg.q 1 6 (1 / 2) }) := by
  unfold State.diodeClose
  by_cases h : 2 < vbat - sys
  · simp only [if_pos h, if_neg (not_le.2 h)]
  · simp only [if_neg h, if_pos (not_lt.1 h)]

end

/-- Settles O11, each trigger by `setSafe_cases`. -/
theorem safeTriggersSetTheLatch : Obligations.SafeTriggersSetTheLatch := by
  unfold Obligations.SafeTriggersSetTheLatch
  refine ⟨fun x s hvaon => ?_, fun n tgt v s hvaon hup htrunc htgt h5 hv => ?_, fun n v s hvaon hup hbatt hv => ?_,
    fun i s hvaon hoff hi => ?_⟩
  · exact ⟨_, rfl, setSafe_cases s x .aon 0 0 hvaon⟩
  · refine ⟨_, if_pos ?_, setSafe_cases s .sysOvershoot _ _ _ hvaon⟩
    rw [htgt] at h5 hv
    simp only [Bool.or_eq_true, decide_eq_true_eq, hup, htrunc, h5, hv, decide_true, Bool.and_self]
  · exact ⟨_, if_pos (by simp only [hbatt, hup, State.safeOv, hv, decide_true, Bool.and_self]),
      setSafe_cases s .batteryOv _ _ _ hvaon⟩
  · exact ⟨_, if_pos (by simp [hvaon, hoff, hi]), setSafe_cases s .batfetCurrent _ _ _ hvaon⟩

/-- Settles O14, one threshold of R57-R61 at a time. -/
theorem idealDiodeSwitchesTheBatfetPair : Obligations.IdealDiodeSwitchesTheBatfetPair := by
  unfold Obligations.IdealDiodeSwitchesTheBatfetPair
  refine ⟨fun sys vbat s hrule hoff hkept hv => ?_, fun sys vbat i s hoff hrule hi => ?_, fun sys vbat k s hlinear hfrom hdue hv => ?_,
    fun sys vbat s hlinear hv => ?_, fun sys vbat s hrule hoff hkept hsys hv => ?_, fun sys vbat s hup hpend hpres hmode haim => ?_⟩
  · refine (if_pos ?_).trans (congrArg _ (diodeClose_is s sys vbat))
    simp only [hrule, hoff, hkept, hv, decide_true, Bool.not_false, Bool.and_self]
  · refine if_pos ?_
    simp only [Bool.and_eq_true, decide_eq_true_eq, Bool.or_eq_true]
    exact ⟨⟨hoff, hrule⟩, hi⟩
  · obtain ⟨t, ht⟩ := exec_answers (.softConnectTimeout sys vbat) s
    refine ⟨t, ht, ?_⟩
    change execSoftConnectTimeout sys vbat s = _ at ht
    unfold execSoftConnectTimeout at ht
    rw [hfrom] at ht
    have hwait : (s.passed k (msTicks 100) || s.hub.hub == .off) = true := by
      simp only [State.passed, Bool.or_eq_true, decide_eq_true_eq, beq_iff_eq]
      exact hdue
    dsimp only at ht
    rw [if_pos (by simp only [hlinear, hwait, hv, decide_true, Bool.and_self]), record_is] at ht
    obtain rfl := Host.Outcome.next.inj ht
    exact ⟨rfl, rfl, rfl⟩
  · exact if_pos (by simp only [hlinear, hv, decide_true, Bool.and_self])
  · refine (if_pos ?_).trans (congrArg _ (diodeClose_is s sys vbat))
    simp only [hrule, hoff, hkept, hsys, hv, decide_true, Bool.not_false, Bool.and_self]
  · refine ⟨_, if_pos ?_, rfl, rfl⟩
    simp only [hup, hpend, hpres, hmode, State.diodeAim, haim, decide_true, Bool.not_false, Bool.and_self]

end Sys2Proof.Machine
end

section
/-! The entries to DORMANT and SHIP (O13; R22, R70, R72, R74). -/

namespace Sys2Proof.Machine

section
variable (s : State)

/-- The start of a DORMANT request notes it, and moves the SYS target first in SUPPLEMENT (R70). -/
theorem dormantStart_requests (v : Volt) (auto_ : Bool) : let t := s.dormantStart v auto_
    t.aon.request = some { dormant := true, automatic := auto_, deadline := s.now, stage := if s.cfg.supplement then .moving else .ramping } ∧
      t.hub.sysFinal = (if s.cfg.supplement then v - 1 / 10 else s.hub.sysFinal) := by
  have hwrite : ∀ u : State, u.writeGauge.aon = u.aon ∧ u.writeGauge.hub = u.hub := fun u => by
    obtain ⟨f, g, hu, -⟩ := writeGauge_kp u
    rw [hu]
    exact ⟨rfl, rfl⟩
  unfold State.dormantStart
  dsimp only
  rw [(hwrite _).1, (hwrite _).2]
  split <;> exact ⟨rfl, rfl⟩

/-- A frame sent to a far node with a controlled stop brings every lane of its gang one of its own (R72). -/
theorem sendNode_stops (n m : Lane) (eff : Nat) (a : Rat) (hm : m ∈ s.cfg.gang n) :
    ∃ f ∈ ((s.sendNode n eff (.stopRamp a) id).lane m).frames, f.eff = eff ∧ ∃ b, f.go = .stopRamp b := by
  obtain ⟨u, hf⟩ := sendNode_has s n m eff (.stopRamp a) id hm
  exact ⟨_, hf, rfl, stopRate (u.lane m), rfl⟩

/-- What the expiry of SHIP_DELAY sends: a controlled stop to every lane, an open frame for every pair (R72). -/
def State.shipFrames : State :=
  let s' := (List.finRange 4).foldl (fun u n => u.sendLane n s.effTick (.stopRamp (stopRate (u.lane n))) (u.lane n).order) s
  (List.finRange 7).foldl (fun u c => u.sendPort (dieOfSrc c) s.effTick (.openPair c)) s'

theorem shipFrames_lanes (n : Lane) : ∃ f ∈ (s.shipFrames.lane n).frames, f.eff = s.effTick ∧ ∃ a, f.go = .stopRamp a := by
  obtain ⟨u, hf⟩ := sendLanes_have (fun u n => .stopRamp (stopRate (u.lane n))) (fun u n => (u.lane n).order) s.effTick n
    (List.finRange 4) (List.mem_finRange n) s
  refine ⟨{ eff := s.effTick, go := .stopRamp (stopRate (u.lane n)), order := (u.lane n).order, set := [] }, ?_, rfl, _, rfl⟩
  have hports : s.shipFrames.lanes = _ := foldl_proj (fun u : State => u.lanes) (fun u c => u.sendPort (dieOfSrc c) s.effTick (.openPair c))
    (List.finRange 7) _ (fun _ _ => rfl)
  rw [State.lane, hports]
  exact hf

theorem shipFrames_dies (c : Src) : ∃ f ∈ (s.shipFrames.pdie (dieOfSrc c)).frames, f.eff = s.effTick ∧ f.cmd = .openPair c :=
  ⟨_, sendPorts_have dieOfSrc .openPair s.effTick c (List.finRange 7) (List.mem_finRange c) _, rfl, rfl⟩

theorem shipFrames_kept : s.shipFrames = { s with lanes := s.shipFrames.lanes, portDies := s.shipFrames.portDies } := by
  unfold State.shipFrames
  refine foldl_inv (fun u : State => u = { s with lanes := u.lanes, portDies := u.portDies }) _ _ _ ?_ fun u c hu => ?_
  · refine foldl_inv (fun u : State => u = { s with lanes := u.lanes, portDies := u.portDies }) _ _ _ rfl fun u n hu => ?_
    rw [hu]
    rfl
  · rw [hu]
    rfl

/-- The last steps of SHIP are handed over to the always-on domain, the frames being on their way (R72). -/
theorem shipFrames_handed (r : Request) :
    let t := s.shipFrames.modAon (fun a => { a with request := some { r with stage := .handed, deadline := s.shipFrames.now } })
    t.aon.request = some { r with stage := .handed, deadline := s.now } ∧ t.aon.mode = s.aon.mode ∧
      (∀ n, ∃ f ∈ (t.lane n).frames, f.eff = s.effTick ∧ ∃ a, f.go = .stopRamp a) ∧
      (∀ c, ∃ f ∈ (t.pdie (dieOfSrc c)).frames, f.eff = s.effTick ∧ f.cmd = .openPair c) := by
  have hkept := shipFrames_kept s
  have hlanes := shipFrames_lanes s
  have hdies := shipFrames_dies s
  generalize s.shipFrames = u at hkept hlanes hdies ⊢
  refine ⟨?_, ?_, hlanes, hdies⟩
  · rw [hkept]
    rfl
  · rw [hkept]
    rfl

end

/-- Settles O13, one step of R70-R74 at a time. -/
theorem dormantAndShipSequences : Obligations.DormantAndShipSequences := by
  unfold Obligations.DormantAndShipSequences
  refine ⟨fun v k s hup hsince hset hdue hallowed hrunning hnone => ?_, fun v r s hup hr hdormant hstage hv => ?_,
    fun r s hup hr hdormant hstage hallowed hclear hstopped => ?_, fun r s hup hr hship hstage hdue => ?_,
    fun r s hr hship hstage hdue => ?_, fun r s hr hship hstage hdue => ?_⟩
  · obtain ⟨t, ht⟩ := exec_answers (.dormantAutoEntry v) s
    refine ⟨t, ht, ?_⟩
    change execDormantAutoEntry v s = _ at ht
    unfold execDormantAutoEntry at ht
    rw [hsince] at ht
    dsimp only at ht
    rw [if_pos (by simp only [hup, hset, hdue, hallowed, hrunning, hnone, decide_true, Bool.not_false, Bool.and_self,
      Option.isNone_none]), pathRecord_is] at ht
    obtain rfl := Host.Outcome.next.inj ht
    exact dormantStart_requests { s with ledger := (s.pathRecord 0 0 true).ledger } v true
  · obtain ⟨t, ht⟩ := exec_answers (.dormantSequenceContinue v) s
    refine ⟨t, ht, ?_⟩
    change execDormantSequenceContinue v s = _ at ht
    unfold execDormantSequenceContinue at ht
    rw [hr] at ht
    dsimp only at ht
    rw [if_pos (by simp only [hup, hdormant, hstage, hv, decide_true, Bool.and_self])] at ht
    cases hb : s.cfg.battLane with
    | none =>
      simp only [State.modAon, hb] at ht
      obtain rfl := Host.Outcome.next.inj ht
      exact ⟨rfl, rfl, fun n m hn => by cases hn⟩
    | some b =>
      simp only [State.modAon, hb] at ht
      obtain rfl := Host.Outcome.next.inj ht
      refine ⟨?_, ?_, fun n m hn hm => ?_⟩
      · obtain ⟨L, N, hsent⟩ := sendNode_is { s with aon := { s.aon with diodeOn := true, request := some { r with stage := .ramping } } }
          b s.effTick (.stopRamp (stopRate (s.lane b))) id
        exact congrArg (fun u : State => u.aon.diodeOn) hsent
      · obtain ⟨L, N, hsent⟩ := sendNode_is { s with aon := { s.aon with diodeOn := true, request := some { r with stage := .ramping } } }
          b s.effTick (.stopRamp (stopRate (s.lane b))) id
        exact congrArg (fun u : State => u.aon.request) hsent
      · cases hn
        exact sendNode_stops _ b m _ _ hm
  · obtain ⟨t, ht⟩ := exec_answers .dormantPowerDown s
    refine ⟨t, ht, ?_⟩
    change execDormantPowerDown s = _ at ht
    unfold execDormantPowerDown at ht
    rw [hr] at ht
    dsimp only at ht
    rw [if_pos] at ht
    · obtain rfl := Host.Outcome.next.inj ht
      obtain ⟨hmode, hhub, hreq, hlanes, hconns, -⟩ := powerDown_dies (s.stopAll.modAon (fun a => { a with diodeOn := true })) .dormant
      exact ⟨hmode, hhub, hreq, hlanes, hconns⟩
    · have hstill : (match s.cfg.battLane with | some n => (s.cfg.gang n).all (fun m => !(s.lane m).active) | none => true) = true := by
        cases hb : s.cfg.battLane with
        | none => rfl
        | some b => exact List.all_eq_true.2 fun m hm => by rw [hstopped b hb m hm]; rfl
      simp only [hup, hdormant, hstage, hallowed, hclear, decide_true, Bool.not_false, Bool.and_true, Bool.true_and]
      exact hstill
  · obtain ⟨t, ht⟩ := exec_answers .shipDelayExpiry s
    refine ⟨t, ht, ?_⟩
    change execShipDelayExpiry s = _ at ht
    unfold execShipDelayExpiry at ht
    rw [hr] at ht
    dsimp only at ht
    rw [if_pos (by simp only [hup, hship, hstage, hdue, decide_true, Bool.not_false, Bool.and_self])] at ht
    obtain rfl := Host.Outcome.next.inj ht
    exact shipFrames_handed s r
  · obtain ⟨t, ht⟩ := exec_answers .shipBatfetOpen s
    refine ⟨t, ht, ?_⟩
    change execShipBatfetOpen s = _ at ht
    unfold execShipBatfetOpen at ht
    rw [hr] at ht
    dsimp only at ht
    rw [if_pos (by simp only [hship, hstage, State.passed, msTicks]; simpa using hdue)] at ht
    obtain rfl := Host.Outcome.next.inj ht
    exact ⟨rfl, rfl, rfl, rfl⟩
  · obtain ⟨t, ht⟩ := exec_answers .shipFetOpen s
    refine ⟨t, ht, ?_⟩
    change execShipFetOpen s = _ at ht
    unfold execShipFetOpen at ht
    rw [hr] at ht
    dsimp only at ht
    rw [if_pos (by simp only [hship, hstage, State.passed]; simpa using hdue)] at ht
    obtain rfl := Host.Outcome.next.inj ht
    obtain ⟨hmode, hhub, hreq, -, -, hlatch, hfet⟩ :=
      powerDown_dies (s.diodeOpen.stopAll.modAon (fun a => { a with shipFet := false, diodeOn := false })) .ship
    refine ⟨hfet, hmode, hhub, hreq, hlatch.trans ?_⟩
    show s.diodeOpen.stopAll.aon.safeLatch = s.aon.safeLatch
    rw [stopAll_aon]
    rfl

end Sys2Proof.Machine
end

section
/-! Stacks: sync edges, control and state frames, lost members and masters (O22; R134, R135, R421-R427). -/

namespace Sys2Proof.Machine

/-- The period length of a lane die, on the die itself. -/
def dieSteps (s : State) (n : Lane) (l : LaneDie) : Nat := if l.periodSteps = 0 then s.nominalSteps n else l.periodSteps

/-- One sync edge at a lane die of a member (R134). -/
def onSyncEdge (s : State) (e : Int) (n : Lane) (l : LaneDie) : LaneDie :=
  if fol s n l then { l with
    periodAdj := max (-16) (min 16 (quant ((e : Rat) / (390625 / 10000))))
    periodSteps := ((dieSteps s n l : Int) + max (-16) (min 16 (quant ((e : Rat) / (390625 / 10000))))).toNat
    syncRun := if e.natAbs ≤ 1000 then l.syncRun + 1 else 0 } else l

/-- Loss of the sync pulse at a lane die of a member (R134). -/
def onSyncLoss (s : State) (n : Lane) (l : LaneDie) : LaneDie :=
  if fol s n l then { l with stackLocked := false, syncRun := 0, periodAdj := 0
                             diag := { l.diag with syncLosses := satInc 32 l.diag.syncLosses } } else l

section
variable (s : State)

theorem follows_fol (n : Lane) : s.follows n = fol s n (s.lane n) := fol_eq s s n ⟨rfl, rfl⟩

/-- A sync edge acts on each lane die by itself (R134). -/
theorem execStackSyncEdge_lanes (e : Int) : ∃ t, exec (.stackSyncEdge e) s = .next t ∧ t = { s with lanes := t.lanes } ∧
    ∀ n, t.lane n = onSyncEdge s e n (s.lane n) := by
  refine ⟨_, rfl, ?_, ?_⟩
  · refine foldl_inv (fun u : State => u = { s with lanes := u.lanes }) _ _ _ rfl fun u n hu => ?_
    split
    · rw [hu]
      rfl
    · exact hu
  · refine fold4_lane _ (onSyncEdge s e) (fun u => u = { s with lanes := u.lanes }) s rfl fun u n hu => ?_
    have hfol : u.follows n = fol s n (u.lane n) := fol_eq s u n (by rw [hu]; exact ⟨rfl, rfl⟩)
    have hsteps : u.steps n = dieSteps s n (u.lane n) := by rw [hu]; rfl
    rw [onSyncEdge, ← hfol]
    split
    · refine ⟨by rw [hu]; rfl, ?_, fun m hm => State.modLane_other _ _ _ _ hm⟩
      rw [State.modLane_lane, hsteps]
    · exact ⟨hu, rfl, fun _ _ => rfl⟩

/-- Loss of the sync pulse acts on each lane die by itself (R134). -/
theorem execSyncLoss_lanes : ∃ t, exec .syncLoss s = .next t ∧ t = { s with lanes := t.lanes, events := t.events } ∧
    ∀ n, t.lane n = onSyncLoss s n (s.lane n) := by
  refine ⟨_, rfl, ?_, ?_⟩
  · refine foldl_inv (fun u : State => u = { s with lanes := u.lanes, events := u.events }) _ _ _ rfl fun u n hu => ?_
    dsimp only
    split
    · rw [hu]
      rfl
    · exact hu
  · refine fold4_lane _ (onSyncLoss s) (fun u => u = { s with lanes := u.lanes, events := u.events }) s rfl fun u n hu => ?_
    have hfol : u.follows n = fol s n (u.lane n) := fol_eq s u n (by rw [hu]; exact ⟨rfl, rfl⟩)
    rw [onSyncLoss, ← hfol]
    split
    · refine ⟨by rw [hu]; rfl, ?_, fun m hm => State.modLane_other _ _ _ _ hm⟩
      rw [lane_stampLane, State.modLane_lane]
    · exact ⟨hu, rfl, fun _ _ => rfl⟩

/-- What a stack without a master leaves of the state: only the stack's note of it and the ledger change (R425). -/
theorem becomeMasterless_is (cause size : Nat) : let t := s.becomeMasterless cause size
    t = { s with stack := t.stack, ledger := t.ledger } ∧ t.stack = { s.stack with masterless := some cause } := by
  dsimp only [State.becomeMasterless]
  split
  · next h => exact ⟨rfl, by rw [← h]⟩
  · rw [State.stackRecord, record_is]
    exact ⟨rfl, rfl⟩

/-- The stack as a control frame gives it, before the frame's size decides what follows (R423). -/
def State.withControl (f : StackControl) (recorded : Bool) (l : Ledger) : State :=
  { s with stack := { s.stack with sizeRecorded := recorded, size := f.size, fsw0 := f.fsw0, lastControl := some s.now }, ledger := l }

/-- A control frame for this member gives the stack's size; a size that has no place for this position leaves it masterless (R423). -/
theorem takeControl_is (f : StackControl) (hpos : f.position = s.stack.position.toNat) : ∃ r l,
    s.takeControl f = if f.size ≤ f.position then (s.withControl f r l).becomeMasterless 3 f.size
      else (s.withControl f r l).modStack (fun k => { k with masterless := none, control := k.control ++ [(s.now, f)] }) := by
  unfold State.takeControl
  rw [if_neg (by simp [hpos])]
  extract_lets differs s1 s2
  have hs2 : s2 = s.withControl f s1.stack.sizeRecorded s1.ledger := by
    unfold s2 s1 State.stackRecord
    split
    · rw [record_is]
      rfl
    · rfl
  exact ⟨s1.stack.sizeRecorded, s1.ledger, by rw [hs2]; rfl⟩

/-- A series of stamps changes the queue of events only, and appends them in order. -/
theorem stamps_are {α : Type} (c : α → EvClass) (src : EvSource) (i : α → Nat) (k : α → EvKind) : ∀ (es : List α) (s : State),
    es.foldl (fun s e => s.stamp (c e) src (i e) (k e)) s = { s with events := s.events ++ es.map (fun e =>
      { cls := c e, tick := s.now, sub := BitVec.ofNat 8 s.subTick, src := src, item := i e, kind := k e }) } := by
  intro es
  induction es with
  | nil => intro s; rw [List.map_nil, List.append_nil]; rfl
  | cons e es ih =>
    intro s
    rw [List.foldl_cons, ih, List.map_cons, ← List.singleton_append, ← List.append_assoc]
    rfl

end

/-- Settles O22: the sync edge and its loss lane by lane, then each frame and timeout of R421-R427. -/
theorem stacksAndTheirTiming : Obligations.StacksAndTheirTiming := by
  unfold Obligations.StacksAndTheirTiming
  refine ⟨⟨fun e n s hf => ?_, fun n s hf hrun => ?_, fun n s hf => ?_, fun e n s hf => ⟨?_, ?_, ?_⟩⟩,
    fun f s hup hmem hpos hsize => ?_, fun f s hup hmem hpos hsize => ?_, fun f s hup hmem hpos => ?_, fun f s hup hmaster hunit => ?_,
    fun f p s hup hmaster hless hpos hp hsize => ?_, fun p s hup hmaster hpres hlost hseen => ?_, fun k s hup hmem hlast hlost hdue => ?_,
    fun s hup hmem hless hlast hdue => ?_⟩
  · obtain ⟨t, ht, hkept, hlanes⟩ := execStackSyncEdge_lanes s e
    refine ⟨t, ht, ?_⟩
    rw [hlanes n, onSyncEdge, ← follows_fol, if_pos hf]
    exact ⟨rfl, le_max_left .., max_le (by decide) (min_le_left ..), rfl, rfl, hkept⟩
  · exact ⟨_, if_pos (by simp [hf, hrun]), only_modLane .., State.modLane_lane ..⟩
  · obtain ⟨t, ht, hkept, hlanes⟩ := execSyncLoss_lanes s
    refine ⟨t, ht, ?_⟩
    rw [hlanes n, onSyncLoss, ← follows_fol, if_pos hf]
    exact ⟨rfl, rfl, rfl, rfl, hkept⟩
  · obtain ⟨t, ht, -, hlanes⟩ := execStackSyncEdge_lanes s e
    exact ⟨t, ht, by rw [hlanes n, onSyncEdge, ← follows_fol, hf]; rfl⟩
  · exact if_neg (by simp [hf])
  · obtain ⟨t, ht, -, hlanes⟩ := execSyncLoss_lanes s
    exact ⟨t, ht, by rw [hlanes n, onSyncLoss, ← follows_fol, hf]; rfl⟩
  · obtain ⟨r, l, ht⟩ := takeControl_is s f hpos
    refine ⟨_, (if_neg (by simp [hup])).trans (if_pos hmem), ?_⟩
    rw [ht, if_neg (not_le.2 hsize)]
    exact ⟨rfl, rfl, rfl, rfl, rfl, rfl⟩
  · obtain ⟨r, l, ht⟩ := takeControl_is s f hpos
    obtain ⟨hkept, hcause⟩ := becomeMasterless_is (s.withControl f r l) 3 f.size
    have hlanes := congrArg State.lanes hkept
    refine ⟨_, (if_neg (by simp [hup])).trans (if_pos hmem), ?_⟩
    rw [ht, if_pos hsize, hcause]
    exact ⟨rfl, rfl, hlanes⟩
  · refine (if_neg (by simp [hup])).trans ((if_pos hmem).trans (congrArg _ (if_pos ?_)))
    simp [hpos]
  · obtain ⟨hless, hcause⟩ := becomeMasterless_is s 5 f.size
    have hnot : s.isMember = false := by
      simp only [State.isMaster, Bool.and_eq_true, beq_iff_eq] at hmaster
      simp [State.isMember, hmaster.1]
    refine ⟨_, (if_neg (by simp [hup])).trans ((if_neg (by simp [hnot])).trans (if_pos (by simp [hmaster, hunit]))), ?_⟩
    rw [hcause, hless]
    exact ⟨rfl, rfl⟩
  · refine ⟨_, if_pos (by simp [hup, hmaster, hless]), ?_⟩
    have hlt : f.position < 4 := hpos ▸ p.isLt
    have hix : (⟨f.position, hlt⟩ : Fin 4) = p := Fin.ext hpos
    unfold State.takeState
    rw [dif_pos hlt]
    dsimp only
    rw [if_neg (by simp only [Bool.or_eq_true, decide_eq_true_eq]; omega), hix, stamps_are]
    exact ⟨vput_get_same .., fun q hq => vput_get_other _ _ _ _ hq, rfl, rfl⟩
  · refine ⟨_, if_pos (by simp [hup, hmaster, hpres, hlost, State.passed, hseen]), ?_⟩
    rw [record_is]
    exact ⟨congrArg Member.lost (vput_get_same ..), rfl⟩
  · obtain ⟨t, ht⟩ := exec_answers .masterLost s
    refine ⟨t, ht, ?_⟩
    change execMasterLost s = _ at ht
    unfold execMasterLost at ht
    rw [hlast] at ht
    dsimp only at ht
    rw [if_pos (by simp [hup, hmem, hlost, State.passed, hdue]), record_is] at ht
    obtain rfl := Host.Outcome.next.inj ht
    obtain ⟨l, d, q, hlimp, hkeep⟩ := limpDies_is { s with ledger := (s.record 0x0005 ([8, 0, 0, 0] ++ le32 s.tickWord.toNat)).ledger }
    refine ⟨rfl, rfl, fun n hclear hlup hgot hnone => ?_⟩
    rw [hlimp]
    exact congrArg LaneDie.keeper (hkeep n hclear hlup hgot hnone)
  · obtain ⟨hkept, hcause⟩ := becomeMasterless_is s 4 0
    have hdue : s.passed s.hub.firstTick (msTicks 200) = true := decide_eq_true hdue
    refine ⟨_, if_pos (by simp [hup, hmem, hless, hlast, hdue]), ?_⟩
    rw [hcause, hkept]
    exact ⟨rfl, rfl⟩

end Sys2Proof.Machine
end

section
/-! Sources qualify, close, trip, lapse and are lost (O23; R136, R137, R142, R151, R154-R156, R256, R277, R461). -/

namespace Sys2Proof.Machine

theorem swapVbus_conn (s : State) (p : Port) (b : Bool) (d : Src) : (s.swapVbus p b).conn d = s.conn d := by
  obtain ⟨hconns, -⟩ := swapVbus_is s p b
  rw [State.conn, hconns]
  rfl

theorem srcPort_portSrc (p : Port) : srcPort (portSrc p) = some p := dif_pos p.isLt

section
variable (s : State) (c : Src) (f : Conn → Conn) (cls : EvClass) (src : EvSource) (item : Nat) (kind : EvKind)

/-- The stamp that the state puts on an event of this moment (R13). -/
def State.event : Event :=
  { cls := cls, tick := s.now, sub := BitVec.ofNat 8 s.subTick, src := src, item := item, kind := kind }

/-- A state whose clock and queue of events are as in `s` stamps an event as `s` would. -/
theorem stamp_events_of {u : State} (hevents : u.events = s.events) (htime : u.time = s.time) :
    (u.stamp cls src item kind).events = s.events ++ [s.event cls src item kind] := by
  show u.events ++ [u.event cls src item kind] = _
  rw [hevents, State.event, State.event, State.now, State.now, State.subTick, State.subTick, htime]

/-- What a connector's event leaves: the connector as given, the ports up to their CC pins, the stamp, and the rest. -/
structure ConnEvent (t : State) : Prop where
  own : t.conn c = f (s.conn c)
  other : ∀ d, d ≠ c → t.conn d = s.conn d
  lanes : t.lanes = s.lanes
  nodes : t.nodes = s.nodes
  hub : t.hub = s.hub
  events : t.events = s.events ++ [s.event cls src item kind]
  port : ∀ p, ∃ x, t.port p = { s.port p with cc := x }

theorem connEvent : ConnEvent s c f cls src item kind ((s.modConn c f).stamp cls src item kind).ccRefresh where
  own := by rw [ccRefresh_conn]; exact State.modConn_conn ..
  other := fun d hd => by rw [ccRefresh_conn]; exact State.modConn_other _ _ _ _ hd
  lanes := ccRefresh_lanes _
  nodes := ccRefresh_nodes _
  hub := ccRefresh_hub _
  events := ccRefresh_events _
  port := fun p => ccRefresh_portx _ p

end

section
variable (s : State)

/-- A pair that was closing is closed, and stamped, when its sides have met (R142, R256). -/
theorem execPairClosed_closes {c : Src} {conn vinl : Volt} (hclosing : (s.conn c).pair = .closing) (hmet : (s.conn c).met conn vinl = true) :
    let closed := s.modConn c (fun k => { k with pair := .closed, slew := 0, energising := false, v := conn, joinFails := 0, retryAt := 0 })
    let s1 := if c = acin && s.panel then { closed with hub := closed.hub.panelStart (closed.conn acin).vExp closed.now } else closed
    execPairClosed c conn vinl s =
      .next (s1.stamp (if 5 ≤ c.val then .trunk else .presence) (.port (dieOfSrc c)) c.val (.pairClosed c)).ccRefresh :=
  if_pos (by simp [hclosing, hmet])

theorem met_iff (k : Conn) (conn inner : Volt) : k.met conn inner = true ↔
    if k.energising = true then rabs (conn - inner) ≤ max conn inner / 50 else rabs (conn - inner) ≤ conn / 100 := by
  unfold Conn.met
  split <;> simp only [decide_eq_true_eq]

/-- A qualified source that is lost: its pair opens and it is stamped, the rest of R154 by its kind. -/
theorem execSourceLost_port {p : Port} {v : Volt} (hv : v < s.vLost (portSrc p)) (hup : (s.pdie (dieOfSrc (portSrc p))).up = true)
    (hattach : (s.port p).attach = .sink)
    (hlive : (s.conn (portSrc p)).qualified = true ∨ (s.conn (portSrc p)).pair ≠ .opened ∨ (s.port p).hrActive = true) :
    execSourceLost (portSrc p) v s = .next ((((((s.openPair (portSrc p)).modConn (portSrc p) (fun k => { k with
        qualified := false, v := v, vExp := if (s.port p).hrActive then 5 else k.vExp, vOld := none })).swapVbus p false).modPort p
        (fun q => { q with hrActive := false, transition := false, wait := if (s.port p).transition then .idle else q.wait })).stamp
        .presence (.port (portDie p)) (portSrc p).val (.sourceLost (portSrc p) (s.port p).transition)).ccRefresh) := by
  unfold execSourceLost
  rw [if_neg (by simp [hup]), if_neg (not_le.2 hv), srcPort_portSrc]
  exact if_pos (by
    simp only [hattach, decide_true, Bool.true_and, Bool.or_eq_true, bne_iff_ne, ne_eq]
    tauto)

theorem execSourceLost_acin {v : Volt} (hv : v < s.vLost acin) (hup : (s.pdie 0).up = true)
    (hlive : (s.conn acin).qualified = true ∨ (s.conn acin).pair ≠ .opened) :
    execSourceLost acin v s = .next (((s.openPair acin).modConn acin (fun k => { k with qualified := false, v := v })).stamp
      .presence (.port 0) acin.val (.sourceLost acin false)).ccRefresh := by
  unfold execSourceLost
  rw [show dieOfSrc acin = 0 from rfl, if_neg (by simp [hup]), if_neg (not_le.2 hv)]
  exact (if_pos rfl).trans (if_pos (by simpa using hlive))

theorem execSourceLost_trunk {c : Src} {v : Volt} (hv : v < s.vLost c) (hup : (s.pdie (dieOfSrc c)).up = true) (hc : 5 ≤ c.val)
    (hix : s.trunkIx.all (· == c) = true) (hbus : s.trunk.busQualified = true) :
    execSourceLost c v s = .next ({ s with trunk := { s.trunk with busQualified := false } }.stamp .presence (.port 1) c.val (.sourceLost c false)) := by
  have hnot : c ≠ acin := fun h => absurd (h ▸ hc) (by decide)
  unfold execSourceLost
  rw [if_neg (by simp [hup]), if_neg (not_le.2 hv), show srcPort c = none from dif_neg (by omega)]
  exact (if_neg hnot).trans (if_pos (by simp [hix, hbus]))

theorem execSourceLost_trunkHigh {c : Src} {v : Volt} (hv : s.vLost c ≤ v) (h63 : 63 < v) (hup : (s.pdie (dieOfSrc c)).up = true)
    (hc : 5 ≤ c.val) (hix : s.trunkIx.all (· == c) = true) (hbus : s.trunk.busQualified = true) :
    execSourceLost c v s = .next ({ s with trunk := { s.trunk with busQualified := false } }.stamp .presence (.port 1) c.val (.unqualified c)) := by
  refine (if_neg (by simp [hup])).trans ((if_pos hv).trans ((if_neg ?_).trans (if_pos ?_)))
  · simp [show ¬ c.val < 5 by omega]
  · simp only [hc, hix, hbus, h63, decide_true, Bool.and_self]

/-- Between its thresholds a source is kept as it is (R137, R154). -/
theorem execSourceLost_between {c : Src} {v : Volt} (hv : s.vLost c ≤ v) (hrange : if c.val < 5 then v ≤ s.vTop c else v ≤ 63) :
    execSourceLost c v s = .next s := by
  unfold execSourceLost
  by_cases hdown : (!(s.pdie (dieOfSrc c)).up) = true
  · exact if_pos hdown
  · rw [if_neg hdown, if_pos hv]
    by_cases hc : c.val < 5
    · rw [if_pos hc] at hrange
      rw [if_neg (by simp [not_lt.2 hrange]), if_neg (by simp [show ¬ 5 ≤ c.val by omega])]
    · rw [if_neg hc] at hrange
      rw [if_neg (by simp [hc]), if_neg (by simp only [not_lt.2 hrange, decide_false, Bool.and_false]; exact Bool.false_ne_true)]

end

/-- Settles O23, one event at a time; a connector's event is `connEvent`. -/
theorem sourcesQualifyAndAreLost : Obligations.SourcesQualifyAndAreLost := by
  unfold Obligations.SourcesQualifyAndAreLost
  refine ⟨⟨fun v s hlo hhi hup hshut htrip => ?_, fun c conn vinl s hclosing hmet => ?_, fun c conn vinl s happart => ?_,
    fun c k s htrip hdue => ?_, fun c v s hc hv hlocked => ?_, fun c v s hnot => ?_⟩,
    fun p v s hv hup hattach hlive => ?_, fun v s hv hup hlive => ?_, fun k v s hv hup hix hbus => ?_,
    fun c v s hv hc hup hqual hpair htop => ?_, fun c v s hv hrange => ?_, fun n v s hactive hdir hv => ?_⟩
  · refine ⟨_, if_pos (by simp only [hlo, hhi, hup, hshut, htrip, decide_true, Bool.not_false, Option.isNone_none, Bool.and_self]), ?_⟩
    obtain ⟨hown, hother, hlanes, hnodes, -, hevents, -⟩ := connEvent s acin
      (fun k => { k with qualified := true, v := v, vExp := if k.pair = .opened then v else k.vExp }) .presence (.port 0) acin.val
      (.qualified acin (s.conn acin).lockedOut)
    have hlock : ((s.modConn acin (fun k => { k with qualified := true, v := v, vExp := if k.pair = .opened then v else k.vExp })).conn acin).lockedOut
        = (s.conn acin).lockedOut := by rw [State.modConn_conn]
    rw [hlock]
    exact ⟨by rw [hown], by rw [hown], by rw [hown], hevents, hother, hlanes, hnodes⟩
  · have hdone := execPairClosed_closes s hclosing ((met_iff ..).2 hmet)
    dsimp only at hdone
    refine ⟨_, hdone, ?_⟩
    rw [ccRefresh_conn, ccRefresh_lanes, ccRefresh_events, ccRefresh_hub]
    by_cases hpanel : c = acin ∧ s.panel = true
    · obtain ⟨rfl, hp⟩ := hpanel
      rw [if_pos (show (decide (acin = acin) && s.panel) = true by simp [hp])]
      have hexp : ((s.modConn acin (fun k => { k with pair := .closed, slew := 0, energising := false, v := conn, joinFails := 0, retryAt := 0 })).conn
          acin).vExp = (s.conn acin).vExp := by rw [State.modConn_conn]
      refine ⟨?_, ?_, fun d hd => ?_, rfl, rfl, fun _ _ => ⟨?_, rfl⟩, fun h => absurd rfl h⟩
      · exact congrArg Conn.pair (State.modConn_conn ..)
      · exact congrArg Conn.v (State.modConn_conn ..)
      · rw [ccRefresh_conn]
        exact State.modConn_other _ _ _ _ hd
      · exact congrArg (8 / 10 * ·) hexp
    · rw [if_neg (show ¬ (decide (c = acin) && s.panel) = true by simpa using hpanel)]
      refine ⟨?_, ?_, fun d hd => ?_, rfl, rfl, fun hc hp => absurd ⟨hc, hp⟩ hpanel, fun _ => rfl⟩
      · exact congrArg Conn.pair (State.modConn_conn ..)
      · exact congrArg Conn.v (State.modConn_conn ..)
      · rw [ccRefresh_conn]
        exact State.modConn_other _ _ _ _ hd
  · refine if_neg ?_
    have hmet : (s.conn c).met conn vinl = false := by
      rw [Bool.eq_false_iff, ne_eq, met_iff]
      by_cases he : (s.conn c).energising = true
      · rw [if_pos he] at happart ⊢
        exact not_le.2 happart
      · rw [if_neg he] at happart ⊢
        exact not_le.2 happart
    simp [hmet]
  · obtain ⟨t, ht⟩ := exec_answers (.requalifyAfterTrip c) s
    refine ⟨t, ht, ?_⟩
    change execRequalifyAfterTrip c s = _ at ht
    unfold execRequalifyAfterTrip at ht
    rw [htrip] at ht
    have hdue : s.passed k (secTicks 1) = true := hdue
    dsimp only at ht
    rw [if_pos hdue] at ht
    exact (Host.Outcome.next.inj ht).symm
  · refine ⟨_, if_pos (by simp only [hc, hv, hlocked, decide_true, Bool.and_self]), ?_, ?_, ?_, rfl,
      fun d hd => State.modConn_other _ _ _ _ hd⟩
    all_goals rw [State.modConn_conn]
  · refine if_neg ?_
    simp only [Bool.and_eq_true, decide_eq_true_eq]
    rintro ⟨⟨hc, hv⟩, -⟩
    rcases hnot with hlow | hhigh
    · omega
    · exact absurd hv (not_lt.2 hhigh)
  · refine ⟨_, execSourceLost_port s hv hup hattach hlive, ?_⟩
    obtain ⟨-, hlanes, hat, -⟩ := swapVbus_is ((s.openPair (portSrc p)).modConn (portSrc p) (fun k => { k with
      qualified := false, v := v, vExp := if (s.port p).hrActive then 5 else k.vExp, vOld := none })) p false
    simp only [ccRefresh_conn, ccRefresh_port_hrActive, ccRefresh_port_transition, ccRefresh_attach, ccRefresh_lanes,
      State.stamp_lanes, State.modPort_lanes, stamp_port, State.modPort_port, stamp_conn, modPort_conn, swapVbus_conn,
      State.modConn_conn, State.openPair]
    refine ⟨trivial, trivial, trivial, trivial, hat.trans hattach, fun hr => if_pos hr, fun d hd => ?_, hlanes⟩
    exact (State.modConn_other _ _ _ _ hd).trans (State.modConn_other _ _ _ _ hd)
  · refine ⟨_, execSourceLost_acin s hv hup hlive, ?_⟩
    obtain ⟨hown, hother, hlanes, -⟩ := connEvent (s.openPair acin) acin (fun k => { k with qualified := false, v := v }) .presence
      (.port 0) acin.val (.sourceLost acin false)
    rw [hown, State.openPair, State.modConn_conn]
    exact ⟨rfl, rfl, rfl, fun d hd => (hother d hd).trans (State.modConn_other _ _ _ _ hd), hlanes⟩
  · have hix : s.trunkIx.all (· == trunkSrc k) = true := by rcases hix with h | h <;> simp [h]
    have h5 : 5 ≤ (trunkSrc k).val := Nat.le_add_left 5 k.val
    have hdie : (s.pdie (dieOfSrc (trunkSrc k))).up = true := by
      rw [show dieOfSrc (trunkSrc k) = 1 by unfold dieOfSrc trunkSrc; rw [if_neg]; simp only; omega]
      exact hup
    by_cases hlow : v < s.vLost (trunkSrc k)
    · refine ⟨_, execSourceLost_trunk s hlow hdie h5 hix hbus, rfl, rfl, rfl⟩
    · obtain ⟨h63, -⟩ := hv.resolve_left hlow
      exact ⟨_, execSourceLost_trunkHigh s (not_lt.1 hlow) h63 hdie h5 hix hbus, rfl, rfl, rfl⟩
  · refine ⟨_, (if_neg (by simp [hup])).trans ((if_pos hv).trans (if_pos ?_)), ?_⟩
    · simp only [hc, hqual, hpair, htop, decide_true, Bool.and_self, beq_self_eq_true]
    · obtain ⟨hown, hother, hlanes, -⟩ := connEvent s c (fun k => { k with qualified := false, v := v }) .presence
        (.port (dieOfSrc c)) c.val (.unqualified c)
      rw [hown]
      exact ⟨rfl, rfl, hother, hlanes⟩
  · exact execSourceLost_between s hv hrange
  · refine ⟨_, if_pos (by simp only [hactive, hdir, hv, decide_true, Bool.and_self]), only_modLane_stamp .., ?_⟩
    rw [lane_stamp, State.modLane_lane]
    obtain ⟨-, -, hcmd⟩ := stop_fields (s.lane n)
    exact ⟨rfl, rfl, hcmd⟩

end Sys2Proof.Machine
end

section
/-! Protection trips, sag limits and the panel point (O24; R145-R147, R151-R155, R160, R257). -/

namespace Sys2Proof.Machine

section
variable (s : State)

theorem modPd_conn (m : PortDie) (f : PortDieSt → PortDieSt) (c : Src) : (s.modPd m f).conn c = s.conn c := rfl

theorem rabs_le_iff (x y : Rat) : rabs x ≤ y ↔ -y ≤ x ∧ x ≤ y := by
  unfold rabs
  split
  · next h => exact ⟨fun hx => ⟨by linarith, by linarith⟩, fun hx => by linarith [hx.1]⟩
  · next h => exact ⟨fun hx => ⟨by linarith, hx⟩, fun hx => hx.2⟩

/-- An unqualified port or ACIN is no candidate (R137). -/
theorem candidate_unqualified {c : Src} (hc : c.val < 5) (hqual : (s.conn c).qualified = false) : s.candidate c = false := by
  unfold State.candidate
  cases hp : srcPort c with
  | some p => simp [hqual]
  | none =>
    have hacin : c = acin := Fin.ext (by
      unfold srcPort at hp
      split at hp
      · cases hp
      · show c.val = 4
        omega)
    subst hacin
    simp [hqual]

/-- The first protection that fires opens the pair, ends qualification and counts towards the lockout (R155). -/
theorem execProtectionTrip_first {c : Src} {p : Protection} {v : Volt} {x : TripCurrent} (hup : (s.pdie (dieOfSrc c)).up = true)
    (htrips : s.trips c p v x.i x.mean = true) (hfirst : (s.conn c).tripOpen = false) :
    let recent := (s.conn c).trips.filter (fun t => !s.passed t (secTicks 60))
    let lock := decide (2 ≤ recent.length)
    execProtectionTrip c p v x s = .next ((((s.modConn c (fun k => { k with
      pair := .opened, slew := 0, tripOpen := true, qualified := false, v := v, i := x.i, trips := (s.now :: recent).take 3
      lastTrip := some s.now, lockedOut := k.lockedOut || lock, detached := false, iLearn := if lock then none else k.iLearn })).modPd
      (dieOfSrc c) (fun d => { d with trips := satInc 32 d.trips })).stamp .protection (.port (dieOfSrc c)) c.val
      (.trip c p v x.i true lock)).ccRefresh) := by
  unfold execProtectionTrip
  rw [if_pos (by rw [hup, htrips]; rfl)]
  dsimp only
  rw [hfirst]
  rfl

/-- A protection that fires while the pair is open from a trip only stamps its event (R155). -/
theorem execProtectionTrip_again {c : Src} {p : Protection} {v : Volt} {x : TripCurrent} (hup : (s.pdie (dieOfSrc c)).up = true)
    (htrips : s.trips c p v x.i x.mean = true) (hopen : (s.conn c).tripOpen = true) :
    execProtectionTrip c p v x s =
      .next (s.stamp .protection (.port (dieOfSrc c)) c.val (.trip c p v x.i false false)).ccRefresh := by
  unfold execProtectionTrip
  rw [if_pos (by rw [hup, htrips]; rfl)]
  dsimp only
  rw [hopen]
  rfl

theorem bestStep_best (w : Vector Watt 9) (j : Fin 9) : w.get j ≤ w.get (bestStep w) := by
  have hfold : ∀ (l : List (Fin 9)) (a : Fin 9), (∀ i ∈ l, w.get i ≤ w.get (l.foldl (fun a i => if w.get a < w.get i then i else a) a)) ∧
      w.get a ≤ w.get (l.foldl (fun a i => if w.get a < w.get i then i else a) a) := by
    intro l
    induction l with
    | nil => exact fun a => ⟨fun i hi => absurd hi List.not_mem_nil, le_refl _⟩
    | cons x l ih =>
      intro a
      obtain ⟨hmem, hstart⟩ := ih (if w.get a < w.get x then x else a)
      have hx : w.get x ≤ w.get (if w.get a < w.get x then x else a) := by
        split
        · exact le_refl _
        · next h => exact not_lt.1 h
      have ha : w.get a ≤ w.get (if w.get a < w.get x then x else a) := by
        split
        · next h => exact h.le
        · exact le_refl _
      refine ⟨fun i hi => ?_, ha.trans hstart⟩
      rcases List.mem_cons.1 hi with rfl | hi
      · exact hx.trans hstart
      · exact hmem i hi
  exact (hfold _ 0).1 j (List.mem_finRange j)

/-- A perturbed operating point stays within 55-95% of the open-circuit voltage (R146). -/
theorem clampR_between {lo hi : Rat} (x : Rat) (h : lo ≤ hi) : lo ≤ clampR lo hi x ∧ clampR lo hi x ≤ hi :=
  ⟨le_max_left .., max_le h (min_le_left ..)⟩

/-- A source that sagged for 100 ms learns its limit: 95% of the mean (R146). -/
theorem execSagLimitLearned_learns (s : State) (c : Src) (n : Lane) (i : Amp) (k : Nat) (hup : s.hubUp = true) (hc : c.val < 5)
    (hpanel : c = acin → s.panel = false) (hnode : s.cfg.nodeOf c = some n) (hsel : (s.node n).selected = some c) (hactive : (s.lane n).active = true)
    (hsag : (s.lane n).loop.sagSince = some k) (hdue : s.passed k sagHold = true) :
    execSagLimitLearned c i s = .next (((s.modConn c (fun k => { k with iLearn := some (95 / 100 * i), learnSince := s.now })).record 0x0403
      ([BitVec.ofNat 8 c.val, 0] ++ recI (95 / 100 * i))).stamp .presence .hubPeripheral c.val (.sag c)) := by
  have hsource : (!(decide (c = acin) && s.panel)) = true := by
    by_cases h : c = acin
    · rw [hpanel h, Bool.and_false]
      rfl
    · rw [decide_eq_false h]
      rfl
  unfold execSagLimitLearned
  rw [hnode]
  exact if_pos (by simp only [hup, hc, hsource, hsel, hactive, hsag, hdue, decide_true, Bool.and_self, beq_self_eq_true, Option.any_some])

/-- A learned limit probes upward by 5% of the source's terms (R146). -/
theorem execSagProbe_probes (s : State) (c : Src) (i : Amp) (hup : s.hubUp = true) (hlearn : (s.conn c).iLearn = some i)
    (hdue : s.passed (s.conn c).learnSince (secTicks 10) = true) :
    execSagProbe c s = .next (s.modConn c (fun k => { k with
      iLearn := if s.iTerms c ≤ i + s.iTerms c * (5 / 100) then none else some (i + s.iTerms c * (5 / 100)), learnSince := s.now })) := by
  unfold execSagProbe
  dsimp only
  rw [hlearn]
  exact if_pos (by rw [hup, hdue]; rfl)

end

/-- Settles O24: the trip (`execProtectionTrip_first`), the thresholds, the sag limit and the panel point, one rule at a time. -/
theorem protectionAndSagLimits : Obligations.ProtectionAndSagLimits := by
  unfold Obligations.ProtectionAndSagLimits
  refine ⟨⟨fun c p v i mean s hup htrips hfirst => ?_, fun c p v i mean s hup htrips hopen => ?_, fun c v i mean s hpair hv => ?_,
    fun v i mean s hclosed => ?_, fun k v i mean s hclosed hlo hhi => ?_⟩,
    fun c n i k s hup hc hpanel hnode hsel hactive hsag hdue => ?_, fun c i s hup hlearn hdue => ?_, fun p s hup hdraws => ?_,
    fun p s hup hdraws => ?_, fun w s hup hdraws hdue => ?_⟩
  · refine ⟨_, execProtectionTrip_first s (x := ⟨i, mean⟩) hup htrips hfirst, ?_⟩
    dsimp only
    rw [ccRefresh_conn, ccRefresh_lanes, ccRefresh_hub, ccRefresh_events, stamp_conn, modPd_conn, State.modConn_conn]
    refine ⟨rfl, rfl, rfl, fun hc => candidate_unqualified _ hc ?_, ?_, ⟨_, rfl⟩, fun d hd => ?_, rfl, rfl⟩
    · rw [ccRefresh_conn, stamp_conn, modPd_conn, State.modConn_conn]
    · simp only [Bool.or_eq_true, decide_eq_true_eq]
      exact Iff.rfl
    · rw [ccRefresh_conn]
      exact State.modConn_other _ _ _ _ hd
  · exact ⟨_, execProtectionTrip_again s (x := ⟨i, mean⟩) hup htrips hopen, ccRefresh_conns _, ccRefresh_lanes _, ccRefresh_events _⟩
  · simp only [State.trips, hv, decide_true, Bool.and_true, Bool.or_eq_true, bne_iff_ne, ne_eq]
    exact .inl hpair
  · have hlive : ((s.conn acin).pair == .closed || ((s.conn acin).tripOpen && (s.conn acin).lastTrip == some s.now)) = true := by
      rw [hclosed]
      rfl
    have hneutral : neutralPair acin mean = false := rfl
    have hforward : s.forward acin i mean = i := rfl
    simp only [State.trips, hlive, hneutral, hforward, Bool.true_and, Bool.not_false, Bool.false_eq_true, if_false, decide_eq_true_eq, true_and]
  · have hlive : ((s.conn (trunkSrc k)).pair == .closed || ((s.conn (trunkSrc k)).tripOpen && (s.conn (trunkSrc k)).lastTrip == some s.now)) = true := by
      rw [hclosed]
      rfl
    have hneutral : neutralPair (trunkSrc k) mean = true := by
      have htrunk : (srcTrunk (trunkSrc k)).isSome = true := by
        rw [srcTrunk, dif_pos (show 5 ≤ (trunkSrc k).val from Nat.le_add_left 5 k.val)]
        rfl
      simp only [neutralPair, htrunk, (rabs_le_iff mean 1).2 ⟨hlo, hhi⟩, decide_true, Bool.and_self]
    simp only [State.trips, hlive, hneutral, Bool.true_and, Bool.not_true, Bool.false_and, if_true, decide_eq_true_eq]
    exact ⟨trivial, trivial, trivial⟩
  · refine ⟨_, execSagLimitLearned_learns s c n i k hup hc hpanel hnode hsel hactive hsag hdue, ?_, ?_, ?_, fun d hd => ?_, ?_⟩ <;> rw [record_is]
    · exact congrArg Conn.iLearn (State.modConn_conn ..)
    · exact congrArg Conn.learnSince (State.modConn_conn ..)
    · rfl
    · exact State.modConn_other _ _ _ _ hd
    · rfl
  · exact ⟨_, execSagProbe_probes s c i hup hlearn hdue, rfl⟩
  · refine ⟨_, (if_pos (by rw [hup, hdraws]; rfl)).trans (if_pos rfl), rfl, rfl, rfl, rfl, fun hvoc => clampR_between _ ?_⟩
    show 55 / 100 * s.hub.panelVoc ≤ 95 / 100 * s.hub.panelVoc
    linarith
  · exact ⟨_, (if_pos (by rw [hup, hdraws]; rfl)).trans (if_neg Bool.false_ne_true), rfl⟩
  · refine ⟨_, bestStep w, if_pos ?_, rfl, bestStep_best w, rfl, rfl, rfl, rfl, rfl⟩
    rw [hup, hdraws]
    refine Bool.or_eq_true_iff.2 (hdue.imp (fun ⟨k, hk, hpassed⟩ => ?_) fun ⟨hevery, hseen, hpassed⟩ => ?_)
    · rw [hk]
      exact hpassed
    · have hpassed : s.passed s.hub.panelScanAt (secTicks (60 * (s.cfg.get 10 11).toNat)) = true := by
        rw [secTicks]
        convert hpassed using 2
        ring
      rw [hseen, hpassed]
      simpa using hevery

end Sys2Proof.Machine
end

section
/-! Far nodes that change their source (O25; R140-R142, R160, R177). -/

namespace Sys2Proof.Machine

/-- A series of lane operations leaves every lane it names in the run state that one of them gives. -/
theorem fold_lanes_run (g : State → Lane → State) (r : LaneRun) (hown : ∀ u m, ((g u m).lane m).run = r)
    (hother : ∀ u m k, k ≠ m → (g u m).lane k = u.lane k) (m : Lane) : ∀ (l : List Lane), m ∈ l → ∀ s : State,
    ((l.foldl g s).lane m).run = r := by
  have hkeep : ∀ (l : List Lane) (s : State), (s.lane m).run = r → ((l.foldl g s).lane m).run = r := fun l s hs =>
    foldl_inv (fun u : State => (u.lane m).run = r) g l s hs fun u k hu => by
      by_cases hk : m = k
      · subst hk
        exact hown u m
      · rw [hother u k m hk]
        exact hu
  intro l
  induction l with
  | nil => exact fun hm => absurd hm List.not_mem_nil
  | cons x l ih =>
    intro hm s
    rcases List.mem_cons.1 hm with rfl | hm
    · exact hkeep l _ (hown s m)
    · exact ih hm _

section
variable (s : State) (n : Lane)

/-- Operations on lane dies touch no connector. -/
theorem modLanes_conns (f : LaneDie → LaneDie) (l : List Lane) : (l.foldl (fun s m => s.modLane m f) s).conns = s.conns :=
  fold_conns (fun s m => s.modLane m f) l s fun _ _ => rfl

/-- A far node's voltage noted at its lanes leaves their run state (R141). -/
theorem noteVinl_run (v : Volt) (l : List Lane) (k : Lane) :
    ((l.foldl (fun s m => s.modLane m (fun l => { l with loop := { l.loop with vinl := v } })) s).lane k).run = (s.lane k).run := by
  refine foldl_inv (fun u : State => (u.lane k).run = (s.lane k).run) _ l s rfl fun u m hu => ?_
  by_cases hk : k = m
  · subst hk
    rw [State.modLane_lane]
    exact hu
  · rw [State.modLane_other _ _ _ _ hk]
    exact hu

theorem standbyNode_run (l : List Lane) {m : Lane} (hm : m ∈ l) :
    ((l.foldl (fun s m => s.modLane m LaneDie.toStandby) s).lane m).run = .standby :=
  fold_lanes_run _ _ (fun u k => by rw [State.modLane_lane]; rfl) (fun u k j hj => State.modLane_other _ _ _ _ hj) m l hm s

theorem stopNode_run {m : Lane} (hm : m ∈ s.cfg.gang n) : ((s.stopNode n).lane m).run = .stopped :=
  fold_lanes_run (fun s m => (s.modLane m LaneDie.stop).stampLane m .laneStopped) _ (fun u k => by rw [lane_stampLane, State.modLane_lane]; exact (stop_fields _).1)
    (fun u k j hj => State.modLane_other _ _ _ _ hj) m _ hm s

/-- A frame to a far node leaves every other node's record. -/
theorem sendNode_node (eff : Nat) (go : LaneGo) (f : LaneOrder → LaneOrder) {m : Lane} (hm : m ≠ n) :
    (s.sendNode n eff go f).node m = s.node m := by
  unfold State.sendNode
  refine (State.modNode_other _ _ _ _ hm).trans (congrArg (fun v => Vector.get v m) ?_)
  exact foldl_proj (fun u : State => u.nodes) (fun u k => u.sendLane k eff (u.memberGo k go) (u.memberPart n k (f (s.lastOrder n)))) _ _
    (fun _ _ => rfl)

/-- A change of source touches the record of its own node only, and no pair (R142). -/
theorem changeTo_is (new : Option Src) : ((s.changeTo n new).node n).selected = new ∧ ((s.changeTo n new).node n).allocW = 0 ∧
    ((s.changeTo n new).node n).challengers = [] ∧ (∀ m, m ≠ n → (s.changeTo n new).node m = s.node m) ∧
    (s.changeTo n new).conns = s.conns := by
  unfold State.changeTo
  extract_lets old opens eff s1 s2 step
  have hs2 : s2.nodes = s1.nodes ∧ s2.conns = s1.conns := by
    unfold s2
    cases old with
    | none => exact ⟨rfl, rfl⟩
    | some c =>
      dsimp only
      split <;> exact ⟨rfl, rfl⟩
  obtain ⟨hnodes, hconns⟩ := hs2
  refine ⟨?_, ?_, ?_, fun m hm => ?_, ?_⟩
  · rw [State.modNode_node]
  · rw [State.modNode_node]
  · rw [State.modNode_node]
  · rw [State.modNode_other _ _ _ _ hm, State.node, hnodes]
    exact sendNode_node s n _ _ _ hm
  · obtain ⟨L, N, hsent⟩ := sendNode_is s n eff (if new.isNone then .stopNow else .standby) (fun o => { o with alloc := 0 })
    have hkept := congrArg State.conns hsent
    exact hconns.trans hkept

/-- A lane's part of a zero allocation is zero (R116). -/
theorem memberPart_zero {o : LaneOrder} (ho : o.alloc = 0) (m : Lane) : (s.memberPart n m o).alloc = 0 := by
  unfold State.memberPart
  dsimp only
  split
  · exact ho
  · show State.gangPart s n m * o.alloc = 0
    rw [ho, mul_zero]

/-- A draining node at its target goes on in standby (R141). -/
theorem farNodeDrainDone_draining {c : Src} {v : Volt} (hchange : (s.node n).change = some (c, .draining))
    (hv : v ≤ max ((s.conn c).v - 1 / 2) (9 / 2)) :
    let t := (s.cfg.gang n).foldl (fun s m => s.modLane m LaneDie.toStandby) s
    execFarNodeDrainDone n v s = .next (((t.cfg.gang n).foldl (fun s m => s.modLane m (fun l => { l with
      loop := { l.loop with vinl := v } })) t).modNode n (fun k => { k with change := some (c, .standby) })) := by
  unfold execFarNodeDrainDone
  dsimp only
  rw [hchange]
  exact if_pos hv

/-- A node drained of a source that none follows stops its lanes (R177). -/
theorem farNodeDrainDone_drained {v : Volt} (hchange : ∀ c, (s.node n).change ≠ some (c, .draining)) (hdrain : (s.node n).drain = true)
    (hv : v ≤ 9 / 2) :
    execFarNodeDrainDone n v s = .next ((((s.stopNode n).cfg.gang n).foldl (fun s m => s.modLane m (fun l => { l with
      loop := { l.loop with vinl := v } })) (s.stopNode n)).modNode n (fun k => { k with drain := false, sent := none })) := by
  unfold execFarNodeDrainDone
  dsimp only
  split
  · next c hc => exact absurd hc (hchange c)
  · exact if_pos (by simp only [hdrain, hv, decide_true, Bool.and_self])

end

/-- Settles O25: the change of source (`changeTo_is`), then the ends of a drain. -/
theorem farNodesChangeTheirSource : Obligations.FarNodesChangeTheirSource := by
  unfold Obligations.FarNodesChangeTheirSource
  refine ⟨fun n inc ch s hup hsel hheld hbest => ?_, fun n c v s hchange hv => ?_, fun n v s hchange hdrain hv => ?_,
    fun n c s hup hchange hdue => ?_⟩
  · obtain ⟨t, ht⟩ := exec_answers (.swapHoldExpiry n ch) s
    refine ⟨t, ht, ?_⟩
    change execSwapHoldExpiry n ch s = _ at ht
    unfold execSwapHoldExpiry at ht
    dsimp only at ht
    rw [hsel] at ht
    have hbest : s.bestOf n (((s.node n).challengers.filter (fun x => s.passed x.2 swapHold && s.heldCandidate x.1 &&
      s.challenges n x.1 inc)).map (·.1)) = some ch := hbest
    dsimp only at ht
    rw [if_pos (by rw [hup, hheld, hbest]; exact beq_self_eq_true ch)] at ht
    obtain rfl := Host.Outcome.next.inj ht
    exact changeTo_is s n (some ch)
  · refine ⟨_, farNodeDrainDone_draining s n hchange hv, congrArg Node.change (State.modNode_node ..), fun m hm => ?_, ?_⟩
    · exact (noteVinl_run _ v _ m).trans (standbyNode_run s _ hm)
    · exact (modLanes_conns ..).trans (modLanes_conns ..)
  · refine ⟨_, farNodeDrainDone_drained s n hchange hdrain hv, congrArg Node.drain (State.modNode_node ..), fun m hm => ?_, ?_⟩
    · exact (noteVinl_run _ v _ m).trans (stopNode_run s n hm)
    · obtain ⟨-, hconns, -⟩ := stopNode_ports s n
      exact (modLanes_conns ..).trans hconns
  · obtain ⟨t, ht⟩ := exec_answers (.drainTimeout n) s
    refine ⟨t, ht, ?_⟩
    change execDrainTimeout n s = _ at ht
    unfold execDrainTimeout at ht
    rw [hchange] at ht
    have hdue : s.passed (s.node n).openedAt (msTicks 10) = true := hdue
    dsimp only at ht
    rw [if_pos (by rw [hup, hdue]; rfl)] at ht
    obtain rfl := Host.Outcome.next.inj ht
    obtain ⟨L, N, hsent⟩ := sendNode_is s n s.effTick .standby (fun o => { o with alloc := 0 })
    have hconns := congrArg State.conns hsent
    refine ⟨?_, ?_, hconns, fun m hm => ?_, fun m hm => ?_⟩
    · rw [State.modNode_node]
    · rw [State.modNode_node]
    · obtain ⟨u, hf⟩ := sendNode_has s n m s.effTick .standby (fun o => { o with alloc := 0 }) hm
      exact ⟨_, hf, rfl, rfl, memberPart_zero u n rfl m⟩
    · exact (State.modNode_other _ _ _ _ hm).trans (sendNode_node s n _ _ _ hm)

end Sys2Proof.Machine
end

section
/-! Ports attach, detach, toggle, recover and qualify VBUS (O26; R162, R163, R165-R170, R178, R180, R189, R461). -/

namespace Sys2Proof.Machine

section
variable (s : State) (p : Port)

/-- The expiry of a PD timer that runs at a port the hub answers for is stamped, and nothing else happens (R174). -/
theorem expire_runs {x : PdTimer} (hanswers : s.answers p = true) (hruns : s.timerRuns p x = true) :
    s.expire p x = s.stampPd p (.pdTimer p x) := if_pos (by rw [hanswers, hruns]; rfl)

theorem expire_idle {x : PdTimer} (hidle : s.timerRuns p x = false) : s.expire p x = s := if_neg (by simp [hidle])

/-- An unsupported port is stamped, and no other port changes (R163). -/
theorem unsupported_port : ((s.unsupported p).port p).attach = .unsupported ∧ ∀ q, q ≠ p → (s.unsupported p).port q = s.port q := by
  refine ⟨?_, fun q hq => State.modPort_other _ _ _ _ hq⟩
  exact congrArg PortSt.attach (State.modPort_port ..)

/-- A port that has attached, with the CC pins settled (R162). -/
theorem attachAs_ccRefresh (a : Attach) (rp : Rp) (cc2 : Bool) : let t := (s.attachAs p a rp cc2).ccRefresh
    (t.port p).attach = a ∧ (t.port p).rpSeen = rp ∧ (t.port p).cc2 = cc2 ∧ (t.port p).contract = .zero ∧
      (t.port p).dfp = (a == .source) ∧ (t.port p).vconn = (a == .source && (s.pdie (portDie p)).vconnSupply) ∧
      (t.conn (portSrc p)).vExp = 5 ∧ (t.conn (portSrc p)).qualified = false ∧ ∀ q, q ≠ p → (t.port q).attach = (s.port q).attach := by
  obtain ⟨hattach, hrp, hcc2, hcontract, hdfp, hvconn, hexp, hqual, hother⟩ := attachAs_port s p a rp cc2
  dsimp only
  rw [ccRefresh_attach, ccRefresh_port_rpSeen, ccRefresh_port_cc2, ccRefresh_port_contract, ccRefresh_port_dfp,
    ccRefresh_port_vconn, ccRefresh_conn]
  exact ⟨hattach, hrp, hcc2, hcontract, hdfp, hvconn, hexp, hqual, fun q hq => by rw [ccRefresh_attach, hother q hq]⟩

/-- Whether the Hard Reset of a port is less than 1.3 s old (R165, R180). -/
def State.resetHeld : Bool := match (s.port p).hrAt with | some t => !s.passed t (msTicks 1300) | none => false

theorem resetHeld_eq_false (h : ∀ k, (s.port p).hrAt = some k → s.passed k 130000 = true) : s.resetHeld p = false := by
  unfold State.resetHeld
  cases hk : (s.port p).hrAt with
  | none => rfl
  | some k =>
    have hpassed : s.passed k (msTicks 1300) = true := h k hk
    simp only [hpassed, Bool.not_true]

/-- A sink's port detaches unless VBUS, a swap or a young Hard Reset holds it (R165). -/
theorem execSinkDetach_is (x : SinkSense)
    (hattach : (s.port p).attach = .sink ∨ (s.port p).attach = .frsWatch ∨ (s.port p).attach = .unsupported) :
    execSinkDetach p x s = if !x.rpAbsent && (s.resetHeld p || (s.port p).swap.isSome || vSinkDisconnect ≤ x.v) then .next s
      else .next (s.detachPort p (x.rpAbsent && !(s.port p).hrActive && (s.port p).swap.isNone)) :=
  if_pos (by simpa [or_assoc] using hattach)

/-- The port and its connector after a sink's VBUS has come into its window (R180). -/
theorem execSinkVbusQualified_is (v : Volt) (u : State)
    (hu : u = if (s.port p).hrActive then s.modConn (portSrc p) (fun k => { k with vExp := 5, vOld := none }) else s) :
    execSinkVbusQualified p v s = if (s.port p).attach = .sink && u.vLost (portSrc p) ≤ v && v ≤ u.vOv (portSrc p) &&
        !((s.port p).hrActive && s.resetHeld p) && (s.conn (portSrc p)).lastTrip.isNone then
      let w := ((u.modPort p (fun q => { q with hrActive := false })).swapVbus p true).modConn (portSrc p) (fun k => { k with qualified := true, v := v })
      .next (w.stampPort p (.qualified (portSrc p) (w.conn (portSrc p)).lockedOut)).ccRefresh
    else .next s := by
  rw [hu]
  rfl

end

/-- Settles O26: attaching by `attachAs_ccRefresh`, leaving by `detachPort_port`, then each of the port die's other events. -/
theorem portsAttachRecoverAndQualify : Obligations.PortsAttachRecoverAndQualify := by
  unfold Obligations.PortsAttachRecoverAndQualify
  refine ⟨⟨fun p level cc2 s hfree hup hcc => ?_, fun p cc2 s hfree hup hcc hwait htry => ?_, fun p cc2 s hfree hup hcc hwait hrole hsnk => ?_,
    fun p s hfree hup hcc => ?_, fun p s hfree hup => ?_, fun p s hfree hwait => ?_, fun p absent v s hattach hgone => ?_,
    fun p v s hheld => ?_, fun p s hattach => ?_, fun p s hfree hrole hwait hup => ?_⟩,
    fun p s hrec => ?_, fun p v u s hattach hu hlo hhi hhr htrip => ?_, fun p r s hrun hup => ?_, fun p i s hvconn hi => ?_,
    fun p s hanswers hattach hvconn hcable htries => ?_, fun p s htries => ?_⟩
  · obtain ⟨hattach, hrp, hcc2, hcontract, -, -, hexp, hqual, hother⟩ := attachAs_ccRefresh s p .sink level cc2
    exact ⟨_, (if_neg (by simp [hfree, hup])).trans (if_pos hcc), hattach, hrp, hcc2, hcontract, hexp, hqual, hother⟩
  · obtain ⟨hattach, -, -, -, hdfp, hvconn, -, -, hother⟩ := attachAs_ccRefresh s p .source .default cc2
    exact ⟨_, (if_neg (by simp [hfree, hup])).trans ((if_pos (by simp [hcc, hwait])).trans (if_neg (by simpa using htry))),
      hattach, hdfp, hvconn, hother⟩
  · exact ⟨_, (if_neg (by simp [hfree, hup])).trans ((if_pos (by simp [hcc, hwait])).trans (if_pos (by simp [hrole, hsnk]))), rfl⟩
  · by_cases haudio : s.portOn p 16 = true
    · refine ⟨_, (if_neg (by simp [hfree, hup])).trans ((if_neg (by simp [hcc])).trans (if_pos haudio)), ?_, fun q hq => ?_⟩
      · rw [if_pos haudio, State.modPort_port]
        exact (attachAs_port s p .audio .default false).1
      · obtain ⟨-, -, -, -, -, -, -, -, hother⟩ := attachAs_port s p .audio .default false
        exact (State.modPort_other _ _ _ _ hq).trans (hother q hq)
    · refine ⟨_, (if_neg (by simp [hfree, hup])).trans ((if_neg (by simp [hcc])).trans (if_neg haudio)), ?_⟩
      rw [if_neg haudio]
      exact unsupported_port s p
  · exact ⟨_, if_neg (by simp [hfree, hup]), unsupported_port s p⟩
  · by_cases hnode : s.nodeFree p = true
    · refine ⟨_, (if_pos (by simp [hfree, hwait])).trans (if_pos hnode), fun _ => ?_, fun h => by rw [hnode] at h; cases h⟩
      exact (attachAs_ccRefresh s p .source .default (s.port p).cc2).1
    · exact ⟨_, (if_pos (by simp [hfree, hwait])).trans (if_neg hnode), fun h => absurd h hnode, fun _ => rfl⟩
  · obtain ⟨hattach', hcontract, -, hpair, hqual⟩ := detachPort_port s p (absent && !(s.port p).hrActive && (s.port p).swap.isNone)
    refine ⟨_, (execSinkDetach_is s p ⟨absent, v⟩ hattach).trans (if_neg ?_), hattach', hcontract, hpair, hqual⟩
    rcases hgone with rfl | ⟨hswap, hv, hhr⟩
    · exact Bool.false_ne_true
    · have hv : decide (vSinkDisconnect ≤ v) = false := decide_eq_false (not_le.2 hv)
      simp only [resetHeld_eq_false s p hhr, hswap, hv, Option.isSome_none, Bool.or_self, Bool.and_false]
      exact Bool.false_ne_true
  · by_cases hattach : (s.port p).attach = .sink ∨ (s.port p).attach = .frsWatch ∨ (s.port p).attach = .unsupported
    · refine (execSinkDetach_is s p ⟨false, v⟩ hattach).trans (if_pos ?_)
      simp only [Bool.not_false, Bool.true_and, Bool.or_eq_true, decide_eq_true_eq, or_assoc]
      exact .inr hheld
    · exact if_neg (by simpa [or_assoc] using hattach)
  · refine ⟨_, if_pos (by simpa [or_assoc] using hattach), ?_⟩
    obtain ⟨hattach', -, hfeed, hpair, hqual⟩ := detachPort_port
      (if (s.port p).feeding && (s.port p).transition then s.record 0x0402 [BitVec.ofNat 8 p.val, 0xFF, 1] else s) p
      (!(s.port p).hrActive && (s.port p).swap.isNone)
    exact ⟨hattach', hfeed, hpair, hqual⟩
  · refine ⟨_, if_pos (by simp [hfree, hrole, hwait, hup]), fun q hq => State.modPort_other _ _ _ _ hq, fun hrp => ?_,
      fun hrd hdead hnode hkeeper => ?_, rfl⟩
    · rw [State.modPort_port]
      exact if_pos (by simp [hrp])
    · rw [State.modPort_port]
      exact if_neg (by simp [hrd, hdead, hnode, hkeeper])
  · refine ⟨_, if_pos hrec, ?_⟩
    rw [ccRefresh_attach, ccRefresh_port_contract, ccRefresh_port_hardResets, State.modPort_port]
    rw [show ∀ (u : State) (c : Cfg), ({ u with cfg := c } : State).port p = u.port p from fun _ _ => rfl, State.modPort_port]
    exact ⟨rfl, rfl, rfl, (ccRefresh_is _).1⟩
  · obtain ⟨hlock, hexp, hother, hport, hevents, htime⟩ : (u.conn (portSrc p)).lockedOut = (s.conn (portSrc p)).lockedOut ∧
        u.conn (portSrc p) = u.conn (portSrc p) ∧ (∀ d, d ≠ portSrc p → u.conn d = s.conn d) ∧ u.port p = s.port p ∧
        u.events = s.events ∧ u.time = s.time := by
      rw [hu]
      split
      · exact ⟨by rw [State.modConn_conn], rfl, fun d hd => State.modConn_other _ _ _ _ hd, rfl, rfl, rfl⟩
      · exact ⟨rfl, rfl, fun _ _ => rfl, rfl, rfl, rfl⟩
    have hheld : ((s.port p).hrActive && s.resetHeld p) = false := by
      cases hr : (s.port p).hrActive with
      | false => rfl
      | true => exact resetHeld_eq_false s p (hhr hr)
    obtain ⟨-, -, hsattach, hshr, hsevents, hstime⟩ := swapVbus_is (u.modPort p (fun q => { q with hrActive := false })) p true
    refine ⟨_, (execSinkVbusQualified_is s p v u hu).trans (if_pos ?_), ?_⟩
    · simp only [hattach, hlo, hhi, hheld, htrip, decide_true, Bool.not_false, Bool.and_self, Option.isNone_none]
    · dsimp only [State.stampPort]
      rw [ccRefresh_conn, ccRefresh_attach, ccRefresh_port_hrActive, ccRefresh_events, stamp_conn, stamp_port, modConn_port,
        State.modConn_conn, swapVbus_conn, modPort_conn]
      refine ⟨rfl, rfl, rfl, hsattach.trans ?_, hshr.trans ?_, fun d hd => ?_, ?_⟩
      · rw [State.modPort_port, hport]
        exact hattach
      · rw [State.modPort_port]
      · rw [ccRefresh_conn, stamp_conn, State.modConn_other _ _ _ _ hd, swapVbus_conn]
        exact hother d hd
      · refine (stamp_events_of s _ _ _ _ (hsevents.trans hevents) (hstime.trans htime)).trans ?_
        rw [hlock]
        rfl
  · exact ⟨_, if_pos (by rw [hrun, hup]; rfl), rfl, rfl⟩
  · refine ⟨_, if_pos (by simp only [hvconn, hi, decide_true, Bool.and_self]), ?_⟩
    by_cases htripped : (s.port p).vconnTripped = true
    · rw [if_pos htripped, if_pos htripped, State.modPort_port]
      exact ⟨rfl, rfl, rfl, rfl, rfl⟩
    · rw [if_neg htripped, if_neg htripped, stamp_port, State.modPort_port]
      exact ⟨rfl, rfl, rfl, rfl, rfl⟩
  · have hruns : s.timerRuns p .cableRetry = true := by simp [State.timerRuns, hattach, hvconn, hcable, htries]
    exact ⟨_, congrArg Host.Outcome.next (expire_runs s p hanswers hruns), rfl, rfl⟩
  · exact congrArg Host.Outcome.next (expire_idle s p (by simp [State.timerRuns, not_lt.2 htries]))

end Sys2Proof.Machine
end

section
/-! PD messages and source ports (O27; R13, R161, R170-R175, R177, R179, R190, R191, R461). -/

namespace Sys2Proof.Machine

section
variable (s : State) (p : Port)

/-- A PD event of a port, stamped and nothing else (R13). -/
theorem stampPd_is (k : EvKind) : (s.stampPd p k).events = s.events ++ [s.event .pd (.port (portDie p)) p.val k] ∧
    s.stampPd p k = { s with events := (s.stampPd p k).events } := ⟨rfl, rfl⟩

theorem heard_stampPd (rev2 : Bool) (k : EvKind) :
    ((s.heardFrom p rev2).stampPd p k).events = s.events ++ [s.event .pd (.port (portDie p)) p.val k] ∧
      (s.heardFrom p rev2).stampPd p k = { s.heardFrom p rev2 with events := ((s.heardFrom p rev2).stampPd p k).events } := ⟨rfl, rfl⟩

/-- Whether the hub answers for a port does not turn on the message just heard. -/
theorem heardFrom_answers (rev2 : Bool) : (s.heardFrom p rev2).answers p = s.answers p := rfl

/-- The port die by itself ends the contract on a Soft or Hard Reset (R181). -/
theorem limpDefault_contract (hard : Bool) : ((s.limpDefault p hard).port p).contract = .zero := by
  unfold State.limpDefault
  dsimp only
  cases hard with
  | true =>
    obtain ⟨-, hcontract, -⟩ := hardState_port s p
    rw [if_pos rfl, if_neg (by simp)]
    exact hcontract
  | false =>
    rw [if_neg Bool.false_ne_true]
    have hsoft : ((s.modPort p (fun q => { q with contract := .zero, softened := q.attach == .sink, wait := .sourceCaps, epr := false })).port
        p).contract = .zero := by rw [State.modPort_port]
    split
    · obtain ⟨hquiet, -⟩ := feedEnd_port (s.modPort p (fun q => { q with
        contract := .zero, softened := q.attach == .sink, wait := .sourceCaps, epr := false })) p false
      rw [State.modPort_port]
      exact hquiet.contract.trans hsoft
    · exact hsoft

/-- A keep-alive that only the port die hears is answered by a source (R181). -/
theorem execPdMessageReceived_absent (m : PdRx) (hlistens : s.listens p = true) (hcrc : m.crcOk = true) (habsent : s.answers p = false) :
    ∃ t, exec (.pdMessageReceived p m) s = .next t ∧ ((m.msg = .softReset ∨ m.msg = .hardReset) → (t.port p).contract = .zero) ∧
      (m.msg = .eprKeepAlive → (s.port p).attach = .source → t.pdOut = { port := p, msg := .eprKeepAliveAck } :: s.pdOut) := by
  obtain ⟨t, ht⟩ := exec_answers (.pdMessageReceived p m) s
  refine ⟨t, ht, fun hreset => ?_, fun halive hsource => ?_⟩
  all_goals
    change execPdMessageReceived p m s = _ at ht
    unfold execPdMessageReceived at ht
    dsimp only at ht
    rw [if_neg (by simp [hlistens]), if_neg (by simp [hcrc]), heardFrom_answers, habsent, if_neg Bool.false_ne_true] at ht
  · rcases hreset with hm | hm
    · rw [hm] at ht
      obtain rfl := Host.Outcome.next.inj ht
      exact limpDefault_contract ..
    · rw [hm] at ht
      obtain rfl := Host.Outcome.next.inj ht
      exact limpDefault_contract ..
  · rw [halive] at ht
    dsimp only at ht
    rw [if_pos hsource] at ht
    obtain rfl := Host.Outcome.next.inj ht
    rfl

/-- Source_Capabilities of a feeding port, where it may feed (R170). -/
theorem sendCaps_is (hfeed : s.canFeed p = true) : ∃ c, Sends p (.sourceCaps c) s (s.sendCaps p) ∧ c.pdos = s.offers p ∧
    (s.sendCaps p).port p = { s.port p with wait := .caps, capsCount := (s.port p).capsCount + 1 } := by
  unfold State.sendCaps
  dsimp only
  rw [if_neg (by simp [hfeed])]
  exact ⟨_, pdSend_sends _ _ _ _ rfl, rfl, by rw [pdSend_port, State.modPort_port]⟩

/-- Whether a connector is a candidate turns on the attachment and the feeds of the ports only (R137). -/
theorem candidate_modPort (f : PortSt → PortSt) (hattach : (f (s.port p)).attach = (s.port p).attach)
    (hfeeding : (f (s.port p)).feeding = (s.port p).feeding) (c : Src) : (s.modPort p f).candidate c = s.candidate c := by
  have hports : ∀ q, ((s.modPort p f).port q).attach = (s.port q).attach ∧ ((s.modPort p f).port q).feeding = (s.port q).feeding := by
    intro q
    by_cases hq : q = p
    · subst hq
      rw [State.modPort_port]
      exact ⟨hattach, hfeeding⟩
    · rw [State.modPort_other _ _ _ _ hq]
      exact ⟨rfl, rfl⟩
  unfold State.candidate State.mayDraw
  cases srcPort c with
  | none => rfl
  | some q =>
    dsimp only
    rw [(hports q).1, (hports q).2]
    rfl

/-- Whether a port may feed turns on the attachment and the feeds of the ports only (R177). -/
theorem canFeed_modPort (f : PortSt → PortSt) (hattach : (f (s.port p)).attach = (s.port p).attach)
    (hfeeding : (f (s.port p)).feeding = (s.port p).feeding) : (s.modPort p f).canFeed p = s.canFeed p := by
  have hfree : (s.modPort p f).nodeFree p = s.nodeFree p := by
    unfold State.nodeFree
    show (match s.portNode p with | none => false | some n => _) = _
    cases s.portNode p with
    | none => rfl
    | some n =>
      dsimp only
      rw [show (fun c => c == portSrc p || ((s.modPort p f).staysOpen c && !(s.modPort p f).candidate c)) =
        fun c => c == portSrc p || (s.staysOpen c && !s.candidate c) from funext fun c => by rw [candidate_modPort s p f hattach hfeeding]; rfl]
      rfl
  unfold State.canFeed
  rw [hfree]
  rfl

/-- A request of the best-ranked object (R171). -/
theorem requestBest_is {c : SourceCaps} {b : Ranked} (hcaps : (s.port p).caps = some c)
    (hbest : bestRanked (rankObjects (s.snkVmax p) (min (s.cfg.q (6 + p.val) 1 (1 / 20)) (cableTerm (s.port p))) (s.port p).rev2 c.pdos) = some b) :
    s.requestBest p = (s.modPort p (fun q => { q with wait := .request b.v b.i b.pos b.kind, lastReq := some (b.pos, b.v, b.i) })).pdSend p
      (.request b.pos b.v b.i) := by
  unfold State.requestBest
  dsimp only
  rw [hcaps]
  dsimp only
  rw [hbest]

theorem onSourceCaps_is {c : SourceCaps} {b : Ranked} (hattach : (s.port p).attach = .sink ∨ (s.port p).attach = .frsWatch)
    (hbest : bestRanked (rankObjects (s.snkVmax p) (min (s.cfg.q (6 + p.val) 1 (1 / 20))
      (cableTerm { s.port p with caps := some c, cable5 := (s.port p).cable5 || showsFiveAmp (s.snkVmax p) c.pdos })) (s.port p).rev2 c.pdos) = some b) :
    s.onSourceCaps p c = ((s.modPort p (fun q => { q with caps := some c, cable5 := q.cable5 || showsFiveAmp (s.snkVmax p) c.pdos })).modPort p
      (fun q => { q with wait := .request b.v b.i b.pos b.kind, lastReq := some (b.pos, b.v, b.i) })).pdSend p (.request b.pos b.v b.i) := by
  unfold State.onSourceCaps
  dsimp only
  rw [if_neg (by rcases hattach with h | h <;> simp [h]), if_pos (by simpa using hattach)]
  refine requestBest_is _ p (c := c) ?_ ?_
  · rw [State.modPort_port]
  · rw [State.modPort_port]
    exact hbest

/-- Accept of a Request that changes the voltage (R172). -/
theorem onAccept_request {v : Volt} {i : Amp} {k : Nat} {x : ContractKind} (hwait : (s.port p).wait = .request v i k x)
    (hv : v ≠ (s.conn (portSrc p)).vExp) : let t := s.onAccept p
    (t.conn (portSrc p)).vExp = v ∧ (t.conn (portSrc p)).vOld = some (s.conn (portSrc p)).vExp ∧ (t.port p).transition = true ∧
      (t.port p).wait = .psRdy := by
  have hreply := PortPartKept.portReply s p [7] rcOk
  unfold State.onAccept State.onRequestAccept
  dsimp only
  rw [hwait]
  dsimp only
  rw [if_neg hv]
  generalize s.portReply p [7] rcOk = u at hreply
  have hstandby := PortPartKept.standbyFor ((u.modConn (portSrc p) (fun k => { k with vExp := v, vOld := some (s.conn (portSrc p)).vExp })).modPort p
    (fun q => { q with wait := .psRdy, transition := true })) p
  rw [hstandby.conn, hstandby.port, modPort_conn, State.modConn_conn, State.modPort_port]
  exact ⟨rfl, rfl, rfl, rfl⟩

/-- A Request for an offered object, by its limit (R173). -/
theorem onRequest_offered {k : Nat} {v : Volt} {i lim : Amp} {o : Pdo} (hattach : (s.port p).attach = .source)
    (hfeed : (s.port p).feeding = true) (hk : k ≠ 0) (ho : (s.offers p)[k - 1]? = some o) (hlim : pdoLimit o v = some lim) :
    s.onRequest p k v i = if i ≤ lim then (((s.pdSend p .accept).modConn (portSrc p) (fun k =>
        if k.vExp = pdoVolt o v then k else { k with vOld := some k.vExp, vExp := pdoVolt o v })).modPort p (fun q => { q with
          wait := .idle, transition := true, feedReady := false, lastReq := some (k, pdoVolt o v, i), objMax := lim })).portReply p [7] rcOk
      else (s.pdSend p .reject).portReply p [7] rcDenied := by
  unfold State.onRequest
  dsimp only
  rw [if_neg (by simp [hattach]), if_neg (by simp [hfeed]), if_neg hk, ho]
  dsimp only
  rw [hlim]

/-- The transition of a feeding port moves its lane's target at 20 V/ms (R174). -/
theorem srcMove_is {k : Nat} {v : Volt} {i : Amp} {n : Lane} (hreq : (s.port p).lastReq = some (k, v, i)) (hnode : s.portNode p = some n) :
    s.srcMove p = (s.modPort p (fun q => { q with feedTarget := v, feedReady := false })).sendNode n s.effTick .keep
      (fun o => { o with target := v, slew := 20 }) := by
  unfold State.srcMove
  rw [hreq, hnode]
  rfl

theorem sendNode_sent (n : Lane) (eff : Nat) (go : LaneGo) (f : LaneOrder → LaneOrder) :
    ((s.sendNode n eff go f).node n).sent = some (f (s.lastOrder n)) := by
  unfold State.sendNode
  rw [State.modNode_node]

/-- A message the port die hears while the hub answers is stamped for it (R13). -/
theorem execPdMessageReceived_answers (m : PdRx) (hlistens : s.listens p = true) (hcrc : m.crcOk = true) (hanswers : s.answers p = true) :
    exec (.pdMessageReceived p m) s = .next ((s.heardFrom p m.rev2).stampPd p (.pdMessage p m.msg)) :=
  (if_neg (by simp [hlistens])).trans ((if_neg (by simp [hcrc])).trans (if_pos hanswers))

/-- What is repeated of the last PPS or AVS request (R175). -/
theorem execPpsRequestRepeat_is {k : Nat} {v : Volt} {i : Amp} (hattach : (s.port p).attach = .sink ∨ (s.port p).attach = .frsWatch)
    (hkind : (s.port p).contract.kind = .pps ∨ (s.port p).contract.kind = .avs) (hreq : (s.port p).lastReq = some (k, v, i)) :
    ∃ t, exec (.ppsRequestRepeat p) s = .next t ∧ t.pdOut = { port := p, msg := .request k v i } :: s.pdOut ∧ t.conns = s.conns := by
  obtain ⟨t, ht⟩ := exec_answers (.ppsRequestRepeat p) s
  refine ⟨t, ht, ?_⟩
  change execPpsRequestRepeat p s = _ at ht
  unfold execPpsRequestRepeat at ht
  dsimp only at ht
  rw [hreq] at ht
  dsimp only at ht
  rw [if_pos (by simpa using ⟨hattach, hkind⟩)] at ht
  obtain rfl := Host.Outcome.next.inj ht
  split
  · exact ⟨rfl, rfl⟩
  · exact ⟨rfl, rfl⟩

/-- Reaching its target for the first time, with no contract, a feeding port sends its capabilities (R177). -/
theorem onFeedReached_first (hfeed : (s.port p).feeding = true) (hswap : (s.port p).swap = none) (htrans : (s.port p).transition = false)
    (hkind : (s.port p).contract.kind = .none) (hwait : (s.port p).wait = .idle) :
    s.onFeedReached p = (s.modPort p (fun q => { q with feedReady := true })).sendCaps p := by
  unfold State.onFeedReached
  dsimp only
  rw [if_neg (by simp [hfeed]), hswap]
  dsimp only
  rw [if_neg (by simp [htrans]), if_pos (by simp [hkind, hwait])]

end

/-- Settles O27: each message and timer by its stamp, then by what the decision that uses it does. -/
theorem pdMessagesAndSourcePorts : Obligations.PdMessagesAndSourcePorts := by
  unfold Obligations.PdMessagesAndSourcePorts
  refine ⟨⟨fun p m s hlistens hcrc => ?_, fun p m s hlistens hcrc hanswers => ?_, fun p m s hlistens hcrc habsent => ?_,
    fun p r c s hlistens hanswers => ?_, fun p r k v i s hlistens hanswers => ?_, fun p v i k x s hanswers hwait hv => ?_,
    fun p s hanswers hattach hkind hmode hallowed => ?_, fun p k v i s hattach hkind hreq => ?_, fun p s hattach hepr => ?_,
    fun p s hanswers hwait => ?_, fun p s hanswers hattach hwait hpos hcount => ?_, fun p s hcount => ?_,
    fun p s hanswers hfeed htrans hreq => ?_, fun p v s hup hfeed hv => ?_, fun p v s hdisch hv => ?_⟩,
    fun p m e s he => ?_, fun p x e s he => ?_, fun p c b s hattach hbest => ?_, fun p v i k x s hwait hv => ?_,
    fun p k v i lim o s hattach hfeed hk ho hlim => ?_, fun p s hattach hwait hpos hcount hfeed => ?_,
    fun p k v i n s hfeed htrans hreq hnode => ?_, fun p s hfeed hswap htrans hkind hwait hcan => ?_⟩
  · exact ⟨_, (if_neg (by simp [hlistens])).trans (if_pos (by simp [hcrc])), rfl⟩
  · exact ⟨_, execPdMessageReceived_answers s p m hlistens hcrc hanswers, heard_stampPd s p m.rev2 _⟩
  · exact execPdMessageReceived_absent s p m hlistens hcrc habsent
  · exact ⟨_, (if_pos hlistens).trans (congrArg Host.Outcome.next (if_pos hanswers)), heard_stampPd s p r _⟩
  · exact ⟨_, (if_pos hlistens).trans (congrArg Host.Outcome.next (if_pos hanswers)), heard_stampPd s p r _⟩
  · obtain ⟨t, ht⟩ := exec_answers (.voltageTransitionAccept p) s
    refine ⟨t, ht, ?_⟩
    change execVoltageTransitionAccept p s = _ at ht
    unfold execVoltageTransitionAccept at ht
    rw [hwait] at ht
    dsimp only at ht
    rw [if_pos (by simp [hanswers, hv])] at ht
    obtain rfl := Host.Outcome.next.inj ht
    exact heard_stampPd s p false _
  · refine ⟨_, if_pos (by rcases hattach with h | h <;> simp [hanswers, h, hkind, hmode, hallowed]), rfl, rfl, ?_⟩
    have hmux := PortPartKept.sendMux (s.modPort p (fun q => { q with tmode := true, wait := .idle })) p
    rw [State.modeEnter, hmux.port, State.modPort_port]
  · exact execPpsRequestRepeat_is s p hattach hkind hreq
  · exact ⟨_, if_pos (by simpa using ⟨hattach, hepr⟩), rfl, rfl⟩
  · have hruns : s.timerRuns p .eprEntry = true := by simp [State.timerRuns, hwait]
    refine ⟨_, congrArg Host.Outcome.next (expire_runs s p hanswers hruns), rfl, rfl, ?_⟩
    exact if_neg (by simp [hruns])
  · have hruns : s.timerRuns p .capResend = true := by simp [State.timerRuns, hattach, hwait, hpos, hcount]
    exact ⟨_, congrArg Host.Outcome.next (expire_runs s p hanswers hruns), rfl, rfl⟩
  · exact congrArg Host.Outcome.next (expire_idle s p (by simp [State.timerRuns, not_lt.2 hcount]))
  · have hruns : s.timerRuns p .srcTransition = true := by simp [State.timerRuns, hfeed, htrans, hreq]
    exact ⟨_, congrArg Host.Outcome.next (expire_runs s p hanswers hruns), rfl, rfl⟩
  · exact ⟨_, if_pos (by simp only [hup, hfeed, hv, decide_true, Bool.and_self]), rfl, rfl⟩
  · refine ⟨_, if_pos (by simp only [hdisch, hv, decide_true, Bool.and_self]), ?_⟩
    split
    · next hswap =>
      refine ⟨(stamp_port ..).trans (State.modPort_port ..), rfl, fun hnone => ?_⟩
      simp [hnone] at hswap
    · exact ⟨State.modPort_port .., rfl, fun _ => rfl⟩
  · unfold State.useEvent
    rw [he]
  · unfold State.useEvent
    rw [he]
  · dsimp only [State.pdPolicy]
    rw [onSourceCaps_is s p hattach hbest]
    refine ⟨pdSend_sends _ _ _ _ rfl, ?_, ?_, ?_, rfl, rfl⟩
    all_goals rw [pdSend_port, State.modPort_port]
    rw [State.modPort_port]
  · exact onAccept_request s p hwait hv
  · dsimp only [State.pdPolicy]
    rw [onRequest_offered s p hattach hfeed hk ho hlim]
    refine ⟨fun hi => ?_, fun hi => ?_⟩
    · rw [if_pos hi]
      have hreply := PortPartKept.portReply (((s.pdSend p .accept).modConn (portSrc p) (fun k =>
        if k.vExp = pdoVolt o v then k else { k with vOld := some k.vExp, vExp := pdoVolt o v })).modPort p (fun q => { q with
          wait := .idle, transition := true, feedReady := false, lastReq := some (k, pdoVolt o v, i), objMax := lim })) p [7] rcOk
      refine ⟨sends_keep s _ _ p _ (pdSend_sends s s p .accept rfl) (portReply_dies ..), ?_, ?_, ?_⟩
      · rw [hreply.port, State.modPort_port]
      · rw [hreply.port, State.modPort_port]
      · rw [hreply.conn, modPort_conn, State.modConn_conn]
        split
        · next h => exact h
        · rfl
    · rw [if_neg (not_le.2 hi)]
      have hreply := PortPartKept.portReply (s.pdSend p .reject) p [7] rcDenied
      exact ⟨sends_keep s _ _ p _ (pdSend_sends s s p .reject rfl) (portReply_dies ..), hreply.port p, hreply.conns⟩
  · have hruns : s.timerRuns p .capResend = true := by simp [State.timerRuns, hattach, hwait, hpos, hcount]
    obtain ⟨c, hsends, hpdos, hport⟩ := sendCaps_is s p hfeed
    have ht : s.onTimer p .capResend = s.sendCaps p := if_neg (by simp [hruns])
    dsimp only
    rw [ht, hport]
    exact ⟨c, hsends, hpdos, rfl⟩
  · have hruns : s.timerRuns p .srcTransition = true := by simp [State.timerRuns, hfeed, htrans, hreq]
    have ht : s.onTimer p .srcTransition = s.srcMove p := if_neg (by simp [hruns])
    dsimp only
    rw [ht, srcMove_is s p hreq hnode, sendNode_sent]
    have hsent := PortPartKept.sendNode (s.modPort p (fun q => { q with feedTarget := v, feedReady := false })) n s.effTick .keep
      (fun o => { o with target := v, slew := 20 })
    refine ⟨_, ?_, rfl, rfl, rfl, hsent.conns⟩
    rw [hsent.port, State.modPort_port]
  · have hcan' : (s.modPort p (fun q => { q with feedReady := true })).canFeed p = true := by
      rw [canFeed_modPort]
      · exact hcan
      · rfl
      · rfl
    obtain ⟨c, hsends, -, hport⟩ := sendCaps_is _ p hcan'
    dsimp only
    rw [onFeedReached_first s p hfeed hswap htrans hkind hwait, hport, State.modPort_port]
    exact ⟨c, hsends, rfl, rfl⟩

end Sys2Proof.Machine
end

section
/-! PD timeouts, Hard Resets and Fast Role Swap (O28; R179-R182, R184-R187, R191, R461). -/

namespace Sys2Proof.Machine

/-- What follows a timeout that no soft reset may answer: a Hard Reset while at most two were sent, else error recovery (R179). -/
def Escalates (p : Port) (s t : State) : Prop :=
  ((s.port p).hardResets ≤ 2 → (t.port p).hardResets = (s.port p).hardResets + 1 ∧ (t.port p).hrActive = true ∧
    (t.port p).contract = .zero ∧ Sends p .hardReset s t) ∧
  (2 < (s.port p).hardResets → (t.port p).attach = .recovery ∧ (t.port p).cc = .openPin ∧ (t.port p).hardResets = 0 ∧
    (t.conn (portSrc p)).pair = .opened ∧ t.pdOut = s.pdOut)

section
variable (s : State) (p : Port)

theorem escalate_escalates : Escalates p s (s.escalate p) := by
  obtain ⟨hreset, hrecover⟩ := escalate_port s p
  refine ⟨fun h => ?_, hrecover⟩
  obtain ⟨hcount, hactive, hcontract, -⟩ := hreset h
  exact ⟨hcount, hactive, hcontract, escalate_sends s p h⟩

/-- A reply to the host about the port does not change how it escalates. -/
theorem portReply_escalates (l : List Nat) (code : Nat) : Escalates p s ((s.portReply p l code).escalate p) := by
  have hreply := PortPartKept.portReply s p l code
  obtain ⟨hreset, hrecover⟩ := escalate_escalates (s.portReply p l code) p
  rw [hreply.port] at hreset hrecover
  refine ⟨fun h => ?_, fun h => ?_⟩
  · obtain ⟨hcount, hactive, hcontract, hsends⟩ := hreset h
    refine ⟨hcount, hactive, hcontract, ?_⟩
    have heff : (s.portReply p l code).effTick = s.effTick := by rw [State.effTick, State.effTick, State.now, State.now, hreply.time]
    rwa [Sends, heff] at hsends
  · obtain ⟨hattach, hcc, hcount, hpair, hout⟩ := hrecover h
    exact ⟨hattach, hcc, hcount, hpair, hout.trans hreply.pdOut⟩

/-- The expiry of a timer that runs, as a command that only expires it (R174). -/
theorem expire_fires {x : PdTimer} {c : Instr} (hc : exec c s = .next (s.expire p x)) (hanswers : s.answers p = true)
    (hruns : s.timerRuns p x = true) : ∃ t, exec c s = .next t ∧ t = { s with events := t.events } ∧
      t.events = s.events ++ [s.event .pd (.port (portDie p)) p.val (.pdTimer p x)] := by
  rw [hc, expire_runs s p hanswers hruns]
  exact ⟨_, rfl, rfl, rfl⟩

/-- A soft reset is sent and awaited (R179). -/
theorem softReset_is : Sends p .softReset s (s.softReset p) ∧ ((s.softReset p).port p).wait = .softReset := by
  unfold State.softReset
  refine ⟨pdSend_sends s _ p _ ?_, ?_⟩
  · unfold State.softState
    dsimp only
    split <;> rfl
  · rw [pdSend_port, State.modPort_port]

theorem modNode_port (n : Lane) (f : Node → Node) : (s.modNode n f).port p = s.port p := rfl

/-- The end of a feed touches, of its port, only what belongs to the feed (R177). -/
theorem feedEnd_port_is (d : Bool) : (s.feedEnd p d).port p = if (s.port p).feeding then
    { s.port p with feeding := false, disch := true, feedReady := false, feedTarget := 0, frsSignal := false } else s.port p := by
  unfold State.feedEnd
  split
  · dsimp only
    rw [State.modPort_port, openPair_port]
    cases s.portNode p with
    | none => rfl
    | some n =>
      obtain ⟨hports, -⟩ := stopNode_ports s n
      have hport : (s.stopNode n).port p = s.port p := congrArg (fun v => Vector.get v p) hports
      dsimp only
      rw [modNode_port, hport]
  · rfl

theorem closePair_keeps (c : Src) : (s.closePair c).ports = s.ports ∧ (s.closePair c).nodes = s.nodes := by
  unfold State.closePair
  split
  · dsimp only
    split <;> exact ⟨rfl, rfl⟩
  · exact ⟨rfl, rfl⟩

theorem laneEnable_keeps (n : Lane) (r : LaneRun) : (s.laneEnable n r).ports = s.ports ∧ (s.laneEnable n r).nodes = s.nodes := by
  have hif : ∀ (c : Prop) [Decidable c] (a b : State), (a.ports = s.ports ∧ a.nodes = s.nodes) → (b.ports = s.ports ∧ b.nodes = s.nodes) →
      ((if c then a else b).ports = s.ports ∧ (if c then a else b).nodes = s.nodes) := by
    intro c _ a b ha hb
    split
    · exact ha
    · exact hb
  unfold State.laneEnable
  refine hif _ _ _ ?_ ?_
  · rw [record_is]
    exact hif _ _ _ ⟨rfl, rfl⟩ ⟨rfl, rfl⟩
  · exact hif _ _ _ ⟨rfl, rfl⟩ ⟨rfl, rfl⟩

/-- A feed that starts, by the hub or by the die alone: the port feeds at 5 V and its far node knows it (R177, R181). -/
def FeedsAt5 (n : Lane) (t : State) : Prop :=
  (t.port p).hrActive = false ∧ (t.port p).feeding = true ∧ (t.port p).feedTarget = 5 ∧ (t.node n).feeding = some p

theorem startFeed_is {n : Lane} (hnode : s.portNode p = some n) (hr : (s.port p).hrActive = false) : FeedsAt5 p n (s.startFeed p) := by
  have hclose : ∀ u : State, (u.feedClose p).ports = u.ports ∧ (u.feedClose p).nodes = u.nodes := by
    intro u
    unfold State.feedClose
    split <;> exact ⟨rfl, rfl⟩
  unfold State.startFeed
  rw [hnode]
  dsimp only
  have hport : ∀ u : State, (u.feedClose p).port p = u.port p := fun u => congrArg (fun v => Vector.get v p) (hclose u).1
  have hnode' : ∀ u : State, (u.feedClose p).node n = u.node n := fun u => congrArg (fun v => Vector.get v n) (hclose u).2
  unfold FeedsAt5
  rw [hport, hnode', modNode_port, modConn_port, State.modPort_port, State.modNode_node]
  exact ⟨hr, rfl, rfl, rfl⟩

theorem limpFeed_is {n : Lane} (hnode : s.portNode p = some n) (hr : (s.port p).hrActive = false) : FeedsAt5 p n (s.limpFeed p) := by
  unfold State.limpFeed
  rw [hnode]
  dsimp only
  refine foldl_inv (FeedsAt5 p n) _ _ _ ?_ fun u m hu => ?_
  · obtain ⟨hports, hnodes⟩ := closePair_keeps (((s.modPort p (fun q => { q with feeding := true, feedTarget := 5 })).modConn (portSrc p)
      (fun k => { k with vExp := 5, vOld := none })).modNode n (fun k => { k with feeding := some p })) (portSrc p)
    unfold FeedsAt5 State.port State.node
    rw [hports, hnodes]
    refine ⟨?_, ?_, ?_, ?_⟩
    · exact (congrArg PortSt.hrActive (State.modPort_port ..)).trans hr
    · exact congrArg PortSt.feeding (State.modPort_port ..)
    · exact congrArg PortSt.feedTarget (State.modPort_port ..)
    · exact congrArg Node.feeding (State.modNode_node ..)
  · obtain ⟨hports, hnodes⟩ := laneEnable_keeps (u.modLane m (fun l => { l with order := { l.order with
      dir := .feed, role := .feed, target := 5, slew := 20, feedCeil := u.rpCurrent p } })) m .bias
    unfold FeedsAt5 State.port State.node at hu ⊢
    rw [hports, hnodes]
    exact hu

/-- A Hard Reset, noted and taken, leaves the attach-time role without a count (R180). -/
theorem hardNoted_port (c : Byte) : let t := s.hardNoted p c
    t.pdOut = s.pdOut ∧ (t.port p).attach = (if (s.port p).attachRole = .source then .source else .sink) ∧
      (t.port p).contract = .zero ∧ (t.port p).hrActive = true ∧ (t.port p).hrAt = some s.now ∧
      (t.port p).hardResets = (s.port p).hardResets ∧ (t.conn (portSrc p)).qualified = false := by
  have hrec := PortPartKept.record s 0x0404 [BitVec.ofNat 8 p.val, 1, c, BitVec.ofNat 8 (s.port p).hardResets]
  unfold State.hardNoted
  generalize s.record 0x0404 [BitVec.ofNat 8 p.val, 1, c, BitVec.ofNat 8 (s.port p).hardResets] = u at hrec
  obtain ⟨hattach, hcontract, hactive, hat, -, -, hcount, hqual, hout⟩ := hardState_port u p
  rw [hrec.port] at hattach hcount
  have hnow : u.now = s.now := by rw [State.now, State.now, hrec.time]
  exact ⟨hout.trans hrec.pdOut, hattach, hcontract, hactive, hat.trans (congrArg some hnow), hcount, hqual⟩

/-- Whether a source's VBUS may come back after a Hard Reset: 830 ms have passed (R182). -/
def State.recoverDue : Bool := match (s.port p).hrAt with | some t => s.passed t (msTicks 830) | none => true

theorem recoverDue_of_passed (h : ∀ k, (s.port p).hrAt = some k → s.passed k 83000 = true) : s.recoverDue p = true := by
  unfold State.recoverDue
  cases hk : (s.port p).hrAt with
  | none => rfl
  | some k => exact h k hk

theorem execSourceRecover_is : execSourceRecover p s = if (s.port p).hrActive && (s.port p).attach = .source && s.recoverDue p then
      if s.hubUp then .next (s.expire p .srcRecover)
      else
        let u := s.modPort p (fun q => { q with hrActive := false })
        .next (if s.canFeed p then u.limpFeed p else u)
    else .next s := rfl

theorem hubUp_of_answers (hanswers : s.answers p = true) : s.hubUp = true := by
  simp only [State.answers, Bool.and_eq_true] at hanswers
  exact hanswers.1

end

/-- Settles O28: each timer by its stamp and what its use does (`Escalates`), then Hard Resets and Fast Role Swap. -/
theorem pdTimeoutsAndHardResets : Obligations.PdTimeoutsAndHardResets := by
  unfold Obligations.PdTimeoutsAndHardResets
  refine ⟨⟨fun p s hanswers hattach hwait => ?_, fun p s hanswers hattach hwait hcount => ?_, fun p s hanswers hwait hswap => ?_,
    fun p w x s hanswers hwait hswap hx => ?_, fun p s hanswers hattach hepr => ?_, fun p v i k x s hanswers hwait => ?_,
    fun p s hanswers hwait => ?_, fun p m s htx hretries => ?_, fun p m s htx hretries hanswers hwait hattach => ?_⟩,
    fun p s hattach => ?_, fun p s hanswers hr hattach hdue => ?_, fun p n s hr hattach hfeed hnode => ?_,
    fun p n s hdown hr hattach hdue hfeed hnode => ?_, fun p k s hat hyoung => ?_, fun p s hattach => ?_, fun p v s hattach hv => ?_,
    fun p s hsignal => ?_⟩
  · have hruns : s.timerRuns p .waitCap = true := by simp [State.timerRuns, hattach, hwait]
    refine ⟨expire_fires s p rfl hanswers hruns, ?_⟩
    rw [show s.onTimer p .waitCap = s.escalate p from if_neg (by simp [hruns])]
    exact escalate_escalates s p
  · have hruns : s.timerRuns p .noResponse = true := by simp [State.timerRuns, hattach, hwait, hcount]
    refine ⟨expire_fires s p rfl hanswers hruns, ?_⟩
    rw [show s.onTimer p .noResponse = s.escalate p from if_neg (by simp [hruns])]
    exact escalate_escalates s p
  · have hruns : s.timerRuns p (.transition .psTransition) = true := by simp [State.timerRuns, hwait, hswap]
    refine ⟨expire_fires s p rfl hanswers hruns, ?_⟩
    rw [show s.onTimer p (.transition .psTransition) = s.escalate p from if_neg (by simp [hruns])]
    exact escalate_escalates s p
  · have hruns : s.timerRuns p (.transition x) = true := by
      rw [hx]
      cases hto : w.toSource <;> simp [State.timerRuns, hwait, hswap, hto]
    have hused : s.onTimer p (.transition x) = s.errorRecovery p 1 := by
      refine (if_neg (by simp [hruns])).trans ?_
      rw [hx]
      cases w.toSource <;> rfl
    refine ⟨expire_fires s p rfl hanswers hruns, ?_⟩
    rw [hused]
    obtain ⟨hattach, hcc, hcount, -, hpair, -, hout⟩ := errorRecovery_port s p 1
    exact ⟨hattach, hcc, hcount, hpair, hout⟩
  · have hruns : s.timerRuns p .eprWatch = true := by simp [State.timerRuns, hattach, hepr]
    refine ⟨expire_fires s p rfl hanswers hruns, ?_⟩
    rw [show s.onTimer p .eprWatch = s.escalate p from if_neg (by simp [hruns])]
    exact escalate_escalates s p
  · have hruns : s.timerRuns p .response = true := by simp [State.timerRuns, hwait]
    have hused : s.onTimer p .response = (s.portReply p [7] rcTimeout).softReset p := by
      refine (if_neg (by simp [hruns])).trans ?_
      show s.noReply p = _
      unfold State.noReply
      rw [hwait]
    refine ⟨expire_fires s p rfl hanswers hruns, ?_⟩
    rw [hused]
    obtain ⟨hsends, hsoft⟩ := softReset_is (s.portReply p [7] rcTimeout) p
    have heff : (s.portReply p [7] rcTimeout).effTick = s.effTick := by
      rw [State.effTick, State.effTick, State.now, State.now, (PortPartKept.portReply s p [7] rcTimeout).time]
    rw [Sends, heff] at hsends
    exact ⟨hsends, hsoft⟩
  · have hruns : s.timerRuns p .response = true := by simp [State.timerRuns, hwait]
    have hused : s.onTimer p .response = (s.portReply p [4] rcTimeout).escalate p := by
      refine (if_neg (by simp [hruns])).trans ?_
      show s.noReply p = _
      unfold State.noReply
      rw [hwait]
    refine ⟨expire_fires s p rfl hanswers hruns, ?_⟩
    rw [hused]
    exact portReply_escalates s p [4] rcTimeout
  · obtain ⟨t, ht⟩ := exec_answers (.pdResponseTimeout ⟨p, true⟩) s
    refine ⟨t, ht, ?_⟩
    change execPdResponseTimeout ⟨p, true⟩ s = _ at ht
    unfold execPdResponseTimeout at ht
    dsimp only at ht
    rw [if_pos rfl, htx] at ht
    dsimp only at ht
    rw [if_pos hretries] at ht
    obtain rfl := Host.Outcome.next.inj ht
    exact ⟨rfl, congrArg PortSt.retries (State.modPort_port ..), rfl, rfl⟩
  · obtain ⟨t, ht⟩ := exec_answers (.pdResponseTimeout ⟨p, true⟩) s
    refine ⟨t, ht, ?_⟩
    change execPdResponseTimeout ⟨p, true⟩ s = _ at ht
    unfold execPdResponseTimeout at ht
    dsimp only at ht
    rw [if_pos rfl, htx] at ht
    dsimp only at ht
    rw [if_neg (not_lt.2 hretries), if_neg hwait] at ht
    have hruns : (s.modPort p (fun y => { y with lastTx := none, retries := 0 })).timerRuns p .unacked = true := by
      rcases hattach with h | h | h <;> simp [State.timerRuns, h]
    rw [expire_runs (s.modPort p (fun y => { y with lastTx := none, retries := 0 })) p hanswers hruns] at ht
    obtain rfl := Host.Outcome.next.inj ht
    exact ⟨rfl, congrArg PortSt.lastTx (State.modPort_port ..), rfl⟩
  · by_cases hanswers : s.answers p = true
    · refine ⟨_, (if_pos (by simpa [or_assoc] using hattach)).trans (if_pos hanswers), rfl, fun _ => rfl, fun u hu => ?_⟩
      rcases hu with ⟨-, hnot⟩ | rfl
      · rw [hanswers] at hnot
        cases hnot
      · exact (hardNoted_port s p 4).2
    · refine ⟨_, (if_pos (by simpa [or_assoc] using hattach)).trans (if_neg hanswers), (hardNoted_port s p 4).1,
        fun h => absurd h hanswers, fun u hu => ?_⟩
      rcases hu with ⟨rfl, -⟩ | rfl
      · exact (hardNoted_port s p 4).2
      · exact (hardNoted_port s p 4).2
  · have hruns : s.timerRuns p .srcRecover = true := by simp [State.timerRuns, hr, hattach]
    refine ⟨_, (execSourceRecover_is s p).trans ((if_pos ?_).trans (if_pos (hubUp_of_answers s p hanswers))), expire_runs s p hanswers hruns⟩
    simp [hr, hattach, recoverDue_of_passed s p hdue]
  · have hruns : s.timerRuns p .srcRecover = true := by simp [State.timerRuns, hr, hattach]
    have hused : s.onTimer p .srcRecover = (s.modPort p (fun q => { q with hrActive := false })).startFeed p := by
      refine (if_neg (by simp [hruns])).trans ?_
      exact if_pos hfeed
    dsimp only
    rw [hused]
    exact startFeed_is _ p hnode (by rw [State.modPort_port])
  · refine ⟨_, (execSourceRecover_is s p).trans ((if_pos ?_).trans ((if_neg (by simp [hdown])).trans (congrArg _ (if_pos hfeed)))),
      limpFeed_is _ p hnode (by rw [State.modPort_port])⟩
    simp [hr, hattach, recoverDue_of_passed s p hdue]
  · refine (execSourceRecover_is s p).trans (if_neg ?_)
    have hdue : s.recoverDue p = false := by
      unfold State.recoverDue
      rw [hat]
      exact hyoung
    simp [hdue]
  · have hport : ((s.modPort p (fun q => { q with swap := some { fast := true, toSource := true, step := 0x12 }, wait := .frsReply })).pdPut p
        .frSwap).port p = _ := pdPut_port ..
    rw [State.modPort_port] at hport
    refine ⟨_, if_pos hattach, rfl, ?_, ?_, ?_, rfl, rfl⟩
    · exact congrArg PortSt.wait hport
    · exact congrArg PortSt.swap hport
    · exact (congrArg PortSt.attach hport).trans hattach
  · exact ⟨_, if_pos (by simp only [hattach, hv, decide_true, Bool.and_self]), congrArg Conn.v (State.modConn_conn ..), rfl, rfl⟩
  · refine ⟨_, if_pos hsignal, ?_⟩
    obtain ⟨-, hout, -, hend, -⟩ := feedEnd_port s p true
    have hattach : ((s.feedEnd p true).port p).attach = (s.port p).attach := by
      rw [feedEnd_port_is]
      split <;> rfl
    have hswap : ((s.feedEnd p true).port p).swap = (s.port p).swap := by
      rw [feedEnd_port_is]
      split <;> rfl
    split
    · rw [swapStep_port, pdPut_port]
      refine ⟨hattach, hend, fun w hw _ _ _ => ⟨?_, ?_⟩⟩
      · exact congrArg (_ :: ·) hout
      · rw [hswap, hw]
        rfl
    · next hnot =>
      refine ⟨hattach, hend, fun w hw hfast hto hstep => absurd ?_ hnot⟩
      rw [hw]
      simp [hfast, hto, hstep]

end Sys2Proof.Machine
end

section
/-! Pass pairs and the trunk bus (O29; R255-R257, R276-R279). -/

namespace Sys2Proof.Machine

section
variable (s : State)

/-- A pair that is told to close starts closing; no other connector changes (R142). -/
theorem closePair_conn (c : Src) (hopen : (s.conn c).pair = .opened) : ((s.closePair c).conn c).pair = .closing ∧
    ∀ d, d ≠ c → (s.closePair c).conn d = s.conn d := by
  unfold State.closePair
  rw [if_pos hopen]
  dsimp only
  refine ⟨by rw [State.modConn_conn], fun d hd => ?_⟩
  rw [State.modConn_other _ _ _ _ hd]
  split <;> rfl

/-- A change of source leaves the trunk (R142). -/
theorem changeTo_trunk (n : Lane) (new : Option Src) : (s.changeTo n new).trunk = s.trunk := by
  unfold State.changeTo
  extract_lets old opens eff s1 s2 step
  have hs1 : s1.trunk = s.trunk := by
    obtain ⟨L, N, hsent⟩ := sendNode_is s n eff (if new.isNone then .stopNow else .standby) (fun o => { o with alloc := 0 })
    have hkept := congrArg State.trunk hsent
    exact hkept
  refine Eq.trans ?_ hs1
  show s2.trunk = s1.trunk
  unfold s2
  cases old with
  | none => rfl
  | some c =>
    dsimp only
    split <;> rfl

/-- The factor of the droop law, from V_KNEE on and below it (R278). -/
theorem droopF_knee (v knee floor : Volt) : (knee ≤ v → droopF v knee floor = 1) ∧ (v < knee → droopF v knee floor < 1) := by
  unfold droopF
  refine ⟨fun h => if_pos h, fun h => ?_⟩
  rw [if_neg (not_le.2 h)]
  split
  · exact zero_lt_one
  · next hfloor => exact (div_lt_one (by linarith [not_le.1 hfloor])).2 (by linarith)

/-- A pass pair that may join: fitted, unlocked, opened by no protection, standing in for no port, not waiting (R255). -/
def State.mayJoin (t : TrunkPort) : Prop :=
  (s.pdie 1).up = true ∧ s.cfg.connFit (trunkSrc t) = true ∧ (s.conn (trunkSrc t)).lockedOut = false ∧
    (s.conn (trunkSrc t)).lastTrip = none ∧ s.standsIn t = false ∧ (s.conn (trunkSrc t)).pair = .opened ∧ (s.conn (trunkSrc t)).retryAt = 0

theorem execPassPairJoin_free {t : TrunkPort} (v b : Volt) (hfree : s.mayJoin t) : execPassPairJoin t v b s =
    let energise := (liveSide v && deadSide b) || (deadSide v && liveSide b)
    if energise || (liveSide v && liveSide b && rabs (v - b) ≤ 2) then
      .next ((s.closePair (trunkSrc t)).modConn (trunkSrc t) (fun k => { k with v := v, energising := energise }))
    else if 9 / 2 < v && 9 / 2 < b && 2 < rabs (v - b) then
      .next (s.modConn (trunkSrc t) (fun k => { k with retryAt := s.now + secTicks 1 }))
    else .next s := by
  obtain ⟨hup, hfit, hlock, htrip, hstands, hopen, hretry⟩ := hfree
  exact if_pos (by simp only [hup, hfit, hlock, htrip, hstands, hopen, hretry, Bool.not_false, Bool.and_self, Option.isNone_none,
    beq_self_eq_true])

theorem liveSide_iff (v : Volt) : liveSide v = true ↔ 20 ≤ v ∧ v ≤ 62 := by
  simp only [liveSide, Bool.and_eq_true, decide_eq_true_eq]

theorem deadSide_iff (v : Volt) : deadSide v = true ↔ v < 9 / 2 := decide_eq_true_iff

/-- A live side is not dead. -/
theorem deadSide_of_live {v : Volt} (h : 20 ≤ v) : deadSide v = false :=
  Bool.eq_false_iff.2 fun hd => absurd ((deadSide_iff v).1 hd) (by linarith)

/-- Where a pass pair may close, whether it energises is told by a dead side (R256). -/
theorem energises_iff {v b : Volt} (hsides : (20 ≤ v ∧ v ≤ 62 ∧ 20 ≤ b ∧ b ≤ 62 ∧ rabs (v - b) ≤ 2) ∨ (20 ≤ v ∧ v ≤ 62 ∧ b < 9 / 2) ∨
    (v < 9 / 2 ∧ 20 ≤ b ∧ b ≤ 62)) :
    ((liveSide v && deadSide b) || (deadSide v && liveSide b)) = decide (v < 9 / 2 ∨ b < 9 / 2) ∧
      (((liveSide v && deadSide b) || (deadSide v && liveSide b)) || (liveSide v && liveSide b && decide (rabs (v - b) ≤ 2))) = true := by
  rcases hsides with ⟨hv, hv', hb, hb', hnear⟩ | ⟨hv, hv', hb⟩ | ⟨hv, hb, hb'⟩
  · rw [(liveSide_iff v).2 ⟨hv, hv'⟩, (liveSide_iff b).2 ⟨hb, hb'⟩, deadSide_of_live hv, deadSide_of_live hb, decide_eq_true hnear]
    refine ⟨(decide_eq_false ?_).symm, rfl⟩
    rintro (h | h) <;> linarith
  · rw [(liveSide_iff v).2 ⟨hv, hv'⟩, (deadSide_iff b).2 hb, deadSide_of_live hv]
    exact ⟨(decide_eq_true (.inr hb)).symm, rfl⟩
  · rw [(liveSide_iff b).2 ⟨hb, hb'⟩, (deadSide_iff v).2 hv, deadSide_of_live hb]
    exact ⟨by rw [decide_eq_true (show v < 9 / 2 ∨ b < 9 / 2 from .inl hv)]; simp, by simp⟩

end

/-- Settles O29: pass pairs by their sides, then feeding, qualification and droop of the bus. -/
theorem passPairsAndTheTrunkBus : Obligations.PassPairsAndTheTrunkBus := by
  unfold Obligations.PassPairsAndTheTrunkBus
  refine ⟨⟨fun t v b s hfree hsides => ?_, fun t v b s hfree hv hb hfar => ?_, fun t s hclosing hen => ?_, fun t s hopen hretry hdue => ?_⟩,
    fun n s hup hlane hon hleave hmode hlocal hidle hcap hfit => ?_, fun n s hup hlane hfeeding hwhy => ?_,
    fun c v s hix hlo hhi hup hbus => ?_, fun v s => droopF_knee v _ _, fun n v s hlane hdroop hlaw hup => ?_,
    fun n v s hlane hdroop hlaw hup => ?_⟩
  · obtain ⟨hen, hgo⟩ := energises_iff hsides
    obtain ⟨hclosing, hother⟩ := closePair_conn s (trunkSrc t) hfree.2.2.2.2.2.1
    refine ⟨_, (execPassPairJoin_free s v b hfree).trans (if_pos hgo), ?_⟩
    rw [State.modConn_conn]
    exact ⟨hclosing, rfl, hen, fun d hd => (State.modConn_other _ _ _ _ hd).trans (hother d hd)⟩
  · have hdv : deadSide v = false := Bool.eq_false_iff.2 fun h => absurd ((deadSide_iff v).1 h) (not_lt.2 hv.le)
    have hdb : deadSide b = false := Bool.eq_false_iff.2 fun h => absurd ((deadSide_iff b).1 h) (not_lt.2 hb.le)
    refine ⟨_, (execPassPairJoin_free s v b hfree).trans ((if_neg ?_).trans (if_pos ?_)), rfl⟩
    · simp only [hdv, hdb, Bool.and_false, Bool.false_and, Bool.or_self, Bool.false_or, Bool.and_eq_true, decide_eq_true_eq]
      exact fun h => absurd hfar (not_lt.2 h.2)
    · simp only [hv, hb, hfar, decide_true, Bool.and_self]
  · obtain ⟨u, hu⟩ := exec_answers (.energiseTimeout t) s
    refine ⟨u, hu, ?_⟩
    change execEnergiseTimeout t s = _ at hu
    unfold execEnergiseTimeout at hu
    dsimp only at hu
    rw [if_pos (by simp [hclosing, hen]), State.modConn_conn] at hu
    by_cases hthird : (s.conn (trunkSrc t)).joinFails + 1 = 3
    · rw [if_pos hthird, record_is] at hu
      obtain rfl := Host.Outcome.next.inj hu
      exact ⟨State.modConn_conn .., fun h => absurd (by omega) h⟩
    · rw [if_neg hthird] at hu
      obtain rfl := Host.Outcome.next.inj hu
      exact ⟨State.modConn_conn .., fun _ => rfl⟩
  · exact ⟨_, if_pos (by simp [hopen, hretry, hdue]), rfl⟩
  · obtain ⟨u, hu⟩ := exec_answers .trunkFeedStart s
    refine ⟨u, hu, ?_⟩
    change execTrunkFeedStart s = _ at hu
    unfold execTrunkFeedStart at hu
    rw [hlane] at hu
    dsimp only at hu
    rw [if_pos (by simp only [hup, hon, hleave, hmode, hlocal, hidle, hcap, hfit, decide_true, Bool.not_false, Bool.and_self])] at hu
    obtain rfl := Host.Outcome.next.inj hu
    have hnode : (s.modTrunk (fun t => { t with feedingTrunk := true })).node n = s.node n := rfl
    rw [hnode]
    by_cases hsel : (s.node n).selected.isSome = true
    · rw [if_pos hsel]
      refine ⟨?_, fun h => ?_, fun _ => rfl⟩
      · rw [changeTo_trunk]
        rfl
      · rw [h] at hsel
        cases hsel
    · rw [if_neg hsel]
      exact ⟨rfl, fun _ => rfl, fun h => absurd h hsel⟩
  · obtain ⟨u, hu⟩ := exec_answers .trunkFeedStop s
    refine ⟨u, hu, ?_⟩
    change execTrunkFeedStop s = _ at hu
    unfold execTrunkFeedStop at hu
    rw [hlane] at hu
    dsimp only at hu
    rw [if_pos (by simp only [hup, hfeeding, Bool.and_self, Bool.true_and, Bool.or_eq_true, List.isEmpty_iff, decide_eq_true_eq]; exact hwhy)] at hu
    exact (Host.Outcome.next.inj hu).symm
  · obtain ⟨u, hu⟩ := exec_answers (.trunkBusQualified v) s
    refine ⟨u, hu, ?_⟩
    change execTrunkBusQualified v s = _ at hu
    unfold execTrunkBusQualified at hu
    rw [hix] at hu
    dsimp only at hu
    rw [if_pos (by simp only [hlo, hhi, hup, hbus, decide_true, Bool.not_false, Bool.and_self])] at hu
    obtain rfl := Host.Outcome.next.inj hu
    exact ⟨rfl, rfl, rfl⟩
  · obtain ⟨u, hu⟩ := exec_answers (.droopOnset v) s
    refine ⟨u, hu, ?_⟩
    change execDroopOnset v s = _ at hu
    unfold execDroopOnset at hu
    rw [hlane] at hu
    dsimp only at hu
    rw [if_pos (by simp only [hdroop, hlaw, hup, decide_true, Bool.not_false, Bool.and_self])] at hu
    obtain rfl := Host.Outcome.next.inj hu
    exact ⟨only_modLane_stamp .., State.modLane_lane .., rfl⟩
  · obtain ⟨u, hu⟩ := exec_answers (.droopClear v) s
    refine ⟨u, hu, ?_⟩
    change execDroopClear v s = _ at hu
    unfold execDroopClear at hu
    rw [hlane] at hu
    dsimp only at hu
    rw [if_pos (by simp only [hdroop, hlaw, hup, decide_true, Bool.and_self])] at hu
    obtain rfl := Host.Outcome.next.inj hu
    exact ⟨only_modLane_stamp .., State.modLane_lane .., rfl⟩

end Sys2Proof.Machine
end

section
/-! Trunk frames and links (O30; R259-R268). -/

namespace Sys2Proof.Machine

section
variable (s : State)

/-- A frame that joins a link's queue changes the queue only (R268). -/
theorem enqueue_own (t : TrunkPort) (f : TrunkFrame) : ∃ q, (s.enqueue t f).link t = { s.link t with queue := q } := by
  unfold State.enqueue
  dsimp only
  split
  · exact ⟨_, State.modLink_link ..⟩
  · exact ⟨_, State.modLink_link ..⟩

/-- A frame originated for one port is queued there (R261). -/
theorem originate_one (t : TrunkPort) (ty : Byte) (dst : BitVec 12) (p : List Byte) :
    s.originate [t] ty dst p = (s.modTrunk (fun k => { k with seq := k.seq + 1 })).enqueue t (s.newFrame ty dst p) := rfl

theorem originate_own (t : TrunkPort) (ty : Byte) (dst : BitVec 12) (p : List Byte) :
    ∃ q, (s.originate [t] ty dst p).link t = { s.link t with queue := q } := enqueue_own _ t _

theorem originate_other (t k : TrunkPort) (ty : Byte) (dst : BitVec 12) (p : List Byte) (hk : k ≠ t) :
    (s.originate [t] ty dst p).link k = s.link k := enqueue_other _ t k _ hk

/-- Taking a node ID leaves the links and the sequence number (R264). -/
theorem takeNodeId_keeps : (∀ k, s.takeNodeId.link k = s.link k) ∧ s.takeNodeId.trunk.seq = s.trunk.seq ∧ s.takeNodeId.time = s.time := by
  unfold State.takeNodeId
  dsimp only
  generalize (if s.derived = true then s.unitId else BitVec.ofInt 12 (s.cfg.get 11 2)) = id
  split
  · exact ⟨fun _ => rfl, rfl, rfl⟩
  · exact ⟨fun _ => rfl, rfl, rfl⟩

/-- Losing the node ID leaves the links, and takes a fixed ID away (R264). -/
theorem loseId_keeps (port : Nat) : (∀ k, (s.loseId port).link k = s.link k) ∧
    (s.derived = false → (s.loseId port).trunk.dupId = true) := by
  unfold State.loseId
  dsimp only
  split
  · next h =>
    refine ⟨fun k => ?_, fun hfixed => by rw [h] at hfixed; cases hfixed⟩
    exact (takeNodeId_keeps (s.modTrunk (fun t => { t with derivedId := some (BitVec.ofNat 12 (s.trunk.nodeId.toNat % 4094 + 1)) }))).1 k
  · split
    · next hdup => exact ⟨fun _ => rfl, fun _ => hdup⟩
    · rw [record_is]
      exact ⟨fun _ => rfl, fun _ => rfl⟩

/-- A link after a HELLO: up, with its neighbour (R263). -/
def HelloTaken (a : TrunkArrival) (f : TrunkFrame) (u : State) : Prop :=
  (u.link a.port).up = true ∧ (u.link a.port).lastRx = s.now ∧
    (u.link a.port).neighbour = some (f.src, BitVec.ofNat 64 (u64 f.payload 0)) ∧ (∀ t, t ≠ a.port → u.link t = s.link t) ∧
    u.cfg = s.cfg ∧ u.otp = s.otp ∧ u.trunk.nodeId = s.trunk.nodeId

theorem HelloTaken.stamp {s u : State} {a : TrunkArrival} {f : TrunkFrame} (h : HelloTaken s a f u) (i : Nat) (k : EvKind) :
    HelloTaken s a f (u.stamp .trunk .trunk i k) := h

theorem HelloTaken.originate {s u : State} {a : TrunkArrival} {f : TrunkFrame} (h : HelloTaken s a f u) (ty : Byte) (dst : BitVec 12)
    (p : List Byte) : HelloTaken s a f (u.originate [a.port] ty dst p) := by
  obtain ⟨hup, hrx, hneighbour, hother, hcfg, hotp, hid⟩ := h
  obtain ⟨q, hq⟩ := originate_own u a.port ty dst p
  obtain ⟨L, d, hkept⟩ := originate_is u [a.port] ty dst p
  unfold HelloTaken
  rw [hq]
  refine ⟨hup, hrx, hneighbour, fun t ht => (originate_other u a.port t ty dst p ht).trans (hother t ht), ?_, ?_, ?_⟩
  · rw [hkept]
    exact hcfg
  · rw [hkept]
    exact hotp
  · rw [hkept]
    exact hid

/-- What a HELLO leaves: its link up, and the node ID (R263, R264). -/
def HelloLeft (a : TrunkArrival) (f : TrunkFrame) (u : State) : Prop :=
  (u.link a.port).up = true ∧ (u.link a.port).lastRx = s.now ∧
    (u.link a.port).neighbour = some (f.src, BitVec.ofNat 64 (u64 f.payload 0)) ∧ (∀ t, t ≠ a.port → u.link t = s.link t) ∧
    (s.derived = false → f.src = s.trunk.nodeId → u64 f.payload 0 < s.otp.unit.toNat → u.trunk.dupId = true)

/-- A HELLO brings its link up, and one of this node's fixed ID from a lower unit takes the ID away (R263, R264). -/
theorem takeHello_is (a : TrunkArrival) (f : TrunkFrame) : HelloLeft s a f (s.takeHello a f) := by
  unfold State.takeHello
  extract_lets t p wasUp unit turn measured s1 s2 s3
  have h1 : HelloTaken s a f s1 := by
    unfold HelloTaken s1
    rw [State.modLink_link]
    exact ⟨rfl, rfl, rfl, fun k hk => modLink_other _ _ _ _ hk, rfl, rfl, rfl⟩
  have h2 : HelloTaken s a f s2 := by
    unfold s2
    split
    · exact h1
    · exact h1.stamp _ _
  have h3 : HelloTaken s a f s3 := by
    unfold s3
    split
    · exact h2.originate _ _ _
    · exact h2
  obtain ⟨hup, hrx, hneighbour, hother, hcfg, hotp, hid⟩ := h3
  obtain ⟨hlinks, hdup⟩ := loseId_keeps s3 t.val
  split
  · refine ⟨?_, ?_, ?_, fun k hk => (hlinks k).trans (hother k hk), fun hfixed _ _ => hdup ?_⟩
    · rw [hlinks]
      exact hup
    · rw [hlinks]
      exact hrx
    · rw [hlinks]
      exact hneighbour
    · rw [State.derived, hcfg]
      exact hfixed
  · next hnot =>
    refine ⟨hup, hrx, hneighbour, hother, fun _ hsrc hunit => absurd ?_ hnot⟩
    simp only [State.myUnit, hid, hsrc, hotp, decide_true, Bool.true_and, decide_eq_true_eq, unit]
    rw [BitVec.toNat_ofNat]
    exact lt_of_le_of_lt (Nat.mod_le _ _) hunit

/-- The frame that goes first: the first of the highest priority in the queue (R268). -/
theorem firstOfBestRank (q : List TrunkFrame) (hq : q ≠ []) :
    ∃ f, q[q.findIdx (fun f => frameRank f.type == bestRank q)]? = some f ∧ (∀ x ∈ q, frameRank f.type ≤ frameRank x.type) ∧
      ∀ j x, j < q.findIdx (fun f => frameRank f.type == bestRank q) → q[j]? = some x → frameRank f.type < frameRank x.type := by
  obtain ⟨⟨b, hb, hrank⟩, hbest⟩ := bestRank_is q hq
  have hlt : q.findIdx (fun f => frameRank f.type == bestRank q) < q.length :=
    List.findIdx_lt_length_of_exists ⟨b, hb, by simp [hrank]⟩
  have hfirst : frameRank (q[q.findIdx (fun f => frameRank f.type == bestRank q)]).type = bestRank q := by
    simpa using List.findIdx_getElem (w := hlt)
  refine ⟨_, List.getElem?_eq_getElem hlt, fun x hx => hfirst.le.trans (hbest x hx), fun j x hj hx => ?_⟩
  have hne : ¬ (frameRank x.type == bestRank q) = true := by
    have hj' := List.not_of_lt_findIdx hj
    obtain ⟨hjlt, rfl⟩ := List.getElem?_eq_some_iff.1 hx
    simpa using hj'
  rw [hfirst]
  exact lt_of_le_of_ne (hbest x (List.mem_of_getElem? hx)) fun h => hne (by simp [h])

/-- A received frame that parses keeps its link up and may be passed on; its own use follows (R259, R266). -/
theorem execTrunkFrameReceived_parsed (t : TrunkPort) (x : FrameStart) (b : List Byte) (f : TrunkFrame) (hup : (s.pdie 1).up = true)
    (hpre : 16 ≤ x.preamble) (hparse : parseFrame b = some f) (hhello : f.type ≠ 1 ∨ f.dst ≠ 0) :
    let u := (s.modLink t (fun l => { l with lastRx := s.now })).repeatFrame t f
    execTrunkFrameReceived t x b s = if u.addressed f && 2 ≤ f.type.toNat && f.type.toNat ≤ 10 then
        .next (u.stamp .trunk .trunk t.val (.trunkFrame { port := t, sfdNs := x.sfdNs } f)) else .next u := by
  dsimp only
  unfold execTrunkFrameReceived
  rw [if_neg (by simp [hup]), if_pos (by simpa [preambleOk] using hpre), hparse]
  refine if_neg fun hello => ?_
  simp only [Bool.and_eq_true, decide_eq_true_eq] at hello
  rcases hhello with h | h
  · exact h hello.1
  · exact h hello.2

theorem execTrunkFrameReceived_bad (t : TrunkPort) (x : FrameStart) (b : List Byte) (hup : (s.pdie 1).up = true)
    (hbad : x.preamble < 16 ∨ parseFrame b = none) : execTrunkFrameReceived t x b s = .next (s.modPd 1 (fun d =>
      if t = 0 then { d with badTa := satInc 32 d.badTa } else { d with badTb := satInc 32 d.badTb })) := by
  have hnone : (if preambleOk x.preamble then parseFrame b else none) = none := by
    rcases hbad with h | h
    · exact if_neg (by simp [preambleOk, h])
    · rw [h]
      split <;> rfl
  unfold execTrunkFrameReceived
  rw [if_neg (by simp [hup]), hnone]

/-- A HELLO stands in the queue of its link, at the end where there was room, and takes a sequence number (R261, R263). -/
theorem hello_queued (t : TrunkPort) (p : List Byte) : let u := s.originate [t] 1 0 p
    s.newFrame 1 0 p ∈ (u.link t).queue ∧ ((s.link t).queue.length < 16 → (u.link t).queue = (s.link t).queue ++ [s.newFrame 1 0 p]) ∧
      u.now = s.now ∧ u.trunk.seq = s.trunk.seq + 1 := by
  obtain ⟨L, d, hkept⟩ := originate_is s [t] 1 0 p
  refine ⟨originate_mem s [t] 1 0 p t (List.mem_singleton.2 rfl) (List.nodup_singleton t), fun hlen => ?_, ?_, ?_⟩
  · rw [originate_link s [t] 1 0 p (List.nodup_singleton t) t (List.mem_singleton.2 rfl) hlen]
  · rw [hkept]
    rfl
  · rw [hkept]

end

/-- Settles O30: frames by what parses, HELLO by `takeHello_is`, the queue by `firstOfBestRank`. -/
theorem trunkFramesAndLinks : Obligations.TrunkFramesAndLinks := by
  unfold Obligations.TrunkFramesAndLinks
  refine ⟨fun t n m b s hup hbad => ?_, fun t n m b f s hup hpre hparse hhello => ?_, fun a f s hup htype => ?_,
    fun t s hlink hdue => ?_, fun t s hlink hyoung => ?_, fun t s hup hdue => ?_, fun t r g s hup hmay hq => ?_, fun t r g s hnot => ?_⟩
  · refine ⟨_, execTrunkFrameReceived_bad s t ⟨n, m⟩ b hup hbad, congrArg (s.modPd 1) (funext fun d => ?_)⟩
    by_cases h : t = 0 <;> simp [h]
  · have hrun := execTrunkFrameReceived_parsed s t ⟨n, m⟩ b f hup hpre hparse hhello
    obtain ⟨T, d, hrep, hid, hlink⟩ := repeatFrame_is (s.modLink t (fun l => { l with lastRx := s.now })) t f
    dsimp only at hrun
    rw [hrep] at hrun
    have hown : T.links.get t = { s.link t with lastRx := s.now } := hlink.trans (State.modLink_link ..)
    have haddr : State.addressed { s.modLink t (fun l => { l with lastRx := s.now }) with trunk := T, portDies := d } f =
        (f.dst == 0xFFF || f.dst == s.trunk.nodeId) := by
      unfold State.addressed
      rw [show T.nodeId = s.trunk.nodeId from hid]
    rw [haddr] at hrun
    by_cases htaken : (f.dst = 0xFFF ∨ f.dst = s.trunk.nodeId) ∧ 2 ≤ f.type.toNat ∧ f.type.toNat ≤ 10
    · rw [if_pos (by simpa [and_assoc] using htaken)] at hrun
      refine ⟨_, hrun, hown, rfl, rfl, ?_⟩
      rw [if_pos htaken]
      rfl
    · rw [if_neg (by simpa [and_assoc] using htaken)] at hrun
      refine ⟨_, hrun, hown, rfl, rfl, ?_⟩
      rw [if_neg htaken, List.append_nil]
      rfl
  · exact ⟨_, if_pos (by simp [hup, htype]), takeHello_is s a f⟩
  · have hdue : s.passed (s.link t).lastRx (msTicks 300) = true := hdue
    exact ⟨_, if_pos (by simp [hlink, hdue]), State.modLink_link .., fun k hk => modLink_other _ _ _ _ hk, rfl⟩
  · have hyoung : s.passed (s.link t).lastRx (msTicks 300) = false := hyoung
    exact if_neg (by simp [hyoung])
  · obtain ⟨hlinks, hseq, htime⟩ := takeNodeId_keeps s
    refine ⟨_, s.takeNodeId.newFrame 1 0 (s.takeNodeId.helloPayload t (s.takeNodeId.link t).reqNext none), if_pos (by simp [hup, hdue]), ?_⟩
    generalize s.takeNodeId.helloPayload t (s.takeNodeId.link t).reqNext none = p
    generalize s.takeNodeId = v at hlinks hseq htime ⊢
    obtain ⟨hmem, hfree, hnow, hsent⟩ := hello_queued v t p
    rw [State.modLink_link, ← hlinks t]
    exact ⟨hmem, hfree, rfl, rfl, rfl, hseq, congrArg (· + 10000) (hnow.trans (congrArg Time.tick htime)), rfl,
      hsent.trans (congrArg (· + 1) hseq)⟩
  · obtain ⟨f, hf, hbest, hfirst⟩ := firstOfBestRank _ hq
    obtain ⟨u, hu⟩ := exec_answers (.trunkQueueSend t ⟨r, g⟩) s
    refine ⟨u, f, _, hu, hf, hbest, hfirst, ?_⟩
    change execTrunkQueueSend t ⟨r, g⟩ s = _ at hu
    unfold execTrunkQueueSend at hu
    dsimp only at hu
    rw [hf] at hu
    dsimp only at hu
    rw [if_neg (by simp [hup, hmay])] at hu
    obtain rfl := Host.Outcome.next.inj hu
    rw [State.modLink_link]
    exact ⟨rfl, rfl, fun k hk => modLink_other _ _ _ _ hk⟩
  · show execTrunkQueueSend t ⟨r, g⟩ s = .next s
    unfold execTrunkQueueSend
    dsimp only
    split
    · rfl
    · next f hf =>
      rcases hnot with hempty | hwindow
      · rw [hempty] at hf
        cases hf
      · exact if_pos (by simp [hwindow])

end Sys2Proof.Machine
end

section
/-! Captains of a trunk (O31; R267-R274). -/

namespace Sys2Proof.Machine

section
variable (s : State)

/-- A frame of its type for this member waits for the hub as a trunk event (R267). -/
theorem consume_waits {ty : Byte} (a : TrunkArrival) (f : TrunkFrame) (hup : (s.pdie 1).up = true) (htype : f.type = ty)
    (hdst : f.dst = 0xFFF ∨ f.dst = s.trunk.nodeId) :
    s.consume ty a f = s.stamp .trunk .trunk a.port.val (.trunkFrame a f) := by
  refine if_pos ?_
  rcases hdst with h | h <;> simp [hup, htype, State.addressed, h]

/-- A frame originated for all ports that are up stands in each of their queues, at the end where there was room (R261). -/
theorem originate_up (ty : Byte) (dst : BitVec 12) (p : List Byte) (t : TrunkPort) (hup : (s.link t).up = true) :
    s.newFrame ty dst p ∈ ((s.originate s.upPorts ty dst p).link t).queue ∧ ((s.link t).queue.length < 16 →
      ((s.originate s.upPorts ty dst p).link t).queue = (s.link t).queue ++ [s.newFrame ty dst p]) := by
  refine ⟨originate_mem s s.upPorts ty dst p t (mem_upPorts s t hup) (upPorts_nodup s), fun hlen => ?_⟩
  rw [originate_link s s.upPorts ty dst p (upPorts_nodup s) t (mem_upPorts s t hup) hlen]

/-- A claim that starts keeps the time of one that stands (R270). -/
theorem startClaim_claims : ∃ d, s.startClaim = { s with trunk := { s.trunk with claiming := some (s.trunk.claiming.getD s.now), due := d } } ∧
    (s.trunk.claiming = none → d.claim = s.now) ∧ (s.trunk.claiming.isSome = true → d = s.trunk.due) := by
  unfold State.startClaim
  cases hc : s.trunk.claiming with
  | none => exact ⟨_, rfl, fun _ => rfl, fun h => by cases h⟩
  | some k =>
    refine ⟨s.trunk.due, (if_pos rfl).trans ?_, fun h => by (cases h), fun _ => rfl⟩
    rw [Option.getD_some, ← hc]

/-- What a first beacon leaves: captain, time and epoch, and a member that is no captain (R269). -/
def BeaconTaken (f : TrunkFrame) (u : State) : Prop :=
  u.trunk.captain = some (keyOfBeacon f) ∧ u.trunk.lastBeacon = some s.now ∧
    u.trunk.fleetEpoch = BitVec.ofNat 32 (u32 f.payload 16) ∧ u.trunk.isCaptain = false ∧ u.lanes = s.lanes ∧ u.conns = s.conns

theorem BeaconTaken.startClaim {s u : State} {f : TrunkFrame} (h : BeaconTaken s f u) : BeaconTaken s f u.startClaim := by
  obtain ⟨d, hclaim, -⟩ := startClaim_claims u
  rw [hclaim]
  exact h

/-- The first beacon a member hears: its captain, epoch and time (R269). -/
theorem takeBeacon_first (a : TrunkArrival) (f : TrunkFrame) (hcap : s.trunk.isCaptain = false) (hnone : s.trunk.captain = none) :
    BeaconTaken s f (s.takeBeacon a f) := by
  unfold State.takeBeacon
  extract_lets key s1 heard other epoch newEpoch joins newCap s2 s3
  have hs1 : s1 = s := if_neg (by simp [hcap])
  have hother : other = false := by
    unfold other
    rw [hs1, hnone]
  rw [if_neg (by simp [hcap]), if_neg (by simp [hother])]
  have hs3 : BeaconTaken s f s3 := by
    obtain ⟨T, L, hdisc, htick⟩ := discipline_is s1 a f newEpoch
    unfold BeaconTaken s3
    rw [show s2 = _ from hdisc]
    refine ⟨rfl, congrArg some ?_, rfl, ?_, ?_, ?_⟩
    · exact htick.trans (by rw [hs1]; rfl)
    · rw [hs1]
      exact hcap
    · rw [hs1]
      rfl
    · rw [hs1]
      rfl
  split
  · exact hs3.startClaim
  · exact hs3

/-- The captain elected: it holds its own key, with nobody's claim standing (R271). -/
theorem electCaptain_is : ∀ u, u = s.electCaptain → u.trunk.isCaptain = true ∧ u.trunk.claiming = none ∧
    u.trunk.captain = some s.myKey ∧ u.trunk.due.bulletin = s.now + 25000 := by
  intro u hu
  unfold State.electCaptain at hu
  extract_lets key s1 at hu
  obtain ⟨L, d, hsent⟩ := sendBeacon_is (s1.record 0x0502 ([1, 0] ++ le16 s1.trunk.nodeId.toNat))
  rw [hu, hsent, record_is]
  exact ⟨rfl, rfl, rfl, rfl⟩

theorem stepDown_is (cause : Byte) (node : BitVec 12) : let u := s.stepDown cause node
    u.trunk.isCaptain = false ∧ u.trunk.captain = none ∧ u.trunk.roster = [] ∧ u.trunk.sessions = [] := by
  unfold State.stepDown
  rw [record_is]
  exact ⟨rfl, rfl, rfl, rfl⟩

/-- A beacon stands in the queue of every link that is up (R261, R268). -/
theorem sendBeacon_queued : ∃ f : TrunkFrame, f.type = 2 ∧ f.dst = 0xFFF ∧ ∀ t, (s.link t).up = true → f ∈ (s.sendBeacon.link t).queue ∧
    ((s.link t).queue.length < 16 → (s.sendBeacon.link t).queue = (s.link t).queue ++ [f]) :=
  ⟨_, rfl, rfl, fun t hup => originate_up (s.modTrunk (fun t => { t with
    beaconNo := t.beaconNo + 1, due := { t.due with beacon := s.now + msTicks 50 } })) 2 0xFFF _ t hup⟩

/-- A claim stands in the queue of every link that is up, and the next one is due in 50 ms (R270). -/
theorem claim_queued (p : List Byte) : let w := (s.modDue (fun d => { d with claim := s.now + msTicks 50 })).originate s.upPorts 6 0xFFF p
    w.trunk.due.claim = s.now + 5000 ∧ w.trunk.claiming = s.trunk.claiming ∧ ∃ f : TrunkFrame, f.type = 6 ∧ f.dst = 0xFFF ∧
      ∀ t, (s.link t).up = true → f ∈ (w.link t).queue ∧ ((s.link t).queue.length < 16 → (w.link t).queue = (s.link t).queue ++ [f]) := by
  obtain ⟨L, d, hkept⟩ := originate_is (s.modDue (fun d => { d with claim := s.now + msTicks 50 })) s.upPorts 6 0xFFF p
  refine ⟨?_, ?_, _, rfl, rfl, fun t hup => originate_up (s.modDue (fun d => { d with claim := s.now + msTicks 50 })) 6 0xFFF p t hup⟩
  · rw [hkept]
    rfl
  · rw [hkept]
    rfl

/-- The claim that stands where one is to be sent: a new one, due now, or the one that stood (R270). -/
theorem claim_standing (hwhen : s.noBeacon = true ∧ s.trunk.claiming = none ∨ s.trunk.claiming.isSome = true ∧ s.trunk.due.claim ≤ s.now) :
    ∃ d, (if s.noBeacon then s.startClaim else s) =
      { s with trunk := { s.trunk with claiming := some (s.trunk.claiming.getD s.now), due := d } } ∧ d.claim ≤ s.now := by
  obtain ⟨d, hclaim, hfresh, hkept⟩ := startClaim_claims s
  rcases hwhen with ⟨hno, hnone⟩ | ⟨hsome, hdue⟩
  · rw [if_pos hno]
    exact ⟨d, hclaim, (hfresh hnone).le⟩
  · split
    · exact ⟨d, hclaim, by rw [hkept hsome]; exact hdue⟩
    · refine ⟨s.trunk.due, ?_, hdue⟩
      obtain ⟨k, hk⟩ := Option.isSome_iff_exists.1 hsome
      rw [hk, Option.getD_some, ← hk]

/-- A claim is sent to all, again each 50 ms (R270). -/
theorem execClaimSend_claims (u : State) (hup : s.hubUp = true) (hcap : s.trunk.isCaptain = false) (hmay : s.mayClaim = true)
    (hu : u = if s.noBeacon then s.startClaim else s) (hclaims : u.trunk.claiming.isSome = true) (hdue : u.trunk.due.claim ≤ u.now) :
    ∃ p, execClaimSend s = .next ((u.modDue (fun d => { d with claim := u.now + msTicks 50 })).originate u.upPorts 6 0xFFF p) := by
  unfold execClaimSend
  rw [if_pos (by simp [hup, hcap, hmay])]
  dsimp only
  rw [← hu, if_pos (by simp [hclaims, hdue])]
  exact ⟨_, rfl⟩

end

/-- Settles O31: what waits (`consume_waits`), what its use does (`takeBeacon_first`), and the captain's times. -/
theorem captainsComeAndGo : Obligations.CaptainsComeAndGo := by
  unfold Obligations.CaptainsComeAndGo
  refine ⟨⟨fun a f s hup hdst => ⟨fun htype => ?_, fun htype => ?_⟩, fun a f e s he => ?_⟩, fun k a f s htype hcap hnone => ?_,
    fun k a f c s htype hcap hc hworse => ?_, fun k a f s htype hbetter => ?_, fun s hup hcap hdue => ?_,
    fun s hup hcap hmay hwhen => ?_, fun k s hup hmay hclaiming hdue => ?_, fun k s hup hcap hbeacon hdue => ?_,
    fun k s hup hcap hzero hauto hnocap hdue => ?_⟩
  · exact ⟨_, congrArg Host.Outcome.next (consume_waits s a f hup htype hdst), rfl, rfl⟩
  · exact ⟨_, congrArg Host.Outcome.next (consume_waits s a f hup htype hdst), rfl, rfl⟩
  · unfold State.useEvent
    rw [he]
  · have ht : s.takeFrame k a f = s.takeBeacon a f := by
      unfold State.takeFrame
      rw [htype]
      rfl
    dsimp only
    rw [ht]
    exact takeBeacon_first s a f hcap hnone
  · unfold State.takeFrame
    rw [htype]
    exact if_pos (by simp [hcap, hc, hworse])
  · unfold State.takeFrame
    rw [htype]
    exact if_pos hbetter
  · have hsent := sendBeacon_queued s
    obtain ⟨L, d, hkept⟩ := sendBeacon_is s
    obtain ⟨f, htype, hdst, hqueue⟩ := hsent
    refine ⟨_, f, if_pos (by simp [hup, hcap, hdue]), htype, hdst, ?_, ?_, hqueue⟩
    · rw [hkept]
    · rw [hkept]
  · obtain ⟨d, hu, hdue⟩ := claim_standing s hwhen
    obtain ⟨p, ht⟩ := execClaimSend_claims s _ hup hcap hmay rfl (by rw [hu]; rfl) (by rw [hu]; exact hdue)
    rw [hu] at ht
    obtain ⟨hdue', hclaiming, f, htype, hdst, hqueue⟩ := claim_queued
      { s with trunk := { s.trunk with claiming := some (s.trunk.claiming.getD s.now), due := d } } p
    exact ⟨_, f, ht, htype, hdst, hdue', hclaiming, hqueue⟩
  · obtain ⟨t, ht⟩ := exec_answers .captainElected s
    refine ⟨t, ht, ?_⟩
    change execCaptainElected s = _ at ht
    unfold execCaptainElected at ht
    rw [hclaiming] at ht
    have hdue : s.passed k (msTicks 400) = true := hdue
    dsimp only at ht
    rw [if_pos (by simp [hup, hmay, hdue])] at ht
    obtain rfl := Host.Outcome.next.inj ht
    exact electCaptain_is s _ rfl
  · obtain ⟨t, ht⟩ := exec_answers .captainLost s
    refine ⟨t, ht, ?_⟩
    change execCaptainLost s = _ at ht
    unfold execCaptainLost at ht
    rw [hbeacon] at ht
    have hdue : s.passed k lossTicks = true := hdue
    dsimp only at ht
    rw [if_pos (by simp [hup, hcap, hdue])] at ht
    obtain rfl := Host.Outcome.next.inj ht
    obtain ⟨d, hclaim, -⟩ := startClaim_claims (s.modTrunk (fun x => { x with captain := none, lastBeacon := none }))
    have hmay : (s.modTrunk (fun x => { x with captain := none, lastBeacon := none })).mayClaim = s.mayClaim := rfl
    rw [hmay]
    split
    · rw [hclaim]
      exact ⟨rfl, rfl, hcap, fun _ => rfl⟩
    · next hnot => exact ⟨rfl, rfl, hcap, fun h => absurd h hnot⟩
  · obtain ⟨t, ht⟩ := exec_answers .captainStepDown s
    refine ⟨t, ht, ?_⟩
    change execCaptainStepDown s = _ at ht
    unfold execCaptainStepDown at ht
    rw [hzero] at ht
    have hdue : s.passed k (secTicks 10) = true := hdue
    dsimp only at ht
    rw [if_pos (by simp [hup, hcap, hauto, hnocap, hdue])] at ht
    obtain rfl := Host.Outcome.next.inj ht
    exact stepDown_is s 1 s.trunk.nodeId

end Sys2Proof.Machine
end

section
/-! The grant layer of a trunk (O33; R274, R275, R278-R285). -/

namespace Sys2Proof.Machine

section
variable (s : State)

/-- The unrostered members heard and the time of their next grants are as before. -/
structure UnrosteredKept (s t : State) : Prop where
  due : t.trunk.due.unrostered = s.trunk.due.unrostered
  unrostered : t.trunk.unrostered = s.trunk.unrostered

theorem UnrosteredKept.trans {s t u : State} (h : UnrosteredKept s t) (k : UnrosteredKept t u) : UnrosteredKept s u :=
  ⟨k.due.trans h.due, k.unrostered.trans h.unrostered⟩

theorem loseId_unrostered (port : Nat) : UnrosteredKept s (s.loseId port) := by
  unfold State.loseId
  dsimp only
  split_ifs
  · unfold State.takeNodeId
    dsimp only
    split_ifs <;> exact ⟨rfl, rfl⟩
  · exact ⟨rfl, rfl⟩
  · rw [record_is]
    exact ⟨rfl, rfl⟩

theorem takeGrant_unrostered (p : List Byte) : UnrosteredKept s (s.takeGrant p) := by
  unfold State.takeGrant
  dsimp only
  split
  · exact ⟨rfl, rfl⟩
  · split
    · split <;> exact ⟨rfl, rfl⟩
    · exact ⟨rfl, rfl⟩
    · exact ⟨rfl, rfl⟩
    · exact loseId_unrostered s 0xFF
    · exact ⟨rfl, rfl⟩

theorem sendGrant_unrostered (node : BitVec 12) (p : List Byte) : UnrosteredKept s (s.sendGrant node p) := by
  unfold State.sendGrant
  split
  · exact takeGrant_unrostered s p
  · refine foldl_inv (UnrosteredKept s) _ _ _ ⟨rfl, rfl⟩ (fun u t h => h.trans ?_)
    split
    · obtain ⟨L, d, hsent⟩ := enqueue_is u t (s.newFrame 5 node p)
      rw [hsent]
      exact ⟨rfl, rfl⟩
    · exact ⟨rfl, rfl⟩

/-- A report of a member with no entry takes the lowest free slot (R280). -/
theorem takeReport_new (f : TrunkFrame) (i : Nat) (hcap : s.trunk.isCaptain = true) (hfree : s.freeSlot = some i)
    (hnew : ∀ e ∈ s.trunk.roster, e.nodeId ≠ f.src) :
    rosterFrom (.blank i) f s.fleetUs ∈ (s.takeReport f).trunk.roster ∧ (s.takeReport f).lanes = s.lanes ∧
      (s.takeReport f).trunk.due = s.trunk.due := by
  have hnone : s.trunk.roster.find? (fun e => e.nodeId == f.src) = none := by
    rw [List.find?_eq_none]
    intro e he
    simpa using hnew e he
  unfold State.takeReport
  rw [if_neg (by simp [hcap]), hnone, hfree]
  exact ⟨insertSlot_mem _ _, rfl, rfl⟩

/-- A renewed report of the same unit updates its entry (R280). -/
theorem takeReport_renewed (f : TrunkFrame) (e : RosterEntry) (hcap : s.trunk.isCaptain = true)
    (hentry : s.trunk.roster.find? (fun e => e.nodeId == f.src) = some e) (hunit : e.unit = BitVec.ofNat 64 (u64 f.payload 0)) :
    rosterFrom e f s.fleetUs ∈ (s.takeReport f).trunk.roster ∧ (s.takeReport f).lanes = s.lanes := by
  unfold State.takeReport
  rw [if_neg (by simp [hcap]), hentry]
  dsimp only
  rw [← hunit, if_neg (Nat.lt_irrefl _), if_neg (Nat.lt_irrefl _)]
  exact ⟨insertSlot_mem _ _, rfl⟩

/-- A grant of another unit is ignored (R282). -/
theorem takeGrant_other (p : List Byte) (hunit : u64 p 24 ≠ s.otp.unit.toNat) : s.takeGrant p = s := by
  unfold State.takeGrant
  dsimp only
  rw [if_pos (by simpa [State.myUnit] using hunit)]

/-- A grant that stands: session and lease from the frame, a rise at its effective time, a fall at once (R283). -/
theorem takeGrant_granted (p : List Byte) (hunit : u64 p 24 = s.otp.unit.toNat) (hstatus : u8 p 6 = 0) (hid : s.trunk.dupId = false) :
    s.takeGrant p = s.modTrunk (fun t => { t with
      unrost := false, session := BitVec.ofNat 8 (u8 p 7), leaseEnd := u64 p 16
      pBase := if (u16 p 4 : Watt) < t.pBase ∨ u64 p 8 ≤ s.fleetUs then (u16 p 4 : Watt) else t.pBase
      pendingGrant := if t.pBase < (u16 p 4 : Watt) ∧ s.fleetUs < u64 p 8 then some ((u16 p 4 : Watt), u64 p 8) else none }) := by
  unfold State.takeGrant
  rw [if_neg (by simp [State.myUnit, hunit]), hstatus]
  dsimp only
  rw [if_neg (by simp [hid])]
  simp only [Bool.or_eq_true, Bool.and_eq_true, decide_eq_true_eq]

/-- A grant that ends the session leaves 5 W (R283, R284). -/
theorem takeGrant_ends (p : List Byte) (hunit : u64 p 24 = s.otp.unit.toNat) (hstatus : u8 p 6 = 1 ∨ u8 p 6 = 2) : let u := s.takeGrant p
    u.trunk.pBase = 5 ∧ u.trunk.session = 0xFF ∧ u.trunk.pendingGrant = none := by
  unfold State.takeGrant
  rw [if_neg (by simp [State.myUnit, hunit])]
  rcases hstatus with h | h
  · rw [h]
    exact ⟨rfl, rfl, rfl⟩
  · rw [h]
    exact ⟨rfl, rfl, rfl⟩

/-- The captain's bulletin schedules the report and flags constants that differ (R278, R461). -/
theorem takeBulletin_is (f : TrunkFrame) (k : CapKey) (hcap : s.trunk.isCaptain = false) (hk : s.trunk.captain = some k) (hsrc : k.node = f.src) :
    let u := s.takeBulletin f
    u.trunk.due.report = some (s.now + 200 * (s.trunk.nodeId.toNat % 100)) ∧
      (u.trunk.constDiffer = true ↔ (u16 f.payload 32 : Int) ≠ s.cfg.get 11 5 * 10 ∨ (u16 f.payload 34 : Int) ≠ s.cfg.get 11 6 * 10) ∧
      u.trunk.pBase = s.trunk.pBase := by
  unfold State.takeBulletin
  rw [if_neg (by simp [hcap, hk, hsrc])]
  extract_lets p differ note s1 u
  have hdiffer : differ = true ↔ (u16 f.payload 32 : Int) ≠ s.cfg.get 11 5 * 10 ∨ (u16 f.payload 34 : Int) ≠ s.cfg.get 11 6 * 10 := by
    simp [differ, p]
  unfold u
  split
  · rw [record_is]
    exact ⟨rfl, hdiffer, rfl⟩
  · exact ⟨rfl, hdiffer, rfl⟩

/-- The captain's bulletin opens the next epoch and touches no lane and no pair (R281). -/
theorem sendBulletin_is : let u := s.sendBulletin
    u.trunk.epoch = s.trunk.epoch + 1 ∧ u.lanes = s.lanes ∧ u.conns = s.conns := by
  unfold State.sendBulletin
  extract_lets us open_ s1 a s2 out
  have hsent : LanePartKept s1 s2 := LanePartKept.orig ..
  obtain ⟨hlanes, hconns, hepoch⟩ := hsent.tr (LanePartKept.bul s2 out a.grants us)
  exact ⟨hepoch, hlanes, hconns⟩

/-- The member sends its report to the captain, to every link that is up (R278). -/
theorem execReportSend_member (k : Nat) (c : CapKey) (hup : s.hubUp = true) (hon : s.trkOn = true) (hk : s.trunk.due.report = some k)
    (hc : s.trunk.captain = some c) (hdue : k ≤ s.now) (hcap : s.trunk.isCaptain = false) :
    ∃ u f, execReportSend s = .next u ∧ u.trunk.due.report = none ∧ f.type = 4 ∧ f.dst = c.node ∧
      ∀ t, (s.link t).up = true → f ∈ (u.link t).queue ∧ ((s.link t).queue.length < 16 → (u.link t).queue = (s.link t).queue ++ [f]) := by
  unfold execReportSend
  rw [hk, hc]
  dsimp only
  rw [if_pos (by simp [hup, hon, hdue]), if_neg (by simp [State.modDue, hcap])]
  generalize hw : s.modDue (fun d => { d with report := none }) = w
  have hlink : ∀ t, w.link t = s.link t := fun t => by rw [← hw]; rfl
  refine ⟨_, w.newFrame 4 c.node w.reportPayload, rfl, ?_, rfl, rfl, fun t ht => ?_⟩
  · obtain ⟨L, d, hsent⟩ := originate_is w w.upPorts 4 c.node w.reportPayload
    rw [hsent, ← hw]
    rfl
  · rw [← hlink t] at ht ⊢
    exact originate_up w 4 c.node w.reportPayload t ht

/-- The captain puts its own report in the roster (R278, R280). -/
theorem execReportSend_captain (k : Nat) (c : CapKey) (i : Nat) (hup : s.hubUp = true) (hon : s.trkOn = true)
    (hk : s.trunk.due.report = some k) (hc : s.trunk.captain = some c) (hdue : k ≤ s.now) (hcap : s.trunk.isCaptain = true)
    (hfree : s.freeSlot = some i) (hnew : ∀ e ∈ s.trunk.roster, e.nodeId ≠ s.trunk.nodeId) :
    ∃ u e, execReportSend s = .next u ∧ u.trunk.due.report = none ∧ e ∈ u.trunk.roster ∧ e.slot = i ∧ e.nodeId = s.trunk.nodeId := by
  unfold execReportSend
  rw [hk, hc]
  dsimp only
  rw [if_pos (by simp [hup, hon, hdue]), if_pos (by simp [State.modDue, hcap])]
  generalize hw : s.modDue (fun d => { d with report := none }) = w
  have hsrc : (w.newFrame 4 w.trunk.nodeId w.reportPayload).src = s.trunk.nodeId := by rw [← hw]; rfl
  have hcap' : w.trunk.isCaptain = true := by rw [← hw]; exact hcap
  have hfree' : w.freeSlot = some i := by rw [← hw]; exact hfree
  have hreport : w.trunk.due.report = none := by rw [← hw]; rfl
  obtain ⟨hmem, -, hkept⟩ := takeReport_new w (w.newFrame 4 w.trunk.nodeId w.reportPayload) i hcap' hfree' (by
    rw [hsrc, ← hw]
    exact hnew)
  exact ⟨_, _, rfl, by rw [hkept, hreport], hmem, rfl, hsrc⟩

/-- The grants of unrostered members heard within 2 s are sent, again each second (R285). -/
theorem execUnrosteredGrantSend_sends (hup : s.hubUp = true) (hcap : s.trunk.isCaptain = true) (hdue : s.trunk.due.unrostered ≤ s.now) :
    ∃ u, execUnrosteredGrantSend s = .next u ∧ u.trunk.due.unrostered = s.now + 100000 ∧
      u.trunk.unrostered = s.trunk.unrostered.filter (fun x => !s.passed x.2.1 200000) ∧ u.lanes = s.lanes ∧ u.conns = s.conns := by
  unfold execUnrosteredGrantSend
  rw [if_pos (by simp [hup, hcap, hdue])]
  extract_lets w l w'
  have hlanes : LanePartKept w' (l.foldl (fun s x => s.sendGrant x.1 (grantPayload s.trunk.epoch 0 2 0xFF s.fleetUs s.fleetUs x.2.2)) w') :=
    LanePartKept.fold _ (fun s x => LanePartKept.grant ..) l w'
  have hheard : UnrosteredKept w' (l.foldl (fun s x => s.sendGrant x.1 (grantPayload s.trunk.epoch 0 2 0xFF s.fleetUs s.fleetUs x.2.2)) w') :=
    foldl_inv (UnrosteredKept w') _ _ _ ⟨rfl, rfl⟩ (fun u x h => h.trans (sendGrant_unrostered u _ _))
  exact ⟨_, rfl, hheard.due, hheard.unrostered, hlanes.lanes, hlanes.conns⟩

/-- An entry silent for 4 s is freed with its session, one silent for 2 s is stale (R280, R285). -/
theorem execRosterEntryStale_is (i : Fin 512) (e : RosterEntry) (hup : s.hubUp = true)
    (he : s.trunk.roster.find? (fun e => e.slot == i.val) = some e) :
    (e.seenUs + 4000000 ≤ s.fleetUs →
      ∃ u, execRosterEntryStale i s = .next u ∧ (∀ x ∈ u.trunk.roster, x.slot ≠ i.val) ∧ (∀ x ∈ u.trunk.sessions, x.nodeId ≠ e.nodeId)) ∧
    (e.seenUs + 2000000 ≤ s.fleetUs → s.fleetUs < e.seenUs + 4000000 →
      ∃ u, execRosterEntryStale i s = .next u ∧ { e with state := 3 } ∈ u.trunk.roster ∧ u.trunk.sessions = s.trunk.sessions) := by
  unfold execRosterEntryStale
  rw [he]
  dsimp only
  rw [if_neg (by simp [hup])]
  refine ⟨fun hfreed => ?_, fun hstale hkept => ?_⟩
  · rw [if_pos hfreed]
    refine ⟨_, rfl, fun x hx => ?_, fun x hx => ?_⟩
    · simpa using (List.mem_filter.1 hx).2
    · simpa using (List.mem_filter.1 hx).2
  · rw [if_neg (Nat.not_le.2 hkept), if_pos hstale]
    exact ⟨_, rfl, insertSlot_mem _ _, rfl⟩

end

/-- Settles O33: what waits (`consume_waits`), what its use does (`takeBulletin_is`, `takeReport_new`, `takeGrant_granted`),
and what the captain and a member do at their times. -/
theorem theGrantLayer : Obligations.TheGrantLayer := by
  unfold Obligations.TheGrantLayer
  refine ⟨fun a f s hup hdst => ⟨fun htype => ?_, fun htype => ?_, fun htype => ?_⟩, fun n a f k s htype hcap hk hsrc => ?_,
    fun n a f s htype hcap => ?_, fun n a f s htype => ?_, fun s hup hcap hdue => ?_, fun k c s hup hon hk hc hdue => ⟨fun hcap => ?_,
    fun i hcap hfree hnew => ?_⟩, fun s hup hcap hdue => ?_, fun g k s hup hg hdue => ?_, fun s hup hsession hdue => ?_,
    fun i e s hup he => ?_⟩
  · exact ⟨_, congrArg Host.Outcome.next (consume_waits s a f hup htype hdst), rfl, rfl⟩
  · exact ⟨_, congrArg Host.Outcome.next (consume_waits s a f hup htype hdst), rfl, rfl⟩
  · exact ⟨_, congrArg Host.Outcome.next (consume_waits s a f hup htype hdst), rfl, rfl⟩
  · have ht : s.takeFrame n a f = s.takeBulletin f := by
      unfold State.takeFrame
      rw [htype]
      rfl
    dsimp only
    rw [ht]
    exact takeBulletin_is s f k hcap hk hsrc
  · have ht : s.takeFrame n a f = s.takeReport f := by
      unfold State.takeFrame
      rw [htype]
      rfl
    dsimp only
    rw [ht]
    refine ⟨fun i hfree hnew => ?_, fun e he hunit => takeReport_renewed s f e hcap he hunit⟩
    obtain ⟨hmem, hlanes, -⟩ := takeReport_new s f i hcap hfree hnew
    exact ⟨hmem, hlanes⟩
  · have ht : s.takeFrame n a f = s.takeGrant f.payload := by
      unfold State.takeFrame
      rw [htype]
      rfl
    dsimp only
    rw [ht]
    refine ⟨fun hunit hstatus hid hrise hlater => ?_, fun hunit hstatus hid hfall => ?_, takeGrant_ends s f.payload,
      takeGrant_other s f.payload⟩
    · rw [takeGrant_granted s f.payload hunit hstatus hid]
      exact ⟨if_pos ⟨hrise, hlater⟩, if_neg (fun h => h.elim (fun h => absurd h (not_lt.2 hrise.le)) (Nat.not_le.2 hlater)), rfl, rfl⟩
    · rw [takeGrant_granted s f.payload hunit hstatus hid]
      exact ⟨if_pos (.inl hfall), if_neg (fun h => absurd h.1 (not_lt.2 hfall.le))⟩
  · exact ⟨_, if_pos (by simp [hup, hcap, hdue]), sendBulletin_is s⟩
  · exact execReportSend_member s k c hup hon hk hc hdue hcap
  · exact execReportSend_captain s k c i hup hon hk hc hdue hcap hfree hnew
  · exact execUnrosteredGrantSend_sends s hup hcap hdue
  · obtain ⟨t, ht⟩ := exec_answers .grantEffective s
    refine ⟨t, ht, ?_⟩
    change execGrantEffective s = _ at ht
    unfold execGrantEffective at ht
    rw [hg] at ht
    dsimp only at ht
    rw [if_pos (by simp [hup, hdue])] at ht
    exact (Host.Outcome.next.inj ht).symm
  · have hopen : (s.trunk.session != 0xFF) = true := bne_iff_ne.2 hsession
    exact ⟨_, if_pos (by simp only [hup, hopen, hdue, decide_true, Bool.and_self]), rfl⟩
  · exact execRosterEntryStale_is s i e hup he

end Sys2Proof.Machine
end

section
/-! Trunk messages, the relay of an update package and its kickoff (O34; R286, R287, R329, R403-R406). -/

namespace Sys2Proof.Machine

section
variable (s : State)

/-- A fragment goes to every link that is up, and the next one is due in 2 ms (R286). -/
theorem sendFragment_sends (i : Nat) : ∃ f : TrunkFrame, f.type = 7 ∧ (s.sendFragment i).trunk.relayLeft = s.trunk.relayLeft ∧
    (s.sendFragment i).trunk.due.fragment = s.now + 200 ∧ ∀ t, (s.link t).up = true →
      f ∈ ((s.sendFragment i).link t).queue ∧ ((s.link t).queue.length < 16 → ((s.sendFragment i).link t).queue = (s.link t).queue ++ [f]) := by
  unfold State.sendFragment
  extract_lets st w
  generalize le32 w.update.tag.toNat ++ le32 (256 * i) ++ le32 st.length ++ le32 0 ++ slice st (256 * i) 256 = p
  obtain ⟨L, d, hsent⟩ := originate_is w w.upPorts 7 0xFFF p
  refine ⟨w.newFrame 7 0xFFF p, rfl, ?_, ?_, fun t hup => originate_up w 7 0xFFF p t hup⟩
  · rw [hsent]
    rfl
  · rw [hsent]
    rfl

/-- A doorbell that rings is set in the word the host reads (R329). -/
theorem setHdb_rings (b : Nat) (hb : b < 32) : (s.setHdb b).host.hdbOut.getLsbD b = true := by
  change (s.host.hdbOut ||| 1#32 <<< b).getLsbD b = true
  simp [hb]

/-- A message takes the next place in the inbox, and one of its two doorbells rings (R329). -/
theorem takeMessage_rings (n : Nat) (f : TrunkFrame) : ∀ u, u = s.takeMessage n f →
    u.trunk.inboxSeq = s.trunk.inboxSeq + 1 ∧ (u.host.hdbOut.getLsbD 24 || u.host.hdbOut.getLsbD 25) = true ∧
      u.lanes = s.lanes ∧ u.conns = s.conns := by
  intro u hu
  unfold State.takeMessage at hu
  extract_lets k pad r w at hu
  cases hput : w.ringPut 0x28000 16368 r with
  | none =>
    rw [hput] at hu
    subst hu
    exact ⟨rfl, Bool.or_eq_true_iff.2 (.inr (setHdb_rings _ 25 (by decide))), rfl, rfl⟩
  | some v =>
    rw [hput] at hu
    obtain ⟨H, hv⟩ := ringPut_is hput
    subst hu hv
    exact ⟨rfl, Bool.or_eq_true_iff.2 (.inl (setHdb_rings _ 24 (by decide))), rfl, rfl⟩

/-- Without its first 256 bytes a relayed package has no manifest yet (R403). -/
theorem streamBytes_waits (u : Update) (hno : u.fragments.find? (fun f => f.1 == 0) = none) : u.streamBytes 0 160 = none := by
  unfold Update.streamBytes
  exact if_neg (by simp [hno])

theorem relayedManifest_waits (hno : s.update.fragments.find? (fun f => f.1 == 0) = none) : s.relayedManifest = s := by
  unfold State.relayedManifest
  extract_lets u
  rw [show u.streamBytes 0 160 = none from streamBytes_waits u hno]
  exact ite_self s

/-- Without its manifest no record of a relayed package is judged (R403). -/
theorem relayedRecords_waits (hno : s.update.manifest = []) : s.relayedRecords = s := by
  unfold State.relayedRecords
  rw [if_pos (by simp [hno])]

theorem sealRelayed_waits (hno : s.update.manifest = []) : s.sealRelayed = s := by
  unfold State.sealRelayed
  extract_lets u
  rw [if_neg (by simp [u, hno])]

/-- An update frame of the wrong length, or with the flash die shut down, is ignored (R287). -/
theorem takeUpdate_ignored (f : TrunkFrame) (h : f.payload.length ≠ 272 ∨ s.therm.flashShut = true) : s.takeUpdate f = s := by
  unfold State.takeUpdate
  dsimp only
  rw [if_pos (by rcases h with h | h <;> simp [h])]

/-- A fragment of the session's tag is stored; with no first fragment nothing else comes of it (R287, R403). -/
theorem takeUpdate_stores (f : TrunkFrame) (i : Nat) (hlen : f.payload.length = 272) (hflash : s.therm.flashShut = false)
    (hrelayed : s.update.relayed = true) (hst : s.update.st = .receiving) (htag : s.update.tag = BitVec.ofNat 32 (u32 f.payload 0))
    (hoff : u32 f.payload 4 = 256 * i) (hi : 0 < i) (hin : 256 * i < s.update.relayLength) (hnone : s.update.fragments = [])
    (hman : s.update.manifest = []) : let u := s.takeUpdate f
    u.update.fragments = [(i, slice f.payload 16 256)] ∧ u.flash.stagingErased = false ∧ u.lanes = s.lanes := by
  have hindex : u32 f.payload 4 / 256 = i := by omega
  have hbegins : (!s.update.isOpen && s.flash.stagingErased && !(s.update.st == .rejected && s.update.tag == BitVec.ofNat 32 (u32 f.payload 0)) &&
      !s.trunk.relay) = false := by simp [Update.isOpen, hst]
  unfold State.takeUpdate
  dsimp only
  rw [hbegins]
  simp only [Bool.false_eq_true, if_false]
  rw [if_neg (by simp [hlen, hflash]), if_pos (by simp [hrelayed, hst, htag, hoff, hin])]
  rw [if_neg (by simp [hnone]), hindex]
  generalize hv : ({ s.modUpd (fun u => { u with fragments := u.fragments ++ [(i, slice f.payload 16 256)], origin := f.src }) with
    flash := { s.flash with stagingErased := false } } : State) = v
  have hmanv : v.update.manifest = [] := by rw [← hv]; exact hman
  have hfrag : v.update.fragments = [(i, slice f.payload 16 256)] := by
    rw [← hv]
    change s.update.fragments ++ _ = _
    rw [hnone, List.nil_append]
  rw [relayedManifest_waits v (by rw [hfrag]; simp [hi.ne']), relayedRecords_waits v hmanv, sealRelayed_waits v hmanv]
  refine ⟨hfrag, ?_, ?_⟩
  · rw [← hv]
  · rw [← hv]
    rfl

/-- An acknowledgement of the own relay is noted (R287). -/
theorem takeAck_noted (f : TrunkFrame) (hrelay : s.trunk.relay = true) (htag : u32 f.payload 0 = s.update.tag.toNat)
    (hlen : f.payload.length = 46) : let u := s.takeAck f
    (f.src, u8 f.payload 44) ∈ u.trunk.ackStates ∧ u.update = s.update := by
  unfold State.takeAck
  rw [if_neg (by simp [hrelay, htag, hlen])]
  exact ⟨List.mem_cons_self .., rfl⟩

/-- A kickoff of another tag is ignored (R406). -/
theorem takeKickoff_other (f : TrunkFrame) (htag : u32 f.payload 0 ≠ s.update.tag.toNat) : s.takeKickoff f = s := by
  unfold State.takeKickoff
  exact if_pos (by simp [htag])

/-- The first kickoff time of the own package is taken (R406). -/
theorem takeKickoff_first (f : TrunkFrame) (htag : u32 f.payload 0 = s.update.tag.toNat) (hst : s.update.st = .sealedUp)
    (hnone : s.update.kickoff = none) : s.takeKickoff f = s.setKickoff (u64 f.payload 4) := by
  unfold State.takeKickoff
  extract_lets u t now
  rw [if_neg (by simp [u, htag, hst]), show u.kickoff = none from hnone]

/-- The kickoff time of a sealed package arms its shelf (R404). -/
theorem setKickoff_arms (k : Nat) (hst : s.update.st = .sealedUp) : let u := s.setKickoff k
    u.update.st = .armed ∧ u.update.kickoff = some k ∧ (u.flash.shelves.get s.update.target).armed = true ∧ u.trunk = s.trunk := by
  unfold State.setKickoff State.armIfDue
  rw [if_pos (by simp [State.modUpd, State.journal, hst]), updRecord_is]
  exact ⟨rfl, rfl, congrArg Shelf.armed (vput_get_same s.flash.shelves s.update.target _), rfl⟩

end

/-- Settles O34: what waits (`consume_waits`), what its use does (`takeMessage_rings`, `takeUpdate_stores`, `takeAck_noted`,
`takeKickoff_arms`), and what a relay sends at its times. -/
theorem trunkMessagesAndRelay : Obligations.TrunkMessagesAndRelay := by
  unfold Obligations.TrunkMessagesAndRelay
  refine ⟨⟨fun a f s hup hdst => ⟨fun htype => ?_, fun htype => ?_, fun htype => ?_, fun htype => ?_⟩,
    fun i r s hup hrelay hdue hleft => ?_, fun s hup hrelay hdue hleft hpass => ?_, fun s hup hrelayed hst hdue => ?_,
    fun k s hup hk hcast hlater hdue => ?_⟩, fun n a f s => ⟨fun htype => ?_, fun htype => ?_, fun i htype => ?_, fun htype => ?_,
    fun htype => ?_, fun htype => ?_⟩⟩
  · exact ⟨_, congrArg Host.Outcome.next (consume_waits s a f hup htype hdst), rfl, rfl⟩
  · exact ⟨_, congrArg Host.Outcome.next (consume_waits s a f hup htype hdst), rfl, rfl⟩
  · exact ⟨_, congrArg Host.Outcome.next (consume_waits s a f hup htype hdst), rfl, rfl⟩
  · exact ⟨_, congrArg Host.Outcome.next (consume_waits s a f hup htype hdst), rfl, rfl⟩
  · obtain ⟨f, htype, hkept, hnext, hsent⟩ := sendFragment_sends (s.modTrunk (fun t => { t with relayLeft := r })) i
    refine ⟨_, f, (if_pos (by simp [hup, hrelay, hdue])).trans ?_, hkept, htype, hnext, hsent⟩
    rw [hleft]
  · refine ⟨_, (if_pos (by simp [hup, hrelay, hdue])).trans ?_, rfl⟩
    rw [hleft]
    exact if_pos (by simp [hpass])
  · have hst : (s.update.storing || s.update.st == .rejected) = true := by
      rcases hst with h | h <;> simp [h]
    generalize hw : s.modDue (fun d => { d with ack := s.now + secTicks 1 }) = w
    obtain ⟨L, d, hsent⟩ := originate_is w w.upPorts 8 s.update.origin w.ackPayload
    refine ⟨w.originate w.upPorts 8 s.update.origin w.ackPayload, w.newFrame 8 s.update.origin w.ackPayload,
      (if_pos (by simp [hup, hrelayed, hst, hdue])).trans (by rw [← hw]), rfl, rfl, by rw [← hw]; rfl, ?_, fun t ht => ?_⟩
    · rw [hsent, ← hw]
      rfl
    · have hlink : s.link t = w.link t := by rw [← hw]; rfl
      rw [hlink] at ht ⊢
      exact originate_up w 8 _ _ t ht
  · generalize hw : s.modDue (fun d => { d with kickoff := s.now + secTicks 1 }) = w
    generalize hp : le32 w.update.tag.toNat ++ le64 k = p
    obtain ⟨L, d, hsent⟩ := originate_is w w.upPorts 10 0xFFF p
    refine ⟨w.originate w.upPorts 10 0xFFF p, w.newFrame 10 0xFFF p, ?_, rfl, ?_, fun t ht => ?_⟩
    · change execKickoffSend s = _
      unfold execKickoffSend
      rw [hk, ← hp, ← hw]
      exact if_pos (by simp [hup, hcast, hlater, hdue])
    · rw [hsent, ← hw]
      rfl
    · have hlink : s.link t = w.link t := by rw [← hw]; rfl
      rw [hlink] at ht ⊢
      exact originate_up w 10 _ _ t ht
  · unfold State.takeFrame
    rw [htype]
    exact takeMessage_rings s n f _ rfl
  · intro h
    unfold State.takeFrame
    rw [htype]
    exact takeUpdate_ignored s f h
  · intro hlen hflash hrelayed hst htag hoff hi hin hnone hman
    unfold State.takeFrame
    rw [htype]
    exact takeUpdate_stores s f i hlen hflash hrelayed hst htag hoff hi hin hnone hman
  · intro hrelay htag hlen
    unfold State.takeFrame
    rw [htype]
    exact takeAck_noted s f hrelay htag hlen
  · intro htag
    unfold State.takeFrame
    rw [htype]
    exact takeKickoff_other s f htag
  · intro htag hst hnone
    unfold State.takeFrame
    rw [htype]
    have harm := setKickoff_arms s (u64 f.payload 4) hst
    rw [← takeKickoff_first s f htag hst hnone] at harm
    exact harm

end Sys2Proof.Machine
end

section
/-! Resets and boots (O38; R44, R50, R235, R385, R408-R415, R418). -/

namespace Sys2Proof.Machine

section
variable (s : State)

/-! ### The parts of a cold boot, by what each leaves alone -/

theorem retireShelf_host (i : Fin 2) (reason : Nat) : (s.retireShelf i reason).host = s.host := by
  unfold State.retireShelf
  extract_lets v w
  have hrecord : w.host = s.host := by
    unfold w
    rw [updRecord_is]
    rfl
  clear_value w
  split
  · exact hrecord
  · exact hrecord

theorem bootFallback_host : s.bootFallback.host = s.host := by
  unfold State.bootFallback
  split
  · exact retireShelf_host ..
  · rfl

theorem bootConfirmed_host : s.bootConfirmed.host = s.host := by
  unfold State.bootConfirmed
  split <;> rfl

theorem selectShelf_host (k : Nat) : (State.selectShelf k s).host = s.host := by
  induction k generalizing s with
  | zero => exact bootConfirmed_host s
  | succ k ih =>
    unfold State.selectShelf
    split
    · exact bootConfirmed_host s
    · dsimp only
      split
      · rw [ih, retireShelf_host]
      · split
        · rfl
        · rw [ih, retireShelf_host]

theorem bootCatalogue_host : s.bootCatalogue.host = s.host := by
  unfold State.bootCatalogue
  dsimp only
  split
  · split
    · exact foldl_proj State.host _ _ _ fun _ _ => record_host ..
    · rfl
  · rfl

theorem bootLearned_is : ∃ K G, s.bootLearned = { s with keep := K, gauge := G } := by
  unfold State.bootLearned
  dsimp only
  split
  · exact ⟨_, s.gauge, rfl⟩
  · split <;> split <;> exact ⟨_, _, rfl⟩

theorem bootLedger_is : ∃ L W, s.bootLedger = { s with ledger := L, wdg := W } := by
  unfold State.bootLedger
  split
  · exact ⟨s.ledger, s.wdg, rfl⟩
  · exact ⟨_, _, rfl⟩

theorem bridgeGauge_is (cause : Nat) : ∃ G, s.bridgeGauge cause = { s with gauge := G } := by
  unfold State.bridgeGauge
  dsimp only
  split
  · exact ⟨_, rfl⟩
  · split <;> exact ⟨_, rfl⟩

/-- What a cold boot leaves: a released hub with its cause, an open window, nothing staged, an empty host memory, read straps. -/
theorem coldBoot_is (cause : Nat) (pins : BootPins) : ∀ u, u = s.coldBoot cause pins →
    u.hub.hub = .booted cause false ∧ u.hub.cause = cause ∧ u.hub.warmBoot = false ∧ u.aon.retained = true ∧
      u.wdg.elapsed = some 0 ∧ u.cfg.staged = [] ∧ u.host.mem = [] ∧ u.aon.straps = Straps.read pins := by
  intro u hu
  unfold State.coldBoot at hu
  extract_lets fresh tel host s1 s2 s3 s4 s5 s6 s7 s8 s9 at hu
  have hmem : s3.host.mem = [] := by
    unfold s3 s2
    rw [bootCatalogue_host, selectShelf_host, bootFallback_host]
  obtain ⟨K, G, hlearned⟩ := bootLearned_is s4
  obtain ⟨L, W, hledger⟩ := bootLedger_is s4.bootLearned
  obtain ⟨U, T, hcommon⟩ := bootCommon_is s5 cause false
  have hstraps : s5.aon.straps = Straps.read pins := by
    unfold s5
    rw [hledger, hlearned]
    rfl
  have hhost : s5.host.mem = [] := by
    unfold s5
    rw [hledger, hlearned]
    exact hmem
  have h6 : s6 = _ := hcommon
  clear_value s5 s6
  have hhub : s6.hub.hub = .booted cause false := by rw [h6]
  have hcause : s6.hub.cause = cause := by rw [h6]
  have hwarm : s6.hub.warmBoot = false := by rw [h6]
  have hwdg : s6.wdg.elapsed = some 0 := by rw [h6]
  have hcfg : s6.cfg.staged = [] := by
    rw [h6]
    rfl
  have hhost6 : s6.host.mem = [] := by
    rw [h6]
    exact hhost
  have hstraps6 : s6.aon.straps = Straps.read pins := by
    rw [h6]
    exact hstraps
  clear h6 hcommon
  have h8 : s8.hub.hub = .booted cause false ∧ s8.hub.cause = cause ∧ s8.hub.warmBoot = false ∧
      s8.wdg.elapsed = some 0 ∧ s8.cfg.staged = [] ∧ s8.host.mem = [] ∧ s8.aon.straps = Straps.read pins :=
    ⟨hhub, hcause, hwarm, hwdg, hcfg, hhost6, hstraps6⟩
  clear_value s8
  have h9 : ∃ G C M, s9 = { s8 with gauge := G, charge := C, hub := { s8.hub with lastMode := M } } := by
    unfold s9
    split
    · obtain ⟨G, hbridge⟩ := bridgeGauge_is ((s8.modHub (fun h => { h with lastMode := none })).modCharge Charge.afresh) cause
      exact ⟨G, _, _, hbridge⟩
    · exact ⟨s8.gauge, s8.charge, s8.hub.lastMode, rfl⟩
  obtain ⟨G9, C9, M9, h9⟩ := h9
  clear_value s9
  obtain ⟨hhub8, hcause8, hwarm8, hwdg8, hcfg8, hhost8, hstraps8⟩ := h8
  rw [hu, h9]
  exact ⟨hhub8, hcause8, hwarm8, rfl, hwdg8, hcfg8, hhost8, hstraps8⟩

/-- A hub that stands in neither state goes into reset with its cause: interfaces, telemetry and timers at their reset values,
settings, nodes and pairs as they were (R408-R410, R418). -/
theorem hubReset_holds (c : Nat) (hoff : s.hub.hub ≠ .off) (hheld : ∀ k w, s.hub.hub ≠ .held k w) :
    ∀ u, u = s.hubReset c → u.hub.hub = .held c (s.warmChosen c) ∧ u.host = s.host.atReset ∧ u.tel = s.tel.atReset ∧ u.timers = .zero ∧
      u.flash = { s.flash with queue := [] } ∧ u.cfg = s.cfg ∧ u.nodes = s.nodes ∧ u.conns = s.conns ∧
      ((s.aon.mode = some .supply ∨ s.aon.mode = some .battery) → u.aon.mode = some .limp) ∧
      (∀ n, s.aon.safeLatch = false → (s.lane n).up = true → (s.lane n).got = true → (s.lane n).keeper = none →
        u.lane n = { s.lane n with keeper := some { entry := s.now, expired := false } }) := by
  intro u hu
  obtain ⟨A, L, l, d, q, hreset, hmode, hkeeper, -⟩ := hubReset_is s c hoff hheld
  rw [hu, hreset]
  exact ⟨rfl, rfl, rfl, rfl, rfl, rfl, rfl, rfl, hmode, hkeeper⟩

theorem hubReset_resetLow (c : Nat) (hoff : s.hub.hub ≠ .off) (hheld : ∀ k w, s.hub.hub ≠ .held k w) :
    (s.hubReset c).aon.resetLow = s.aon.resetLow := by
  obtain ⟨A, L, l, d, q, hreset, -, -, hA⟩ := hubReset_is s c hoff hheld
  rw [hreset, hA]

theorem warmChosen_three : s.warmChosen 3 = false := rfl

/-- A pulse of at least 24 sampled edges, or 2 without the crystal, resets the hub (R409). -/
theorem execResetNAssert_resets (n : Nat) (low : Bool) (hlong : 24 ≤ n ∧ s.aon.xtalLost = false ∨ 2 ≤ n ∧ s.aon.xtalLost = true) :
    execResetNAssert ⟨n, low⟩ s = .next ((s.modAon (fun a => { a with resetLow := low })).hubReset 3) := by
  unfold execResetNAssert
  rcases hlong with ⟨hn, hcrystal⟩ | ⟨hn, hcrystal⟩
  · exact (if_neg (by simp [State.modAon, hcrystal])).trans (if_pos hn)
  · exact (if_pos hcrystal).trans (if_pos hn)

/-- A shorter pulse only leaves the level of the ball (R409). -/
theorem execResetNAssert_short (n : Nat) (low : Bool) (hshort : n < 23 ∧ s.aon.xtalLost = false ∨ n < 2) :
    execResetNAssert ⟨n, low⟩ s = .next (s.modAon (fun a => { a with resetLow := low })) := by
  have hlt : ¬24 ≤ n ∧ n ≠ 23 := by omega
  unfold execResetNAssert
  by_cases hcrystal : s.aon.xtalLost = true
  · have htwo : ¬2 ≤ n := by
      rcases hshort with ⟨-, h⟩ | h
      · rw [h] at hcrystal
        cases hcrystal
      · omega
    exact (if_pos hcrystal).trans (if_neg htwo)
  · exact (if_neg hcrystal).trans ((if_neg hlt.1).trans (if_neg hlt.2))

/-- The operations a reset let finish are over (R385, R411). -/
theorem execFlashHoldRelease_held (c : Nat) (w : Bool) (hhub : s.hub.hub = .held c w) :
    ∃ u, execFlashHoldRelease s = .next u ∧ u.flash.busy = none ∧ u.flash.background = none ∧ u.flash.suspended = false ∧ u.hub = s.hub ∧
      (s.flash.background = some .staging → u.flash.stagingErased = true) := by
  unfold execFlashHoldRelease
  rw [hhub]
  refine ⟨_, rfl, rfl, rfl, rfl, rfl, fun hstaging => ?_⟩
  simp [hstaging]

end

/-- Settles O38: the reset by `hubReset_holds`, the cold boot by `coldBoot_is` and the warm boot by `bootCommon_is`. -/
theorem resetsAndBoots : Obligations.ResetsAndBoots := by
  unfold Obligations.ResetsAndBoots
  refine ⟨⟨fun n low s hfree hlong => ?_, fun n low s hshort => execResetNAssert_short s n low hshort, fun s hfree => ?_⟩,
    fun c w s hhub => execFlashHoldRelease_held s c w hhub, fun c b s hhub hrelease hft => ?_, fun c b s hhub hrelease hc hft => ?_,
    fun c b s hhub hrelease => ?_, fun c s hhub hrelease => ?_, fun c s hhub hrelease => ?_⟩
  · obtain ⟨hoff, hheld⟩ := hfree
    refine ⟨_, execResetNAssert_resets s n low hlong, ?_, ?_⟩
    · exact hubReset_holds (s.modAon (fun a => { a with resetLow := low })) 3 hoff hheld _ rfl
    · exact hubReset_resetLow (s.modAon (fun a => { a with resetLow := low })) 3 hoff hheld
  · obtain ⟨hoff, hheld⟩ := hfree
    exact ⟨_, rfl, hubReset_holds s 7 hoff hheld _ rfl⟩
  · exact ⟨_, exec_coldBoot_held hhub hrelease hft, coldBoot_is s c b _ rfl⟩
  · obtain ⟨haon, hhub', -, -, hlane, hpdie⟩ := factoryState_is s
    refine ⟨s.factoryState, ?_, hhub', by rw [haon], fun n => (hlane n).1, hpdie⟩
    change execColdBoot b s = _
    unfold execColdBoot
    rw [hhub]
    exact (if_neg (by simp [hrelease])).trans (if_pos (by simp [hc, hft]))
  · change execColdBoot b s = _
    unfold execColdBoot
    rw [hhub]
    exact if_pos hrelease
  · obtain ⟨U, T, hcommon⟩ := bootCommon_is s c true
    refine ⟨_, exec_warmBoot_held hhub hrelease, ?_⟩
    unfold State.warmBoot
    rw [hcommon]
    exact ⟨rfl, rfl, rfl, rfl, rfl, rfl, rfl⟩
  · change execWarmBoot false s = _
    unfold execWarmBoot
    rw [hhub]
    exact (if_neg (by simp [hrelease])).trans rfl

end Sys2Proof.Machine
end

section
/-! Unresponsive dies, keepers and the host supply (O39; R14, R39, R65, R66, R242, R416-R421). -/

namespace Sys2Proof.Machine

section
variable (s : State)

/-- A hub that halts answers nothing more (R416). -/
theorem haltHub_hubUp : s.haltHub.hubUp = false := by
  unfold State.haltHub
  split
  · rfl
  · next h => exact Bool.eq_false_iff.2 h

theorem haltHub_is : ∃ H, s.haltHub = { s with hub := H } := by
  unfold State.haltHub
  split
  · exact ⟨_, rfl⟩
  · exact ⟨s.hub, rfl⟩

/-- LIMP leaves the hub, the lanes, the ports and their dies alone (R65). -/
theorem limpMode_keeps : let u := s.limpMode
    u.hubUp = s.hubUp ∧ u.lanes = s.lanes ∧ u.portDies = s.portDies ∧ u.ports = s.ports ∧
      ((s.aon.mode = some .supply ∨ s.aon.mode = some .battery) → u.aon.mode = some .limp) := by
  obtain ⟨A, L, hlimp, hmode, -⟩ := limpMode_is s
  rw [hlimp]
  exact ⟨rfl, rfl, rfl, rfl, hmode⟩

/-! ### The release of DP and DM -/

/-- The ports of one die end what runs on DP and DM (R66). -/
def State.dpReleased (s : State) (m : PortDie) (l : List Port) : State :=
  l.foldl (fun s p => if portDie p = m then s.modPort p (fun q => { q with bcRunning := false }) else s) s

theorem dpReleased_is (m : PortDie) (l : List Port) : ∃ P, s.dpReleased m l = { s with ports := P } := by
  refine foldl_inv (fun t => ∃ P, t = { s with ports := P }) _ l s ⟨s.ports, rfl⟩ fun t p ht => ?_
  obtain ⟨P, rfl⟩ := ht
  split
  · exact ⟨_, rfl⟩
  · exact ⟨P, rfl⟩

theorem dpReleased_port (m : PortDie) (p : Port) (hp : portDie p = m) (l : List Port) (h : p ∈ l ∨ (s.port p).bcRunning = false) :
    ((s.dpReleased m l).port p).bcRunning = false := by
  induction l generalizing s with
  | nil => exact h.resolve_left List.not_mem_nil
  | cons q r ih =>
    refine ih _ ?_
    dsimp only
    by_cases hq : p = q
    · subst hq
      rw [if_pos hp, State.modPort_port]
      exact .inr rfl
    · refine h.imp (fun hmem => (List.mem_cons.1 hmem).resolve_left hq) fun hfalse => ?_
      split
      · rw [State.modPort_other s q p _ hq]
        exact hfalse
      · exact hfalse

/-! ### The end of the hold time -/

/-- A lane draws for the SYS node while it runs for an allocation (R418). -/
theorem drawRunning_modLane (n : Lane) (f : LaneDie → LaneDie)
    (hf : ∀ l : LaneDie, (f l).active = l.active ∧ (f l).order = l.order) : (s.modLane n f).drawRunning = s.drawRunning := by
  have hany : ∀ t : State, t.drawRunning = decide (∃ m, ((t.lane m).active && ((t.lane m).order.role == .drawHold ||
      (t.lane m).order.role == .drawAlloc)) = true) := by
    intro t
    unfold State.drawRunning
    rw [Bool.eq_iff_iff, List.any_eq_true, decide_eq_true_iff]
    constructor
    · rintro ⟨l, hl, h⟩
      obtain ⟨i, hi, rfl⟩ := Vector.mem_iff_getElem.1 (Vector.mem_toList_iff.1 hl)
      exact ⟨⟨i, hi⟩, h⟩
    · rintro ⟨m, h⟩
      exact ⟨t.lane m, Vector.mem_toList_iff.2 (Vector.getElem_mem m.isLt), h⟩
  rw [hany, hany, decide_eq_decide]
  refine exists_congr fun m => ?_
  by_cases hm : m = n
  · subst hm
    rw [State.modLane_lane, (hf _).1, (hf _).2]
  · rw [State.modLane_other s n m f hm]

/-- The keeper default of a lane: nothing prepared, and by its role what R418 gives it. -/
def KeeperDefault (s : State) (n : Lane) (l v : LaneDie) : Prop :=
  v.keeper = l.keeper ∧ v.order.floor = 0 ∧ v.order.iBias = 0 ∧
  (l.active = true → s.cfg.farKind n = .trunk → l.order.dir = .draw → v.order.pBase = 5) ∧
  (l.active = true → (s.cfg.farKind n ≠ .trunk ∨ l.order.dir ≠ .draw) →
    (l.order.role = .batSupplement → v.order.iSet = 0 ∧
      v.order.target = if s.drawRunning then 98 / 100 * l.order.target else l.order.target) ∧
    (l.order.role = .drawAlloc → v.order.role = .drawHold ∧ v.order.target = l.order.target) ∧
    (l.order.role = .batDiode → v.run = .standby) ∧
    (l.order.role = .feed → v.run = .ramping))

theorem keeperLane_is (n : Lane) (l : LaneDie) : KeeperDefault s n l (s.keeperLane n l) := by
  unfold State.keeperLane
  extract_lets o loop v
  have hactive : v.active = l.active := rfl
  split
  · next hidle =>
    have hno : ¬l.active = true := by simpa [hactive] using hidle
    exact ⟨rfl, rfl, rfl, fun h => absurd h hno, fun h => absurd h hno⟩
  · split
    · next htrunk =>
      have htrunk : s.cfg.farKind n = .trunk ∧ l.order.dir = .draw := by simpa using htrunk
      exact ⟨rfl, rfl, rfl, fun _ _ _ => rfl, fun _ h => h.elim (absurd htrunk.1) (absurd htrunk.2)⟩
    · next htrunk =>
      have htrunk : ¬(s.cfg.farKind n = .trunk ∧ l.order.dir = .draw) := by simpa using htrunk
      have hrest : ∀ w : LaneDie, w.keeper = l.keeper → w.order.floor = 0 → w.order.iBias = 0 →
          ((l.order.role = .batSupplement → w.order.iSet = 0 ∧
              w.order.target = if s.drawRunning then 98 / 100 * l.order.target else l.order.target) ∧
            (l.order.role = .drawAlloc → w.order.role = .drawHold ∧ w.order.target = l.order.target) ∧
            (l.order.role = .batDiode → w.run = .standby) ∧ (l.order.role = .feed → w.run = .ramping)) → KeeperDefault s n l w :=
        fun w hkeeper hfloor hbias hroles => ⟨hkeeper, hfloor, hbias, fun _ h1 h2 => absurd ⟨h1, h2⟩ htrunk, fun _ _ => hroles⟩
      have hrole : v.order.role = l.order.role := rfl
      rw [hrole]
      split
      · next h => exact hrest _ rfl rfl rfl (by rw [h]; exact ⟨nofun, nofun, nofun, nofun⟩)
      · next h => exact hrest _ rfl rfl rfl (by rw [h]; exact ⟨nofun, fun _ => ⟨rfl, rfl⟩, nofun, nofun⟩)
      · next h => exact hrest _ rfl rfl rfl (by rw [h]; exact ⟨fun _ => ⟨rfl, rfl⟩, nofun, nofun, nofun⟩)
      · next h => exact hrest _ rfl rfl rfl (by rw [h]; exact ⟨nofun, nofun, fun _ => rfl, nofun⟩)
      · next h => exact hrest _ rfl rfl rfl (by rw [h]; exact ⟨nofun, nofun, nofun, fun _ => rfl⟩)

/-! ### The feeding ports of a port die -/

/-- The feeding sources of one die recover (R418). -/
def State.sourcesRecovered (s : State) (m : PortDie) (l : List Port) : State :=
  l.foldl (fun s p => if portDie p = m && (s.port p).attach = .source && (s.port p).feeding then s.errorRecovery p 1 else s) s

theorem sourcesRecovered_is (m : PortDie) (l : List Port) (hl : l.Nodup) : let u := s.sourcesRecovered m l
    (∀ d, (u.pdie d).keeper = (s.pdie d).keeper) ∧ (∀ p, p ∉ l → u.port p = s.port p) ∧
      (∀ p ∈ l, portDie p = m → (s.port p).attach = .source → (s.port p).feeding = true → (u.port p).attach = .recovery) ∧
      (∀ p, (portDie p ≠ m ∨ (s.port p).attach ≠ .source ∨ (s.port p).feeding = false) → (u.port p).attach = (s.port p).attach) := by
  induction l generalizing s with
  | nil => exact ⟨fun _ => rfl, fun _ _ => rfl, fun p h => absurd h List.not_mem_nil, fun _ _ => rfl⟩
  | cons q r ih =>
    obtain ⟨hq, hr⟩ := List.nodup_cons.1 hl
    by_cases hdue : portDie q = m ∧ (s.port q).attach = .source ∧ (s.port q).feeding = true
    · have hstep : s.sourcesRecovered m (q :: r) = (s.errorRecovery q 1).sourcesRecovered m r :=
        congrArg (fun t : State => t.sourcesRecovered m r) (if_pos (by simp [hdue]))
      obtain ⟨hkeeper, hother, hdues, hrest⟩ := ih (s.errorRecovery q 1) hr
      have hkept := OtherPortsKept.errorRecovery q s 1
      rw [hstep]
      refine ⟨fun d => (hkeeper d).trans (hkept.keeper d), fun p hp => ?_, fun p hp => ?_, fun p hp => ?_⟩
      · rw [List.mem_cons, not_or] at hp
        rw [hother p hp.2, hkept.port p hp.1]
      · by_cases hpq : p = q
        · subst hpq
          intro _ _ _
          rw [hother p hq]
          exact (errorRecovery_port s p 1).1
        · have := hdues p ((List.mem_cons.1 hp).resolve_left hpq)
          rwa [hkept.port p hpq] at this
      · have hpq : p ≠ q := by
          rintro rfl
          simp [hdue] at hp
        have := hrest p
        rw [hkept.port p hpq] at this
        exact this hp
    · have hstep : s.sourcesRecovered m (q :: r) = s.sourcesRecovered m r :=
        congrArg (fun t : State => t.sourcesRecovered m r) (if_neg (by simpa [and_assoc] using hdue))
      obtain ⟨hkeeper, hother, hdues, hrest⟩ := ih s hr
      rw [hstep]
      refine ⟨hkeeper, fun p hp => hother p fun h => hp (List.mem_cons_of_mem _ h), fun p hp hdie hattach hfeeding => ?_, hrest⟩
      refine hdues p ((List.mem_cons.1 hp).resolve_left ?_) hdie hattach hfeeding
      rintro rfl
      exact hdue ⟨hdie, hattach, hfeeding⟩

/-- Without its host the forecast port loses its lock and its preparations, and the always-on domain stays (R39, R242). -/
theorem fcstUnlock_is : ∀ u, u = s.fcstUnlock → u.aon = s.aon ∧ u.hub = s.hub ∧ u.fcst = { s.fcst with
    locked := false, run := 0, fresh := true, demands := [], waiting := [], prepared := [], prep := [], biasFrom := none, hdrm := false } := by
  intro u hu
  unfold State.fcstUnlock at hu
  extract_lets lanes w at hu
  have hw : w.aon = s.aon ∧ w.hub = s.hub := ⟨rfl, rfl⟩
  change u.aon = s.aon ∧ u.hub = s.hub ∧ u.fcst = w.fcst
  subst hu
  split
  · refine foldl_inv (fun t : State => t.aon = s.aon ∧ t.hub = s.hub ∧ t.fcst = w.fcst) _ lanes w ⟨hw.1, hw.2, rfl⟩ fun t n ht => ?_
    unfold State.fcstSend
    obtain ⟨L, N, hsent⟩ := sendNode_is t n t.effTick .keep (fun o => { o with floor := 0, warm := false, iBias := 0, biasSlew := 0 })
    rw [hsent]
    exact ht
  · exact ⟨hw.1, hw.2, rfl⟩

/-! ### The rows -/

/-- The frames that wait at a die leave its default to the keeper in this tick (R418). -/
theorem noFrame_reached {α : Type} (frames : List α) (eff : α → Nat) (ix : Nat) (h : ∀ f ∈ frames, ixReached (eff f) ix = false) :
    frames.any (fun f => ixReached (eff f) ix) = false := by
  rw [List.any_eq_false]
  intro f hf
  simp [h f hf]

/-- A lane die that finds the hub halted enters its keeper, and a running mode becomes LIMP (R416, R417, R65). -/
theorem execHubHaltDetected_lane (n : Lane) (hup : (s.lane n).up = true) (hgot : (s.lane n).got = true) (hkeeper : (s.lane n).keeper = none) :
    (s.aon.safeLatch = false → ∃ u, execHubHaltDetected (.lane n) s = .next u ∧ u.hubUp = false ∧
      u.lanes = (s.modLane n (fun l => { l with keeper := some { entry := s.now, expired := false } })).lanes ∧
      ((s.aon.mode = some .supply ∨ s.aon.mode = some .battery) → u.aon.mode = some .limp)) ∧
    (s.aon.safeLatch = true → ∃ u, execHubHaltDetected (.lane n) s = .next u ∧ u.hubUp = false ∧ u = { s with hub := u.hub }) := by
  have hfinds : (!(s.lane n).up || !(s.lane n).got || (s.lane n).keeper.isSome) = false := by simp [hup, hgot, hkeeper]
  have hdown := haltHub_hubUp s
  obtain ⟨H, hhalt⟩ := haltHub_is s
  refine ⟨fun hlatch => ?_, fun hlatch => ?_⟩
  · refine ⟨_, (if_neg (by simp [hfinds])).trans (if_neg (by simp [hlatch])), ?_⟩
    rw [hhalt] at hdown ⊢
    obtain ⟨hhub, hlanes, -, -, hmode⟩ := limpMode_keeps
      (State.modLane { s with hub := H } n (fun l => { l with keeper := some { entry := s.now, expired := false } }))
    exact ⟨hhub.trans hdown, hlanes, hmode⟩
  · refine ⟨_, (if_neg (by simp [hfinds])).trans (if_pos hlatch), hdown, ?_⟩
    rw [hhalt]

/-- A port die that finds the hub halted releases DP and DM beside (R66, R416). -/
theorem execHubHaltDetected_port (m : PortDie) (hup : (s.pdie m).up = true) (hgot : (s.pdie m).got = true) (hkeeper : (s.pdie m).keeper = none) :
    (s.aon.safeLatch = false → ∃ u, execHubHaltDetected (.port m) s = .next u ∧ u.hubUp = false ∧ u.lanes = s.lanes ∧
      u.portDies = (s.modPd m (fun d => { d with keeper := some { entry := s.now, expired := false } })).portDies ∧
      (∀ p, portDie p = m → (u.port p).bcRunning = false) ∧
      ((s.aon.mode = some .supply ∨ s.aon.mode = some .battery) → u.aon.mode = some .limp)) ∧
    (s.aon.safeLatch = true → ∃ u, execHubHaltDetected (.port m) s = .next u ∧ u.hubUp = false ∧ u = { s with hub := u.hub }) := by
  have hfinds : (!(s.pdie m).up || !(s.pdie m).got || (s.pdie m).keeper.isSome) = false := by simp [hup, hgot, hkeeper]
  have hdown := haltHub_hubUp s
  obtain ⟨H, hhalt⟩ := haltHub_is s
  refine ⟨fun hlatch => ?_, fun hlatch => ?_⟩
  · refine ⟨_, (if_neg (by simp [hfinds])).trans (if_neg (by simp [hlatch])), ?_⟩
    rw [hhalt] at hdown ⊢
    obtain ⟨hhub, hlanes, hdies, -, hmode⟩ := limpMode_keeps
      (State.modPd { s with hub := H } m (fun d => { d with keeper := some { entry := s.now, expired := false } }))
    generalize (State.modPd { s with hub := H } m (fun d => { d with keeper := some { entry := s.now, expired := false } })).limpMode = w at *
    change (w.dpReleased m (List.finRange 4)).hubUp = false ∧ (w.dpReleased m (List.finRange 4)).lanes = s.lanes ∧
      (w.dpReleased m (List.finRange 4)).portDies = _ ∧ (∀ p, portDie p = m → ((w.dpReleased m (List.finRange 4)).port p).bcRunning = false) ∧
      (_ → (w.dpReleased m (List.finRange 4)).aon.mode = some .limp)
    have hreleased := fun p hp => dpReleased_port w m p hp (List.finRange 4) (.inl (List.mem_finRange p))
    obtain ⟨P, hP⟩ := dpReleased_is w m (List.finRange 4)
    rw [hP] at hreleased ⊢
    exact ⟨hhub.trans hdown, hlanes, hdies, hreleased, hmode⟩
  · refine ⟨_, (if_neg (by simp [hfinds])).trans (if_pos hlatch), hdown, ?_⟩
    rw [hhalt]

/-- The hold time of the lane's keeper is over in this tick (R418). -/
def KeeperDue (s : State) (n : Lane) (k : Keeper) : Prop :=
  (s.lane n).keeper = some k ∧ k.expired = false ∧ k.entry + (s.lane n).holdTenths * 10000 ≤ s.now ∧ s.aon.safeLatch = false ∧
    ∀ f ∈ (s.lane n).frames, ixReached f.eff (s.lane n).tick.toNat = false

/-- The lane with its hold time noted as over. -/
def State.keeperExpired (s : State) (n : Lane) (k : Keeper) : State := s.modLane n (fun l => { l with keeper := some { k with expired := true } })

theorem KeeperDue.exec {s : State} {n : Lane} {k : Keeper} (h : KeeperDue s n k) : execKeeperHoldExpiry (.lane n) s =
    match s.fedPort n with
    | some p =>
      let s := s.keeperExpired n k
      if (s.port p).attach = .frsWatch then
        let s := ((s.swapBroken p).modPort p (fun q => { q with attach := .sink })).modNode (s.cfg.leader n) (fun k => { k with feeding := none })
        .next (s.modLane n (fun l => { l.stop with order := l.order.keeper }))
      else .next ((s.feedEnd p true).modLane n (fun l => { l with order := l.order.keeper }))
    | none => .next { s.keeperExpired n k with
        lanes := vput (s.keeperExpired n k).lanes n ((s.keeperExpired n k).keeperLane n ((s.keeperExpired n k).lane n)) } := by
  obtain ⟨hk, hexpired, hheld, hlatch, hframes⟩ := h
  have hpassed : s.passed k.entry ((s.lane n).holdTenths * 10000) = true := decide_eq_true hheld
  unfold execKeeperHoldExpiry
  dsimp only
  rw [hk]
  dsimp only
  rw [if_pos (by simp [hexpired, hpassed, hlatch, noFrame_reached _ _ _ hframes])]
  rfl

/-- A lane that feeds no port takes its keeper default (R418). -/
theorem keeperHoldExpiry_lane (n : Lane) (k : Keeper) (hdue : KeeperDue s n k) (hfed : s.fedPort n = none) :
    ∃ u, execKeeperHoldExpiry (.lane n) s = .next u ∧ (u.lane n).keeper = some { k with expired := true } ∧
      (u.lane n).order.floor = 0 ∧ (u.lane n).order.iBias = 0 ∧ (∀ m, m ≠ n → u.lane m = s.lane m) ∧ u.conns = s.conns ∧
      ((s.lane n).active = true → s.cfg.farKind n = .trunk → (s.lane n).order.dir = .draw → (u.lane n).order.pBase = 5) ∧
      ((s.lane n).active = true → (s.cfg.farKind n ≠ .trunk ∨ (s.lane n).order.dir ≠ .draw) →
        ((s.lane n).order.role = .batSupplement → (u.lane n).order.iSet = 0 ∧
          (u.lane n).order.target = if s.drawRunning then 98 / 100 * (s.lane n).order.target else (s.lane n).order.target) ∧
        ((s.lane n).order.role = .drawAlloc → (u.lane n).order.role = .drawHold ∧ (u.lane n).order.target = (s.lane n).order.target) ∧
        ((s.lane n).order.role = .batDiode → (u.lane n).run = .standby) ∧
        ((s.lane n).order.role = .feed → (u.lane n).run = .ramping)) := by
  have hexec := hdue.exec
  rw [hfed] at hexec
  generalize hw : s.keeperExpired n k = w at hexec
  have hdraw : w.drawRunning = s.drawRunning := by
    rw [← hw]
    exact drawRunning_modLane s n _ (fun _ => ⟨rfl, rfl⟩)
  have hlane : w.lane n = { s.lane n with keeper := some { k with expired := true } } := by
    rw [← hw]
    exact State.modLane_lane ..
  obtain ⟨hkeeper, hfloor, hbias, htrunk, hroles⟩ := keeperLane_is w n (w.lane n)
  have hself : State.lane { w with lanes := vput w.lanes n (w.keeperLane n (w.lane n)) } n = w.keeperLane n (w.lane n) := vput_get_same ..
  refine ⟨_, hexec, ?_⟩
  rw [hself]
  refine ⟨hkeeper.trans (by rw [hlane]), hfloor, hbias, fun m hm => ?_, by rw [← hw]; rfl, ?_, ?_⟩
  · refine (vput_get_other _ _ _ _ hm).trans ?_
    rw [← hw]
    exact State.modLane_other s n m _ hm
  · rw [hlane, ← hw] at htrunk
    rw [hlane, ← hw]
    exact htrunk
  · rw [hdraw, hlane, ← hw] at hroles
    rw [hlane, ← hw]
    exact hroles

/-- A lane that feeds a port ends the feed (R418). -/
theorem keeperHoldExpiry_feed (n : Lane) (k : Keeper) (p : Port) (hdue : KeeperDue s n k) (hfed : s.fedPort n = some p)
    (hattach : (s.port p).attach ≠ .frsWatch) (hfeeding : (s.port p).feeding = true) :
    ∃ u, execKeeperHoldExpiry (.lane n) s = .next u ∧ (u.port p).feeding = false ∧ (u.conn (portSrc p)).pair = .opened := by
  have hexec := hdue.exec
  rw [hfed] at hexec
  have hpair := (feedEnd_port (s.keeperExpired n k) p true).2.2.2.1 hfeeding
  exact ⟨_, hexec.trans (if_neg hattach), hpair.2.1, hpair.1⟩

/-- A fast-role-swap watch ends, its lane stopped (R418). -/
theorem keeperHoldExpiry_watch (n : Lane) (k : Keeper) (p : Port) (hdue : KeeperDue s n k) (hfed : s.fedPort n = some p)
    (hattach : (s.port p).attach = .frsWatch) :
    ∃ u, execKeeperHoldExpiry (.lane n) s = .next u ∧ (u.port p).attach = .sink ∧ (u.port p).swap = none ∧ (u.lane n).run = .stopped := by
  have hexec := hdue.exec
  rw [hfed] at hexec
  have hswap := (swapBroken_port (s.keeperExpired n k) p).2.2.2.2.2.1
  refine ⟨_, hexec.trans (if_pos hattach), ?_, ?_, ?_⟩
  · exact congrArg PortSt.attach (State.modPort_port ..)
  · exact (congrArg PortSt.swap (State.modPort_port ..)).trans hswap
  · rw [State.modLane_lane]
    rfl

/-- The feeding sources of a port die recover when its hold time ends (R418). -/
theorem keeperHoldExpiry_port (m : PortDie) (k : Keeper) (hk : (s.pdie m).keeper = some k) (hexpired : k.expired = false)
    (hheld : k.entry + (s.pdie m).holdTenths * 10000 ≤ s.now) (hlatch : s.aon.safeLatch = false)
    (hframes : ∀ f ∈ (s.pdie m).frames, ixReached f.eff (s.pdie m).tick.toNat = false) :
    ∃ u, execKeeperHoldExpiry (.port m) s = .next u ∧ (u.pdie m).keeper = some { k with expired := true } ∧
      (∀ p, portDie p = m → (s.port p).attach = .source → (s.port p).feeding = true → (u.port p).attach = .recovery) ∧
      (∀ p, (portDie p ≠ m ∨ (s.port p).attach ≠ .source ∨ (s.port p).feeding = false) → (u.port p).attach = (s.port p).attach) := by
  have hpassed : s.passed k.entry ((s.pdie m).holdTenths * 10000) = true := decide_eq_true hheld
  generalize hw : s.modPd m (fun d => { d with keeper := some { k with expired := true } }) = w
  have hexec : execKeeperHoldExpiry (.port m) s = .next (w.sourcesRecovered m (List.finRange 4)).ccRefresh := by
    unfold execKeeperHoldExpiry
    dsimp only
    rw [hk]
    dsimp only
    rw [if_pos (by simp [hexpired, hpassed, hlatch, noFrame_reached _ _ _ hframes]), hw]
    rfl
  obtain ⟨hkeeper, -, hrecovered, hrest⟩ := sourcesRecovered_is w m (List.finRange 4) (List.nodup_finRange 4)
  refine ⟨_, hexec, ?_, fun p => ?_, fun p => ?_⟩
  · rw [ccRefresh_pdie, hkeeper, ← hw, State.modPd_pdie]
  · rw [ccRefresh_attach]
    have := hrecovered p (List.mem_finRange p)
    rwa [← hw] at this ⊢
  · rw [ccRefresh_attach]
    have := hrest p
    rwa [← hw] at this ⊢

end

/-- Settles O39: the halted hub by `haltHub_hubUp`, the keeper defaults by `keeperLane_is`, the feeding ports by
`sourcesRecovered_is`, the host supply by `fcstUnlock_is`. -/
theorem keepersAndUnresponsiveDies : Obligations.KeepersAndUnresponsiveDies := by
  unfold Obligations.KeepersAndUnresponsiveDies
  refine ⟨⟨fun n s hup hlag hresp => ?_, fun n s hlag => ?_, fun m s hup hlag hresp => ?_, fun n s hup hgot hkeeper =>
    execHubHaltDetected_lane s n hup hgot hkeeper, fun m s hup hgot hkeeper => execHubHaltDetected_port s m hup hgot hkeeper⟩,
    ⟨fun n k s hk hexpired hheld hlatch hframes => ?_, fun n k s hk hheld => ?_, fun m k s hk hexpired hheld hlatch hframes =>
    keeperHoldExpiry_port s m k hk hexpired hheld hlatch hframes⟩, fun s hvio => ?_, fun us s hvio => ?_⟩
  · refine ⟨_, if_pos (by simp [hup, hlag, hresp]), ?_⟩
    dsimp only
    rw [record_is]
    exact ⟨rfl, rfl, rfl⟩
  · exact if_neg (by simp [Nat.not_le.2 hlag])
  · refine ⟨_, if_pos (by simp [hup, hlag, hresp]), ?_⟩
    rw [ccRefresh_portDies, ccRefresh_lanes, ccRefresh_conns]
    dsimp only
    rw [record_is]
    exact ⟨rfl, rfl, rfl⟩
  · have hdue : KeeperDue s n k := ⟨hk, hexpired, hheld, hlatch, hframes⟩
    exact ⟨keeperHoldExpiry_lane s n k hdue, fun p hfed hattach hfeeding => keeperHoldExpiry_feed s n k p hdue hfed hattach hfeeding,
      fun p hfed hattach => keeperHoldExpiry_watch s n k p hdue hfed hattach⟩
  · have hearly : s.passed k.entry ((s.lane n).holdTenths * 10000) = false := decide_eq_false (Nat.not_le.2 hheld)
    change execKeeperHoldExpiry (.lane n) s = _
    unfold execKeeperHoldExpiry
    dsimp only
    rw [hk]
    exact if_neg (by simp [hearly])
  · obtain ⟨haon, hhub, hfcst⟩ := fcstUnlock_is ((s.modAon (fun a => { a with vio := false })).modHub (fun h => { h with vsel := [] })) _ rfl
    refine ⟨_, if_pos hvio, haon, ?_, ?_, ?_, ?_⟩
    · rw [hhub]
      rfl
    · rw [hhub]
      rfl
    · rw [hfcst]
    · rw [hfcst]
  · exact ⟨_, if_neg (by simp [hvio]), rfl, rfl, rfl⟩

end Sys2Proof.Machine
end

section
/-! Temperatures, shutdowns and releases of the dies (O40; R291-R294, R297-R303). -/

namespace Sys2Proof.Machine

section
variable (s : State)

/-! ### What a shutdown leaves -/

/-- A slot of the shutdown record: whose it is, why, and when (R302). -/
def State.HasSlot (s : State) (sensor cause tick : Nat) : Prop :=
  ∃ y ∈ s.aon.slotPending, y.sensor = sensor ∧ y.cause = cause ∧ y.tick = tick

theorem pendSlot_has (sensor cause : Nat) (r : Option DegC) (count : Nat) : (s.pendSlot sensor cause r count).HasSlot sensor cause s.now :=
  ⟨_, List.mem_append_right _ (List.mem_singleton_self _), rfl, rfl, rfl⟩

theorem pendSlot_keeps {sensor cause tick : Nat} (h : s.HasSlot sensor cause tick) (n k : Nat) (r : Option DegC) (count : Nat) :
    (s.pendSlot n k r count).HasSlot sensor cause tick := by
  obtain ⟨y, hy, hslot⟩ := h
  exact ⟨y, List.mem_append_left _ hy, hslot⟩

theorem noteShutdown_has (x : Sensor) (src : EvSource) (r : Option DegC) (count : Nat) :
    (s.noteShutdown x src r count).HasSlot (sensorNo x) (if r.isSome then 1 else 2) s.now := pendSlot_has s _ _ r count

theorem noteShutdown_is (x : Sensor) (src : EvSource) (r : Option DegC) (count : Nat) : ∃ A, s.noteShutdown x src r count = { s with
    aon := A, events := s.events ++ [{ cls := .protection, tick := s.now, sub := BitVec.ofNat 8 s.subTick, src := src, item := sensorNo x, kind := if r.isSome then .dieShutdown else .brokenSensor }] } :=
  ⟨_, rfl⟩

/-- A lane die that shuts down: stopped with its slot, no other lane touched (R297, R300). -/
theorem laneShutdown_is (n : Lane) (x : Sensor) (r : Option DegC) : ∀ u, u = s.laneShutdown n x r →
    OnlyLane n { s with aon := u.aon } u ∧ (u.lane n).shut = true ∧ (u.lane n).okRounds = 0 ∧ (u.lane n).tempDie = (s.lane n).tempDie ∧
      ((∀ k, x ≠ .tsl k) → (u.lane n).shutDie = true) ∧ u.HasSlot (sensorNo x) (if r.isSome then 1 else 2) s.now := by
  intro u hu
  unfold State.laneShutdown at hu
  extract_lets l fresh kept times latch isTsl s1 s2 s3 at hu
  have h1 : ∃ L, s1 = { s with lanes := L } := ⟨_, rfl⟩
  have hother : ∀ m, m ≠ n → s1.lane m = s.lane m := fun m hm => State.modLane_other s n m _ hm
  have hlane := State.modLane_lane s n (fun l =>
    { (if l.shut then l else l.stop) with
      shut := true, shutDie := l.shutDie || !isTsl, shutTsl := l.shutTsl || isTsl, okRounds := 0, otTimes := times
      latched := l.latched || latch })
  have hshut : (s1.lane n).shut = true := congrArg LaneDie.shut hlane
  have hrounds : (s1.lane n).okRounds = 0 := congrArg LaneDie.okRounds hlane
  have htemp : (s1.lane n).tempDie = (s.lane n).tempDie := by
    refine (congrArg LaneDie.tempDie hlane).trans ?_
    dsimp only
    split <;> rfl
  have hdie : (∀ k, x ≠ .tsl k) → (s1.lane n).shutDie = true := by
    intro hx
    refine (congrArg LaneDie.shutDie hlane).trans ?_
    have htsl : isTsl = false := by
      unfold isTsl
      split
      · next k => exact absurd rfl (hx k)
      · rfl
    simp [htsl]
  clear_value s1
  obtain ⟨L, rfl⟩ := h1
  have h2 : ∃ E, s2 = { s with lanes := L, events := E } := by
    unfold s2
    split
    · exact ⟨_, rfl⟩
    · exact ⟨s.events, rfl⟩
  clear_value s2
  obtain ⟨E, rfl⟩ := h2
  have h3 : s3.HasSlot (sensorNo x) (if r.isSome then 1 else 2) s.now := noteShutdown_has _ x (.lane n) r times.length
  have h3' : ∃ A E, s3 = { s with aon := A, lanes := L, events := E } := ⟨_, _, rfl⟩
  clear_value s3
  obtain ⟨A, E', rfl⟩ := h3'
  split at hu
  · have hslot := pendSlot_keeps _ h3 (sensorNo x) 3 r times.length
    rw [← hu] at hslot
    subst hu
    exact ⟨⟨rfl, hother⟩, hshut, hrounds, htemp, hdie, hslot⟩
  · subst hu
    exact ⟨⟨rfl, hother⟩, hshut, hrounds, htemp, hdie, h3⟩

/-- The port dies have changed in their lists of frames at most. -/
def FramesOnly (s t : State) : Prop := ∀ d, ∃ f, t.pdie d = { s.pdie d with frames := f }

theorem FramesOnly.refl : FramesOnly s s := fun d => ⟨(s.pdie d).frames, rfl⟩

theorem FramesOnly.trans {s t u : State} (h : FramesOnly s t) (k : FramesOnly t u) : FramesOnly s u := fun d => by
  obtain ⟨f, hf⟩ := h d
  obtain ⟨g, hg⟩ := k d
  exact ⟨g, by rw [hg, hf]⟩

theorem FramesOnly.shut {s t : State} (h : FramesOnly s t) (d : PortDie) :
    (t.pdie d).shut = (s.pdie d).shut ∧ (t.pdie d).temp = (s.pdie d).temp ∧ (t.pdie d).okRounds = (s.pdie d).okRounds := by
  obtain ⟨f, hf⟩ := h d
  rw [hf]
  exact ⟨rfl, rfl, rfl⟩

/-- A port whose die shuts down: Hard Reset where a contract stands, VCONN off, the vendor mode ended (R297). -/
def State.portDropped (s : State) (p : Port) : State :=
  let s := if (s.port p).contract.kind != .none then (s.hardNoted p 5).pdPut p .hardReset else s
  (s.modPort p (fun q => { q with vconn := false })).modeEnd p

theorem portDropped_is (p : Port) : OtherPortsKept p s (s.portDropped p) ∧ ((s.portDropped p).port p).vconn = false := by
  unfold State.portDropped
  extract_lets w
  have hw : OtherPortsKept p s w := by
    unfold w
    split
    · exact (OtherPortsKept.hardNoted p s 5).tr (OtherPortsKept.pdPut ..)
    · exact .same rfl rfl
  refine ⟨hw.tr ((OtherPortsKept.modPort p w _).tr (OtherPortsKept.modeEnd ..)), ?_⟩
  rw [(modeEnd_port (w.modPort p (fun q => { q with vconn := false })) p).1, State.modPort_port]

/-- The ports of one die are dropped in turn. -/
def State.portsDropped (s : State) (m : PortDie) (l : List Port) : State :=
  l.foldl (fun s p => if portDie p = m then s.portDropped p else s) s

theorem portsDropped_frames (m : PortDie) (l : List Port) : FramesOnly s (s.portsDropped m l) := by
  refine foldl_inv (FramesOnly s) _ l s (FramesOnly.refl s) fun t p h => ?_
  split
  · exact h.trans (portDropped_is t p).1.die
  · exact h

theorem portsDropped_vconn (m : PortDie) (p : Port) (hp : portDie p = m) (l : List Port) (h : p ∈ l ∨ (s.port p).vconn = false) :
    ((s.portsDropped m l).port p).vconn = false := by
  induction l generalizing s with
  | nil => exact h.resolve_left List.not_mem_nil
  | cons q r ih =>
    refine ih _ ?_
    dsimp only
    by_cases hq : p = q
    · subst hq
      rw [if_pos hp]
      exact .inr (portDropped_is s p).2
    · refine h.imp (fun hmem => (List.mem_cons.1 hmem).resolve_left hq) fun hoff => ?_
      split
      · rw [(portDropped_is s q).1.port p hq]
        exact hoff
      · exact hoff

/-- A port die that shuts down: VCONN of its ports off, with die 0 ACIN open and unqualified, and its slot (R297). -/
theorem portShutdown_is (m : PortDie) (r : Option DegC) (hfresh : (s.pdie m).shut = false) : ∀ u, u = s.portShutdown m r →
    (u.pdie m).shut = true ∧ (u.pdie m).temp = (s.pdie m).temp ∧ (u.pdie m).okRounds = 0 ∧
      (m = 0 → (u.conn acin).pair = .opened ∧ (u.conn acin).qualified = false) ∧ (∀ p, portDie p = m → (u.port p).vconn = false) ∧
      (∃ y ∈ u.aon.slotPending, y.sensor = 5 + m.val ∧ y.cause = (if r.isSome then 1 else 2)) := by
  intro u hu
  unfold State.portShutdown at hu
  extract_lets fresh s1 s2 s3 at hu
  have hs1 : (s1.pdie m).shut = true ∧ (s1.pdie m).temp = (s.pdie m).temp ∧ (s1.pdie m).okRounds = 0 := by
    have hpdie := State.modPd_pdie s m (fun d => { d with shut := true, okRounds := 0 })
    exact ⟨congrArg PortDieSt.shut hpdie, (congrArg PortDieSt.temp hpdie :), congrArg PortDieSt.okRounds hpdie⟩
  have hs2 : s2 = s1.portsDropped m (List.finRange 4) := rfl
  have hs3 : s3 = if m = 0 then (s2.openPair acin).modConn acin (fun k => { k with qualified := false }) else s2 :=
    if_pos (by simp [fresh, hfresh])
  clear_value s1 s2 s3
  have hvconn : ∀ p, portDie p = m → (s2.port p).vconn = false := fun p hp => by
    rw [hs2]
    exact portsDropped_vconn s1 m p hp (List.finRange 4) (.inl (List.mem_finRange p))
  have hframes : FramesOnly s1 s2 := by
    rw [hs2]
    exact portsDropped_frames s1 m (List.finRange 4)
  have h3 : FramesOnly s1 s3 ∧ (m = 0 → (s3.conn acin).pair = .opened ∧ (s3.conn acin).qualified = false) ∧
      ∀ p, portDie p = m → (s3.port p).vconn = false := by
    rw [hs3]
    split
    · exact ⟨hframes, fun _ => by simp [State.openPair], hvconn⟩
    · next hm => exact ⟨hframes, fun h => absurd h hm, hvconn⟩
  obtain ⟨hdies, hacin, hports⟩ := h3
  obtain ⟨hshut, htemp, hrounds⟩ := hdies.shut m
  have hslot := noteShutdown_has s3 (.portDie m) (.port m) r (s3.slotCount (5 + m.val) + if r.isSome = true then 1 else 0)
  obtain ⟨A, hnoted⟩ := noteShutdown_is s3 (.portDie m) (.port m) r (s3.slotCount (5 + m.val) + if r.isSome = true then 1 else 0)
  rw [← hu] at hnoted hslot
  obtain ⟨y, hy, hsensor, hcause, -⟩ := hslot
  refine ⟨?_, ?_, ?_, ?_, ?_, y, hy, hsensor, hcause⟩
  · rw [hnoted]
    exact hshut.trans hs1.1
  · rw [hnoted]
    exact htemp.trans hs1.2.1
  · rw [hnoted]
    exact hrounds.trans hs1.2.2
  · rw [hnoted]
    exact hacin
  · rw [hnoted]
    exact hports

/-- The hub die that shuts down is held for a cold boot with cause 8 (R297, R298, R408). -/
theorem hubShutdown_is (r : Option DegC) (hpowered : s.hubPowered = true) : ∀ u, u = s.hubShutdown r →
    u.therm.hubShut = true ∧ u.hub.hub = .held 8 false := by
  intro u hu
  unfold State.hubShutdown at hu
  extract_lets s1 T s2 s3 at hu
  have hoff : s2.hub.hub ≠ .off := by
    change s.hub.hub ≠ .off
    simpa [State.hubPowered] using hpowered
  have h2 : s2.therm.hubShut = true := rfl
  clear_value s2
  have h3 : s3.therm.hubShut = true ∧ ∃ c w, s3.hub.hub = .held c w := by
    by_cases hheld : ∃ c w, s2.hub.hub = .held c w
    · obtain ⟨c, w, hheld⟩ := hheld
      have hsame : s3 = s2 := by
        unfold s3 State.hubReset
        rw [hheld]
      rw [hsame]
      exact ⟨h2, c, w, hheld⟩
    · obtain ⟨A, L, l, d, q, hreset, -⟩ := hubReset_is s2 8 hoff (fun c w h => hheld ⟨c, w, h⟩)
      rw [show s3 = _ from hreset]
      exact ⟨h2, _, _, rfl⟩
  clear_value s3
  obtain ⟨hshut, c, w, hheld⟩ := h3
  rw [hheld] at hu
  subst hu
  exact ⟨hshut, rfl⟩

/-! ### A reading: kept below the shutdown temperature, acted on at it -/

section
variable (hpowered : s.hubPowered = true)
include hpowered

theorem slotRuns (x : Sensor) (v : SlotValue) (hfits : slotFits x v = true) : ¬(!slotFits x v || !s.hubPowered) = true := by
  simp [hfits, hpowered]

theorem slot_laneDie (n : Lane) (t : DegC) (hup : (s.lane n).up = true) :
    let r := s.convert (.laneDie n) (.diode t)
    let x := s.effective (.laneDie n) r
    let w := s.modLane n (fun l => { l with tempDie := x, dieOk := r.isSome })
    execHousekeepingSlot (.laneDie n) (.diode t) s =
      .next (if decide (s.shutAt (.laneDie n) ≤ x) && !(s.lane n).shutDie then w.laneShutdown n (.laneDie n) r else w) :=
  (if_neg (slotRuns s hpowered _ _ rfl)).trans (if_neg (by simp [hup]))

theorem slot_tsl (n : Lane) (q : Rat) (hup : (s.lane n).up = true) (hon : (s.lane n).onLine = true) :
    let r := s.convert (.tsl n) (.ratio q)
    let x := s.effective (.tsl n) r
    let w := s.modLane n (fun l => { l with tempTsl := x, tslOk := r.isSome })
    execHousekeepingSlot (.tsl n) (.ratio q) s =
      .next (if decide (s.shutAt (.tsl n) ≤ x) && !(s.lane n).shutTsl then w.laneShutdown n (.tsl n) r else w) :=
  (if_neg (slotRuns s hpowered _ _ rfl)).trans (if_neg (by simp [hup, hon]))

theorem slot_portDie (m : PortDie) (t : DegC) (hup : (s.pdie m).up = true) :
    let r := s.convert (.portDie m) (.diode t)
    let x := s.effective (.portDie m) r
    let w := s.modPd m (fun d => { d with temp := x, tempOk := r.isSome })
    execHousekeepingSlot (.portDie m) (.diode t) s =
      .next (if decide (s.shutAt (.portDie m) ≤ x) && !(s.pdie m).shut then w.portShutdown m r else w) :=
  (if_neg (slotRuns s hpowered _ _ rfl)).trans (if_neg (by simp [hup]))

theorem slot_flash (t : DegC) :
    let r := s.convert .flash (.diode t)
    let x := s.effective .flash r
    let w : State := { s with therm := { s.therm with flashT := x, flashOk := r.isSome } }
    execHousekeepingSlot .flash (.diode t) s =
      .next (if decide (s.shutAt .flash ≤ x) && !s.therm.flashShut then w.flashShutdown r else w) :=
  if_neg (slotRuns s hpowered _ _ rfl)

theorem slot_hub (t : DegC) :
    let r := s.convert .hub (.diode t)
    let x := s.effective .hub r
    let w : State := { s with therm := { s.therm with hubT := x, hubOk := r.isSome } }
    execHousekeepingSlot .hub (.diode t) s =
      .next (if decide (s.shutAt .hub ≤ x) && !s.therm.hubShut then w.hubShutdown r else w) :=
  if_neg (slotRuns s hpowered _ _ rfl)

end

/-- A reading below the shutdown temperature, or of a die that it already holds in shutdown, shuts nothing down (R297, R301). -/
theorem kept_of_cool {at_ x : DegC} {was : Bool} {v w : State} (h : x < at_ ∨ was = true) :
    (Host.Outcome.next (if decide (at_ ≤ x) && !was then v else w) : Out) = .next w := by
  refine congrArg Host.Outcome.next (if_neg ?_)
  rcases h with h | h
  · simp [not_le.2 h]
  · simp [h]

theorem shut_of_hot {at_ x : DegC} {was : Bool} {v w : State} (hhot : at_ ≤ x) (hwas : was = false) :
    (Host.Outcome.next (if decide (at_ ≤ x) && !was then v else w) : Out) = .next v :=
  congrArg Host.Outcome.next (if_pos (by simp [hhot, hwas]))

/-! ### Rounds and releases -/

/-- A round counts the releases of its dies, which names no round, no division step and no measured value (R297, R299). -/
theorem countReleases_is : ∃ L D T, s.countReleases = { s with lanes := L, portDies := D, therm := T } ∧
    T.round = s.therm.round ∧ T.hubDiv = s.therm.hubDiv ∧ T.hubT = s.therm.hubT ∧ T.tbOk = s.therm.tbOk :=
  ⟨_, _, _, rfl, rfl, rfl, rfl, rfl⟩

/-- A round advances the count and the division step, takes what was measured, and stamps its event (R292, R293, R299). -/
theorem execHousekeepingRound_is (r : RoundInfo) (hpowered : s.hubPowered = true) (hup : s.hubUp = true) :
    ∃ u, execHousekeepingRound r s = .next u ∧ u.therm.round = s.therm.round + 1 ∧ u.therm.hubDiv = hubDivStep s.therm.hubDiv s.therm.hubT ∧
      u.hub.sysAvg = r.vsys ∧ (∀ c, (u.conn c).i = r.connI.get c ∧ (u.conn c).v = r.connV.get c ∧ (u.conn c).pair = (s.conn c).pair) ∧
      u.events = s.events ++ (if s.ntcValid = false ∧ s.charge.present = true then
          [{ cls := .presence, tick := s.now, sub := BitVec.ofNat 8 s.subTick, src := .housekeeping, item := 0, kind := .removal .ntc s.gauge.vBat s.gauge.iMeas }] else []) ++
        [{ cls := .thermal, tick := s.now, sub := BitVec.ofNat 8 s.subTick, src := .housekeeping, item := 0, kind := .thermalRound }] := by
  obtain ⟨t, ht⟩ := exec_answers (.housekeepingRound r) s
  refine ⟨t, ht, ?_⟩
  change execHousekeepingRound r s = _ at ht
  unfold execHousekeepingRound at ht
  rw [if_neg (by simp [hpowered])] at ht
  obtain ⟨L, D, T, hcount, hround, hdiv, htemp, htb⟩ := countReleases_is s
  rw [hcount] at ht
  extract_lets w0 T0 U0 w1 w2 w3 at ht
  have hrun : w2.hub.hub = .running := by
    change s.hub.hub = .running
    simpa [State.hubUp] using hup
  have hguard : (w2.hubUp && !w2.ntcValid && w2.charge.present) = decide (s.ntcValid = false ∧ s.charge.present = true) := by
    have hntc : w2.ntcValid = s.ntcValid := by
      change (T.tbOk.get 0 && (s.cfg.get 0 13 = 0 || T.tbOk.get 1)) = s.ntcValid
      rw [htb]
      rfl
    have hup2 : w2.hubUp = true := hup
    rw [hup2, hntc]
    change (true && !s.ntcValid && s.charge.present) = _
    cases s.ntcValid <;> cases s.charge.present <;> rfl
  have h3 : w3 = { w2 with events := s.events ++ (if s.ntcValid = false ∧ s.charge.present = true then
      [{ cls := .presence, tick := s.now, sub := BitVec.ofNat 8 s.subTick, src := .housekeeping, item := 0, kind := .removal .ntc s.gauge.vBat s.gauge.iMeas }] else []) } := by
    unfold w3
    rw [hguard]
    by_cases hremoved : s.ntcValid = false ∧ s.charge.present = true
    · rw [if_pos (decide_eq_true hremoved), if_pos hremoved]
      rfl
    · rw [if_neg (by simp [hremoved]), if_neg hremoved, List.append_nil]
      rfl
  rw [h3] at ht
  dsimp only at ht
  rw [hrun] at ht
  obtain rfl := Host.Outcome.next.inj ht
  refine ⟨congrArg (· + 1) hround, ?_, rfl, fun c => ?_, rfl⟩
  · change hubDivStep T.hubDiv T.hubT = _
    rw [hdiv, htemp]
  · have hconn : w2.conn c = { s.conn c with i := r.connI.get c, v := r.connV.get c } := vget_ofFn ..
    exact ⟨congrArg Conn.i hconn, congrArg Conn.v hconn, (congrArg Conn.pair hconn :)⟩

/-- A port that resumes its work leaves its die as it was, but for the frames that wait there (R298). -/
theorem resumePort_frames (p : Port) : FramesOnly s (s.resumePort p) := by
  unfold State.resumePort
  extract_lets q w
  have hw : FramesOnly s w := (OtherPortsKept.modPort p s _).die
  split
  · exact hw
  · split
    · split
      · split
        · exact hw.trans (OtherPortsKept.requestBest p w).die
        · exact hw.trans (OtherPortsKept.modPort p w _).die
      · exact hw
    · split
      · split
        · exact hw.trans (OtherPortsKept.startFeed p w).die
        · exact hw
      · split
        · exact hw.trans (OtherPortsKept.sendCaps p w).die
        · exact hw
    · exact hw

/-- A port die is released after ten good rounds (R298). -/
theorem shutdownRelease_port (d : Fin 8) (m : PortDie) (hdie : releaseDie d = .portDie m) (hshut : (s.pdie m).shut = true)
    (hrounds : 10 ≤ (s.pdie m).okRounds) : ∃ u, execShutdownRelease d s = .next u ∧ (u.pdie m).shut = false ∧ (u.pdie m).okRounds = 0 := by
  unfold execShutdownRelease
  rw [hdie]
  dsimp only
  rw [if_pos (by simp [hshut, hrounds])]
  generalize hw : s.modPd m (fun d => { d with shut := false, okRounds := 0 }) = w
  have hpdie : (w.pdie m).shut = false ∧ (w.pdie m).okRounds = 0 := by
    rw [← hw, State.modPd_pdie]
    exact ⟨rfl, rfl⟩
  have hframes : FramesOnly w (if w.hubUp then (List.finRange 4).foldl (fun s p => if portDie p = m then s.resumePort p else s) w else w) := by
    split
    · refine foldl_inv (FramesOnly w) _ _ w (FramesOnly.refl w) fun t p h => ?_
      split
      · exact h.trans (resumePort_frames t p)
      · exact h
    · exact FramesOnly.refl w
  obtain ⟨hkept, -, hkept'⟩ := hframes.shut m
  exact ⟨_, rfl, hkept.trans hpdie.1, hkept'.trans hpdie.2⟩

end

/-- Settles O40: a reading is kept (`kept_of_cool`) or shuts its die down (`laneShutdown_is`, `portShutdown_is`, `hubShutdown_is`);
rounds by `execHousekeepingRound_is`, releases by their count. -/
theorem temperaturesShutDiesDown : Obligations.TemperaturesShutDiesDown := by
  unfold Obligations.TemperaturesShutDiesDown
  refine ⟨⟨fun s x t => ?_, fun s x => ⟨rfl, fun t => rfl, fun hx => ?_⟩, fun n t s hpowered hup => ⟨fun hcool => ?_, fun hhot hwas => ?_⟩,
    fun n q s hpowered hup hon => ⟨fun hcool => ?_, fun hhot hwas => ?_⟩, fun m t s hpowered hup => ⟨fun hcool => ?_, fun hhot hwas => ?_⟩,
    fun t s hpowered => ⟨fun hcool => ?_, fun hhot hwas => ?_⟩, fun t s hpowered => ⟨fun hcool => ?_, fun hhot hwas => ?_⟩,
    fun k q s hpowered => ?_⟩, fun r s hpowered hup => execHousekeepingRound_is s r hpowered hup,
    fun d n s hdie => ⟨fun hshut hrounds => ?_, fun hrounds => ?_⟩, fun d m s hdie => ⟨fun hshut hrounds => ?_, fun hrounds => ?_⟩,
    fun s hshut hrounds => ?_, fun s hshut hrounds => ?_, fun x r s hslots => ?_⟩
  · unfold State.convert
    simp only [Bool.and_eq_true, decide_eq_true_eq]
  · unfold State.shutAt
    split
    · next k => exact absurd rfl (hx k)
    · rfl
  · exact ⟨_, (slot_laneDie s hpowered n t hup).trans (kept_of_cool hcool), rfl⟩
  · obtain ⟨honly, hshut, hrounds, htemp, hdie, hslot⟩ := laneShutdown_is _ n (.laneDie n) (s.convert (.laneDie n) (.diode t)) _ rfl
    refine ⟨_, (slot_laneDie s hpowered n t hup).trans (shut_of_hot hhot hwas), ⟨honly.1, fun k hk => ?_⟩, hshut, hdie nofun, ?_, hrounds, hslot⟩
    · exact (honly.2 k hk).trans (State.modLane_other s n k _ hk)
    · exact htemp.trans (congrArg LaneDie.tempDie (State.modLane_lane ..))
  · exact ⟨_, (slot_tsl s hpowered n q hup hon).trans (kept_of_cool hcool), rfl⟩
  · obtain ⟨honly, hshut, hrounds, -, -, hslot⟩ := laneShutdown_is _ n (.tsl n) (s.convert (.tsl n) (.ratio q)) _ rfl
    refine ⟨_, (slot_tsl s hpowered n q hup hon).trans (shut_of_hot hhot hwas), ⟨honly.1, fun k hk => ?_⟩, hshut, hrounds, hslot⟩
    exact (honly.2 k hk).trans (State.modLane_other s n k _ hk)
  · exact ⟨_, (slot_portDie s hpowered m t hup).trans (kept_of_cool hcool), rfl⟩
  · have hpdie := State.modPd_pdie s m (fun d => { d with
      temp := s.effective (.portDie m) (s.convert (.portDie m) (.diode t)), tempOk := (s.convert (.portDie m) (.diode t)).isSome })
    obtain ⟨hshut, htemp, hrest⟩ := portShutdown_is _ m (s.convert (.portDie m) (.diode t))
      ((congrArg PortDieSt.shut hpdie).trans hwas) _ rfl
    exact ⟨_, (slot_portDie s hpowered m t hup).trans (shut_of_hot hhot hwas), hshut, htemp.trans (congrArg PortDieSt.temp hpdie), hrest⟩
  · exact ⟨_, (slot_flash s hpowered t).trans (kept_of_cool hcool), rfl⟩
  · exact ⟨_, (slot_flash s hpowered t).trans (shut_of_hot hhot hwas), rfl, rfl, rfl, rfl⟩
  · exact ⟨_, (slot_hub s hpowered t).trans (kept_of_cool hcool), rfl⟩
  · refine ⟨_, (slot_hub s hpowered t).trans (shut_of_hot hhot hwas), ?_⟩
    exact hubShutdown_is _ (s.convert .hub (.diode t)) (by exact hpowered) _ rfl
  · refine ⟨_, if_neg (slotRuns s hpowered _ _ rfl), rfl, vput_get_same .., fun x hx => ?_⟩
    refine (vput_get_same ..).trans ?_
    rw [hx]
    rfl
  · refine ⟨_, ?_, rfl⟩
    change execShutdownRelease d s = _
    unfold execShutdownRelease
    rw [hdie]
    exact if_pos (by simp [hshut, hrounds])
  · change execShutdownRelease d s = _
    unfold execShutdownRelease
    rw [hdie]
    exact if_neg (by simp [Nat.not_le.2 hrounds])
  · exact shutdownRelease_port s d m hdie hshut hrounds
  · change execShutdownRelease d s = _
    unfold execShutdownRelease
    rw [hdie]
    exact if_neg (by simp [Nat.not_le.2 hrounds])
  · exact ⟨_, if_pos (by simp [hshut, hrounds]), rfl⟩
  · exact ⟨_, if_pos (by simp [hshut, hrounds]), rfl⟩
  · obtain ⟨u, hu⟩ := exec_answers .shutdownSlotWrite s
    refine ⟨u, hu, ?_⟩
    change execShutdownSlotWrite s = _ at hu
    unfold execShutdownSlotWrite at hu
    rw [hslots] at hu
    obtain rfl := Host.Outcome.next.inj hu
    exact ⟨rfl, rfl, rfl, rfl⟩

end Sys2Proof.Machine
end

section
/-! Charge phases, timers and suspensions (O41; R197-R207, R210). -/

namespace Sys2Proof.Machine

section
variable (s : State)

/-! ### Suspension causes -/

/-- A cause that is set stands, with the phase as it was (R203). -/
theorem setCause_is (code : Nat) : ∃ L m k, s.setCause code = { s with ledger := L, charge := { s.charge with causes := m, clearSince := k } } ∧
    ∀ n, s.charge.causes.getLsbD n = true → m.getLsbD n = true := by
  unfold State.setCause
  split
  · exact ⟨s.ledger, s.charge.causes, s.charge.clearSince, rfl, fun _ h => h⟩
  · dsimp only
    rw [record_is]
    exact ⟨_, _, _, rfl, fun n h => by simp [h]⟩

theorem setCause_has (code : Nat) (hcode : code - 1 < 16) : (s.setCause code).hasCause code = true := by
  unfold State.setCause
  split
  · assumption
  · dsimp only
    rw [record_is]
    change (s.charge.causes ||| causeBit code).getLsbD (code - 1) = true
    simp [causeBit, hcode]

theorem clearCause_clears (code : Nat) : (s.clearCause code).hasCause code = false := by
  change (s.charge.causes &&& ~~~(causeBit code)).getLsbD (code - 1) = false
  by_cases hcode : code - 1 < 16
  · simp [causeBit, hcode]
  · exact BitVec.getLsbD_of_ge _ _ (Nat.le_of_not_lt hcode)

/-- A cause that stands suspends charging; only the acknowledged backstop does not (R203, R209). -/
theorem suspended_of_hasCause (code : Nat) (hcode : code - 1 ≠ 9) (h : s.hasCause code = true) : s.suspended = true := by
  have hbit : (if s.charge.backAck then s.charge.causes &&& ~~~0x0200#16 else s.charge.causes).getLsbD (code - 1) = true := by
    have hlt : code - 1 < 16 := BitVec.lt_of_getLsbD h
    split
    · have hmask : ∀ n < 16, n ≠ 9 → (~~~0x0200#16).getLsbD n = true := by decide
      rw [BitVec.getLsbD_and, hmask _ hlt hcode, Bool.and_true]
      exact h
    · exact h
  unfold State.suspended
  rw [bne_iff_ne]
  intro hzero
  rw [hzero] at hbit
  exact absurd hbit (by simp)

/-! ### The set point -/

/-- The set point leaves the phase, the causes and the timers; a suspended or idle charge gets no current (R203, R210). -/
theorem chargeSetpoint_is : ∃ C, s.chargeSetpoint = { s with charge := C } ∧ C.phase = s.charge.phase ∧ C.causes = s.charge.causes ∧
    C.fastS = s.charge.fastS ∧ C.fastBudgetS = s.charge.fastBudgetS ∧ C.restartUsed = s.charge.restartUsed ∧ C.present = s.charge.present ∧
    C.startRound = s.charge.startRound ∧ (s.suspended = true ∨ s.charge.phase = .terminated → C.iSet = 0 ∧ C.iReq = 0) := by
  unfold State.chargeSetpoint
  extract_lets iIn idle req irc vIrc
  refine ⟨_, rfl, rfl, rfl, rfl, rfl, rfl, rfl, rfl, fun hidle => ?_⟩
  have hidle : idle = true := by
    unfold idle
    rcases hidle with h | h
    · rw [h]
      rfl
    · rw [h]
      exact Bool.or_true _
  exact ⟨if_pos hidle, if_pos hidle⟩

/-- A cause that comes suspends: no current, the phase as it was (R203). -/
theorem suspend_is (code : Nat) (hcode : code - 1 < 16) (hback : code - 1 ≠ 9) : ∀ u, u = (s.setCause code).chargeSetpoint →
    u.hasCause code = true ∧ u.charge.iSet = 0 ∧ u.charge.iReq = 0 ∧ u.charge.phase = s.charge.phase := by
  intro u hu
  obtain ⟨C, hset, hphase, hcauses, -, -, -, -, -, hzero⟩ := chargeSetpoint_is (s.setCause code)
  have hhas := setCause_has s code hcode
  obtain ⟨hI, hR⟩ := hzero (.inl (suspended_of_hasCause _ code hback hhas))
  obtain ⟨L, m, k, hcause, -⟩ := setCause_is s code
  rw [hu, hset]
  refine ⟨?_, hI, hR, hphase.trans (by rw [hcause])⟩
  unfold State.hasCause at hhas ⊢
  rw [← hhas]
  exact congrArg (fun m : BitVec 16 => m.getLsbD (code - 1)) hcauses

/-- A phase that advances is the new one, with the gauge as it was (R198-R200). -/
theorem advance_is (f : Charge → Charge) : ∀ u, u = (s.modCharge f).chargeSetpoint → u.charge.phase = (f s.charge).phase ∧
    u.charge.fastS = (f s.charge).fastS ∧ u.charge.fastBudgetS = (f s.charge).fastBudgetS ∧ u.gauge = s.gauge := by
  intro u hu
  obtain ⟨C, hset, hphase, -, hfast, hbudget, -⟩ := chargeSetpoint_is (s.modCharge f)
  rw [hu, hset]
  exact ⟨hphase, hfast, hbudget, rfl⟩

/-- Termination: no current, and the state of charge known (R201, R226). -/
theorem terminate_is (v : Volt) (i : Amp) (hup : s.hubUp = true) (hphase : s.charge.phase = .cv) (hcv : s.cvActive = true)
    (hrun : s.suspended = false) (hi : i < s.iTerm) : ∃ u, execChargePhaseAdvance .terminate v i s = .next u ∧ u.charge.phase = .terminated ∧
      u.charge.iSet = 0 ∧ u.charge.iReq = 0 ∧ u.gauge.socQualified = true := by
  obtain ⟨t, ht⟩ := exec_answers (.chargePhaseAdvance .terminate v i) s
  refine ⟨t, ht, ?_⟩
  change execChargePhaseAdvance .terminate v i s = _ at ht
  unfold execChargePhaseAdvance at ht
  rw [if_neg (by simp [hup])] at ht
  dsimp only at ht
  rw [if_pos (by simp [hphase, hcv, hrun, hi]), record_is] at ht
  obtain rfl := Host.Outcome.next.inj ht
  generalize hw : State.modCharge _ (fun c : Charge => { c with phase := .terminated }) = w
  have hdone : w.charge.phase = .terminated := by rw [← hw]; rfl
  obtain ⟨f, g, hanchor, hknown⟩ := anchorTermination_kp w w.vregEff
  obtain ⟨f', g', hwrite, hkept⟩ := writeGauge_kp (w.anchorTermination w.vregEff)
  generalize hv : (w.anchorTermination w.vregEff).writeGauge = v' at hwrite ⊢
  have hcharge : v'.charge = w.charge := by rw [hwrite, hanchor]
  have hgauge : v'.gauge.socQualified = true := by
    rw [hwrite]
    refine hkept.trans ?_
    rw [hanchor]
    exact hknown
  obtain ⟨C, hset, hC, -, -, -, -, -, -, hzero⟩ := chargeSetpoint_is v'
  rw [hcharge] at hC hzero
  obtain ⟨hI, hR⟩ := hzero (.inr hdone)
  rw [hset]
  exact ⟨hC.trans hdone, hI, hR, hgauge⟩

/-- A thermal restart: the cause gone, half the fast budget, once (R207). -/
theorem thermalRestart_is (t : Nat) (hclear : s.charge.clearSince = some t) (hup : s.hubUp = true) (hcycling : s.cycling = true)
    (hcause : s.hasCause 6 = true) (hdue : t + 60000000 ≤ s.now) (hlimits : s.limitsAbsent = true) :
    ∃ u, execThermalRestart s = .next u ∧ u.hasCause 6 = false ∧ u.charge.fastS = 0 ∧ u.charge.fastBudgetS = s.tmrFast / 2 ∧
      u.charge.restartUsed = true ∧ u.charge.phase = s.phaseFor s.gauge.vBat := by
  obtain ⟨u, hu⟩ := exec_answers .thermalRestart s
  refine ⟨u, hu, ?_⟩
  have hdue : s.passed t (secTicks 600) = true := decide_eq_true hdue
  change execThermalRestart s = _ at hu
  unfold execThermalRestart at hu
  rw [hclear] at hu
  dsimp only at hu
  rw [if_pos (by simp [hup, hcycling, hcause, hdue, hlimits])] at hu
  obtain rfl := Host.Outcome.next.inj hu
  obtain ⟨C, hset, hphase, hcauses, hfast, hbudget, hused, -⟩ := chargeSetpoint_is ((s.clearCause 6).modCharge (fun c => { c with
    fastS := 0, fastBudgetS := (s.clearCause 6).tmrFast / 2, restartUsed := true, clearSince := none
    phase := (s.clearCause 6).phaseFor (s.clearCause 6).gauge.vBat }))
  rw [hset]
  have hcleared := clearCause_clears s 6
  refine ⟨?_, hfast, hbudget, hused, hphase⟩
  exact (congrArg (fun m : BitVec 16 => m.getLsbD 5) hcauses).trans hcleared

end

/-- Settles O41: phases by `advance_is` and `terminate_is`, suspensions by `suspend_is`, the restart by `thermalRestart_is`. -/
theorem chargePhasesAndTimers : Obligations.ChargePhasesAndTimers := by
  unfold Obligations.ChargePhasesAndTimers
  refine ⟨⟨fun v i s hup hphase hv hi => ?_, fun v i s hoff => ?_, fun v i s hup hphase hv => ?_, fun v i s hup hphase hcv => ?_,
    fun v i s hup hphase hcv hrun hi => terminate_is s v i hup hphase hcv hrun hi, fun v i s hoff => ?_, fun v i s hup hphase hv => ?_⟩,
    fun s hup hdue => ?_, fun s htrickle hpre => ?_, fun s hup hphase hdue h6 h7 h8 => ?_,
    fun t s hclear hup hcycling hcause hdue hlimits => thermalRestart_is s t hclear hup hcycling hcause hdue hlimits,
    fun v s hup hpresent hv => ?_, fun v s hv => ?_⟩
  · obtain ⟨hto, -, -, hgauge⟩ := advance_is s (fun c => { c with phase := .precharge }) _ rfl
    exact ⟨_, (if_neg (by simp [hup])).trans (if_pos (by simp only [hphase, hv, hi, decide_true, Bool.and_self])), hto, hgauge⟩
  · change execChargePhaseAdvance .toPrecharge v i s = _
    unfold execChargePhaseAdvance
    dsimp only
    rw [ite_eq_left_iff]
    intro _
    refine if_neg ?_
    rcases hoff with h | h
    · simp only [not_le.2 h, decide_false, Bool.and_false, Bool.false_and, Bool.false_eq_true, not_false_eq_true]
    · simp only [not_le.2 h, decide_false, Bool.and_false, Bool.false_eq_true, not_false_eq_true]
  · obtain ⟨hto, -, -, hgauge⟩ := advance_is s (fun c => { c with phase := .cc }) _ rfl
    exact ⟨_, (if_neg (by simp [hup])).trans (if_pos (by simp only [hphase, hv, decide_true, Bool.and_self])), hto, hgauge⟩
  · obtain ⟨hto, -, -, hgauge⟩ := advance_is s (fun c => { c with phase := .cv }) _ rfl
    exact ⟨_, (if_neg (by simp [hup])).trans (if_pos (by simp only [hphase, hcv, decide_true, Bool.and_self])), hto, hgauge⟩
  · change execChargePhaseAdvance .terminate v i s = _
    unfold execChargePhaseAdvance
    dsimp only
    rw [ite_eq_left_iff]
    intro _
    refine if_neg ?_
    rcases hoff with h | h | h | h
    · simp [h]
    · simp [h]
    · simp [h]
    · simp [not_lt.2 h]
  · obtain ⟨hto, hfast, hbudget, -⟩ := advance_is s (fun c => { c with phase := s.phaseFor v, fastS := 0, fastBudgetS := s.tmrFast }) _ rfl
    exact ⟨_, (if_neg (by simp [hup])).trans (if_pos (by simp only [hphase, hv, decide_true, Bool.and_self])), hto, hfast, hbudget⟩
  · refine ⟨_, if_pos (by simpa [hup] using hdue), suspend_is s _ ?_ ?_ _ rfl⟩
    · split <;> decide
    · split <;> decide
  · exact if_neg (by simp only [not_le.2 htrickle, not_le.2 hpre, decide_false, Bool.and_false, Bool.or_self, Bool.false_eq_true, not_false_eq_true])
  · obtain ⟨hhas, hI, hR, -⟩ := suspend_is s (if s.charge.restartUsed then 8 else if s.charge.thermal then 6 else 7)
      (by split_ifs <;> decide) (by split_ifs <;> decide) _ rfl
    exact ⟨_, if_pos (by simpa [hup, hdue, h6, h7, h8] using hphase), hI, hR, hhas⟩
  · obtain ⟨hhas, hI, hR, -⟩ := suspend_is s 4 (by decide) (by decide) _ rfl
    exact ⟨_, if_pos (by simp only [hup, hpresent, hv, decide_true, Bool.and_self]), hhas, hI, hR⟩
  · exact if_neg (by simp only [not_lt.2 hv, decide_false, Bool.and_false, Bool.false_eq_true, not_false_eq_true])

end Sys2Proof.Machine
end

section
/-! The charge backstop, battery presence and the gauge (O42; R206-R214, R219-R234). -/

namespace Sys2Proof.Machine

section
variable (s : State)

/-! ### Presence and removal -/

/-- A cycle that starts in SUPPLY holds its round at zero; the battery stays present and the causes as they were (R198). -/
theorem startCycle_is : ∃ C, s.startCycle = { s with charge := C } ∧ C.present = s.charge.present ∧ C.causes = s.charge.causes ∧
    (s.cfg.on 0 0 = true → s.charge.present = true → s.aon.mode = some .supply → C.startRound = true ∧ C.phase = .idle ∧ C.iSet = 0) := by
  unfold State.startCycle
  split
  · exact ⟨_, rfl, rfl, rfl, fun _ _ _ => ⟨rfl, rfl, rfl⟩⟩
  · next h => exact ⟨s.charge, rfl, rfl, rfl, fun hon hpresent hmode => absurd (by simp [hon, hpresent, hmode]) h⟩

/-- Presence qualifies: the battery stands, its NTC cause gone, and in SUPPLY a cycle starts (R206). -/
theorem presenceQualified_is (v : Volt) (hup : s.hubUp = true) (habsent : s.charge.present = false) (hntc : s.ntcValid = true)
    (hwait : s.charge.requalAfter ≤ s.now) (hlane : s.cfg.battLane.isSome = true) :
    ∃ u, execPresenceQualified v s = .next u ∧ u.charge.present = true ∧ u.hasCause 3 = false ∧ u.gauge.vBat = v ∧
      (s.cfg.on 0 0 = true → s.aon.mode = some .supply → u.charge.startRound = true ∧ u.charge.phase = .idle ∧ u.charge.iSet = 0) := by
  obtain ⟨t, ht⟩ := exec_answers (.presenceQualified v) s
  refine ⟨t, ht, ?_⟩
  change execPresenceQualified v s = _ at ht
  unfold execPresenceQualified at ht
  rw [if_pos (by simp [hup, habsent, hntc, hwait, hlane])] at ht
  extract_lets w1 w2 G w3 H w4 at ht
  obtain rfl := Host.Outcome.next.inj ht
  have hw2 : w2.charge = (w1.clearCause 3).charge ∧ w2.cfg = s.cfg ∧ w2.aon = s.aon := by
    obtain ⟨f, g, l, hanchor⟩ := presenceAnchor_kp (w1.clearCause 3) v
    rw [show w2 = _ from hanchor]
    exact ⟨rfl, rfl, rfl⟩
  have hcleared : (w1.clearCause 3).hasCause 3 = false := clearCause_clears w1 3
  clear_value w2
  have hw4 : w4.charge = w2.charge ∧ w4.cfg = w2.cfg ∧ w4.aon = w2.aon ∧ w4.gauge.vBat = v := by
    unfold w4
    split
    · exact ⟨rfl, rfl, rfl, rfl⟩
    · exact ⟨rfl, rfl, rfl, rfl⟩
  clear_value w4
  obtain ⟨hcharge, hcfg, haon, hvbat⟩ := hw4
  obtain ⟨C, hcycle, hpresent, hcauses, hstarts⟩ := startCycle_is w4
  have hthere : w4.charge.present = true := by
    rw [hcharge, hw2.1]
    rfl
  rw [hcycle]
  refine ⟨hpresent.trans hthere, ?_, hvbat, fun hon hmode => hstarts ?_ hthere ?_⟩
  · unfold State.hasCause at hcleared ⊢
    rw [← hcleared]
    refine congrArg (fun m : BitVec 16 => m.getLsbD (3 - 1)) (hcauses.trans ?_)
    rw [hcharge, hw2.1]
  · rw [hcfg, hw2.2.1]
    exact hon
  · rw [haon, hw2.2.2]
    exact hmode

/-- A removal ends the cycle and the presence; with the NTCs open its cause stands (R207, R208). -/
theorem removed_charge (d : RemovalDetector) (v : Volt) (i : Amp) : ∀ w, w = (s.removalCleared d v i).removalCause d →
    w.charge.present = false ∧ w.charge.phase = .idle ∧ w.charge.iSet = 0 ∧ (d = .ntc → w.hasCause 3 = true) ∧ w.cfg = s.cfg := by
  intro w hw
  have hcleared : ∀ r, r = s.removalCleared d v i →
      r.charge.present = false ∧ r.charge.phase = .idle ∧ r.charge.iSet = 0 ∧ r.cfg = s.cfg := by
    intro r hr
    unfold State.removalCleared at hr
    dsimp only at hr
    rw [record_is] at hr
    subst hr
    exact ⟨rfl, rfl, rfl, rfl⟩
  generalize s.removalCleared d v i = r at hw hcleared
  obtain ⟨hpresent, hphase, hiset, hcfg⟩ := hcleared r rfl
  have hset : ∀ (r : State) (code : Nat), (r.setCause code).charge.present = r.charge.present ∧ (r.setCause code).charge.phase = r.charge.phase ∧
      (r.setCause code).charge.iSet = r.charge.iSet ∧ (r.setCause code).cfg = r.cfg := by
    intro r code
    obtain ⟨L, m, k, hcause, -⟩ := setCause_is r code
    rw [hcause]
    exact ⟨rfl, rfl, rfl, rfl⟩
  unfold State.removalCause at hw
  extract_lets recent r' at hw
  by_cases hntc : d = .ntc
  · rw [if_pos hntc] at hw
    obtain ⟨h1, h2, h3, h4⟩ := hset r 3
    rw [hw]
    exact ⟨h1.trans hpresent, h2.trans hphase, h3.trans hiset, fun _ => setCause_has r 3 (by decide), h4.trans hcfg⟩
  · rw [if_neg hntc] at hw
    have hnot : ∀ {q : Prop}, d = .ntc → q := fun h => absurd h hntc
    split at hw
    · split at hw
      · obtain ⟨h1, h2, h3, h4⟩ := hset r' 11
        rw [hw]
        exact ⟨h1.trans hpresent, h2.trans hphase, h3.trans hiset, hnot, h4.trans hcfg⟩
      · rw [hw]
        exact ⟨hpresent, hphase, hiset, hnot, hcfg⟩
    · rw [hw]
      exact ⟨hpresent, hphase, hiset, hnot, hcfg⟩

/-- What a removal leaves: no battery and no charge, and in DIODE the control off and the BATFET open (R207, R208). -/
theorem removeBattery_is (d : RemovalDetector) (v : Volt) (i : Amp) (hpresent : s.charge.present = true) : ∀ u, u = s.removeBattery d v i →
    u.charge.present = false ∧ u.charge.phase = .idle ∧ u.charge.iSet = 0 ∧ (d = .ntc → u.hasCause 3 = true) ∧
      (s.cfg.supplement = false → u.aon.diodeOn = false ∧ u.aon.batfet = .off) := by
  intro u hu
  obtain ⟨hgone, hphase, hiset, hcause, hcfg⟩ := removed_charge s d v i _ rfl
  unfold State.removeBattery at hu
  rw [if_neg (by simp [hpresent])] at hu
  generalize (s.removalCleared d v i).removalCause d = w at *
  extract_lets w0 A H w' at hu
  have hopened : s.cfg.supplement = false → w'.aon.diodeOn = false ∧ w'.aon.batfet = .off := by
    intro hdiode
    have hdiode : ¬w.cfg.supplement = true := by
      rw [hcfg, hdiode]
      decide
    exact ⟨if_neg hdiode, if_neg hdiode⟩
  have hw' : w'.charge = w.charge := rfl
  clear_value w'
  have hsent : u.charge = w'.charge ∧ u.aon = w'.aon := by
    rw [hu]
    split
    · next n _ =>
      obtain ⟨L, N, hsent⟩ := sendNode_is w' n w'.effTick .stopNow id
      rw [hsent]
      exact ⟨rfl, rfl⟩
    · exact ⟨rfl, rfl⟩
  unfold State.hasCause
  rw [hsent.1, hsent.2, hw']
  exact ⟨hgone, hphase, hiset, hcause, hopened⟩

/-! ### The gauge -/

/-- A sample is added to the counter, and waits for the hub's policy as a charge event (R217, R219). -/
theorem execGaugeSample_is (g : GaugePair) (hpowered : s.hubPowered = true) : ∃ u, execGaugeSample g s = .next u ∧
    u.gauge = { s.gauge with sum := s.gauge.sum + BitVec.signExtend 64 g.iCode, lastTick := s.now } ∧
      u.charge = s.charge ∧ u.lanes = s.lanes ∧ (s.hubUp = true → u.events = s.events ++
        [{ cls := .charge, tick := s.now, sub := BitVec.ofNat 8 s.subTick, src := .housekeeping, item := 0, kind := .gaugeSample (s.sampleAmp g.iCode) (sampleVolt g.vCode) }]) := by
  obtain ⟨t, ht⟩ := exec_answers (.gaugeSample g) s
  refine ⟨t, ht, ?_⟩
  change execGaugeSample g s = _ at ht
  unfold execGaugeSample at ht
  rw [if_neg (by simp [hpowered])] at ht
  extract_lets i v G w1 w2 at ht
  have hw2 : ∃ T, w2 = { w1 with tel := T } := by
    unfold w2 State.sampleGauge
    split
    · exact ⟨_, rfl⟩
    · exact ⟨w1.tel, rfl⟩
  obtain ⟨T, hw2⟩ := hw2
  rw [hw2] at ht
  by_cases hup : s.hubUp = true
  · have hrun : w1.hub.hub = .running := by
      change s.hub.hub = .running
      simpa [State.hubUp] using hup
    dsimp only at ht
    rw [hrun] at ht
    obtain rfl := Host.Outcome.next.inj ht
    exact ⟨rfl, rfl, rfl, fun _ => rfl⟩
  · have hnot : ∀ {q : Prop}, s.hubUp = true → q := fun h => absurd h hup
    split at ht
    · obtain rfl := Host.Outcome.next.inj ht
      exact ⟨rfl, rfl, rfl, hnot⟩
    · obtain rfl := Host.Outcome.next.inj ht
      exact ⟨rfl, rfl, rfl, hnot⟩
    · obtain rfl := Host.Outcome.next.inj ht
      exact ⟨rfl, rfl, rfl, hnot⟩

/-- The sample in the decision that uses it: into the round's means (R224). -/
theorem useGauge_is (tick : Nat) (i : Amp) (v : Volt) : ∀ u, u = s.useGauge tick i v →
    u.gauge.iSum = s.gauge.iSum + i ∧ u.gauge.nRound = s.gauge.nRound + 1 ∧ u.gauge.sum = s.gauge.sum ∧ u.charge = s.charge ∧ u.lanes = s.lanes := by
  intro u hu
  unfold State.useGauge at hu
  extract_lets small lane rest x w at hu
  have hw : w.gauge.iSum = s.gauge.iSum + i ∧ w.gauge.nRound = s.gauge.nRound + 1 ∧ w.gauge.sum = s.gauge.sum ∧ w.charge = s.charge ∧
      w.lanes = s.lanes := ⟨rfl, rfl, rfl, rfl, rfl⟩
  clear_value w
  subst hu
  split
  · next r _ =>
    obtain ⟨hsum, -, hround, hisum, hcharge, hlanes⟩ := applyEvent_lk w r
    exact ⟨hisum.trans hw.1, hround.trans hw.2.1, hsum.trans hw.2.2.1, hcharge.trans hw.2.2.2.1, hlanes.trans hw.2.2.2.2⟩
  · exact hw

/-- A learned capacity leaves the rest anchor's note, the settings and the charge (R225, R231). -/
theorem learnCap_rest (q : Rat) : (s.learnCap q).gauge.restDone = s.gauge.restDone ∧ (s.learnCap q).charge = s.charge ∧
    (s.learnCap q).cfg = s.cfg := by
  unfold State.learnCap
  split
  · dsimp only
    generalize hw : ({ s with gauge := _ } : State) = w
    have hkept : w.gauge.restDone = s.gauge.restDone ∧ w.charge = s.charge ∧ w.cfg = s.cfg := by
      rw [← hw]
      exact ⟨rfl, rfl, rfl⟩
    by_cases hup : w.hubUp = true
    · obtain ⟨f, hwrite⟩ := writeGauge_is w hup
      rw [hwrite]
      exact hkept
    · unfold State.writeGauge
      rw [if_neg hup]
      exact hkept
  · exact ⟨rfl, rfl, rfl⟩

/-- A rest anchor sets the charge from the table, unless an LFP cell rests on its plateau (R226). -/
theorem anchorAtRest_is (v : Volt) : ∀ u, u = s.anchorAtRest v →
    u.gauge.socQualified = true ∧ u.gauge.restDone = true ∧ u.charge = s.charge ∧
      (if s.lfp = true ∧ 325 / 100 ≤ v / s.cells ∧ v / s.cells ≤ 333 / 100 ∧ s.gauge.socQualified = true then u.gauge.qRem = s.gauge.qRem
        else u.gauge.qRem = s.tableSoc v * u.gauge.qFcc ∧ u.gauge.sinceAnchorAh = 0 ∧ u.gauge.anchorTerm = false) := by
  intro u hu
  unfold State.anchorAtRest at hu
  extract_lets cell flat G w x was w1 w2 at hu
  have hflat : flat = true ↔ s.lfp = true ∧ 325 / 100 ≤ v / s.cells ∧ v / s.cells ≤ 333 / 100 ∧ s.gauge.socQualified = true := by
    unfold flat cell
    simp only [Bool.and_eq_true, decide_eq_true_eq, and_assoc]
  by_cases h : flat = true
  · rw [if_pos h] at hu
    rw [if_pos (hflat.1 h), hu]
    exact ⟨(hflat.1 h).2.2.2, rfl, rfl, rfl⟩
  · rw [if_neg h] at hu
    rw [if_neg (fun hplateau => h (hflat.2 hplateau))]
    have hw1 : w1.gauge.restDone = true ∧ w1.charge = s.charge := by
      unfold w1
      split
      · obtain ⟨hdone, hcharge, -⟩ := learnCap_rest w (ratio (-w.gauge.sinceAnchorAh) (1 - x))
        exact ⟨hdone.trans rfl, hcharge⟩
      · exact ⟨rfl, rfl⟩
    clear_value w1
    rw [hu]
    exact ⟨rfl, hw1.1, hw1.2, rfl, rfl, rfl⟩

/-- A removal that the lane die has seen: the gang in standby, and its presence event (R207, R214). -/
theorem execRemovalIndication_seen (n : Lane) (v : Volt) (i : Amp) (hlane : s.cfg.battLane = some n)
    (hseen : (s.cfg.gang n).any (fun m => (s.lane m).removalSeen) = true) : ∃ u, execRemovalIndication .voltageStep v i s = .next u ∧
      u.lanes = ((s.cfg.gang n).foldl (fun s m => s.modLane m LaneDie.toStandby) s).lanes ∧ u.events = s.events ++
        [{ cls := .presence, tick := s.now, sub := BitVec.ofNat 8 s.subTick, src := .lane n, item := n.val, kind := .removal .voltageStep v i }] := by
  obtain ⟨t, ht⟩ := exec_answers (.removalIndication .voltageStep v i) s
  refine ⟨t, ht, ?_⟩
  change execRemovalIndication .voltageStep v i s = _ at ht
  unfold execRemovalIndication at ht
  rw [hlane] at ht
  dsimp only at ht
  rw [if_pos hseen] at ht
  obtain rfl := Host.Outcome.next.inj ht
  obtain ⟨L, hgang⟩ : ∃ L, (s.cfg.gang n).foldl (fun s m => s.modLane m LaneDie.toStandby) s = { s with lanes := L } :=
    foldl_inv (fun w => ∃ L, w = { s with lanes := L }) _ _ s ⟨s.lanes, rfl⟩ (fun w m h => by
      obtain ⟨L, rfl⟩ := h
      exact ⟨_, rfl⟩)
  rw [hgang]
  exact ⟨rfl, rfl⟩

/-- A full half of the learned records is compacted into the other (R234). -/
theorem execLearnedStateCompaction_is (hup : s.hubUp = true) (hflash : s.therm.flashShut = false) (a b : Fin 2)
    (ha : a = s.flash.learnedActive) (hb : b = if a = 0 then 1 else 0) (hfull : learnedSlots ≤ (s.flash.learned.get a).length) :
    ∃ u, execLearnedStateCompaction s = .next u ∧ u.flash.learnedActive = b ∧ u.flash.learned.get a = [] ∧
      u.flash.learned.get b = compactLearned (s.flash.learned.get b ++ s.flash.learned.get a) := by
  have hne : a ≠ b := by
    rw [hb]
    exact (by decide : ∀ a : Fin 2, a ≠ if a = 0 then 1 else 0) a
  subst ha hb
  refine ⟨_, if_pos (by simp only [hup, hfull, hflash, decide_true, Bool.not_false, Bool.and_self]), rfl, ?_, ?_⟩
  · exact (vput_get_other _ _ _ _ hne).trans (vput_get_same ..)
  · exact vput_get_same ..

end

/-- Settles O42: presence by `presenceQualified_is` and `removeBattery_is`, the gauge by `execGaugeSample_is`, `useGauge_is` and
`anchorAtRest_is`. -/
theorem presenceBackstopAndGauge : Obligations.PresenceBackstopAndGauge := by
  unfold Obligations.PresenceBackstopAndGauge
  refine ⟨⟨fun n i s hbatt hup => ?_, fun n s hbatt htripped hcounted => ?_, fun n s hcounted => ?_, fun e s he => ?_,
    fun n s hbatt hidle => ?_, fun v s hup habsent hntc hwait hlane => presenceQualified_is s v hup habsent hntc hwait hlane,
    fun n v i s hlane hseen => execRemovalIndication_seen s n v i hlane hseen, fun d v i s hup hwhen => ?_, fun e d v i s he => ?_,
    fun d v i s hpresent => removeBattery_is s d v i hpresent _ rfl, fun s hvaon => if_pos hvaon⟩,
    fun g s hpowered => execGaugeSample_is s g hpowered, fun g s hpowered => ?_, fun e i v s he => ?_, fun v s hup hpresent hrest => ?_,
    fun v s hrest => ?_, fun s hup htime hmoved => ?_, fun s htime => ?_, fun s hup hflash hfull =>
    execLearnedStateCompaction_is s hup hflash _ _ rfl rfl hfull⟩
  · refine ⟨_, if_pos (by simp [hbatt, hup]), ⟨rfl, fun m hm => State.modLane_other s n m _ hm⟩, fun hcharge => ?_, fun hidle => ?_⟩
    · rw [State.modLane_lane]
      exact if_pos hcharge
    · rw [State.modLane_lane]
      exact if_neg (not_lt.2 hidle)
  · refine ⟨_, if_pos (by simp [hbatt, htripped, hcounted]), ⟨rfl, fun m hm => State.modLane_other s n m _ hm⟩, ?_, ?_, rfl⟩
    · exact congrArg (fun l : LaneDie => l.backstop.tripped) (State.modLane_lane ..)
    · exact congrArg (fun l : LaneDie => l.loop.iSet) (State.modLane_lane ..)
  · exact if_neg (by simp [Nat.not_le.2 hcounted])
  · unfold State.useEvent
    rw [he]
  · refine ⟨_, if_pos (by simp [hbatt, hidle]), ⟨rfl, fun m hm => State.modLane_other s n m _ hm⟩, ?_⟩
    rw [State.modLane_lane]
  · rcases hwhen with ⟨rfl, hntc⟩ | ⟨rfl, hrun⟩
    · exact ⟨_, if_pos (by simp [hup, hntc]), rfl, rfl, rfl⟩
    · exact ⟨_, if_pos (by simp [hup, hrun]), rfl, rfl, rfl⟩
  · unfold State.useEvent
    rw [he]
  · exact if_pos (by simp [hpowered])
  · unfold State.useEvent
    rw [he]
    exact useGauge_is s e.tick i v _ rfl
  · exact ⟨_, if_pos (by simp [hup, hpresent, hrest]), anchorAtRest_is s v _ rfl⟩
  · exact if_neg (by simp [hrest])
  · have htime : s.passed s.gauge.lastRecTick (secTicks 600) = true := decide_eq_true htime
    obtain ⟨f, hwrite⟩ := writeGauge_is s hup
    refine ⟨_, (if_pos (by simp only [hup, htime, hmoved, decide_true, Bool.and_self])).trans (congrArg Host.Outcome.next hwrite), rfl, rfl, rfl, rfl⟩
  · have htime : s.passed s.gauge.lastRecTick (secTicks 600) = false := decide_eq_false (Nat.not_le.2 htime)
    exact if_neg (by simp only [htime, Bool.and_false, Bool.false_and, Bool.false_eq_true, not_false_eq_true])

end Sys2Proof.Machine
end

section
/-! The forecast port (O43; R10, R238-R246, R249, R250). -/

namespace Sys2Proof.Machine

section
variable (s : State)

/-- What the forecast port has of a frame: its block, its demands, its answer. -/
structure FcstKept (s t : State) : Prop where
  blockStart : t.fcst.blockStart = s.fcst.blockStart
  lastFrame : t.fcst.lastFrame = s.fcst.lastFrame
  block : t.fcst.block = s.fcst.block
  lastN : t.fcst.lastN = s.fcst.lastN
  fdo : t.fcst.fdo = s.fcst.fdo
  revoked : t.fcst.revoked = s.fcst.revoked
  demands : t.fcst.demands = s.fcst.demands
  lanes : t.lanes = s.lanes

theorem hdrmEval_kept : FcstKept s s.hdrmEval := ⟨rfl, rfl, rfl, rfl, rfl, rfl, rfl, rfl⟩

/-- An order of the forecast goes to the lanes of a node alone (R245). -/
theorem fcstSend_is (n : Lane) (f : LaneOrder → LaneOrder) : ∃ L N, s.fcstSend n f = { s with lanes := L, nodes := N } := by
  obtain ⟨L, N, hsent⟩ := sendNode_is s n s.effTick .keep f
  unfold State.fcstSend
  rw [hsent]
  exact ⟨L, _, rfl⟩

/-- The unlocked port has no demand and no preparation; pairs and ports stay (R242). -/
theorem fcstUnlock_keeps : ∀ u, u = s.fcstUnlock → u.conns = s.conns ∧ u.ports = s.ports := by
  intro u hu
  unfold State.fcstUnlock at hu
  extract_lets lanes w at hu
  subst hu
  split
  · refine foldl_inv (fun t : State => t.conns = s.conns ∧ t.ports = s.ports) _ lanes w ⟨rfl, rfl⟩ fun t n ht => ?_
    obtain ⟨L, N, hsent⟩ := fcstSend_is t n (fun o => { o with floor := 0, warm := false, iBias := 0, biasSlew := 0 })
    rw [hsent]
    exact ht
  · exact ⟨rfl, rfl⟩

/-! ### Frames -/

/-- A frame start begins a block, with the frame of the allowances for it (R238, R239). -/
theorem execForecastFrameStart_is (n : Fin 16) (hio : s.ioUp = true) :
    ∃ u, execForecastFrameStart n s = .next u ∧ u.fcst.blockStart = s.now ∧ u.fcst.lastFrame = some s.now ∧
      u.fcst.block = (match s.fcst.lastFrame with
        | some f => s.frameBlock + max 1 ((2 * (s.now - f) + s.blockT) / (2 * s.blockT))
        | none => s.fcst.block + 1) ∧
      u.fcst.lastN = n.val + 1 ∧ u.fcst.fdo = s.fdoFrame n.val u.fcst.block ∧ u.fcst.revoked = false ∧ u.fcst.demands = s.fcst.demands ∧ u.lanes = s.lanes := by
  obtain ⟨t, ht⟩ := exec_answers (.forecastFrameStart n) s
  refine ⟨t, ht, ?_⟩
  change execForecastFrameStart n s = _ at ht
  unfold execForecastFrameStart at ht
  rw [if_neg (by simp [hio])] at ht
  extract_lets k b words fdo w at ht
  obtain rfl := Host.Outcome.next.inj ht
  obtain ⟨hstart, hlast, hblock, hn, hfdo, hrevoked, hdemands, hlanes⟩ := hdrmEval_kept w
  have hself : w.hdrmEval.fcst.block = b := hblock
  exact ⟨hstart, hlast, hblock, hn, by rw [hself]; exact hfdo, hrevoked, hdemands, hlanes⟩

section
variable (f : FdiFrame) (w : Half) (n : Nat) (hio : s.ioUp = true) (hon : s.cfg.on 12 0 = true) (hhead : f.words.head? = some w)
  (hn : ((w >>> 8) &&& 15).toNat = n)
include hio hon hhead hn

/-- A frame whose first word is known: judged by its length, its check word, its version, its interval (R240, R241). -/
theorem handover_is : execForecastFrameHandover f s =
    if !f.complete || f.words.length != n + 4 then .next (s.fcstDiscard (fun x => { x with lenErr := satInc 32 x.lenErr }))
    else if f.words[n + 3]? != some (crc16 (unitBytes (f.words.take (n + 3)))) then
      .next (s.fcstDiscard (fun x => { x with crcErr := satInc 32 x.crcErr }))
    else if w >>> 12 != 1 then .next (s.fcstDiscard (fun x => { x with verErr := satInc 32 x.verErr }))
    else if !s.fcst.fresh && !s.intervalOk f.intervalNs then .next (s.fcstDiscard (fun x => { x with intErr := satInc 32 x.intErr }))
    else .next (s.modFcst (fun x => { x with
      waiting := x.waiting ++ [(s.now, frameDemands s.frameBlock ((f.words.take (n + 3)).drop 2))]
      lastSeq := BitVec.ofNat 8 w.toNat, handed := bvSatInc x.handed, lateFrames := if f.late then satInc 32 x.lateFrames else x.lateFrames
      locked := x.locked || (decide (0 < x.run) && s.intervalOk f.intervalNs), run := x.run + 1, fresh := false
      lastHanded := (s.fcst.lastFrame).getD s.now, blockCode := s.cfg.get 12 1 })) := by
  have hw : (f.words.head?).getD 0 = w := by rw [hhead]; rfl
  unfold execForecastFrameHandover
  rw [if_neg (by simp [hio, hon])]
  dsimp only
  rw [hw, hn]

end

/-- The demands of a frame wait for the decision after the tick of their stamp (R243). -/
theorem landDemands_one (t m : Nat) (l : List Demand) (hwaiting : s.fcst.waiting = [(t, l)]) :
    (ixBefore t m = true → (s.landDemands m).fcst.waiting = [] ∧ ∀ d ∈ l, d ∈ (s.landDemands m).fcst.demands) ∧
    (ixBefore t m = false → (s.landDemands m).fcst.waiting = [(t, l)] ∧ (s.landDemands m).fcst.demands = s.fcst.demands) := by
  unfold State.landDemands State.modFcst
  refine ⟨fun hdue => ⟨by simp [hwaiting, hdue], fun d hd => ?_⟩, fun hlater => by simp [hwaiting, hlater]⟩
  simp [hwaiting, hdue, hd]

/-! ### Preparations -/

/-- A due action is taken once: it leaves the list, and does what it names (R245, R249). -/
theorem prepAct_is (e : PrepEntry) : ∀ u, u = s.prepAct e → u.fcst.prep = s.fcst.prep.filter (· != e) ∧ u.fcst.demands = s.fcst.demands ∧
    u.conns = s.conns ∧ (e.act = .allocationRaise → ∀ y ∈ u.fcst.prepared, y.block = e.step → y.raised = true) ∧
      (e.act = .bias → u.fcst.biasFrom = some s.effTick) := by
  intro u hu
  unfold State.prepAct at hu
  extract_lets w at hu
  have hw : w.fcst.prep = s.fcst.prep.filter (· != e) ∧ w.fcst.demands = s.fcst.demands ∧ w.conns = s.conns := ⟨rfl, rfl, rfl⟩
  have htick : w.effTick = s.effTick := rfl
  clear_value w
  obtain ⟨hprep, hdemands, hconns⟩ := hw
  cases hact : e.act with
  | allocationRaise =>
    rw [hact] at hu
    subst hu
    refine ⟨hprep, hdemands, hconns, fun _ y hy hblock => ?_, nofun⟩
    obtain ⟨x, -, rfl⟩ := List.mem_map.1 hy
    split at hblock
    · next h => exact congrArg _ (if_pos h)
    · next h => exact absurd hblock h
  | warm =>
    rw [hact] at hu
    obtain ⟨L, N, hsent⟩ := fcstSend_is w e.lane (fun o => { o with warm := true })
    rw [hu, hsent]
    exact ⟨hprep, hdemands, hconns, nofun, nofun⟩
  | floorStep =>
    rw [hact] at hu
    obtain ⟨L, N, hsent⟩ := fcstSend_is w e.lane (fun o => { o with floor := e.value.floor.toNat, stepPending := true })
    rw [hu, hsent]
    exact ⟨hprep, hdemands, hconns, nofun, nofun⟩
  | bias =>
    rw [hact] at hu
    obtain ⟨L, N, hsent⟩ := fcstSend_is w e.lane (fun o => { o with iBias := e.value, biasSlew := 1000 })
    rw [hu, hsent]
    exact ⟨hprep, hdemands, hconns, nofun, fun _ => congrArg some htick⟩

end

/-- Settles O43: frames by `execForecastFrameStart_is` and `handover_is`, demands by `landDemands_one`, preparations by
`prepAct_is`. -/
theorem theForecastPort : Obligations.TheForecastPort := by
  unfold Obligations.TheForecastPort
  refine ⟨⟨fun n s hio => execForecastFrameStart_is s n hio, fun n s hio => ?_,
    fun f w s hio hon hhead hwhole hlength hversion hcheck hinterval => ?_, fun t m l s hwaiting => landDemands_one s t m l hwaiting,
    fun f w s hio hon hhead => ⟨fun hlength => ?_, fun hwhole hcheck => ?_, fun hwhole hcheck hversion => ?_,
      fun hwhole hcheck hversion hfresh hinterval => ?_⟩, fun k s hlast hdue => ?_, fun s hearly => ?_⟩,
    fun s hlocked hlost => ?_, fun s hlost => ?_, fun n a s hup hdue => ?_, fun n a s hearly => ?_, fun t n s hup hbias hlane hdue => ?_⟩
  · exact if_pos (by simp [hio])
  · have hinterval : (!s.fcst.fresh && !s.intervalOk f.intervalNs) = false := by
      rcases hinterval with h | h <;> simp [h]
    have hjudged := handover_is s f w _ hio hon hhead rfl
    generalize ((w >>> 8) &&& 15).toNat = n at *
    exact ⟨_, hjudged.trans ((if_neg (by simp [hwhole, hlength])).trans ((if_neg (by simp [hcheck])).trans
      ((if_neg (by simp [hversion])).trans (if_neg (by simp [hinterval]))))), rfl, rfl, rfl, rfl, rfl, rfl, rfl⟩
  · have hjudged := handover_is s f w _ hio hon hhead rfl
    generalize ((w >>> 8) &&& 15).toNat = n at *
    refine hjudged.trans (if_pos ?_)
    rw [not_and_or] at hlength
    rcases hlength with h | h <;> simp [h]
  · have hjudged := handover_is s f w _ hio hon hhead rfl
    generalize ((w >>> 8) &&& 15).toNat = n at *
    exact hjudged.trans ((if_neg (by simp [hwhole])).trans (if_pos (by simp [hcheck])))
  · have hjudged := handover_is s f w _ hio hon hhead rfl
    generalize ((w >>> 8) &&& 15).toNat = n at *
    exact hjudged.trans ((if_neg (by simp [hwhole])).trans ((if_neg (by simp [hcheck])).trans (if_pos (bne_iff_ne.2 hversion))))
  · have hjudged := handover_is s f w _ hio hon hhead rfl
    generalize ((w >>> 8) &&& 15).toNat = n at *
    exact hjudged.trans ((if_neg (by simp [hwhole])).trans ((if_neg (by simp [hcheck])).trans
      ((if_neg (by simp [hversion])).trans (if_pos (by simp [hfresh, hinterval])))))
  · obtain ⟨hstart, -, hblock, -, -, -, -, hlanes⟩ := hdrmEval_kept (s.modFcst (fun f => { f with
      block := f.block + 1, blockStart := f.blockStart + s.blockT }))
    exact ⟨_, if_pos (by simp [hlast, hdue]), hblock, hstart, hlanes⟩
  · exact if_neg (by simp [Nat.not_le.2 hearly])
  · obtain ⟨-, -, hfcst⟩ := fcstUnlock_is s _ rfl
    refine ⟨_, if_pos (by simp [hlocked, hlost]), ?_, ?_, ?_, ?_, ?_, ?_, fcstUnlock_keeps s _ rfl⟩
    · rw [hfcst]
    · rw [hfcst]
    · rw [hfcst]
    · rw [hfcst]
    · rw [hfcst]
    · rw [hfcst]
  · exact if_neg (by simp [hlost])
  · obtain ⟨e, he, hact, hlane, hat⟩ := hdue
    have hsome : (s.fcst.prep.find? (fun e => e.act == a && (e.lane == n || a == .allocationRaise) && decide (e.at_ ≤ s.effTick))).isSome = true := by
      refine List.find?_isSome.2 ⟨e, he, ?_⟩
      rcases hlane with h | h <;> simp [hact, h, hat]
    obtain ⟨x, hx⟩ := Option.isSome_iff_exists.1 hsome
    have hguard := List.find?_some hx
    have hmem := List.mem_of_find?_eq_some hx
    simp only [Bool.and_eq_true, Bool.or_eq_true, beq_iff_eq, decide_eq_true_eq] at hguard
    obtain ⟨⟨hxact, hxlane⟩, hxat⟩ := hguard
    obtain ⟨hprep, hdemands, hconns, hraise, hbias⟩ := prepAct_is s x _ rfl
    refine ⟨s.prepAct x, x, ?_, hmem, hxact, hxlane, hxat, hprep, hdemands, hconns, fun h => hraise (hxact.trans h), fun h => hbias (hxact.trans h)⟩
    change execPrepositionAction n a s = _
    unfold execPrepositionAction
    rw [hx]
    exact if_pos hup
  · have hnone : s.fcst.prep.find? (fun e => e.act == a && (e.lane == n || a == .allocationRaise) && decide (e.at_ ≤ s.effTick)) = none := by
      rw [List.find?_eq_none]
      intro e he
      simp [Nat.not_le.2 (hearly e he)]
    change execPrepositionAction n a s = _
    unfold execPrepositionAction
    rw [hnone]
  · obtain ⟨L, N, hsent⟩ := fcstSend_is s n (fun o => { o with iBias := 0, biasSlew := 1000 })
    refine ⟨(s.fcstSend n (fun o => { o with iBias := 0, biasSlew := 1000 })).modFcst (fun f => { f with biasFrom := none }), ?_, ?_⟩
    · change execBiasHoldExpiry s = _
      unfold execBiasHoldExpiry
      rw [hbias, hlane]
      exact if_pos (by simp [hup, hdue])
    · rw [hsent]
      exact ⟨rfl, rfl, rfl⟩

end Sys2Proof.Machine
end

section
/-! Telemetry: captures, freezes and publication (O44; R307-R316). -/

namespace Sys2Proof.Machine

section

/-- Of a telemetry unit, what a sample and a stream leave: freeze, capture, the blocks of its channels. -/
structure TelKept (a b : Tel) : Prop where
  frozen : b.frozen = a.frozen
  pending : b.pending = a.pending
  pendingAt : b.pendingAt = a.pendingAt
  capSeq : b.capSeq = a.capSeq
  streams : b.streams = a.streams
  block : ∀ c, (b.chans.get c).block = (a.chans.get c).block

theorem TelKept.trans {a b c : Tel} (h : TelKept a b) (k : TelKept b c) : TelKept a c :=
  ⟨k.1.trans h.1, k.2.trans h.2, k.3.trans h.3, k.4.trans h.4, k.5.trans h.5, fun i => (k.6 i).trans (h.6 i)⟩

theorem fold_block (c : Channel) (up : Bool) (x : Rat) : (c.fold up x).block = c.block := by
  unfold Channel.fold
  dsimp only
  split <;> rfl

theorem sample_kept (t : Tel) (up : Bool) (i : Fin 96) (x : Rat) : TelKept t (t.sample up i x) := by
  refine ⟨rfl, rfl, rfl, rfl, rfl, fun c => ?_⟩
  by_cases hc : c = i
  · subst hc
    exact (congrArg Channel.block (vput_get_same t.chans c _)).trans (fold_block ..)
  · exact congrArg Channel.block (vput_get_other t.chans i c _ hc)

theorem samples_kept (l : List (Fin 96 × Rat)) (t : Tel) : TelKept t (l.foldl (fun t x => t.sample true x.1 x.2) t) := by
  induction l generalizing t with
  | nil => exact ⟨rfl, rfl, rfl, rfl, rfl, fun _ => rfl⟩
  | cons x r ih => exact (sample_kept t true x.1 x.2).trans (ih _)

theorem endRound_is (c : Channel) : c.endRound.block = c.block ∧ c.endRound.seq = c.seq := by
  unfold Channel.endRound
  dsimp only
  split <;> exact ⟨rfl, rfl⟩

variable (s : State)

/-- A publication takes the capture that is due, freezes for it, and stamps what is not frozen (R310, R311, R313). -/
structure Published (cap : Bool) (s u : State) : Prop where
  frozen : u.tel.frozen = (s.tel.frozen || cap)
  pending : u.tel.pending = (s.tel.pending && !cap)
  capSeq : u.tel.capSeq = if cap then s.tel.capSeq + 1 else s.tel.capSeq
  taken : cap = true → u.tel.frozenAt = s.now ∧ u.tel.capTick = BitVec.ofNat 32 s.therm.roundTick ∧
    ∀ c, (u.tel.chans.get c).count = 0 ∧ (u.tel.chans.get c).max = none ∧ (u.tel.chans.get c).seq = s.tel.capSeq + 1
  ended : ∀ c, (u.tel.chans.get c).n = 0
  stamped : s.tel.frozen = false → ∀ c, (u.tel.chans.get c).block.get 5 = BitVec.ofNat 32 s.therm.roundTick
  kept : s.tel.frozen = true → ∀ c, (u.tel.chans.get c).block = (s.tel.chans.get c).block

theorem newRound_block (c : Channel) (cap : Bool) (seq : Word) : ((if cap then c.newInterval seq else c).newRound).block = c.block := by
  cases cap <;> rfl

theorem publish_is (cap : Bool)
    (hcap : (!s.tel.frozen && ((s.tel.pending && s.tel.pendingAt ≤ s.therm.roundTick) || s.tel.streamDue)) = cap) : Published cap s s.publish := by
  unfold State.publish
  dsimp only
  rw [hcap]
  refine ⟨rfl, rfl, rfl, fun htaken => ?_, fun c => ?_, fun hfree c => ?_, fun hfrozen c => ?_⟩
  · subst htaken
    refine ⟨rfl, rfl, fun c => ?_⟩
    simp only [State.modTel, vget_ofFn]
    exact ⟨rfl, rfl, rfl⟩
  · simp only [State.modTel, vget_ofFn]
    rfl
  · simp only [State.modTel, vget_ofFn, newRound_block, hfree]
    rfl
  · simp only [State.modTel, vget_ofFn, newRound_block, hfrozen]
    exact (endRound_is _).1

/-- A stream writes its record and leaves the telemetry as it was but for the streams (R315, R316). -/
theorem streamStep_kept (captured : Bool) (c : HostChan) : ∃ S d, (s.streamStep captured c).tel = { s.tel with streams := S, dropped := d } := by
  unfold State.streamStep
  split
  · exact ⟨s.tel.streams, s.tel.dropped, rfl⟩
  · split
    · exact ⟨_, s.tel.dropped, rfl⟩
    · dsimp only
      split
      · next w hput =>
        obtain ⟨H, hw⟩ := ringPut_is hput
        subst hw
        exact ⟨_, s.tel.dropped, rfl⟩
      · exact ⟨_, _, rfl⟩

theorem streams_kept (captured : State → Bool) (l : List HostChan) :
    ∃ S d, (l.foldl (fun s c => s.streamStep (captured s) c) s).tel = { s.tel with streams := S, dropped := d } := by
  refine foldl_inv (fun t : State => ∃ S d, t.tel = { s.tel with streams := S, dropped := d }) _ l s ⟨s.tel.streams, s.tel.dropped, rfl⟩ fun t c h => ?_
  obtain ⟨S, d, ht⟩ := h
  obtain ⟨S', d', hstep⟩ := streamStep_kept t (captured t) c
  exact ⟨S', d', by rw [hstep, ht]⟩

/-- The whole publication: a capture that a stream takes ends its freeze with it (R315). -/
theorem execTelemetryPublish_is (cap : Bool) (hup : s.hubUp = true)
    (hcap : (!s.tel.frozen && ((s.tel.pending && s.tel.pendingAt ≤ s.therm.roundTick) || s.tel.streamDue)) = cap) :
    ∃ u v, execTelemetryPublish s = .next u ∧ Published cap s v ∧
      u.tel.frozen = (v.tel.frozen && !(s.tel.streamDue && !s.tel.frozen)) ∧
      u.tel = { v.tel with frozen := u.tel.frozen, streams := u.tel.streams, dropped := u.tel.dropped } := by
  unfold execTelemetryPublish
  rw [if_neg (by simp [hup])]
  generalize s.roundSamples = l
  extract_lets w1 c w2 was byStream v w3
  have h1 : TelKept s.tel w1.tel := samples_kept l s.tel
  have hthere : w1.therm = s.therm ∧ w1.now = s.now := ⟨rfl, rfl⟩
  clear_value w1
  have h2 : w2.tel = w1.tel ∧ w2.therm = w1.therm ∧ w2.now = w1.now := by
    unfold w2
    split
    · exact ⟨rfl, rfl, rfl⟩
    · exact ⟨rfl, rfl, rfl⟩
  clear_value w2
  obtain ⟨htel, htherm, hnow⟩ := h2
  obtain ⟨hfrozen, hpending, hat, hseq, hstreams, hblock⟩ := h1
  have hdue : w2.tel.streamDue = s.tel.streamDue := by
    unfold Tel.streamDue
    rw [htel, hstreams]
  have hv : Published cap w2 v := by
    refine publish_is w2 cap ?_
    rw [hdue, htel, hfrozen, hpending, hat, htherm, hthere.1]
    exact hcap
  have hbyStream : byStream = (s.tel.streamDue && !s.tel.frozen) := by
    unfold byStream was
    rw [hdue, htel, hfrozen]
  have hs : Published cap s v := by
    obtain ⟨p1, p2, p3, p4, p5, p6, p7⟩ := hv
    rw [htel, hfrozen] at p1 p6 p7
    rw [htel, hpending] at p2
    rw [htel, hseq] at p3
    rw [htherm, hthere.1] at p6
    rw [htel, hseq, htherm, hthere.1, hnow, hthere.2] at p4
    exact ⟨p1, p2, p3, p4, p5, p6, fun h c => (p7 h c).trans (hblock c)⟩
  clear_value v
  obtain ⟨S, d, h3⟩ := streams_kept v (fun s => !was && s.tel.frozen) (List.finRange 3)
  have h3 : w3.tel = { v.tel with streams := S, dropped := d } := h3
  clear_value w3 byStream
  refine ⟨_, v, rfl, hs, ?_, ?_⟩
  · rw [← hbyStream]
    cases byStream with
    | true =>
      rw [if_pos rfl]
      exact (Bool.and_false _).symm
    | false =>
      rw [if_neg (by decide), h3]
      exact (Bool.and_true _).symm
  · cases byStream with
    | true =>
      rw [if_pos rfl]
      unfold State.modTel
      rw [h3]
    | false =>
      rw [if_neg (by decide), h3]

end

/-- Settles O44: every publication by `execTelemetryPublish_is` for the capture it takes or not. -/
theorem telemetryPublishesAndFreezes : Obligations.TelemetryPublishesAndFreezes := by
  unfold Obligations.TelemetryPublishesAndFreezes
  refine ⟨fun s hup hpending hfrozen hcapturing => ?_, fun s hup hbusy => ?_, fun s hup => ⟨_, if_pos hup, rfl⟩,
    fun s hup hfrozen hdue => ?_, fun s hearly => ?_, fun i c s hup => ?_, fun s hup hfree hdue => ?_, fun s hup hfree hnone => ?_,
    fun s hup hfrozen => ?_⟩
  · exact ⟨_, (if_pos hup).trans (congrArg Host.Outcome.next (if_neg (by simp [hpending, hfrozen, hcapturing]))), rfl⟩
  · exact ⟨_, (if_pos hup).trans (congrArg Host.Outcome.next (if_pos (by simpa [or_assoc] using hbusy))), rfl⟩
  · have hdue : s.passed s.tel.frozenAt (msTicks (s.cfg.get 14 1).toNat) = true := decide_eq_true hdue
    exact ⟨_, if_pos (by simp [hup, hfrozen, hdue]), rfl⟩
  · have hearly : s.passed s.tel.frozenAt (msTicks (s.cfg.get 14 1).toNat) = false := decide_eq_false (Nat.not_le.2 hearly)
    exact if_neg (by simp [hearly])
  · exact ⟨_, if_pos hup, vput_get_same .., rfl, rfl⟩
  · obtain ⟨u, v, hu, hv, hfrozen, hrest⟩ := execTelemetryPublish_is s true hup (by
      rcases hdue with ⟨hpending, hat⟩ | hstream
      · simp [hfree, hpending, hat]
      · simp [hfree, hstream])
    obtain ⟨htime, htick, hchans⟩ := hv.taken rfl
    refine ⟨u, hu, ?_, ?_, ?_, ?_, ?_, fun c => ?_⟩
    · rw [hfrozen, hv.frozen, hfree]
      simp
    · rw [hrest]
      exact hv.pending.trans (by simp)
    · rw [hrest]
      exact hv.capSeq
    · rw [hrest]
      exact htime
    · rw [hrest]
      exact htick
    · rw [hrest]
      obtain ⟨hcount, hmax, hseq⟩ := hchans c
      exact ⟨hcount, hmax, hv.ended c, hseq, hv.stamped hfree c⟩
  · obtain ⟨hpending, hstream⟩ := hnone
    obtain ⟨u, v, hu, hv, hfrozen, hrest⟩ := execTelemetryPublish_is s false hup (by
      cases hp : s.tel.pending with
      | true => simp [hstream, Nat.not_le.2 (hpending hp)]
      | false => simp [hstream])
    refine ⟨u, hu, ?_, ?_, ?_, fun c => ?_⟩
    · rw [hfrozen, hv.frozen, hfree]
      rfl
    · rw [hrest]
      exact hv.pending.trans (by simp)
    · rw [hrest]
      exact hv.capSeq
    · rw [hrest]
      exact ⟨hv.ended c, hv.stamped hfree c⟩
  · obtain ⟨u, v, hu, hv, hkept, hrest⟩ := execTelemetryPublish_is s false hup (by simp [hfrozen])
    refine ⟨u, hu, ?_, ?_, fun c => ?_⟩
    · rw [hkept, hv.frozen, hfrozen]
      simp
    · rw [hrest]
      exact hv.capSeq
    · rw [hrest]
      exact ⟨hv.kept hfrozen c, hv.ended c⟩

end Sys2Proof.Machine
end

section
/-! Host frames: SPI, I2C and the debug UART (O45; R320-R326). -/

namespace Sys2Proof.Machine

/-! ### Addresses and words in bytes -/

/-- A 32-bit address survives its four bytes, most significant first (R320). -/
theorem beNat_beBytes (a : Nat) (ha : a < 2 ^ 32) : beNat (beBytes 4 a) = a := by
  simp only [beNat, beBytes, leBytes, List.reverse_cons, List.reverse_nil, List.nil_append, List.cons_append, List.foldl_cons,
    List.foldl_nil, BitVec.toNat_ofNat]
  omega

/-- A word survives its four bytes, least significant first (R320). -/
theorem u32_le32 (v : Word) (r : List Byte) : BitVec.ofNat 32 (u32 (le32 v.toNat ++ r) 0) = v := by
  have hv : v.toNat < 2 ^ 32 := v.isLt
  have hbytes : u32 (le32 v.toNat ++ r) 0 = v.toNat := by
    simp only [u32, leAt, byteAt, le32, leBytes, List.cons_append, List.getElem?_cons_zero, List.getElem?_cons_succ, Option.getD_some,
      BitVec.toNat_ofNat, Nat.zero_add, Nat.reduceAdd]
    omega
  rw [hbytes, BitVec.ofNat_toNat, BitVec.setWidth_eq]

/-- Four bytes survive the word they make (R320). -/
theorem le32_u32 (b0 b1 b2 b3 : Byte) : le32 (BitVec.ofNat 32 (u32 [b0, b1, b2, b3] 0)).toNat = [b0, b1, b2, b3] := by
  have h0 := b0.isLt
  have h1 := b1.isLt
  have h2 := b2.isLt
  have h3 := b3.isLt
  simp only [u32, leAt, byteAt, le32, leBytes, List.getElem?_cons_zero, List.getElem?_cons_succ, Option.getD_some, Nat.zero_add,
    Nat.reduceAdd, BitVec.toNat_ofNat, List.cons.injEq, and_true]
  refine ⟨?_, ?_, ?_, ?_⟩ <;> (refine BitVec.eq_of_toNat_eq ?_; rw [BitVec.toNat_ofNat]; omega)

theorem beBytes_length (a : Nat) : (beBytes 4 a).length = 4 := rfl

theorem le32_length (a : Nat) : (le32 a).length = 4 := rfl

section
variable (s : State)

/-! ### Which words an interface may touch -/

/-- An interface may read and write the words of its own region (R325). -/
theorem refuses_own (i : Iface) (a : Nat) (w : Option Word) (hlow : 0x10000 ≤ a) (hhigh : a < 0x30000) (hword : a % 4 = 0)
    (hown : (a - 0x10000) / 0x4000 = (ifaceChan i).val) : s.refuses i a w = none := by
  unfold State.refuses
  dsimp only
  rw [if_neg (by omega), if_neg (by omega), if_neg (by omega), if_neg (by omega), if_neg (by omega), if_neg (by omega), if_neg (by omega),
    if_neg (by omega), if_neg (by omega), if_pos hhigh, if_pos hown]

/-- The regions of the other channels are refused for their grant (R325, R337). -/
theorem refuses_other (i : Iface) (a : Nat) (w : Option Word) (hlow : 0x10000 ≤ a) (hhigh : a < 0x28000) (hword : a % 4 = 0)
    (hother : (a - 0x10000) / 0x4000 ≠ (ifaceChan i).val) : s.refuses i a w = some kindGrant := by
  unfold State.refuses
  dsimp only
  rw [if_neg (by omega), if_neg (by omega), if_neg (by omega), if_neg (by omega), if_neg (by omega), if_neg (by omega), if_neg (by omega),
    if_neg (by omega), if_neg (by omega), if_pos (by omega), if_neg hother, if_neg (by omega)]

theorem applyWord_memory (i : Iface) (a : Nat) (v : Word) (hlow : 0x10000 ≤ a) (hhigh : a < 0x30000) :
    s.applyWord i a v = s.memWrite a (le32 v.toNat) := by
  unfold State.applyWord
  rw [if_neg (by omega), if_neg (by omega), if_neg (by omega), if_neg (by omega), if_neg (by omega), if_neg (by omega), if_neg (by omega),
    if_pos hhigh]

theorem hostWord_memory (i : Iface) (a : Nat) (hlow : 0x10000 ≤ a) (hhigh : a < 0x30000) :
    s.hostWord i a = BitVec.ofNat 32 (u32 (s.memRead a 4) 0) := by
  unfold State.hostWord
  rw [if_neg (by omega), if_neg (by omega), if_neg (by omega), if_neg (by omega), if_neg (by omega), if_neg (by omega), if_neg (by omega),
    if_neg (by omega), if_neg (by omega), if_neg (by omega), if_neg (by omega), if_pos hhigh]

/-! ### Frames of one word -/

theorem frameRefusal_one (i : Iface) (a : Nat) (w : Option Word) :
    s.frameRefusal i a [w] = (s.refuses i a w).map (fun k => (a, k)) := by
  unfold State.frameRefusal
  cases h : s.refuses i a w <;> simp [h]

theorem writeFrame_whole (a : Nat) (v : Word) (c : Byte) (h : List Byte) (hh : h = [0x80] ++ beBytes 4 a ++ le32 v.toNat) :
    frameLength (h ++ [c]) = 10 ∧ (h ++ [c]).length = 10 := by
  have hcmd : u8 (h ++ [c]) 0 = 128 := by rw [hh]; rfl
  refine ⟨?_, by rw [hh]; rfl⟩
  unfold frameLength
  rw [hcmd]
  rfl

theorem readFrame_whole (a : Nat) (c : Byte) (h : List Byte) (hh : h = [0x40] ++ beBytes 4 a) :
    frameLength (h ++ [c]) = 6 ∧ (h ++ [c]).length = 6 := by
  have hcmd : u8 (h ++ [c]) 0 = 64 := by rw [hh]; rfl
  refine ⟨?_, by rw [hh]; rfl⟩
  unfold frameLength
  rw [hcmd]
  rfl

/-- The write of one word by SPI or the UART (R320, R321). -/
theorem hostFrame_write (i : Iface) (a : Nat) (v : Word) (c : Byte) (h : List Byte) (hh : h = [0x80] ++ beBytes 4 a ++ le32 v.toNat)
    (ha : a < 2 ^ 32) (hc : c = crc8 h) : s.hostFrame i (h ++ [c]) = match s.refuses i a (some v) with
      | some k => (s.violate i a true k).setOut i [0xFF, 0xE2]
      | none => (s.applyWord i a v).setOut i [0xFF, 0xA0] := by
  have hlen : h.length = 9 := by rw [hh]; rfl
  have hcmd : u8 (h ++ [c]) 0 = 128 := by rw [hh]; rfl
  have hframe : frameLength (h ++ [c]) = 10 := (writeFrame_whole a v c h hh).1
  have haddr : beNat (((h ++ [c]).drop 1).take 4) = a := by
    rw [hh]
    exact beNat_beBytes a ha
  have hdata : dataWords ((h ++ [c]).drop 5) 1 = [v] := by
    rw [hh]
    exact congrArg (fun x => [x]) (u32_le32 v [c])
  have hgood : crc8 ((h ++ [c]).take (10 - 1)) = ((h ++ [c])[10 - 1]?).getD 0 := by
    rw [List.take_left' hlen, List.getElem?_append_right (by rw [hlen]), hlen, hc]
    rfl
  unfold State.hostFrame
  dsimp only
  rw [hcmd, hframe, haddr]
  rw [if_neg (by decide), if_neg (by decide), if_neg (by simp [hgood])]
  rw [show 128 % 64 + 1 = 1 from rfl, hdata]
  rw [show [v].map some = [some v] from rfl, frameRefusal_one]
  cases s.refuses i a (some v) with
  | none => rfl
  | some k => rfl

/-- The read of one word of its own region answers the bytes and their CRC-8 (R320, R322). -/
theorem hostFrame_read (a : Nat) (c : Byte) (h : List Byte) (hh : h = [0x40] ++ beBytes 4 a) (hlow : 0x10000 ≤ a) (hhigh : a < 0x14000)
    (hword : a % 4 = 0) (hc : c = crc8 h) :
    s.hostFrame .spi (h ++ [c]) = s.setOut .spi (readAnswer 0xA0 (le32 (s.hostWord .spi a).toNat)) := by
  have hlen : h.length = 5 := by rw [hh]; rfl
  have hcmd : u8 (h ++ [c]) 0 = 64 := by rw [hh]; rfl
  have hframe : frameLength (h ++ [c]) = 6 := (readFrame_whole a c h hh).1
  have haddr : beNat (((h ++ [c]).drop 1).take 4) = a := by
    rw [hh]
    exact beNat_beBytes a (by omega)
  have hgood : crc8 ((h ++ [c]).take (6 - 1)) = ((h ++ [c])[6 - 1]?).getD 0 := by
    rw [List.take_left' hlen, List.getElem?_append_right (by rw [hlen]), hlen, hc]
    rfl
  have hown : s.refuses .spi a none = none :=
    refuses_own s .spi a none hlow (by omega) hword (by change (a - 0x10000) / 0x4000 = 0; omega)
  have hburst : s.burst .spi a true 1 = (le32 (s.hostWord .spi a).toNat, s) := by
    unfold State.burst State.burstWord
    rw [if_neg (by omega)]
    unfold State.readEffect
    dsimp only
    rw [if_neg (by omega)]
    exact Prod.ext (List.append_nil _) rfl
  unfold State.hostFrame
  dsimp only
  rw [hcmd, hframe, haddr]
  rw [if_neg (by decide), if_pos (by decide), if_neg (by simp [hgood]), show 64 % 64 + 1 = 1 from rfl]
  rw [show List.replicate 1 (none : Option Word) = [none] from rfl, frameRefusal_one, hown, hburst]
  rfl

/-- A word read from memory is its four bytes (R325). -/
theorem le32_hostWord (i : Iface) (a : Nat) (hlow : 0x10000 ≤ a) (hhigh : a < 0x30000) :
    le32 (s.hostWord i a).toNat = s.memRead a 4 := by
  rw [hostWord_memory s i a hlow hhigh]
  exact le32_u32 _ _ _ _

/-- A complete SPI frame is judged whole (R320). -/
theorem execSpiFrame_whole (b : List Byte) (hup : s.hostUp = true) (hlen : frameLength b ≤ b.length) :
    execSpiFrame b s = .next (s.hostFrame .spi b) :=
  (if_neg (by simp [hup])).trans (if_neg (Nat.not_lt.2 hlen))

/-- The first violation since a clear is captured with its interface and address (R337). -/
theorem violate_first (i : Iface) (a : Nat) (write : Bool) (kind : BitVec 2) (hfirst : s.host.viol.valid = false) :
    let x := (s.violate i a write kind).host.viol
    x.valid = true ∧ x.iface = BitVec.ofNat 2 (ifaceIx i).val ∧ x.addr = BitVec.ofNat 32 a := by
  simp [State.violate, hfirst]

/-- The write of one word by I2C (R323). -/
theorem i2cTransfer_write (a : Nat) (v : Word) (x : I2cTransfer) (hup : s.hostUp = true) (htarget : x.target = i2cAddress s.aon.straps.i2cAddr)
    (hwf : Memory.wf s.host.mem) (hlow : 0x14000 ≤ a) (hhigh : a < 0x18000) (hword : a % 4 = 0) (haddr : x.addr = beBytes 4 a)
    (hdata : x.data = le32 v.toNat) (hread : x.readBytes = 0) : ∃ u, execI2cTransfer x s = .next u ∧ u.memRead a 4 = le32 v.toNat ∧
      u.host.out.get 1 = List.replicate 8 0 ∧ u.host.viol = s.host.viol := by
  have hown : ∀ w, s.refuses .i2c a w = none := fun w =>
    refuses_own s .i2c a w (by omega) (by omega) hword (by change (a - 0x10000) / 0x4000 = 1; omega)
  have ha : beNat (x.addr.take 4) = a := by
    rw [haddr]
    exact beNat_beBytes a (by omega)
  have hshut : s.i2cShut a = none := by
    unfold State.i2cShut
    rw [hown]
  have hput : s.hostWrite .i2c a v = s.memWrite a (le32 v.toNat) := by
    unfold State.hostWrite
    rw [hown]
    exact applyWord_memory s .i2c a v (by omega) (by omega)
  have hwritten : ∀ d : List Byte, d.length = 4 → BitVec.ofNat 32 (u32 d 0) = v →
      s.i2cWrite a 4 d = ([0, 0, 0, 0], s.memWrite a (le32 v.toNat)) := by
    intro d hlen hv
    have hrest : d.drop 4 = [] := List.drop_eq_nil_of_le (Nat.le_of_eq hlen)
    cases d with
    | nil => cases hlen
    | cons b r =>
      unfold State.i2cWrite
      rw [hown]
      dsimp only
      rw [if_neg (by omega), hv, hput, hrest]
      rfl
  have hlen : x.data.length = 4 := by rw [hdata]; rfl
  have htransfer : execI2cTransfer x s = .next ((s.memWrite a (le32 v.toNat)).setOut .i2c (List.replicate 8 0)) := by
    unfold execI2cTransfer
    rw [if_neg (by simp [hup, htarget]), if_neg (by rw [haddr]; exact Nat.lt_irrefl 4)]
    dsimp only
    rw [ha, hshut, hlen]
    dsimp only
    rw [hwritten x.data hlen (by rw [hdata]; exact u32_le32 v []), hread]
    rfl
  exact ⟨_, htransfer, memRead_memWrite s a (le32 v.toNat) hwf, vput_get_same .., rfl⟩

end

/-- Settles O45: the frames by `hostFrame_write` and `hostFrame_read`, with the grants of `refuses_own` and `refuses_other`. -/
theorem interfaceFramesAreAnswered : Obligations.InterfaceFramesAreAnswered := by
  unfold Obligations.InterfaceFramesAreAnswered
  refine ⟨fun b s hup hshort => ?_, fun a v h s hh hup hwf hlow hhigh hword => ?_, fun a v h s hh hup hlow hhigh hword hfirst => ?_,
    fun a h s hh hup hlow hhigh hword => ?_, fun b s hup hlen hcmd => ?_, fun s hup => ⟨_, if_pos hup, rfl⟩,
    fun a v x s hup htarget hwf hlow hhigh hword haddr hdata hread => ?_⟩
  · have hshort : b.length < frameLength b := by
      unfold frameLength
      split <;> omega
    exact ⟨_, (if_neg (by simp [hup])).trans (if_pos hshort), rfl, vput_get_same .., rfl, rfl⟩
  · obtain ⟨hframed, hlength⟩ := writeFrame_whole a v (crc8 h) h hh
    have hwhole : frameLength (h ++ [crc8 h]) ≤ (h ++ [crc8 h]).length := by omega
    have hframe := hostFrame_write s .spi a v (crc8 h) h hh (by omega) rfl
    rw [refuses_own s .spi a (some v) hlow (by omega) hword (by change (a - 0x10000) / 0x4000 = 0; omega)] at hframe
    dsimp only at hframe
    rw [applyWord_memory s .spi a v hlow (by omega)] at hframe
    refine ⟨_, (execSpiFrame_whole s _ hup hwhole).trans (congrArg Host.Outcome.next hframe), ?_, fun y hy => ?_, vput_get_same .., rfl⟩
    · exact memRead_memWrite s a (le32 v.toNat) hwf
    · exact memWrite_frame s a (le32 v.toNat) y hwf hy
  · obtain ⟨hframed, hlength⟩ := writeFrame_whole a v (crc8 h) h hh
    have hwhole : frameLength (h ++ [crc8 h]) ≤ (h ++ [crc8 h]).length := by omega
    have hframe := hostFrame_write s .spi a v (crc8 h) h hh (by omega) rfl
    rw [refuses_other s .spi a (some v) (by omega) hhigh hword (by change (a - 0x10000) / 0x4000 ≠ 0; omega)] at hframe
    dsimp only at hframe
    obtain ⟨hvalid, hiface, haddr⟩ := violate_first s .spi a true kindGrant hfirst
    obtain ⟨hkind, hwrite⟩ := violate_captured s .spi a true kindGrant hfirst
    exact ⟨_, (execSpiFrame_whole s _ hup hwhole).trans (congrArg Host.Outcome.next hframe), rfl, vput_get_same .., hvalid, hkind, hiface,
      hwrite, haddr, violate_count s .spi a true kindGrant⟩
  · obtain ⟨hframed, hlength⟩ := readFrame_whole a (crc8 h) h hh
    have hwhole : frameLength (h ++ [crc8 h]) ≤ (h ++ [crc8 h]).length := by omega
    have hframe := hostFrame_read s a (crc8 h) h hh hlow hhigh hword rfl
    rw [le32_hostWord s .spi a hlow (by omega)] at hframe
    exact ⟨_, (execSpiFrame_whole s _ hup hwhole).trans (congrArg Host.Outcome.next hframe), rfl, vput_get_same ..⟩
  · have hshortest : frameLength b ≤ b.length := by
      unfold frameLength
      rw [if_neg (by omega)]
      exact hlen
    have hframe : s.hostFrame .uart b = s.setOut .uart [0xFF, 0xE3] := if_pos hcmd
    refine ⟨_, (if_pos (by simp [hup, hshortest])).trans (congrArg Host.Outcome.next hframe), vput_get_same .., rfl, rfl⟩
  · exact i2cTransfer_write s a v x hup htarget hwf hlow hhigh hword haddr hdata hread

end Sys2Proof.Machine
end

section
/-! Doorbells, violations and the registers that firmware writes (O46; R326-R329, R333, R337, R366, R374, R377). -/

namespace Sys2Proof.Machine

section
variable (s : State)

/-! ### Grants of the doorbell registers -/

/-- A doorbell register takes the bits of its own channel, and refuses a word with any other (R326, R337). -/
theorem refuses_doorbell (i : Iface) (a : Nat) (v : Word) (ha : a = 0x1208 ∨ a = 0x120C ∨ a = 0x1210) :
    s.refuses i a (some v) = if v &&& ~~~(ownBits i a) = 0 then none else some kindGrant := by
  unfold State.refuses
  dsimp only
  rw [if_neg (by omega), if_neg (by omega), if_pos (by omega), if_pos (by omega)]

theorem hostWrite_granted (i : Iface) (a : Nat) (v : Word) (ha : a = 0x1208 ∨ a = 0x120C ∨ a = 0x1210) (hown : v &&& ~~~(ownBits i a) = 0) :
    s.hostWrite i a v = s.applyWord i a v := by
  unfold State.hostWrite
  rw [refuses_doorbell s i a v ha, if_pos hown]

/-- A word within its own bits is what those bits of it are. -/
theorem own_of_granted {v own : Word} (h : v &&& ~~~own = 0) : v &&& own = v := by
  refine BitVec.eq_of_getLsbD_eq fun n hn => ?_
  have hbit := congrArg (fun x : Word => x.getLsbD n) h
  simpa [hn] using hbit

/-- A refused write changes nothing but the count and the capture (R337). -/
theorem hostWrite_refused (i : Iface) (a : Nat) (v : Word) (k : BitVec 2) (h : s.refuses i a (some v) = some k) : let u := s.hostWrite i a v
    u.host.mem = s.host.mem ∧ u.hnd = s.hnd ∧ u.host.dbMask = s.host.dbMask ∧ u.host.viol.count = bvSatInc s.host.viol.count := by
  unfold State.hostWrite
  rw [h]
  exact ⟨rfl, rfl, rfl, violate_count s i a true k⟩

/-! ### Rings -/

theorem overrun_is (c : HostChan) : let u := s.overrun c
    (u.mbx c).overrun = true ∧ (u.mbx c).overruns = bvSatInc (s.mbx c).overruns ∧ (u.mbx c).st = (s.mbx c).st ∧ u.host.rings = s.host.rings ∧
      u = { s with host := u.host } := by
  have hself := modChan_mbx s c (fun m => { m with overrun := true, overruns := bvSatInc m.overruns })
  exact ⟨congrArg Mbx.overrun hself, congrArg Mbx.overruns hself, (congrArg Mbx.st hself :), rfl, rfl⟩

/-- A CANCEL or RESYNC latches (R332). -/
theorem ringClear_latches (c : HostChan) (b : RingBit) (h : s.latched c b = false) : let u := s.ringClear c b
    u.latched c b = true ∧ (u.mbx c).st = (s.mbx c).st := by
  unfold State.ringClear
  rw [if_neg (by simp [h])]
  refine ⟨?_, rfl⟩
  unfold State.latched State.latchRing
  simp

/-- The read of a channel's OVERRUN word clears the flag and keeps the count (R327). -/
theorem overrunRead_is (i : Iface) (c : Fin 8) : let u := (s.burstWord i true (0x1008 + 64 * c.val)).2
    (u.host.mbx.get c).overrun = false ∧ (u.host.mbx.get c).overruns = (s.host.mbx.get c).overruns ∧ u.host.mem = s.host.mem := by
  have hc : c.val < 8 := c.isLt
  have hchan : (⟨(0x1008 + 64 * c.val - 0x1000) / 64 % 8, Nat.mod_lt _ (by decide)⟩ : Fin 8) = c := Fin.ext (by
    change (0x1008 + 64 * c.val - 0x1000) / 64 % 8 = c.val
    omega)
  unfold State.burstWord
  rw [if_neg (by omega)]
  unfold State.readEffect
  dsimp only
  rw [if_pos (by omega), hchan]
  have hself : (s.modMbx c (fun m => { m with overrun := false })).host.mbx.get c = { s.host.mbx.get c with overrun := false } := vput_get_same ..
  exact ⟨congrArg Mbx.overrun hself, (congrArg Mbx.overruns hself :), rfl⟩

/-! ### Timers -/

theorem modTmr_tmr (c : Fin 16) (f : Tmr → Tmr) : (s.modTmr c f).timers.tmr.get c = f (s.timers.tmr.get c) := vput_get_same ..

end

/-- Settles O46: own bits by `hostWrite_granted`, refusals by `hostWrite_refused`, rings by `overrun_is` and `ringClear_latches`. -/
theorem doorbellsAndViolations : Obligations.DoorbellsAndViolations := by
  unfold Obligations.DoorbellsAndViolations
  refine ⟨fun c s hup hidle => ?_, fun c s hup hrun hclear => ?_, fun c s hup hfree => ?_, fun c s hup hlatched => ?_,
    fun c s hup hlatched => ?_, fun i v s hup hown => ?_, fun i v s hup hother => ?_, fun i v s hup hown => ?_, fun i v s hup hown => ?_,
    by decide, fun i c s hup => ?_, fun s hup => ⟨_, if_pos hup, rfl, rfl, rfl, rfl⟩, fun i a v s hup => ?_,
    fun c v s hclocked => ⟨?_, ?_, ?_, fun k => ?_⟩, fun ms s hruns hlock hlow hhigh => ?_, fun m s hruns hlock => ?_, fun ms s hlock => ?_⟩
  · refine ⟨_, (if_pos hup).trans (congrArg Host.Outcome.next (if_pos hidle)), ?_, rfl⟩
    exact congrArg Mbx.st (modChan_mbx (s.latchRing c .post) c (fun m => { m with st := .queued }))
  · obtain ⟨hover, hcount, hst, hrings, -⟩ := overrun_is s c
    have hnot : ¬(s.mbx c).st = .idle := by
      rw [hrun]
      decide
    exact ⟨_, (if_pos hup).trans (congrArg Host.Outcome.next ((if_neg hnot).trans (if_neg (by simp [hclear])))), hover, hcount,
      hst.trans hrun, hrings⟩
  · have hself := modChan_mbx (s.latchRing c .urgent) c (fun m => { m with ubusy := true })
    exact ⟨_, (if_pos hup).trans (congrArg Host.Outcome.next (if_neg (by simp [hfree]))), congrArg Mbx.ubusy hself, (congrArg Mbx.st hself :), rfl⟩
  · exact ⟨_, if_pos hup, ringClear_latches s c .cancel hlatched⟩
  · exact ⟨_, if_pos hup, ringClear_latches s c .resync hlatched⟩
  · refine ⟨_, (if_pos hup).trans (congrArg Host.Outcome.next (hostWrite_granted s i 0x1208 v (.inl rfl) hown)), ?_, rfl⟩
    exact congrArg (fun x => (s.host.dbMask &&& ~~~(ownBits i 0x1208)) ||| x) (own_of_granted hown)
  · obtain ⟨-, -, hmask, hcount⟩ := hostWrite_refused s i 0x1208 v kindGrant ((refuses_doorbell s i 0x1208 v (.inl rfl)).trans (if_neg hother))
    exact ⟨_, if_pos hup, hmask, hcount⟩
  · refine ⟨_, (if_pos hup).trans (congrArg Host.Outcome.next (hostWrite_granted s i 0x120C v (.inr (.inl rfl)) hown)), ?_, rfl⟩
    exact congrArg (fun x => s.host.hdbOut &&& ~~~x) (own_of_granted hown)
  · refine ⟨_, (if_pos hup).trans (congrArg Host.Outcome.next (hostWrite_granted s i 0x1210 v (.inr (.inr rfl)) hown)), ?_, rfl⟩
    exact congrArg (fun x => (s.host.hdbMask &&& ~~~(ownBits i 0x1210)) ||| x) (own_of_granted hown)
  · exact ⟨_, if_pos hup, overrunRead_is s i c⟩
  · exact ⟨_, if_pos hup, fun k hk => hostWrite_refused s i a.toNat v k hk⟩
  · have hself := modTmr_tmr s c (fun t => { t with cnt := v })
    exact ⟨_, if_pos hclocked, congrArg Tmr.cnt hself, (congrArg Tmr.ctl hself :)⟩
  · have hself := modTmr_tmr s c (fun t => { t with ctl := ctlWritten c v })
    exact ⟨_, if_pos hclocked, congrArg Tmr.ctl hself, (congrArg Tmr.cnt hself :)⟩
  · exact ⟨_, if_pos hclocked, congrArg Tmr.stat (modTmr_tmr s c (fun t => { t with stat := t.stat &&& ~~~(v.setWidth 5) }))⟩
  · refine ⟨_, if_pos hclocked, ?_⟩
    rw [modTmr_tmr]
    exact vput_get_same ..
  · exact ⟨_, if_pos (by simp [hruns, hlock, hlow, hhigh]), rfl⟩
  · exact ⟨_, if_pos (by simp [hruns, hlock]), rfl⟩
  · exact if_neg (by simp [hlock])

end Sys2Proof.Machine
end

section
/-! Mailbox channels: what they take, refuse, count and answer (O47; R330-R334, R337). -/

namespace Sys2Proof.Machine

section
variable (s : State)

/-- The parameters of SYS_NOP are eight bytes (R341). -/
theorem nop_length (d : Desc) (h : precheck 0 .normal d = none) : d.params.length = 8 := by
  cases hrow : opRow 0 with
  | none => cases hrow
  | some r =>
    obtain rfl := Option.some.inj hrow
    exact len_of 0 8 d _ h hrow rfl

/-- A free slot takes no command that precheck refuses: it answers the code (R330, R334). -/
theorem takeCmd_refused (c : HostChan) (op : Half) (d : Desc) (code : Nat) (body : State → Res) (hup : s.hubUp = true)
    (hidle : (s.mbx c).st = .idle) (hfresh : ¬((s.mbx c).lastSeq = d.seq ∧ (s.mbx c).lastOp = op)) (hcode : precheck op.toNat .normal d = some code) :
    ∃ u, s.takeCmd c .normal op d s.now body = u ∧ Answered u c d code ∧ u = { s with host := u.host } := by
  obtain ⟨hh, hstarted, -, hst, -⟩ := started_is s c op d s.now
  obtain ⟨u, hanswer, hsame, hslot, hack, hseq, hbell, -⟩ := answerNormal_is (s.started c op d s.now) c op d.seq s.now code [] (by rw [hst]; decide)
  refine ⟨u, ?_, ⟨hslot, hack, hseq, hbell⟩, ?_⟩
  · unfold State.takeCmd
    rw [if_neg (by simp [hup])]
    dsimp only
    rw [if_neg (by rw [hidle]; decide), if_neg (by simpa using fun h1 h2 => absurd ⟨h1, h2⟩ hfresh), hcode]
    exact hanswer
  · rw [hsame, hstarted]

/-- A ring on a slot that runs is an overrun (R332). -/
theorem takeCmd_running (c : HostChan) (op : Half) (d : Desc) (body : State → Res) (hup : s.hubUp = true) (hrun : (s.mbx c).st = .running) :
    s.takeCmd c .normal op d s.now body = s.overrun c := by
  unfold State.takeCmd
  rw [if_neg (by simp [hup])]
  dsimp only
  rw [if_pos (by rw [hrun]; decide)]

/-- A repeated sequence repeats the last code and counts a duplicate (R331). -/
theorem takeCmd_repeated (c : HostChan) (op : Half) (d : Desc) (body : State → Res) (hup : s.hubUp = true) (hidle : (s.mbx c).st = .idle)
    (hseq : (s.mbx c).lastSeq = d.seq) (hop : (s.mbx c).lastOp = op) (hreal : d.seq ≠ 0xFFFF) :
    ∃ u, s.takeCmd c .normal op d s.now body = u ∧ (u.mbx c).ackCode = (s.mbx c).lastCode ∧ (u.mbx c).ackSeq = d.seq ∧
      (u.mbx c).duplicates = bvSatInc (s.mbx c).duplicates ∧ u = { s with host := u.host } := by
  have hself := modChan_mbx s c (fun m => { m with st := .idle, ackCode := m.lastCode, ackSeq := d.seq, duplicates := bvSatInc m.duplicates })
  refine ⟨(s.modChan c (fun m => { m with st := .idle, ackCode := m.lastCode, ackSeq := d.seq, duplicates := bvSatInc m.duplicates })).setHdb (4 * c.val),
    ?_, (congrArg Mbx.ackCode hself :), (congrArg Mbx.ackSeq hself :), (congrArg Mbx.duplicates hself :), rfl⟩
  unfold State.takeCmd
  rw [if_neg (by simp [hup])]
  dsimp only
  have hdup : ((s.mbx c).lastSeq = d.seq && (s.mbx c).lastOp = op && (s.mbx c).lastSeq != 0xFFFF) = true := by
    rw [Bool.and_eq_true, Bool.and_eq_true]
    exact ⟨⟨decide_eq_true hseq, decide_eq_true hop⟩, bne_iff_ne.2 (by rw [hseq]; exact hreal)⟩
  rw [if_neg (by rw [hidle]; decide), if_pos hdup]

end

/-- Settles O47: a taken command by `replies`, a refused one by `takeCmd_refused`, the rest by `takeCmd_running`,
`takeCmd_repeated` and `urgent_is`. -/
theorem mailboxChannelsTakeAndAnswer : Obligations.MailboxChannelsTakeAndAnswer := by
  unfold Obligations.MailboxChannelsTakeAndAnswer
  refine ⟨fun c d s htakes hwf => ?_, fun c d code s hup hidle hfresh hcode => ?_, fun c d s hup hrun => ?_,
    fun c d s hup hidle hseq hop hreal => ?_, fun c d s hup hshelf hcheck => ?_, fun c x d s hdown => ?_⟩
  · have hlen : d.params.length = 8 := nop_length d htakes.2.2.2.2
    obtain ⟨u, hu, hanswer, hsame, hcompleted, hlast, hresp⟩ := replies s (s.started c 0x0000 d s.now) c 0x0000 d 0 d.params (cmdNop d) htakes rfl
      (by decide) (by omega) rfl
    refine ⟨u, hu, hanswer, ?_, hcompleted, hlast, hsame⟩
    rw [← hlen]
    exact hresp hwf
  · obtain ⟨u, hu, hanswer, hsame⟩ := takeCmd_refused s c 0x0001 d code (fun s => s.serve 0x0001 (cmdReset d)) hup hidle hfresh hcode
    exact ⟨u, congrArg Host.Outcome.next hu, hanswer, hsame⟩
  · obtain ⟨hover, hcount, hst, -, hsame⟩ := overrun_is s c
    exact ⟨_, congrArg Host.Outcome.next (takeCmd_running s c 0x0001 d (fun s => s.serve 0x0001 (cmdReset d)) hup hrun), hover, hcount,
      hst.trans hrun, hsame⟩
  · obtain ⟨u, hu, hrest⟩ := takeCmd_repeated s c 0x0001 d (fun s => s.serve 0x0001 (cmdReset d)) hup hidle hseq hop hreal
    exact ⟨u, congrArg Host.Outcome.next hu, hrest⟩
  · obtain ⟨u, hu, hsame, hcode, hseq, hfree, hbell, hst⟩ := urgent_is s c 0x0000 d.seq s.now 0 d.params
    refine ⟨u, ?_, hcode, hseq, hfree, hbell, hst, hsame⟩
    change Host.Outcome.next (s.takeCmd c .urgent 0x0000 d s.now (fun s => s.serve 0x0000 (cmdNop d))) = _
    unfold State.takeCmd
    rw [if_neg (by simp [hup])]
    dsimp only
    rw [show precheck (0x0000 : Half).toNat .urgent d = none from hcheck]
    dsimp only
    rw [show s.serve 0x0000 (cmdNop d) = cmdNop d s from if_neg (by simp [hshelf])]
    exact congrArg Host.Outcome.next hu
  · exact congrArg Host.Outcome.next (if_pos (by simp [hdown]))

end Sys2Proof.Machine
end

section
/-! Timers and the watchdog (O58; R366-R368, R376-R379). -/

namespace Sys2Proof.Machine

section
variable (s : State)

/-- The watchdog register block the end of its window records before the reset (R379). -/
def expiredWdg (s : State) : Wdg :=
  { s.wdg with lastMissing := s.wdg.lineup &&& ~~~s.wdg.seen, lastDouble := s.wdg.double, lastWindow := s.wdg.window, lastTick := s.tickWord,
               rstCount := bvSatInc s.wdg.rstCount, expired := true }

/-- The state the end of the window resets: the expiry recorded and an update's health window spoiled (R379, R407). -/
def expiredState (s : State) : State :=
  { s.modWdg (fun _ => expiredWdg s) with update := if s.update.window then { s.update with wdgSpoiled := true } else s.update }

theorem expiredState_warm : (expiredState s).warmChosen 6 = s.warmChosen 6 := by
  have hwindow : (expiredState s).update.window = s.update.window := by
    cases hw : s.update.window
    · exact (congrArg Update.window (if_neg (by simp [hw]))).trans hw
    · exact (congrArg Update.window (if_pos hw)).trans hw
  unfold State.warmChosen
  rw [hwindow]
  rfl

/-- The window's end resets a running hub with cause 6 and keeps the expiry record (R379, R408). -/
theorem execWatchdogExpiry_resets (hrun : s.hub.hub = .running) (hend : s.wdg.ended = true) :
    ∃ u, execWatchdogExpiry s = .next u ∧ u.hub.hub = .held 6 (s.warmChosen 6) ∧ u.wdg = (expiredWdg s).held := by
  have hhub : (expiredState s).hub.hub = .running := hrun
  obtain ⟨A, L, l, d, q, hreset, -⟩ := hubReset_is (expiredState s) 6 (by rw [hhub]; decide) (by rw [hhub]; exact fun k w h => by cases h)
  refine ⟨(expiredState s).hubReset 6, if_pos hend, ?_, ?_⟩
  · rw [hreset, ← expiredState_warm s]
  · rw [hreset]
    rfl

/-- The key pair's second word with every task checked in closes the window (R377). -/
theorem key_closes (w : Wdg) (harmed : w.armed = true) (hall : w.lineup &&& ~~~w.seen = 0) :
    w.key 0x3C5A = { w with armed := false, elapsed := some 0, window := w.nextWindow, seen := 0, double := 0 } :=
  (if_neg (by decide)).trans ((if_pos ⟨rfl, harmed⟩).trans (if_pos hall))

/-- With a task missing the pair is refused and counted (R377). -/
theorem key_refused (w : Wdg) (harmed : w.armed = true) (hmissing : w.lineup &&& ~~~w.seen ≠ 0) :
    w.key 0x3C5A = { w with armed := false, keyRefused := bvSatInc w.keyRefused } :=
  (if_neg (by decide)).trans ((if_pos ⟨rfl, harmed⟩).trans (if_neg hmissing))

/-- Any other word, or the second one first, is a bad key (R377). -/
theorem key_bad (w : Wdg) (v : Half) (hfirst : v ≠ 0xA5C3) (hsecond : v ≠ 0x3C5A ∨ w.armed = false) :
    w.key v = { w with armed := false, badKey := bvSatInc w.badKey } :=
  (if_neg hfirst).trans (if_neg fun ⟨hv, harmed⟩ => hsecond.elim (· hv) fun h => by simp [h] at harmed)

/-- A key word reaches the watchdog while its window runs (R377). -/
theorem execWdgKey_is (v : Half) (hruns : s.wdg.runs = true) (hopen : s.wdg.ended = false) :
    execWdgKey v s = .next (s.modWdg (·.key v)) := if_pos (by simp [hruns, hopen])

end

/-- Settles O58: the rows of the timers, of check-ins and of the keys, and `execWatchdogExpiry_resets`. -/
theorem timersAndWatchdog : Obligations.TimersAndWatchdog := by
  unfold Obligations.TimersAndWatchdog
  refine ⟨⟨fun c k s hclock hedges hfires => ⟨_, if_pos (by simp [hclock, hedges, hfires]), rfl, rfl⟩,
    fun c k s hquiet => if_neg (by simp [hquiet]),
    fun c s hclock hedges hfires => ⟨_, if_pos (by simp [hclock, hedges, hfires]), rfl, rfl⟩⟩,
    fun t s hruns hopen hnew => ?_, fun t s hruns hopen hseen => ?_, fun s hruns hopen => ?_, fun s hruns hopen harmed hall => ?_,
    fun s hruns hopen harmed hmissing => ?_, fun v s hruns hopen hfirst hsecond => ?_,
    fun v s hruns hbit => ⟨_, if_pos (by simp [hruns, hbit]), rfl⟩, fun s hrun hend => ?_, fun s hopen => if_neg (by simp [hopen])⟩
  · have hwdg : (if s.wdg.seen.getLsbD t.val then { s.wdg with double := s.wdg.double ||| (1#16 <<< t.val), doubleTally := bvSatInc s.wdg.doubleTally }
        else { s.wdg with seen := s.wdg.seen ||| (1#16 <<< t.val) }) = { s.wdg with seen := s.wdg.seen ||| (1#16 <<< t.val) } := if_neg (by rw [hnew]; decide)
    exact ⟨_, if_pos (by simp [hruns, hopen]), hwdg, rfl⟩
  · have hwdg : (if s.wdg.seen.getLsbD t.val then { s.wdg with double := s.wdg.double ||| (1#16 <<< t.val), doubleTally := bvSatInc s.wdg.doubleTally }
        else { s.wdg with seen := s.wdg.seen ||| (1#16 <<< t.val) }) =
        { s.wdg with double := s.wdg.double ||| (1#16 <<< t.val), doubleTally := bvSatInc s.wdg.doubleTally } := if_pos hseen
    exact ⟨_, if_pos (by simp [hruns, hopen]), (congrArg Wdg.double hwdg :), (congrArg Wdg.seen hwdg :), rfl⟩
  · exact ⟨_, execWdgKey_is s _ hruns hopen, congrArg (fun w => { s with wdg := w }) (if_pos rfl)⟩
  · exact ⟨_, execWdgKey_is s _ hruns hopen, congrArg (fun w => { s with wdg := w }) (key_closes s.wdg harmed hall)⟩
  · exact ⟨_, execWdgKey_is s _ hruns hopen, congrArg (fun w => { s with wdg := w }) (key_refused s.wdg harmed hmissing)⟩
  · exact ⟨_, execWdgKey_is s _ hruns hopen, congrArg (fun w => { s with wdg := w }) (key_bad s.wdg v hfirst hsecond)⟩
  · obtain ⟨u, hu, hhub, hwdg⟩ := execWatchdogExpiry_resets s hrun hend
    refine ⟨u, hu, hhub, ?_⟩
    rw [hwdg]
    exact ⟨rfl, rfl, rfl, rfl, rfl, rfl⟩

end Sys2Proof.Machine
end

section
/-! The kickoff time and the health window of an update (O57; R406, R407). -/

namespace Sys2Proof.Machine

section
variable (s : State)

/-- A hub reset holds a running hub and leaves the update session and the shelves (R408). -/
theorem hubReset_update (cause : Nat) (hrun : s.hub.hub = .running) :
    ∀ u, u = s.hubReset cause → u.hub.hub = .held cause (s.warmChosen cause) ∧ u.update = s.update ∧ u.flash.shelves = s.flash.shelves := by
  intro u hu
  obtain ⟨A, L, l, d, q, hreset, -⟩ := hubReset_is s cause (by rw [hrun]; decide) (by rw [hrun]; exact fun k w h => by cases h)
  rw [hu, hreset]
  exact ⟨rfl, rfl, rfl⟩

/-- An update's ledger record changes the ledger queue only (R390). -/
theorem updRecord_keeps (event reason : Nat) (v : Vector Byte 3) :
    ∀ u, u = s.updRecord event reason v → u.hub = s.hub ∧ u.update = s.update ∧ u.flash = s.flash := by
  intro u hu
  rw [hu, updRecord_is]
  exact ⟨rfl, rfl, rfl⟩

/-- Closing the session leaves it idle and the shelves as they are (R405). -/
theorem closeSession_keeps (reason : Nat) :
    (s.closeSession reason).hub = s.hub ∧ (s.closeSession reason).update.st = .idle ∧ (s.closeSession reason).flash.shelves = s.flash.shelves :=
  ⟨rfl, rfl, rfl⟩

/-- The state in which an armed shelf goes on trial: its session active, its health window open (R406). -/
def onTrial (s : State) (t : Nat) : State :=
  let w := (s.modShelf s.update.target (fun h => { h with armed := true, actSeq := if h.armed then h.actSeq else s.nextActSeq, trial := true })).modUpd
    (fun u => { u with st := .active, reason := 0, kickDone := true, window := true, spoiled := false, wdgSpoiled := false })
  (w.journal 7 w.update.tag.toNat t).updRecord 5 0 w.updVersion

theorem onTrial_is (t : Nat) (hrun : s.hub.hub = .running) :
    ∀ u, u = onTrial s t → u.hub.hub = .running ∧ u.update.st = .active ∧ u.update.window = true ∧ u.update.kickDone = true ∧
      (u.flash.shelves.get s.update.target).trial = true := by
  intro u hu
  unfold onTrial at hu
  extract_lets w at hu
  have hw : w.update.st = .active ∧ w.update.window = true ∧ w.update.kickDone = true ∧ (w.flash.shelves.get s.update.target).trial = true :=
    ⟨rfl, rfl, rfl, (congrArg Shelf.trial (vmod_get_same s.flash.shelves s.update.target _) :)⟩
  have hhub : w.hub = s.hub := rfl
  clear_value w
  obtain ⟨hst, hwindow, hdone, htrial⟩ := hw
  obtain ⟨hhubU, hupd, hflash⟩ := updRecord_keeps _ 5 0 w.updVersion u hu
  rw [hhubU, hupd, hflash]
  refine ⟨?_, hst, hwindow, hdone, htrial⟩
  rw [← hrun, ← hhub]
  rfl

/-- A confirmed update: its shelf is confirmed and its session closed (R407). -/
theorem confirmUpdate_is : (s.confirmUpdate.flash.shelves.get s.update.target).confirmed = true ∧ s.confirmUpdate.update.st = .idle ∧
    s.confirmUpdate.hub = s.hub := by
  unfold State.confirmUpdate
  extract_lets m v raise w o x
  have hx : (x.flash.shelves.get s.update.target).confirmed = true ∧ x.hub = s.hub :=
    ⟨(congrArg Shelf.confirmed (vmod_get_same s.flash.shelves s.update.target _) :), rfl⟩
  clear_value x
  obtain ⟨hconfirmed, hhub⟩ := hx
  obtain ⟨hhubR, -, hflash⟩ := updRecord_keeps (x.journal 8 x.update.tag.toNat 0) 6 0 v _ rfl
  generalize (x.journal 8 x.update.tag.toNat 0).updRecord 6 0 v = r at hhubR hflash ⊢
  obtain ⟨hhubC, hst, hshelves⟩ := closeSession_keeps r 0
  rw [hshelves, hflash, hst, hhubC, hhubR]
  exact ⟨hconfirmed, rfl, hhub⟩

/-- Retiring the shelf of an active update closes its session (R403, R407). -/
theorem retireShelf_active (reason : Nat) (hactive : s.update.st = .active) :
    ∀ u, u = s.retireShelf s.update.target reason → (u.flash.shelves.get s.update.target).retired = true ∧ u.update.st = .idle ∧ u.hub = s.hub := by
  intro u hu
  unfold State.retireShelf at hu
  extract_lets v w at hu
  have hw : (w.flash.shelves.get s.update.target).retired = true ∧ w.hub = s.hub ∧ w.update = s.update := by
    obtain ⟨hhub, hupd, hflash⟩ := updRecord_keeps (s.modShelf s.update.target (fun h => { h with retired := true })) 7 reason v w rfl
    rw [hhub, hupd, hflash]
    exact ⟨(congrArg Shelf.retired (vmod_get_same s.flash.shelves s.update.target _) :), rfl, rfl⟩
  clear_value w
  obtain ⟨hretired, hhub, hupd⟩ := hw
  rw [if_pos (by rw [hupd, hactive]; simp)] at hu
  obtain ⟨hhubC, hst, hshelves⟩ := closeSession_keeps (w.journal 9 w.update.tag.toNat reason) reason
  rw [hu, hshelves, hst, hhubC]
  exact ⟨hretired, rfl, hhub⟩

/-- At the kickoff time a miss notes its reason and writes its record (R406). -/
theorem execKickoffTimeReached_misses (t r : Nat) (hup : s.hubUp = true) (hkick : s.update.kickoff = some t) (hdue : t ≤ s.fleetUs)
    (hdone : s.update.kickDone = false) (hactive : s.update.st ≠ .active) (hrejected : s.update.st ≠ .rejected) (hmiss : s.kickMiss t = some r) :
    execKickoffTimeReached s = .next ((s.modUpd (fun u => { u with reason := r, kickDone := true })).updRecord 9 r s.updVersion) := by
  unfold execKickoffTimeReached
  rw [hkick]
  refine (if_neg (by simp [hup, hdue, hdone, hactive, hrejected])).trans ?_
  rw [hmiss]

/-- At the kickoff time a shelf that misses nothing goes on trial and the hub reboots (R406). -/
theorem execKickoffTimeReached_trial (t : Nat) (hup : s.hubUp = true) (hkick : s.update.kickoff = some t) (hdue : t ≤ s.fleetUs)
    (hdone : s.update.kickDone = false) (harmed : s.update.st = .armed) (hmiss : s.kickMiss t = none) :
    execKickoffTimeReached s = .next ((onTrial s t).hubReset 9) := by
  unfold execKickoffTimeReached onTrial
  rw [hkick]
  refine (if_neg (by simp [hup, hdue, hdone, harmed])).trans ?_
  rw [hmiss]

/-- The window of an update without a fault, whose host need not confirm it, ends with its confirmation (R407). -/
theorem execHealthWindowEnd_confirms (t : Nat) (hup : s.hubUp = true) (hkick : s.update.kickoff = some t) (hactive : s.update.st = .active)
    (hwindow : s.update.window = true) (hend : t + 120000000 ≤ s.fleetUs) (hconfirm : manHostConfirm s.update.manifest = false)
    (hclean : s.update.spoiled = false) (hwdg : s.update.wdgSpoiled = false) : execHealthWindowEnd s = .next s.confirmUpdate := by
  unfold execHealthWindowEnd
  dsimp only
  rw [hkick]
  dsimp only
  rw [if_neg (by simp [hup, hactive, hwindow, hend]), if_pos (by simp [hconfirm, hclean, hwdg])]

/-- The window of a spoiled or unconfirmed update ends with its shelf retired and a reboot (R407). -/
theorem execHealthWindowEnd_retires (t : Nat) (hup : s.hubUp = true) (hkick : s.update.kickoff = some t) (hactive : s.update.st = .active)
    (hwindow : s.update.window = true) (hend : t + 120000000 ≤ s.fleetUs)
    (hbad : manHostConfirm s.update.manifest = true ∨ s.update.spoiled = true ∨ s.update.wdgSpoiled = true) :
    execHealthWindowEnd s = .next ((s.retireShelf s.update.target 13).hubReset 10) := by
  unfold execHealthWindowEnd
  dsimp only
  rw [hkick]
  dsimp only
  rw [if_neg (by simp [hup, hactive, hwindow, hend]), if_neg]
  rcases hbad with h | h | h <;> simp [h]

end

/-- Settles O57: a miss by `updRecord_keeps`, the trial by `onTrial_is`, the end of the window by `confirmUpdate_is` and `retireShelf_active`. -/
theorem kickoffAndHealthWindow : Obligations.KickoffAndHealthWindow := by
  unfold Obligations.KickoffAndHealthWindow
  refine ⟨fun t r s hup hkick hdue hdone hactive hrejected hmiss => ?_, fun t s hup hkick hdue hdone harmed hmiss => ?_, fun t s hkick hearly => ?_,
    fun t s hup hkick hactive hwindow hend hconfirm hclean hwdg => ?_, fun t s hup hkick hactive hwindow hend hbad => ?_⟩
  · obtain ⟨hhub, hupd, hflash⟩ := updRecord_keeps (s.modUpd (fun u => { u with reason := r, kickDone := true })) 9 r s.updVersion _ rfl
    exact ⟨_, execKickoffTimeReached_misses s t r hup hkick hdue hdone hactive hrejected hmiss, hupd, hflash, hhub⟩
  · obtain ⟨hhub, hst, hwindow, hkicked, htrial⟩ := onTrial_is s t (eq_of_beq hup) _ rfl
    obtain ⟨hheld, hupd, hshelves⟩ := hubReset_update _ 9 hhub _ rfl
    refine ⟨_, execKickoffTimeReached_trial s t hup hkick hdue hdone harmed hmiss, ?_⟩
    rw [hupd, hshelves]
    exact ⟨hst, hwindow, hkicked, htrial, hheld⟩
  · change execKickoffTimeReached s = _
    unfold execKickoffTimeReached
    rw [hkick]
    exact if_pos (by simp [hearly])
  · obtain ⟨hconfirmed, hst, hhub⟩ := confirmUpdate_is s
    exact ⟨_, execHealthWindowEnd_confirms s t hup hkick hactive hwindow hend hconfirm hclean hwdg, hconfirmed, hst, hhub⟩
  · obtain ⟨hretired, hst, hhub⟩ := retireShelf_active s 13 hactive _ rfl
    obtain ⟨hheld, hupd, hshelves⟩ := hubReset_update _ 10 (by rw [hhub]; exact eq_of_beq hup) _ rfl
    refine ⟨_, execHealthWindowEnd_retires s t hup hkick hactive hwindow hend hbad, ?_⟩
    rw [hupd, hshelves]
    exact ⟨hretired, hst, hheld⟩

end Sys2Proof.Machine
end

section
/-! The flash die: jobs complete, records are written, background work starts (O56; R383-R398). -/

namespace Sys2Proof.Machine

section
variable (s : State)

/-- A finished foreground job does its work and the die takes the next one (R383). -/
theorem execFlashOperationComplete_job (j : FlashJob) (hup : s.hubUp = true) (hbusy : s.flash.busy = some j) :
    execFlashOperationComplete s = .next (({ s with flash := { s.flash with busy := none } }).jobDone j).kickFlash := by
  unfold execFlashOperationComplete
  rw [if_neg (by simp [hup]), hbusy]

/-- A finished background operation does its work (R384). -/
theorem execFlashOperationComplete_background (b : BgJob) (hup : s.hubUp = true) (hbusy : s.flash.busy = none) (hback : s.flash.background = some b) :
    execFlashOperationComplete s = .next (({ s with flash := { s.flash with background := none } }).backgroundDone b).kickFlash := by
  unfold execFlashOperationComplete
  rw [if_neg (by simp [hup]), hbusy, hback]

/-- A die with nothing queued and nothing under way stays idle (R383). -/
theorem kick_idle (f : Flash) (hbusy : f.busy = none) (hqueue : f.queue = []) : f.kick = { f with suspended := false } := by
  unfold Flash.kick
  rw [hbusy, hqueue]

theorem kickFlash_idle (hbusy : s.flash.busy = none) (hqueue : s.flash.queue = []) (hopen : s.therm.flashShut = false) :
    s.kickFlash = { s with flash := { s.flash with suspended := false } } := by
  unfold State.kickFlash
  rw [if_neg (by simp [hopen]), kick_idle s.flash hbusy hqueue]

/-- A completed ledger record that no channel waits for heads the ledger and leaves the queue (R388-R390). -/
theorem ledgerDone_quiet (r : LedgerRec) (hquiet : ∀ c, (s.mbx c).running = none) :
    s.ledgerDone r = { s with flash := s.flash.putLedger r, ledger := { s.ledger with queue := s.ledger.queue.drop 1 } } := by
  unfold State.ledgerDone
  extract_lets f w
  change _ = w
  refine foldl_inv (fun u => u = w) _ _ w rfl (fun u c hu => ?_)
  rw [hu, show (w.mbx c).running = none from hquiet c]

/-- An idle, cool die starts a background operation (R384). -/
theorem startBackground_starts (b : BgJob) (hup : s.hubUp = true) (hbusy : s.flash.busy = none) (hback : s.flash.background = none)
    (hopen : s.therm.flashShut = false) : s.startBackground b = { s with flash := { s.flash with background := some b } } :=
  if_pos (by simp [hup, hbusy, hback, hopen])

/-- A die shut down starts nothing (R300). -/
theorem startBackground_shut (b : BgJob) (hshut : s.therm.flashShut = true) : s.startBackground b = s := if_neg (by simp [hshut])

end

/-- Settles O56: completions by `ledgerDone_quiet` and `kickFlash_idle`, the write by `addJob_mem`, background work by `startBackground_starts`. -/
theorem theFlashDieWorks : Obligations.TheFlashDieWorks := by
  unfold Obligations.TheFlashDieWorks
  refine ⟨fun r s hup hbusy hqueue hopen => ?_, fun r s hup hbusy hqueue hopen hquiet => ?_, fun s hup hbusy hback hqueue hopen => ?_,
    fun r l s hup hwaiting hfree herased => ?_, fun s hempty => ?_, fun s hup herased hbusy hback hopen => ?_,
    fun s hup herased hst hbusy hback hopen => ?_, fun k s hup hst hman hk hbuilt hsource hbusy hback hopen => ?_, fun k s hshut => ?_⟩
  · exact ⟨_, (execFlashOperationComplete_job s _ hup hbusy).trans (congrArg Host.Outcome.next (kickFlash_idle _ rfl hqueue hopen)),
      rfl, rfl, (vput_get_same s.flash.learned s.flash.learnedActive _ :), rfl⟩
  · exact ⟨_, (execFlashOperationComplete_job s _ hup hbusy).trans (congrArg Host.Outcome.next
      ((congrArg State.kickFlash (ledgerDone_quiet { s with flash := { s.flash with busy := none } } r hquiet)).trans (kickFlash_idle _ rfl hqueue hopen))), rfl, rfl, rfl⟩
  · exact ⟨_, (execFlashOperationComplete_background s _ hup hbusy hback).trans (congrArg Host.Outcome.next (kickFlash_idle _ hbusy hqueue hopen)), rfl, rfl, rfl⟩
  · refine ⟨s.addJob (.ledger r), ?_, addJob_mem s _, rfl⟩
    change execLedgerWrite s = _
    unfold execLedgerWrite
    rw [hwaiting]
    exact if_pos (by rcases herased with h | h <;> simp [hup, hfree, h])
  · change execLedgerWrite s = _
    unfold execLedgerWrite
    rw [hempty]
  · exact ⟨_, (if_neg (by simp [herased])).trans (congrArg Host.Outcome.next (startBackground_starts s _ hup hbusy hback hopen)), rfl⟩
  · exact ⟨_, (if_pos (by rcases hst with h | h <;> simp [herased, h])).trans
      (congrArg Host.Outcome.next (startBackground_starts s _ hup hbusy hback hopen)), rfl⟩
  · exact ⟨_, (if_pos (by rw [hbuilt]; simp [hst, hman, hk, hsource])).trans
      (congrArg Host.Outcome.next (startBackground_starts s _ hup hbusy hback hopen)), rfl⟩
  · change execShelfSectorBuild k s = _
    unfold execShelfSectorBuild
    dsimp only
    split
    · rw [startBackground_shut s _ hshut]
    · rfl

end Sys2Proof.Machine
end

section
/-! System commands: reset, SAFE, SHIP and DORMANT (O48; R342, R343). -/

namespace Sys2Proof.Machine

section
variable (s : State) (c : HostChan) (d : Desc)

/-- A started command changes only the host interface. -/
theorem started_state (op : Half) : ∃ h, s.started c op d s.now = { s with host := h } ∧ ((s.started c op d s.now).mbx c).st = .running := by
  obtain ⟨h, hstarted, -, hst, -⟩ := started_is s c op d s.now
  exact ⟨h, hstarted, hst⟩

/-- A SAFE trigger on a state that has VAON: the latch is set, and a clear latch stops every lane (R22). -/
theorem setSafe_latches (x : SafeTrigger) (src : EvSource) (die : Nat) (v : Int) (hvaon : s.aon.vaon = true) :
    ∀ t, t = s.setSafe x src die v → t.aon.safeLatch = true ∧ (s.aon.safeLatch = false → ∀ n, (t.lane n).run = .stopped) ∧
      (s.aon.safeLatch = true → t.lanes = s.lanes) := by
  intro t ht
  have hcases := setSafe_cases s x src die v hvaon
  dsimp only at hcases
  rw [← ht] at hcases
  split at hcases
  case isTrue hclear =>
    obtain ⟨hlatch, -, hstopped, -⟩ := hcases
    exact ⟨hlatch, fun _ => hstopped, fun hset => absurd (hset.symm.trans hclear) (by decide)⟩
  case isFalse hset =>
    rw [Bool.not_eq_false] at hset
    rw [hcases]
    exact ⟨hset, fun hclear => absurd (hset.symm.trans hclear) (by decide), fun _ => rfl⟩

/-- SAFE_CLEAR with no trigger present leaves the latch clear and nothing else changed (R22, R342). -/
theorem cmdSafeClear_clears (hfree : s.safeBlocked = false) : ∃ t, cmdSafeClear s = .reply 0 [] t ∧ t = { s with aon := { s.aon with safeLatch := false } } := by
  cases hlatch : s.aon.safeLatch
  · refine ⟨s, if_pos (by simp [hlatch]), ?_⟩
    rw [← hlatch]
  · exact ⟨_, (if_neg (by simp [hlatch])).trans (if_neg (by simp [hfree])), rfl⟩

/-- An allowed SHIP_ENTER drops PGOOD and stands as a request after SHIP_DELAY (R72). -/
theorem cmdShipEnter_requests (hpath : s.pathStopped = false) (hallowed : s.shipAllowed = true) (hnone : s.aon.request = none) :
    ∀ r, r = (cmdShipEnter c s).st → r.aon.pgood = false ∧
      r.aon.request = some { dormant := false, automatic := false, deadline := s.now + s.shipDelay, stage := .wait } ∧ (r.mbx c).st = (s.mbx c).st := by
  intro r hr
  have hbody : cmdShipEnter c s = ((s.pathRecord 2 0 false).shipStart s.shipDelay false).awaitRecord c s.ledger.next :=
    if_neg (by simp [hpath, hallowed, hnone])
  rw [hbody] at hr
  obtain ⟨haonP, -, hhostP, -, -, htimeP⟩ := request_of s 2
  obtain ⟨haon, hhost⟩ := shipStart_is (s.pathRecord 2 0 false) s.shipDelay
  have hnow : (s.pathRecord 2 0 false).now = s.now := by
    unfold State.now
    rw [htimeP]
  obtain ⟨hst, hslot⟩ := awaitRecord_st ((s.pathRecord 2 0 false).shipStart s.shipDelay false) c s.ledger.next
  rw [← hr] at hst hslot
  refine ⟨?_, ?_, ?_⟩
  · rw [hst]
    exact congrArg Aon.pgood haon
  · rw [hst, ← hnow]
    exact congrArg Aon.request haon
  · rw [hslot]
    unfold State.mbx
    rw [hhost, hhostP]

/-- An allowed DORMANT_ENTER moves the SYS target first in SUPPLEMENT and ramps at once in DIODE (R70). -/
theorem cmdDormantEnter_requests (hpath : s.pathStopped = false) (hallowed : s.dormantAllowed = true) (hnone : s.aon.request = none) :
    ∀ r, r = (cmdDormantEnter c s).st → r.hub.sysFinal = (if s.cfg.supplement then s.gauge.vBat - 1 / 10 else s.hub.sysFinal) ∧
      r.aon.request = some { dormant := true, automatic := false, deadline := s.now, stage := if s.cfg.supplement then .moving else .ramping } ∧
      (r.mbx c).st = (s.mbx c).st := by
  intro r hr
  have hbody : cmdDormantEnter c s = ((s.pathRecord 0 0 false).dormantStart s.gauge.vBat false).awaitRecord c s.ledger.next :=
    if_neg (by simp [hpath, hallowed, hnone])
  rw [hbody] at hr
  obtain ⟨haonP, hhubP, hhostP, hcfgP, -, htimeP⟩ := request_of s 0
  obtain ⟨haon, hhub, hhost⟩ := dormantStart_is (s.pathRecord 0 0 false) s.gauge.vBat
  have hnow : (s.pathRecord 0 0 false).now = s.now := by
    unfold State.now
    rw [htimeP]
  obtain ⟨hst, hslot⟩ := awaitRecord_st ((s.pathRecord 0 0 false).dormantStart s.gauge.vBat false) c s.ledger.next
  rw [← hr] at hst hslot
  refine ⟨?_, ?_, ?_⟩
  · rw [hst, ← hcfgP, ← hhubP]
    exact congrArg HubSt.sysFinal hhub
  · rw [hst, ← hcfgP, ← hnow]
    exact congrArg Aon.request haon
  · rw [hslot]
    unfold State.mbx
    rw [hhost, hhostP]

end

/-- Settles O48: each command's body by its own lemma, the answer by `replies` and `takes_any`. -/
theorem systemCommandsAct : Obligations.SystemCommandsAct := by
  unfold Obligations.SystemCommandsAct
  refine ⟨fun c d s htakes hparam hzero => ?_, fun c d s htakes hvaon => ?_, fun c d s htakes hfree => ?_,
    fun c d s htakes hpath hallowed hnone => ?_, fun c d s htakes hpath hallowed hnone => ?_⟩
  · obtain ⟨h, hstarted, -⟩ := started_state s c d 0x0001
    obtain ⟨u, hu, hanswer, hsame, -⟩ := replies s ((s.started c 0x0001 d s.now).modHub (fun h => { h with resetAt := some (s.now + msTicks 1, u8 d.params 0 == 0) }))
      c 0x0001 d 0 [] (cmdReset d) htakes (by rw [hstarted]; exact if_neg (by simp [hparam, hzero])) (by decide) (by decide) rfl
    refine ⟨u, hu, hanswer, ?_, ?_⟩ <;> rw [hsame, hstarted] <;> rfl
  · obtain ⟨h, hstarted, -⟩ := started_state s c d 0x0002
    obtain ⟨u, hu, hanswer, hsame, -⟩ := replies s ((s.started c 0x0002 d s.now).setSafe .safeEnter .aon 0 0)
      c 0x0002 d 0 [] cmdSafeEnter htakes rfl (by decide) (by decide) (setSafe_host ..)
    obtain ⟨hlatch, hstops, hstays⟩ := setSafe_latches (s.started c 0x0002 d s.now) .safeEnter .aon 0 0 (by rw [hstarted]; exact hvaon) _ rfl
    rw [hstarted] at hstops hstays
    refine ⟨u, hu, hanswer, ?_, fun hclear => ?_, fun hset => ?_⟩ <;> rw [hsame]
    · exact hlatch
    · rw [hstarted]
      exact hstops hclear
    · rw [hstarted]
      exact hstays hset
  · obtain ⟨h, hstarted, -⟩ := started_state s c d 0x0003
    obtain ⟨t, hbody, ht⟩ := cmdSafeClear_clears (s.started c 0x0003 d s.now) (by rw [hstarted]; exact hfree)
    obtain ⟨u, hu, hanswer, hsame, -⟩ := replies s t c 0x0003 d 0 [] cmdSafeClear htakes hbody (by decide) (by decide) (by rw [ht])
    refine ⟨u, hu, hanswer, ?_, ?_⟩ <;> rw [hsame, ht, hstarted]
  · obtain ⟨h, hstarted, hrun⟩ := started_state s c d 0x0004
    obtain ⟨hpgood, hrequest, hslot⟩ := cmdShipEnter_requests (s.started c 0x0004 d s.now) c (by rw [hstarted]; exact hpath)
      (by rw [hstarted]; exact hallowed) (by rw [hstarted]; exact hnone) _ rfl
    obtain ⟨u, hu, hsame⟩ := takes_any s c 0x0004 d _ (cmdShipEnter c) htakes rfl (hslot.trans hrun)
    refine ⟨u, hu, ?_, ?_⟩ <;> rw [hsame]
    · exact hpgood
    · refine hrequest.trans ?_
      rw [hstarted]
      rfl
  · obtain ⟨h, hstarted, hrun⟩ := started_state s c d 0x0005
    obtain ⟨hfinal, hrequest, hslot⟩ := cmdDormantEnter_requests (s.started c 0x0005 d s.now) c (by rw [hstarted]; exact hpath)
      (by rw [hstarted]; exact hallowed) (by rw [hstarted]; exact hnone) _ rfl
    obtain ⟨u, hu, hsame⟩ := takes_any s c 0x0005 d _ (cmdDormantEnter c) htakes rfl (hslot.trans hrun)
    refine ⟨u, hu, ?_, ?_⟩ <;> rw [hsame]
    · refine hfinal.trans ?_
      rw [hstarted]
    · refine hrequest.trans ?_
      rw [hstarted]
      rfl

end Sys2Proof.Machine
end

section
/-! Thermal release, the handicap unit and diagnostics (O54; R300, R363, R364, R433-R435). -/

namespace Sys2Proof.Machine

section
variable (s : State) (c : HostChan) (d : Desc)

/-- A slot's change and its bell leave the discard counters. -/
theorem ring_discards (f : Mbx → Mbx) (b : Nat) :
    ((s.modChan c f).setHdb b).host.spiDiscards = s.host.spiDiscards ∧ ((s.modChan c f).setHdb b).host.uartDiscards = s.host.uartDiscards := ⟨rfl, rfl⟩

/-- So does a write into memory. -/
theorem memWrite_discards (a : Nat) (b : List Byte) :
    (s.memWrite a b).host.spiDiscards = s.host.spiDiscards ∧ (s.memWrite a b).host.uartDiscards = s.host.uartDiscards := ⟨rfl, rfl⟩

/-- An answer leaves the discard counters of the interfaces (R334). -/
theorem answerNormal_discards (op seq : Half) (bell code : Nat) (resp : List Byte) :
    (s.answerNormal c op seq bell code resp).host.spiDiscards = s.host.spiDiscards ∧
    (s.answerNormal c op seq bell code resp).host.uartDiscards = s.host.uartDiscards := by
  unfold State.answerNormal
  split
  · exact ring_discards ..
  · extract_lets r x w
    obtain ⟨hspiX, huartX⟩ : x.host.spiDiscards = s.host.spiDiscards ∧ x.host.uartDiscards = s.host.uartDiscards := memWrite_discards ..
    obtain ⟨hspiW, huartW⟩ : w.host.spiDiscards = x.host.spiDiscards ∧ w.host.uartDiscards = x.host.uartDiscards := memWrite_discards ..
    rw [← hspiX, ← huartX, ← hspiW, ← huartW]
    clear_value w
    exact ring_discards ..

/-- A body that answers and keeps the mailboxes: the whole state after it is the answer to its state (R334). -/
theorem answers_as (t : State) (op : Half) (code : Nat) (resp : List Byte) (body : State → Res) (htakes : s.takes c op d)
    (hbody : body (s.started c op d s.now) = .reply code resp t) (hmbx : t.host.mbx = (s.started c op d s.now).host.mbx) :
    ∃ u, Host.Outcome.next (s.takeCmd c .normal op d s.now (fun s => s.serve op.toNat body)) = (.next u : Out) ∧ Answered u c d code ∧
      u = { t with host := u.host } ∧ u.host.spiDiscards = t.host.spiDiscards ∧ u.host.uartDiscards = t.host.uartDiscards := by
  obtain ⟨-, -, hrun⟩ := started_state s c d op
  have hst : (t.mbx c).st = .running := by
    rw [← hrun]
    unfold State.mbx
    rw [hmbx]
  obtain ⟨u, hu, hsame, hslot, hack, hseq, hbell, -⟩ := answerNormal_is t c op d.seq s.now code resp (by rw [hst]; decide)
  obtain ⟨hspi, huart⟩ := answerNormal_discards t c op d.seq s.now code resp
  rw [hu] at hspi huart
  refine ⟨u, ?_, ⟨hslot, hack, hseq, hbell⟩, hsame, hspi, huart⟩
  rw [takeCmd_takes s c op d s.now body htakes, hbody]
  exact congrArg Host.Outcome.next hu

/-- The counters block begins with its first counter (R364). -/
theorem counters_first (x : Nat) (l : List Nat) : (counters (x :: l)).take 4 = le32 (sat32 x) := by
  unfold counters padTo
  rw [List.take_take, List.flatMap_cons, List.append_assoc]
  exact List.take_left' rfl

theorem counters_length (l : List Nat) : (counters l).length = 32 := by
  unfold counters padTo
  rw [List.length_take, List.length_append, List.length_replicate]
  omega

/-- A cool latched lane is unlatched (R300, R301). -/
theorem cmdThermRelease_unlatches (n : Lane) (hlane : s.namedLane d = .ok n) (hlatched : (s.lane n).latched = true) (hdie : (s.lane n).tempDie < 130)
    (htsl : (s.lane n).tempTsl < s.releaseAt (.tsl n)) :
    cmdThermRelease d s = .reply 0 [] (s.modLane n (fun l => { l with latched := false })) := by
  unfold cmdThermRelease
  rw [hlane]
  refine (if_neg (by simp [hlatched])).trans (if_neg ?_)
  simp only [Bool.or_eq_true, decide_eq_true_eq, not_or, not_le]
  exact ⟨hdie, htsl⟩

/-- A latched lane at 130 degC or above stays latched (R301). -/
theorem cmdThermRelease_hot (n : Lane) (hlane : s.namedLane d = .ok n) (hlatched : (s.lane n).latched = true) (hdie : 130 ≤ (s.lane n).tempDie) :
    cmdThermRelease d s = s.fail rcWrongState := by
  unfold cmdThermRelease
  rw [hlane]
  refine (if_neg (by simp [hlatched])).trans (if_pos ?_)
  simp only [hdie, decide_true, Bool.true_or]

/-- DIAG_READ of a lane answers its counters and clears them (R364). -/
theorem cmdDiagRead_lane (n : Lane) (hparams : d.params = [0, BitVec.ofNat 8 n.val, 1, 0]) (hfit : s.cfg.laneFitted n = true) :
    cmdDiagRead d s = .reply 0 (counters [(s.lane n).diag.late, (s.lane n).diag.shedAborts, (s.lane n).diag.currentLimits, (s.lane n).diag.truncations,
      (s.lane n).diag.skipEntries, (s.lane n).diag.stageFaults, (s.lane n).diag.syncLosses]) (s.modLane n (fun l => { l with diag := LaneDie.zero.diag })) := by
  have hlane : ∀ n : Lane, laneOf (u8 [0, BitVec.ofNat 8 n.val, 1, 0] 1) = some n := by decide
  unfold cmdDiagRead
  rw [hparams]
  refine (if_neg Bool.false_ne_true).trans ((if_pos rfl).trans ?_)
  rw [hlane n]
  exact if_neg (by simp [hfit])

/-- DIAG_READ of a port die clears its counters (R364). -/
theorem cmdDiagRead_port (m : PortDie) (hparams : d.params = [1, BitVec.ofNat 8 m.val, 1, 0]) :
    ∃ l, cmdDiagRead d s = .reply 0 (counters l) (s.modPd m (fun d => { d with late := 0, softResets := 0, pdCrc := 0, trips := 0, badTa := 0, badTb := 0, dropped := 0 })) := by
  have hdie : ∀ m : PortDie, u8 [1, BitVec.ofNat 8 m.val, 1, 0] 1 = m.val := by decide
  refine ⟨[(s.pdie m).late, (s.pdie m).softResets, (s.pdie m).pdCrc, (s.pdie m).trips, (s.pdie m).badTa, (s.pdie m).badTb, (s.pdie m).dropped], ?_⟩
  unfold cmdDiagRead
  rw [hparams]
  refine (if_neg Bool.false_ne_true).trans ((if_neg Nat.one_ne_zero).trans ((if_pos rfl).trans ?_))
  simp only [hdie m]
  exact dif_pos m.isLt

/-- The hub's counters, cleared (R364). -/
def clearedHub (s : State) : State :=
  { s with fcst := { s.fcst with crcErr := 0, verErr := 0, lenErr := 0, intErr := 0, lateFrames := 0 }
           host := { s.host with spiDiscards := 0, uartDiscards := 0 }, tel := { s.tel with dropped := 0 } }

/-- DIAG_READ of the hub clears its counters (R364). -/
theorem cmdDiagRead_hub (hparams : d.params = [2, 0, 1, 0]) : ∃ l, cmdDiagRead d s = .reply 0 (counters l) (clearedHub s) := by
  refine ⟨[s.fcst.crcErr, s.fcst.verErr, s.fcst.lenErr, s.fcst.intErr, s.fcst.lateFrames, s.host.spiDiscards, s.host.uartDiscards, s.tel.dropped], ?_⟩
  unfold cmdDiagRead
  rw [hparams]
  exact (if_neg Bool.false_ne_true).trans ((if_neg (by decide)).trans ((if_neg (by decide)).trans (if_neg (by decide))))

end

/-- Settles O54: each command's body by its own lemma, the answer by `replies` and `answers_as`. -/
theorem releaseHandicapAndDiagnostics : Obligations.ReleaseHandicapAndDiagnostics := by
  unfold Obligations.ReleaseHandicapAndDiagnostics
  refine ⟨fun c d n s htakes hlane hlatched hdie htsl => ?_, fun c d n s htakes hlane hlatched hdie => ?_, fun c d s htakes htesten hkey => ?_,
    fun c d s htakes htesten => ?_, fun c d n s htakes hparams hfit hwf => ?_, fun c d m s htakes hparams => ?_, fun c d s htakes hparams => ?_,
    fun s hup hdiv => ⟨_, if_pos (by simp [hup, hdiv]), rfl⟩, fun s hlocked => if_neg ?_⟩
  · obtain ⟨h, hstarted, -⟩ := started_state s c d 0x0900
    obtain ⟨u, hu, hanswer, hsame, -⟩ := replies s _ c 0x0900 d 0 [] (cmdThermRelease d) htakes
      (by rw [hstarted]; exact cmdThermRelease_unlatches { s with host := h } d n hlane hlatched hdie htsl) (by decide) (by decide) (by rw [hstarted]; rfl)
    refine ⟨u, hu, hanswer, ?_, fun m hm => ?_⟩ <;> rw [hsame]
    · exact State.modLane_lane s n (fun l => { l with latched := false })
    · exact State.modLane_other s n m (fun l => { l with latched := false }) hm
  · obtain ⟨h, hstarted, -⟩ := started_state s c d 0x0900
    obtain ⟨u, hu, hanswer, hsame⟩ := takeCmd_fails_answers (s := s) (c := c) (op := 0x0900) (d := d) (body := cmdThermRelease d) htakes
      (by rw [hstarted]; exact cmdThermRelease_hot { s with host := h } d n hlane hlatched hdie)
    exact ⟨u, hu, hanswer, by rw [hsame]⟩
  · obtain ⟨h, hstarted, -⟩ := started_state s c d 0x0A00
    obtain ⟨u, hu, hanswer, hsame, -⟩ := replies s (({ s with host := h, hnd := { s.hnd with unlocked := true } } : State).hndRecord 1) c 0x0A00 d 0 []
      (cmdHndUnlock d) htakes (by rw [hstarted]; exact (if_neg (by simp [htesten])).trans (if_neg (by simp [hkey]))) (by decide) (by decide)
      (by rw [hstarted]; exact record_host ..)
    refine ⟨u, hu, hanswer, ?_⟩
    rw [hsame]
    unfold State.hndRecord
    rw [record_is]
  · obtain ⟨h, hstarted, -⟩ := started_state s c d 0x0A00
    exact takeCmd_fails_answers (s := s) (c := c) (op := 0x0A00) (d := d) (code := rcDenied) (body := cmdHndUnlock d) htakes
      (by rw [hstarted]; exact if_pos (by simp [htesten]))
  · obtain ⟨h, hstarted, -⟩ := started_state s c d 0x0A02
    obtain ⟨u, hu, hanswer, hsame, -, -, hresp⟩ := replies s _ c 0x0A02 d 0 _ (cmdDiagRead d) htakes
      (by rw [hstarted]; exact cmdDiagRead_lane { s with host := h } d n hparams hfit) (by decide) (by rw [counters_length]; decide) (by rw [hstarted]; rfl)
    refine ⟨u, hu, hanswer, ?_, fun m hm => ?_, ?_⟩
    · rw [hsame]
      exact (congrArg LaneDie.diag (State.modLane_lane s n (fun l => { l with diag := LaneDie.zero.diag })) :)
    · rw [hsame]
      exact State.modLane_other s n m (fun l => { l with diag := LaneDie.zero.diag }) hm
    · have hblock := memRead_sub u _ _ 0 4 _ (hresp hwf) (by rw [counters_length]; decide)
      rw [List.drop_zero, counters_first] at hblock
      exact hblock
  · obtain ⟨h, hstarted, -⟩ := started_state s c d 0x0A02
    obtain ⟨l, hbody⟩ := cmdDiagRead_port { s with host := h } d m hparams
    obtain ⟨u, hu, hanswer, hsame, -⟩ := replies s _ c 0x0A02 d 0 _ (cmdDiagRead d) htakes
      (by rw [hstarted]; exact hbody) (by decide) (by rw [counters_length]; decide) (by rw [hstarted]; rfl)
    refine ⟨u, hu, hanswer, ?_, ?_⟩ <;> rw [hsame]
    · rfl
    · exact vmod_get_same s.portDies m _
  · obtain ⟨h, hstarted, -⟩ := started_state s c d 0x0A02
    obtain ⟨l, hbody⟩ := cmdDiagRead_hub { s with host := h } d hparams
    obtain ⟨u, hu, hanswer, hsame, hspi, huart⟩ := answers_as s c d _ 0x0A02 0 _ (cmdDiagRead d) htakes (by rw [hstarted]; exact hbody) (by rw [hstarted]; rfl)
    refine ⟨u, hu, hanswer, ?_, ?_, ?_, hspi, huart, ?_⟩ <;> rw [hsame] <;> rfl
  · have hdiv : s.hnd.forceDiv = 0 := if_neg (by simp [hlocked])
    simp [hdiv]

end Sys2Proof.Machine
end

section
/-! Charge, source and port commands (O51; R355-R357). -/

namespace Sys2Proof.Machine

section
variable (s : State) (c : HostChan) (d : Desc)

/-- A status command answers its block and changes the host interface only (R334). -/
theorem answers_block (op : Half) (block : List Byte) (n : Nat) (body : State → Res) (htakes : s.takes c op d) (hwf : Memory.wf s.host.mem)
    (hbody : body (s.started c op d s.now) = .reply 0 block (s.started c op d s.now)) (hlen : block.length = n) (hfits : n ≤ 3072) :
    ∃ u, Host.Outcome.next (s.takeCmd c .normal op d s.now (fun s => s.serve op.toNat body)) = (.next u : Out) ∧ Answered u c d 0 ∧
      u.memRead (mbxBase c + 0x1400) n = block ∧ u = { s with host := u.host } := by
  obtain ⟨h, hstarted, -⟩ := started_state s c d op
  obtain ⟨u, hu, hanswer, hsame, -, -, hresp⟩ := replies s _ c op d 0 block body htakes hbody (by decide) (by omega) rfl
  refine ⟨u, hu, hanswer, hlen ▸ hresp hwf, ?_⟩
  rw [hstarted] at hsame
  exact hsame

theorem chargeBlock_length : s.chargeBlock.length = 24 := rfl

theorem portBlock_length (p : Port) : (s.portBlock p).length = 24 := rfl

/-- Another cause cleared leaves a cause that is absent absent (R203). -/
theorem clearCause_absent (k code : Nat) (h : s.hasCause k = false) : (s.clearCause code).hasCause k = false := by
  change (s.charge.causes &&& ~~~(causeBit code)).getLsbD (k - 1) = false
  rw [BitVec.getLsbD_and, show s.charge.causes.getLsbD (k - 1) = false from h, Bool.false_and]

/-- Causes cleared one after the other are absent (R203). -/
theorem clearCauses_absent (k : Nat) (l : List Nat) (h : s.hasCause k = false ∨ k ∈ l) :
    (l.foldl (fun s c => s.clearCause c) s).hasCause k = false := by
  induction l generalizing s with
  | nil => exact h.resolve_right List.not_mem_nil
  | cons code l ih =>
    refine ih (s.clearCause code) ?_
    rcases h with h | h
    · exact .inl (clearCause_absent s k code h)
    · rcases List.mem_cons.1 h with rfl | h
      · exact .inl (clearCause_clears s k)
      · exact .inr h

/-- CHG_RESTART's clearing: the latched causes are absent, and nothing absent comes back (R209). -/
theorem clearLatched_absent (k : Nat) (h : s.hasCause k = false ∨ k ∈ [6, 7, 8, 9, 11]) : s.clearLatched.hasCause k = false := by
  have hcleared := clearCauses_absent s k [6, 7, 8, 9, 11] h
  unfold State.clearLatched
  extract_lets w
  change w.hasCause k = false at hcleared
  clear_value w
  split
  · exact hcleared
  · split
    · exact hcleared
    · exact clearCause_absent w k 10 hcleared

/-- It changes the charge record only and keeps the presence (R209). -/
theorem clearLatched_is : ∃ C, s.clearLatched = { s with charge := C } ∧ C.present = s.charge.present := by
  unfold State.clearLatched
  extract_lets w
  obtain ⟨C, hw, hpresent⟩ : ∃ C, w = { s with charge := C } ∧ C.present = s.charge.present :=
    foldl_inv (fun u => ∃ C, u = { s with charge := C } ∧ C.present = s.charge.present) _ _ s ⟨s.charge, rfl, rfl⟩
      (fun u code ⟨C, hu, hC⟩ => ⟨{ C with causes := C.causes &&& ~~~(causeBit code) }, by rw [hu]; rfl, hC⟩)
  clear_value w
  rw [hw]
  split
  · exact ⟨C, rfl, hpresent⟩
  · split
    · exact ⟨{ C with backAck := true }, rfl, hpresent⟩
    · exact ⟨{ C with causes := C.causes &&& ~~~(causeBit 10) }, rfl, hpresent⟩

/-- A cycle starts with its timers at 0 and the full fast budget (R198). -/
theorem startCycle_fresh (hon : s.cfg.on 0 0 = true) (hpresent : s.charge.present = true) (hmode : s.aon.mode = some .supply) :
    s.startCycle = s.modCharge (fun c => { c.cleared with phase := .idle, startRound := true, fastBudgetS := s.tmrFast, iSet := 0, iReq := 0 }) :=
  if_pos (by simp [hon, hpresent, hmode])

/-- CHG_RESTART in SUPPLY with the battery: causes 5 to 7 gone, a cycle with full budgets (R209). -/
theorem cmdChgRestart_restarts (hmode : s.aon.mode = some .supply) (hpresent : s.charge.present = true) (hon : s.cfg.on 0 0 = true) :
    ∃ C, cmdChgRestart s = .reply 0 [] { s with charge := C } ∧
      (∀ k, k = 5 ∨ k = 6 ∨ k = 7 → C.causes.getLsbD (k - 1) = false) ∧ C.startRound = true ∧ C.phase = .idle ∧ C.fastS = 0 ∧ C.fastBudgetS = s.tmrFast ∧ C.iSet = 0 := by
  have habsent : ∀ k, k = 5 ∨ k = 6 ∨ k = 7 → (s.clearCause 5).clearLatched.hasCause k = false := by
    rintro k (rfl | rfl | rfl)
    · exact clearLatched_absent _ 5 (.inl (clearCause_clears s 5))
    · exact clearLatched_absent _ 6 (.inr (by decide))
    · exact clearLatched_absent _ 7 (.inr (by decide))
  obtain ⟨C, hcleared, hC⟩ := clearLatched_is (s.clearCause 5)
  rw [hcleared] at habsent
  have hstart := startCycle_fresh { s with charge := C } hon (hC.trans hpresent) hmode
  refine ⟨{ C.cleared with phase := .idle, startRound := true, fastBudgetS := s.tmrFast, iSet := 0, iReq := 0 }, ?_, habsent, rfl, rfl, rfl, rfl, rfl⟩
  have hbody : cmdChgRestart s = .reply 0 [] (s.clearCause 5).clearLatched.startCycle := if_neg (by simp [State.modeIs, hmode, hpresent, hon])
  rw [hbody, hcleared]
  exact congrArg (Res.reply 0 []) hstart

/-- A locked-out connector is unlocked (R154, R356). -/
theorem cmdSrcUnlock_unlocks (x : Src) (hsrc : srcOf (u8 d.params 0) = some x) (hzero : zeroBytes d.params 1 3 = true) (hfit : s.cfg.connFit x = true)
    (hlocked : (s.conn x).lockedOut = true) :
    cmdSrcUnlock d s = .reply 0 [] (s.modConn x (fun k => { k with lockedOut := false, known := k.qualified, trips := [], lastTrip := none })) := by
  unfold cmdSrcUnlock
  rw [hsrc]
  exact (if_neg (by simp [hzero])).trans ((if_neg (by simp [hfit])).trans (if_neg (by simp [hlocked])))

theorem cmdSrcUnlock_open (x : Src) (hsrc : srcOf (u8 d.params 0) = some x) (hzero : zeroBytes d.params 1 3 = true) (hfit : s.cfg.connFit x = true)
    (hopen : (s.conn x).lockedOut = false) : cmdSrcUnlock d s = s.fail rcWrongState := by
  unfold cmdSrcUnlock
  rw [hsrc]
  exact (if_neg (by simp [hzero])).trans ((if_neg (by simp [hfit])).trans (if_pos (by simp [hopen])))

theorem cmdPortStatus_answers (p : Port) (hport : portOf (u8 d.params 0) = some p) (hzero : zeroBytes d.params 1 3 = true)
    (hfit : s.cfg.connFit (portSrc p) = true) : cmdPortStatus d s = .reply 0 (s.portBlock p) s := by
  unfold cmdPortStatus
  rw [hport]
  exact (if_neg (by simp [hzero])).trans (if_neg (by simp [hfit]))

/-- What a swap asked for by PORT_ACTION leaves: the port waits for the reply, its die sends the message (R357). -/
def swapAsked (s : State) (p : Port) (m : PdMsg) (w : PdWait) : State := (s.modPort p (fun q => { q with wait := w })).pdSend p m

/-- A swap that the port's setting allows is asked for (R357). -/
theorem cmdPortAction_swaps (p : Port) (m : PdMsg) (w : PdWait) (hport : portOf (u8 d.params 0) = some p) (hzero : zeroBytes d.params 2 3 = true)
    (hrole : (s.port p).attach = .sink ∨ (s.port p).attach = .source) (hcontract : (s.port p).contract.kind ≠ .none) (hhard : (s.port p).softened = false)
    (hruns : s.portStopped p = false) (hfree : s.portFree p = true)
    (hswap : (u8 d.params 1 = 1 ∧ m = .prSwap ∧ w = .swapReply ∧ s.portGet p 12 ≠ 2 ∧ ((s.port p).attach = .source ∨ (s.portGet p 12 ≠ 0 ∧ s.canFeed p = true))) ∨
      (u8 d.params 1 = 2 ∧ m = .drSwap ∧ w = .drReply ∧ s.portGet p 13 ≠ 1) ∨
      (u8 d.params 1 = 3 ∧ m = .vconnSwap ∧ w = .vconnReply ∧ s.portGet p 14 ≠ 1 ∧ ((s.port p).vconn = true ∨ (s.pdie (portDie p)).vconnSupply = true))) :
    cmdPortAction d s = .run true (swapAsked s p m w) := by
  have hready : ((((s.port p).attach == .sink || (s.port p).attach == .source) && (s.port p).contract.kind != .none && !(s.port p).softened) &&
      !s.portStopped p && s.portFree p) = true := by
    rcases hrole with h | h <;> simp [h, hcontract, hhard, hruns, hfree]
  unfold cmdPortAction
  rw [hport]
  dsimp only
  rw [hready]
  rcases hswap with ⟨hact, rfl, rfl, hget, hsource⟩ | ⟨hact, rfl, rfl, hget⟩ | ⟨hact, rfl, rfl, hget, hvconn⟩
  · rw [hact]
    refine (if_neg (by simp [hzero])).trans ((if_pos rfl).trans ((if_neg (by simp)).trans ((if_neg ?_).trans (if_neg ?_))))
    · rcases hsource with h | ⟨h, -⟩ <;> simp [hget, h]
    · rcases hsource with h | ⟨-, h⟩ <;> simp [h]
  · rw [hact]
    exact (if_neg (by simp [hzero])).trans ((if_neg (by decide)).trans ((if_pos rfl).trans ((if_neg (by simp)).trans (if_neg hget))))
  · rw [hact]
    refine (if_neg (by simp [hzero])).trans ((if_neg (by decide)).trans ((if_neg (by decide)).trans ((if_pos rfl).trans ((if_neg ?_).trans (if_neg hget)))))
    rcases hvconn with h | h <;> simp [h]

/-- Error recovery of a port that is not attached is WRONG_STATE (R357). -/
theorem cmdPortAction_unattached (p : Port) (hport : portOf (u8 d.params 0) = some p) (hact : u8 d.params 1 = 6) (hzero : zeroBytes d.params 2 3 = true)
    (hopen : (s.port p).attach = .unattached) : cmdPortAction d s = s.fail rcWrongState := by
  unfold cmdPortAction
  rw [hport]
  dsimp only
  rw [hact]
  exact (if_neg (by simp [hzero])).trans ((if_neg (by decide)).trans ((if_neg (by decide)).trans ((if_neg (by decide)).trans ((if_neg (by decide)).trans
    ((if_neg (by decide)).trans ((if_pos rfl).trans (if_pos (by simp [hopen]))))))))

end

/-- The set point keeps the host's limit (R198). -/
theorem chargeSetpoint_iHost (s : State) : s.chargeSetpoint.charge.iHost = s.charge.iHost := rfl

/-- Settles O51: each command's body by its own lemma, the answer by `replies`, `answers_block` and `runsOn`. -/
theorem chargeSourceAndPortCommandsAct : Obligations.ChargeSourceAndPortCommandsAct := by
  unfold Obligations.ChargeSourceAndPortCommandsAct
  refine ⟨⟨fun c d s htakes hlow hzero => ?_, fun c d s htakes hhigh => ?_, fun c d s htakes hcycling => ?_, fun c d s htakes hmode hpresent hon => ?_,
    fun c d s htakes habsent => ?_, fun c d s htakes hwf => ?_⟩, fun c d x s htakes hsrc hzero hfit hlocked => ?_, fun c d x s htakes hsrc hzero hfit hopen => ?_,
    fun c d p s htakes hport hzero hfit hwf => ?_, fun c d p m w s htakes hport hzero hrole hcontract hhard hruns hfree hswap => ?_,
    fun c d p s htakes hport hact hzero hopen => ?_⟩
  · obtain ⟨h, hstarted, -⟩ := started_state s c d 0x0300
    obtain ⟨C, hset, hphase, -⟩ := chargeSetpoint_is ((s.started c 0x0300 d s.now).modCharge (fun c => { c with iHost := (u16 d.params 0 : Rat) / 20 }))
    have hhost := chargeSetpoint_iHost ((s.started c 0x0300 d s.now).modCharge (fun c => { c with iHost := (u16 d.params 0 : Rat) / 20 }))
    rw [hset] at hhost
    obtain ⟨u, hu, hanswer, hsame, -⟩ := replies s _ c 0x0300 d 0 [] (cmdChgSetCurrent d) htakes
      (if_neg (by rw [hstarted, Bool.or_eq_true, decide_eq_true_eq, not_or, not_lt]; exact ⟨hlow, by simp [hzero]⟩)) (by decide) (by decide) (by rw [hset]; rfl)
    rw [hset] at hsame
    refine ⟨u, hu, hanswer, ?_, ?_, ?_⟩ <;> rw [hsame]
    · exact hhost
    · exact hphase.trans (by rw [hstarted]; rfl)
    · rw [hstarted]
      rfl
  · exact takeCmd_fails_answers (s := s) (c := c) (op := 0x0300) (d := d) (code := rcBadParam) (body := cmdChgSetCurrent d) htakes
      (by
        obtain ⟨h, hstarted, -⟩ := started_state s c d 0x0300
        rw [hstarted]
        exact if_pos (by rw [Bool.or_eq_true, decide_eq_true_eq]; exact .inl hhigh))
  · obtain ⟨h, hstarted, -⟩ := started_state s c d 0x0301
    obtain ⟨L, m, k, hset, -⟩ := setCause_is { s with host := h } 5
    have hhas := setCause_has { s with host := h } 5 (by decide)
    have hsuspended := suspended_of_hasCause _ 5 (by decide) hhas
    rw [hset] at hhas hsuspended
    obtain ⟨u, hu, hanswer, hsame, -⟩ := replies s _ c 0x0301 d 0 [] cmdChgHold htakes
      (by rw [hstarted]; exact (if_pos hcycling).trans (congrArg (Res.reply 0 []) hset)) (by decide) (by decide) (by rw [hstarted])
    refine ⟨u, hu, hanswer, ?_, ?_, ?_⟩ <;> rw [hsame]
    · exact hhas
    · exact hsuspended
  · obtain ⟨h, hstarted, -⟩ := started_state s c d 0x0302
    obtain ⟨C, hbody, hgone, hround, hphase, hfast, hbudget, hzero⟩ := cmdChgRestart_restarts { s with host := h } hmode hpresent hon
    obtain ⟨u, hu, hanswer, hsame, -⟩ := replies s _ c 0x0302 d 0 [] cmdChgRestart htakes (by rw [hstarted]; exact hbody) (by decide) (by decide) (by rw [hstarted])
    refine ⟨u, hu, hanswer, ?_⟩
    rw [hsame]
    exact ⟨hgone 5 (by decide), hgone 6 (by decide), hgone 7 (by decide), hround, hphase, hfast, hbudget, hzero⟩
  · exact takeCmd_fails_answers (s := s) (c := c) (op := 0x0302) (d := d) (code := rcWrongState) (body := cmdChgRestart) htakes
      (by
        obtain ⟨h, hstarted, -⟩ := started_state s c d 0x0302
        rw [hstarted]
        exact if_pos (by simp [habsent]))
  · exact answers_block s c d 0x0303 s.chargeBlock 24 cmdChgStatus htakes hwf
      (by
        obtain ⟨h, hstarted, -⟩ := started_state s c d 0x0303
        rw [hstarted]
        rfl) (chargeBlock_length s) (by decide)
  · obtain ⟨h, hstarted, -⟩ := started_state s c d 0x0400
    obtain ⟨u, hu, hanswer, hsame, -⟩ := replies s _ c 0x0400 d 0 [] (cmdSrcUnlock d) htakes
      (by rw [hstarted]; exact cmdSrcUnlock_unlocks { s with host := h } d x hsrc hzero hfit hlocked) (by decide) (by decide) (by rw [hstarted]; rfl)
    refine ⟨u, hu, hanswer, ?_, fun y hy => ?_, ?_⟩ <;> rw [hsame]
    · exact vmod_get_same s.conns x _
    · exact vmod_get_other s.conns x y _ hy
    · rfl
  · exact takeCmd_fails_answers (s := s) (c := c) (op := 0x0400) (d := d) (code := rcWrongState) (body := cmdSrcUnlock d) htakes
      (by
        obtain ⟨h, hstarted, -⟩ := started_state s c d 0x0400
        rw [hstarted]
        exact cmdSrcUnlock_open { s with host := h } d x hsrc hzero hfit hopen)
  · exact answers_block s c d 0x0401 (s.portBlock p) 24 (cmdPortStatus d) htakes hwf
      (by
        obtain ⟨h, hstarted, -⟩ := started_state s c d 0x0401
        rw [hstarted]
        exact cmdPortStatus_answers { s with host := h } d p hport hzero hfit) (portBlock_length s p) (by decide)
  · obtain ⟨h, hstarted, -⟩ := started_state s c d 0x0402
    obtain ⟨u, hu, hruns, hsame⟩ := runsOn s _ c 0x0402 d true (cmdPortAction d) htakes
      (by rw [hstarted]; exact cmdPortAction_swaps { s with host := h } d p m w hport hzero hrole hcontract hhard hruns hfree hswap) (by rw [hstarted]; rfl)
    refine ⟨u, hu, hruns, ?_, ?_, ?_, ?_⟩ <;> rw [hsame]
    · exact (congrArg PortSt.wait (vmod_get_same s.ports p (fun q => { q with wait := w })) :)
    · rfl
    · rfl
    · exact (congrArg PortDieSt.frames (vmod_get_same s.portDies (dieOfSrc (portSrc p)) _) :)
  · exact takeCmd_fails_answers (s := s) (c := c) (op := 0x0402) (d := d) (code := rcWrongState) (body := cmdPortAction d) htakes
      (by
        obtain ⟨h, hstarted, -⟩ := started_state s c d 0x0402
        rw [hstarted]
        exact cmdPortAction_unattached { s with host := h } d p hport hact hzero hopen)

end Sys2Proof.Machine
end

section
/-! Update commands: sessions, seals, kickoffs and the relay (O53; R362, R394-R407). -/

namespace Sys2Proof.Machine

section
variable (s : State) (c : HostChan) (d : Desc)

/-- A free slot whose command is served and starts a flash job runs on, its session record as it was (R334, R362). -/
theorem takeCmd_runsJob (op : Half) (body : State → Res) (hup : s.hubUp = true) (hfree : (s.mbx c).st = .idle ∨ (s.mbx c).st = .queued)
    (hfresh : ¬((s.mbx c).lastSeq = d.seq ∧ (s.mbx c).lastOp = op)) (hcheck : precheck op.toNat .normal d = none)
    (hserved : s.hub.shelf ≠ .recovery ∨ recoveryServes op.toNat = true)
    (hbody : body (s.started c op d s.now) = (s.started c op d s.now).updJob c op) :
    ∃ u, Host.Outcome.next (s.takeCmd c .normal op d s.now (fun s => s.serve op.toNat body)) = (.next u : Out) ∧ RunsOn u c op ∧
      FlashJob.update c op ∈ u.flash.busy.toList ++ u.flash.queue ∧ u.update = s.update := by
  obtain ⟨h, hstarted, -, hst, hrunning, -⟩ := started_is s c op d s.now
  have hserve : (s.started c op d s.now).serve op.toNat body = (s.started c op d s.now).updJob c op := by
    rw [← hbody]
    exact if_neg (by rw [hstarted]; rcases hserved with h | h <;> simp [h])
  have htaken : s.takeCmd c .normal op d s.now (fun s => s.serve op.toNat body) =
      ((s.started c op d s.now).addJob (.update c op)).modChan c (fun m => { m with running := m.running.map (fun r => { r with pastNoReturn := false }) }) := by
    unfold State.takeCmd
    rw [if_neg (by simp [hup])]
    dsimp only
    rw [if_neg (by rcases hfree with h | h <;> rw [h] <;> decide), if_neg (by simpa using fun h1 h2 => absurd ⟨h1, h2⟩ hfresh), hcheck]
    dsimp only
    unfold State.started at hserve ⊢
    rw [hserve]
    rfl
  have hjob : FlashJob.update c op ∈ ((s.started c op d s.now).addJob (.update c op)).flash.busy.toList ++
      ((s.started c op d s.now).addJob (.update c op)).flash.queue := addJob_mem ..
  have hmbx : ((s.started c op d s.now).addJob (.update c op)).mbx c = (s.started c op d s.now).mbx c := rfl
  have hupdate : ((s.started c op d s.now).addJob (.update c op)).update = s.update := rfl
  generalize (s.started c op d s.now).addJob (.update c op) = t at htaken hjob hmbx hupdate
  refine ⟨_, congrArg Host.Outcome.next htaken, ?_, hjob, hupdate⟩
  unfold RunsOn
  rw [modChan_mbx, hmbx]
  dsimp only
  rw [hst, hrunning]
  exact ⟨rfl, _, rfl, rfl⟩

/-- The same for a command that its channel takes. -/
theorem runsJob (op : Half) (body : State → Res) (htakes : s.takes c op d)
    (hbody : body (s.started c op d s.now) = (s.started c op d s.now).updJob c op) :
    ∃ u, Host.Outcome.next (s.takeCmd c .normal op d s.now (fun s => s.serve op.toNat body)) = (.next u : Out) ∧ RunsOn u c op ∧
      FlashJob.update c op ∈ u.flash.busy.toList ++ u.flash.queue ∧ u.update = s.update := by
  obtain ⟨hup, hshelf, hfree, hfresh, hcheck⟩ := htakes
  exact takeCmd_runsJob s c d op body hup hfree hfresh hcheck (.inl hshelf) hbody

/-- A body that fails leaves the session record and the flash die (R334). -/
theorem fails_updateKept (op : Half) (code : Nat) (body : State → Res) (htakes : s.takes c op d)
    (hbody : body (s.started c op d s.now) = (s.started c op d s.now).fail code) :
    ∃ u, Host.Outcome.next (s.takeCmd c .normal op d s.now (fun s => s.serve op.toNat body)) = (.next u : Out) ∧ Answered u c d code ∧
      u.update = s.update ∧ u.flash = s.flash := by
  obtain ⟨u, hu, hanswer, hsame⟩ := takeCmd_fails_answers htakes hbody
  exact ⟨u, hu, hanswer, (congrArg State.update hsame :), (congrArg State.flash hsame :)⟩

theorem updBlock_length : s.updBlock.length = 24 := by
  unfold State.updBlock
  rw [List.length_append, List.length_append, Vector.length_toList]
  rfl

/-- UPD_OPEN with a good manifest and an erased staging area starts its job (R394, R395). -/
theorem cmdUpdOpen_opens (hclosed : s.update.isOpen = false) (hidle : s.update.storing = false) (hman : s.manCheck d.params = none)
    (hflash : s.therm.flashShut = false) (herased : s.flash.stagingErased = true) : cmdUpdOpen c d s = s.updJob c 0x0800 := by
  unfold cmdUpdOpen
  rw [hman]
  exact (if_neg (by simp [hclosed, hidle])).trans (if_neg (by simp [hflash, herased]))

theorem cmdUpdOpen_badManifest (k r : Nat) (hclosed : s.update.isOpen = false) (hidle : s.update.storing = false)
    (hman : s.manCheck d.params = some (k, r)) : cmdUpdOpen c d s = s.fail k := by
  unfold cmdUpdOpen
  rw [hman]
  exact if_neg (by simp [hclosed, hidle])

theorem isOpen_of_receiving (h : s.update.st = .receiving) : s.update.isOpen = true := by simp [Update.isOpen, h]

theorem isOpen_of_sealed (h : s.update.st = .sealedUp) : s.update.isOpen = true := by simp [Update.isOpen, h]

theorem sealedState_of_sealed (h : s.update.st = .sealedUp) : s.update.sealedState = true := by simp [Update.sealedState, h]

/-- A block of a receiving session that is not held yet starts its job (R397). -/
theorem cmdUpdBlock_stores (hst : s.update.st = .receiving) (hown : s.update.relayed = false) (hblock : u32 d.params 0 < manBlocks s.update.manifest)
    (hnew : s.update.held (u32 d.params 0) = none) (hflash : s.therm.flashShut = false) : cmdUpdBlock c d s = s.updJob c 0x0801 :=
  (if_neg (by simp [isOpen_of_receiving s hst])).trans ((if_neg (by simp [hown, hst])).trans ((if_neg (by omega)).trans
    ((if_neg (by simp [hnew])).trans (if_neg (by simp [hflash])))))

/-- A complete, built session seals (R399). -/
theorem cmdUpdSeal_seals (hst : s.update.st = .receiving) (hown : s.update.relayed = false) (hall : s.update.allHeld = true) (hbuilt : s.update.buildDone = true)
    (hflash : s.therm.flashShut = false) : cmdUpdSeal c s = s.updJob c 0x0802 :=
  (if_neg (by simp [isOpen_of_receiving s hst])).trans ((if_neg (by simp [hown, hst, hall])).trans (if_neg (by simp [hbuilt, hflash])))

theorem cmdUpdSeal_missing (hst : s.update.st = .receiving) (hmissing : s.update.allHeld = false) : cmdUpdSeal c s = s.fail rcWrongState :=
  (if_neg (by simp [isOpen_of_receiving s hst])).trans (if_pos (by simp [hmissing]))

/-- A kickoff at least 1 s ahead starts its job (R401). -/
theorem cmdUpdKickoff_arms (hst : s.update.st = .sealedUp) (htime : s.fleetUs + 1000000 ≤ u64 d.params 0) (hflag : u8 d.params 8 ≤ 1)
    (hzero : zeroBytes d.params 9 11 = true) : cmdUpdKickoff c d s = s.updJob c 0x0803 :=
  (if_neg (by simp [isOpen_of_sealed s hst])).trans ((if_neg (by simp [sealedState_of_sealed s hst])).trans
    (if_neg (by simp only [Bool.or_eq_true, decide_eq_true_eq, Bool.not_eq_true', hzero, not_or, not_lt, not_le]
                exact ⟨⟨htime, Nat.lt_succ_of_le hflag⟩, by decide⟩)))

theorem cmdUpdKickoff_tooNear (hst : s.update.st = .sealedUp) (htime : u64 d.params 0 < s.fleetUs + 1000000) : cmdUpdKickoff c d s = s.fail rcBadParam :=
  (if_neg (by simp [isOpen_of_sealed s hst])).trans ((if_neg (by simp [sealedState_of_sealed s hst])).trans
    (if_pos (by simp only [Bool.or_eq_true, decide_eq_true_eq]; exact .inl (.inl htime))))

/-- The relay's setting: its fragments to send, or none (R404). -/
theorem upPorts_of_up (t : TrunkPort) (hlink : (s.link t).up = true) : s.upPorts.isEmpty = false := by
  rw [List.isEmpty_eq_false_iff_exists_mem]
  exact ⟨t, List.mem_filter.2 ⟨List.mem_finRange t, hlink⟩⟩

theorem cmdUpdRelay_starts (t : TrunkPort) (hst : s.update.st = .sealedUp) (htrunk : s.trkOn = true) (hlink : (s.link t).up = true)
    (hon : u8 d.params 0 = 1) (hzero : zeroBytes d.params 1 3 = true) :
    cmdUpdRelay d s = .reply 0 [] (s.modTrunk (fun t => { t with relay := true, relayLeft := List.range ((s.update.stream.length + 255) / 256), relayPass := 1,
                                                                 resend := [], ackStates := [] })) :=
  (if_neg (by simp [isOpen_of_sealed s hst])).trans ((if_neg (by simp [hon, hzero])).trans ((if_neg (by simp [sealedState_of_sealed s hst, htrunk])).trans
    ((if_neg (by simp [upPorts_of_up s t hlink])).trans (if_neg (by omega)))))

theorem cmdUpdRelay_ends (t : TrunkPort) (hst : s.update.st = .sealedUp) (htrunk : s.trkOn = true) (hlink : (s.link t).up = true)
    (hoff : u8 d.params 0 = 0) (hzero : zeroBytes d.params 1 3 = true) :
    cmdUpdRelay d s = .reply 0 [] (s.modTrunk (fun t => { t with relay := false, relayLeft := [], resend := [] })) :=
  (if_neg (by simp [isOpen_of_sealed s hst])).trans ((if_neg (by simp [hoff, hzero])).trans ((if_neg (by simp [sealedState_of_sealed s hst, htrunk])).trans
    ((if_neg (by simp [upPorts_of_up s t hlink])).trans (if_pos hoff))))

/-- The host's confirmation in an unspoiled health window starts its job (R407). -/
theorem cmdUpdConfirm_confirms (hst : s.update.st = .active) (hwindow : s.update.window = true) (hclean : s.update.spoiled = false)
    (hwdg : s.update.wdgSpoiled = false) (hhost : manHostConfirm s.update.manifest = true) : cmdUpdConfirm c s = s.updJob c 0x0805 :=
  (if_neg (by simp [hst, hwindow, hclean, hwdg])).trans (if_neg (by simp [hhost]))

end

section
variable (c : HostChan) (d : Desc) (s : State)

/-- The body on the started state is the body on a state that differs in the host interface only. -/
theorem on_started {P : Res → State → Prop} (op : Half) (body : State → Res) (h : ∀ k, P (body { s with host := k }) { s with host := k }) :
    P (body (s.started c op d s.now)) (s.started c op d s.now) := by
  obtain ⟨k, hstarted, -⟩ := started_state s c d op
  rw [hstarted]
  exact h k

end

/-- Settles O53: each command's body by its own lemma, its job by `runsJob`, a refusal by `fails_updateKept`. -/
theorem updateCommandsAct : Obligations.UpdateCommandsAct := by
  unfold Obligations.UpdateCommandsAct
  refine ⟨⟨fun c d s hup hidle hfresh hcheck hclosed hnostore hman hflash herased => ?_, fun c d k r s htakes hclosed hnostore hman => ?_,
      fun c d s htakes hclosed => ?_, fun c d s htakes hst hown hblock hnew hflash => ?_, fun c d s htakes hst hown hall hbuilt hflash => ?_,
      fun c d s htakes hst hmissing => ?_⟩,
    fun c d s htakes hst htime hflag hzero => ?_, fun c d s htakes hst htime => ?_, fun c d t s htakes hst htrunk hlink hon hzero => ?_,
    fun c d t s htakes hst htrunk hlink hoff hzero => ?_, fun c d s htakes hst hwindow hclean hwdg hhost => ?_, fun c d s htakes hwindow => ?_,
    fun c d s htakes hidle hactive => ?_, fun c d s htakes hidle => ?_, fun c d s htakes hwf => ?_⟩
  · exact takeCmd_runsJob s c d 0x0800 (cmdUpdOpen c d) hup (.inl hidle) hfresh hcheck (.inr (by decide))
      (on_started c d s (P := fun r w => r = w.updJob c 0x0800) _ _ fun h => cmdUpdOpen_opens { s with host := h } c d hclosed hnostore hman hflash herased)
  · exact fails_updateKept s c d 0x0800 k (cmdUpdOpen c d) htakes
      (on_started c d s (P := fun r w => r = w.fail k) _ _ fun h => cmdUpdOpen_badManifest { s with host := h } c d k r hclosed hnostore hman)
  · obtain ⟨u, hu, hanswer, hupdate, -⟩ := fails_updateKept s c d 0x0801 rcNoSession (cmdUpdBlock c d) htakes
      (on_started c d s (P := fun r w => r = w.fail rcNoSession) _ _ fun h => if_pos (by simp [hclosed]))
    exact ⟨u, hu, hanswer, hupdate⟩
  · exact runsJob s c d 0x0801 (cmdUpdBlock c d) htakes
      (on_started c d s (P := fun r w => r = w.updJob c 0x0801) _ _ fun h => cmdUpdBlock_stores { s with host := h } c d hst hown hblock hnew hflash)
  · exact runsJob s c d 0x0802 (cmdUpdSeal c) htakes
      (on_started c d s (P := fun r w => r = w.updJob c 0x0802) _ _ fun h => cmdUpdSeal_seals { s with host := h } c hst hown hall hbuilt hflash)
  · obtain ⟨u, hu, hanswer, hupdate, -⟩ := fails_updateKept s c d 0x0802 rcWrongState (cmdUpdSeal c) htakes
      (on_started c d s (P := fun r w => r = w.fail rcWrongState) _ _ fun h => cmdUpdSeal_missing { s with host := h } c hst hmissing)
    exact ⟨u, hu, hanswer, hupdate⟩
  · exact runsJob s c d 0x0803 (cmdUpdKickoff c d) htakes
      (on_started c d s (P := fun r w => r = w.updJob c 0x0803) _ _ fun h => cmdUpdKickoff_arms { s with host := h } c d hst htime hflag hzero)
  · obtain ⟨u, hu, hanswer, hupdate, -⟩ := fails_updateKept s c d 0x0803 rcBadParam (cmdUpdKickoff c d) htakes
      (on_started c d s (P := fun r w => r = w.fail rcBadParam) _ _ fun h => cmdUpdKickoff_tooNear { s with host := h } c d hst htime)
    exact ⟨u, hu, hanswer, hupdate⟩
  · obtain ⟨h, hstarted, -⟩ := started_state s c d 0x0804
    obtain ⟨u, hu, hanswer, hsame, -⟩ := replies s _ c 0x0804 d 0 [] (cmdUpdRelay d) htakes
      (by rw [hstarted]; exact cmdUpdRelay_starts { s with host := h } d t hst htrunk hlink hon hzero) (by decide) (by decide) (by rw [hstarted]; rfl)
    refine ⟨u, hu, hanswer, ?_⟩
    rw [hsame]
    exact ⟨rfl, rfl, rfl, rfl⟩
  · obtain ⟨h, hstarted, -⟩ := started_state s c d 0x0804
    obtain ⟨u, hu, hanswer, hsame, -⟩ := replies s _ c 0x0804 d 0 [] (cmdUpdRelay d) htakes
      (by rw [hstarted]; exact cmdUpdRelay_ends { s with host := h } d t hst htrunk hlink hoff hzero) (by decide) (by decide) (by rw [hstarted]; rfl)
    refine ⟨u, hu, hanswer, ?_⟩
    rw [hsame]
    exact ⟨rfl, rfl⟩
  · exact runsJob s c d 0x0805 (cmdUpdConfirm c) htakes
      (on_started c d s (P := fun r w => r = w.updJob c 0x0805) _ _ fun h => cmdUpdConfirm_confirms { s with host := h } c hst hwindow hclean hwdg hhost)
  · obtain ⟨u, hu, hanswer, hupdate, -⟩ := fails_updateKept s c d 0x0805 rcWrongState (cmdUpdConfirm c) htakes
      (on_started c d s (P := fun r w => r = w.fail rcWrongState) _ _ fun h => if_pos (by simp [hwindow]))
    exact ⟨u, hu, hanswer, hupdate⟩
  · exact runsJob s c d 0x0806 (cmdUpdAbort c) htakes
      (on_started c d s (P := fun r w => r = w.updJob c 0x0806) _ _ fun h => (if_neg hidle).trans (if_neg hactive))
  · obtain ⟨u, hu, hanswer, hupdate, -⟩ := fails_updateKept s c d 0x0806 rcNoSession (cmdUpdAbort c) htakes
      (on_started c d s (P := fun r w => r = w.fail rcNoSession) _ _ fun h => if_pos hidle)
    exact ⟨u, hu, hanswer, hupdate⟩
  · exact answers_block s c d 0x0807 s.updBlock 24 cmdUpdStatus htakes hwf
      (by
        obtain ⟨h, hstarted, -⟩ := started_state s c d 0x0807
        rw [hstarted]
        rfl) (updBlock_length s) (by decide)

end Sys2Proof.Machine
end

section
/-! Configuration transactions (O49; R344-R352). -/

namespace Sys2Proof.Machine

section
variable (s : State) (c : HostChan) (d : Desc)

/-- With one entry the first fault is that entry's (R345, R346). -/
theorem findSome_one {α : Type} (f : Nat → Option α) : (List.range 1).findSome? f = f 0 := by
  rw [List.range_one, List.findSome?_cons]
  cases f 0 <;> rfl

/-- FUNC_STOP marks the named functions for its channel (R344). -/
theorem cmdFuncStop_stops (m : BitVec 15) (hmask : funcMask d.params = some m) (hfree : ∀ f, m.getLsbD f = true → s.cfg.stop f = none) :
    cmdFuncStop c d s = .reply 0 [] (s.modCfg (fun g => { g with
      stoppedBy := Vector.ofFn (fun f => if m.getLsbD f.val then some c else g.stoppedBy.get f) })) := by
  unfold cmdFuncStop
  rw [hmask]
  refine if_neg ?_
  rw [List.any_eq_true]
  rintro ⟨f, hf, hstopped⟩
  rw [hfree f ((mem_named m f).1 hf)] at hstopped
  cases hstopped

/-- A function that another channel stopped is refused (R344). -/
theorem cmdFuncStop_denied (k : HostChan) (m : BitVec 15) (f : Fin 15) (hmask : funcMask d.params = some m) (hf : m.getLsbD f.val = true)
    (hstopped : s.cfg.stoppedBy.get f = some k) (hother : k ≠ c) : cmdFuncStop c d s = s.fail rcDenied := by
  unfold cmdFuncStop
  rw [hmask]
  refine if_pos (List.any_eq_true.2 ⟨f.val, (mem_named m f.val).2 hf, ?_⟩)
  rw [stop_fin, hstopped]
  simp [hother]

/-- One good entry is staged (R345). -/
theorem cmdCfgWrite_stages (hone : u16 d.params 0 = 1) (hzero : u16 d.params 2 = 0) (hgood : s.writeFault c d.params 0 = none) :
    cmdCfgWrite c d s = .reply 0 [] (s.modCfg (fun g => { g with staged := putEntry (writeEntry d.params 0) g.staged })) := by
  unfold cmdCfgWrite
  dsimp only
  rw [hone, if_neg (by simp [hzero]), findSome_one, hgood]
  rfl

/-- One bad entry is refused with its cause (R345). -/
theorem cmdCfgWrite_refuses (x : Nat) (hone : u16 d.params 0 = 1) (hzero : u16 d.params 2 = 0) (hbad : s.writeFault c d.params 0 = some (4, x)) :
    cmdCfgWrite c d s = .reply 4 (entryFault 0 x) s := by
  unfold cmdCfgWrite
  dsimp only
  rw [hone, if_neg (by simp [hzero]), findSome_one, hbad]
  rfl

/-- One entry read answers its head and the value in force (R346). -/
theorem cmdCfgRead_answers (hone : u16 d.params 0 = 1) (hzero : u16 d.params 2 = 0) (hgood : readFault d.params 0 = none) (hforce : u8 d.params 7 = 0) :
    cmdCfgRead d s = .reply 0 (slice d.params 4 4 ++ sle 4 (s.cfg.get (u8 d.params 4) (u8 d.params 5) (u8 d.params 6))) s := by
  have hentry : s.readEntry d.params 0 = slice d.params 4 4 ++ sle 4 (s.cfg.get (u8 d.params 4) (u8 d.params 5) (u8 d.params 6)) := by
    unfold State.readEntry
    dsimp only
    rw [hforce]
    rfl
  unfold cmdCfgRead
  dsimp only
  rw [hone, if_neg (by simp [hzero]), findSome_one, hgood, List.range_one]
  change Res.reply rcOk (List.flatMap (fun i => s.readEntry d.params i) [0]) s = _
  rw [List.flatMap_singleton, hentry]
  rfl

theorem slice_length (b : List Byte) (i n : Nat) : (slice b i n).length = n := by
  unfold slice padTo
  rw [List.length_take, List.length_append, List.length_replicate]
  omega

/-- A valid start with changes writes its catalogue record (R347-R349). -/
theorem cmdFuncStart_writes (m : BitVec 15) (hmask : funcMask d.params = some m) (hown : ∀ f, m.getLsbD f = true → s.cfg.stop f = some c)
    (hvalid : validate (s.checkCtx m) = none) (hnew : s.stagedNew m = true) (hflash : s.therm.flashShut = false) :
    cmdFuncStart c d s = .run false (s.addJob (.catalogue c (s.catRecord s.fwVersion m))) := by
  unfold cmdFuncStart
  rw [hmask]
  dsimp only
  rw [startCheck_none s c m hown, hvalid]
  exact (if_neg (by simp [hnew])).trans (if_neg (by simp [hflash]))

/-- A valid start without changes frees its functions at once (R347). -/
theorem cmdFuncStart_frees (m : BitVec 15) (hmask : funcMask d.params = some m) (hown : ∀ f, m.getLsbD f = true → s.cfg.stop f = some c)
    (hvalid : validate (s.checkCtx m) = none) (hsame : s.stagedNew m = false) : cmdFuncStart c d s = .reply 0 [] (s.restartFuncs m) := by
  unfold cmdFuncStart
  rw [hmask]
  dsimp only
  rw [startCheck_none s c m hown, hvalid]
  exact if_pos (by simp [hsame])

/-- FUNC_ABORT frees its functions (R352). -/
theorem cmdFuncAbort_frees (m : BitVec 15) (hmask : funcMask d.params = some m) (hown : ∀ f, m.getLsbD f = true → s.cfg.stop f = some c) :
    cmdFuncAbort c d s = .reply 0 [] (s.restartFuncs m) := by
  unfold cmdFuncAbort
  rw [hmask]
  dsimp only
  rw [startCheck_none s c m hown]
  rfl

/-- After a start or an abort that frees the functions: nothing staged for them, the settings in force as they were (R347, R352). -/
theorem freed_is (op : Half) (m : BitVec 15) (body : State → Res) (htakes : s.takes c op d)
    (hbody : body (s.started c op d s.now) = .reply 0 [] ((s.started c op d s.now).restartFuncs m)) :
    ∃ u, Host.Outcome.next (s.takeCmd c .normal op d s.now (fun s => s.serve op.toNat body)) = (.next u : Out) ∧ Answered u c d 0 ∧
      u.cfg.inForce = s.cfg.inForce ∧ (∀ f : Fin 15, m.getLsbD f.val = true → u.cfg.stoppedBy.get f = none) ∧ (∀ e ∈ u.cfg.staged, m.getLsbD e.fn = false) := by
  obtain ⟨h, hstarted, -⟩ := started_state s c d op
  obtain ⟨hhost, hforce, hfree, hstaged⟩ := restart_is (s.started c op d s.now) m
  obtain ⟨u, hu, hanswer, hsame, -⟩ := replies s _ c op d 0 [] body htakes hbody (by decide) (by decide) hhost
  have hcfg : u.cfg = ((s.started c op d s.now).restartFuncs m).cfg := by rw [hsame]
  refine ⟨u, hu, hanswer, ?_, fun f hf => ?_, fun e he => ?_⟩
  · rw [hcfg, hforce, hstarted]
  · rw [hcfg]
    exact hfree f hf
  · rw [hcfg, hstaged] at he
    simpa using (List.mem_filter.1 he).2

end

/-- Settles O49: each command's body by its own lemma, the answer by `replies`, `runsOn` and `freed_is`. -/
theorem configurationTransactions : Obligations.ConfigurationTransactions := by
  unfold Obligations.ConfigurationTransactions
  refine ⟨fun c d m s htakes hmask hfree => ?_, fun c k d m f s htakes hmask hf hstopped hother => ?_, fun c d s htakes hone hzero hgood => ?_,
    fun c d x s htakes hone hzero hbad => ?_, fun c d s htakes hone hzero hgood hforce hwf => ?_, fun c d m s htakes hmask hown hvalid hnew hflash => ?_,
    fun c d m s htakes hmask hown hvalid hsame => ?_, fun c d m s htakes hmask hown => ?_⟩
  · obtain ⟨h, hstarted, -⟩ := started_state s c d 0x0100
    obtain ⟨u, hu, hanswer, hsame, -⟩ := replies s _ c 0x0100 d 0 [] (cmdFuncStop c d) htakes
      (by rw [hstarted]; exact cmdFuncStop_stops { s with host := h } c d m hmask hfree) (by decide) (by decide) (by rw [hstarted]; rfl)
    refine ⟨u, hu, hanswer, fun f hf => ?_, fun f hf => ?_, ?_⟩ <;> rw [hsame]
    · exact (vget_ofFn _ f).trans (if_pos hf)
    · exact (vget_ofFn _ f).trans (if_neg (by rw [hf]; decide))
    · rfl
  · obtain ⟨u, hu, hanswer, hsame⟩ := takeCmd_fails_answers (s := s) (c := c) (op := 0x0100) (d := d) (code := rcDenied) (body := cmdFuncStop c d) htakes
      (on_started c d s (P := fun r w => r = w.fail rcDenied) _ _ fun h => cmdFuncStop_denied { s with host := h } c d k m f hmask hf hstopped hother)
    exact ⟨u, hu, hanswer, (congrArg State.cfg hsame :)⟩
  · obtain ⟨h, hstarted, -⟩ := started_state s c d 0x0101
    obtain ⟨u, hu, hanswer, hsame, -⟩ := replies s _ c 0x0101 d 0 [] (cmdCfgWrite c d) htakes
      (by rw [hstarted]; exact cmdCfgWrite_stages { s with host := h } c d hone hzero hgood) (by decide) (by decide) (by rw [hstarted]; rfl)
    exact ⟨u, hu, hanswer, (congrArg State.cfg hsame :)⟩
  · obtain ⟨h, hstarted, -⟩ := started_state s c d 0x0101
    obtain ⟨u, hu, hanswer, hsame, -⟩ := replies s _ c 0x0101 d 4 _ (cmdCfgWrite c d) htakes
      (by rw [hstarted]; exact cmdCfgWrite_refuses { s with host := h } c d x hone hzero hbad) (by decide) (Nat.le_of_ble_eq_true rfl) (by rw [hstarted])
    exact ⟨u, hu, hanswer, (congrArg State.cfg hsame :)⟩
  · obtain ⟨h, hstarted, -⟩ := started_state s c d 0x0102
    obtain ⟨u, hu, hanswer, hread, hsame⟩ := answers_block s c d 0x0102 _ 8 (cmdCfgRead d) htakes hwf
      (by rw [hstarted]; exact cmdCfgRead_answers { s with host := h } d hone hzero hgood hforce) (by rw [List.length_append, slice_length]; rfl) (by decide)
    refine ⟨u, hu, hanswer, hsame, ?_⟩
    have hvalue := memRead_sub u _ 8 4 4 _ hread (by decide)
    rw [List.drop_left' (slice_length ..)] at hvalue
    exact hvalue
  · obtain ⟨h, hstarted, -⟩ := started_state s c d 0x0103
    obtain ⟨u, hu, hruns, hsame⟩ := runsOn s _ c 0x0103 d false (cmdFuncStart c d) htakes
      (by rw [hstarted]; exact cmdFuncStart_writes { s with host := h } c d m hmask hown hvalid hnew hflash) (by rw [hstarted]; rfl)
    refine ⟨u, hu, hruns, ?_, ?_⟩ <;> rw [hsame]
    · rfl
    · exact addJob_mem { s with host := h } (.catalogue c (s.catRecord s.fwVersion m))
  · obtain ⟨u, hu, hanswer, hforce, hfree, -⟩ := freed_is s c d 0x0103 m (cmdFuncStart c d) htakes
      (on_started c d s (P := fun r w => r = .reply 0 [] (w.restartFuncs m)) _ _ fun h => cmdFuncStart_frees { s with host := h } c d m hmask hown hvalid hsame)
    exact ⟨u, hu, hanswer, hforce, hfree⟩
  · exact freed_is s c d 0x0104 m (cmdFuncAbort c d) htakes
      (on_started c d s (P := fun r w => r = .reply 0 [] (w.restartFuncs m)) _ _ fun h => cmdFuncAbort_frees { s with host := h } c d m hmask hown)

end Sys2Proof.Machine
end
